-- ==== Sys2Proof/Word.lean ====
section
/-!
DEFINITION. The word types of the GK-7224 model (spec/00_scope.md R5–R7).
-/

namespace Sys2Proof

/-- One byte. -/
abbrev Byte := BitVec 8
/-- A 16-bit word. -/
abbrev W16 := BitVec 16
/-- A 32-bit word: the width of every CSR (R356). -/
abbrev W32 := BitVec 32
/-- A 64-bit word: scalar registers and tile system registers (R29, R46). -/
abbrev W64 := BitVec 64
/-- A vector register, 2,048 bits (R29). -/
abbrev Vec := BitVec 2048

/-- A sparse map from a number to a value, kept as a list of pairs with rising keys. -/
abbrev Tab (α : Type) := List (Nat × α)

end Sys2Proof
end

