-- ==== Sys2Proof/Syntax.lean ====
section
/-!
DEFINITION. The commands: one constructor per row of spec/opcode_table.json, in the table's order, with the types of
their operands. Parts are numbered as in Table 0-4 (R11).
-/

namespace Sys2Proof

/-- The paths by which a register is reached (R356). -/
inductive Path where
  | aelconA | aelconB | bursen | bursenSecure | service
  deriving DecidableEq, Repr

/-- A syllable command: the tile, the slot and the guard field of its syllable, and the other syllables of its bundle as
raw words by slot (R32, R64). A slot not named holds NOP. `stopAt`: the element boundary at which an interrupt or a stop
request is taken in the bundle's long vector instruction (R54); none where it runs to its end. -/
structure Issue where
  tile : Fin 1024
  slot : Fin 8
  guard : BitVec 4
  rest : List (Fin 8 × W64)
  stopAt : Option Nat
  deriving DecidableEq, Repr

/-- `clz`, `ctz`, `popc` (Table 3-5). -/
inductive BitCount where | clz | ctz | popc
  deriving DecidableEq, Repr
/-- Relations of the scalar compares (Table 3-5). -/
inductive Rel where | eq | ne | lt | ltu | le | leu
  deriving DecidableEq, Repr
/-- Predicate logic (Table 3-5). -/
inductive PredOp where | pand | por | pxor | pandn
  deriving DecidableEq, Repr
/-- Scalar loads by size and extension: `b`, `bu`, `h`, `hu`, `w`, `wu`, `d` (Table 3-6). -/
inductive LoadKind where | b | bu | h | hu | w | wu | d
  deriving DecidableEq, Repr
/-- Scalar stores by size (Table 3-6). -/
inductive StoreKind where | b | h | w | d
  deriving DecidableEq, Repr
/-- `amo.add` … `amo.swap` (Table 3-6). -/
inductive AmoOp where | add | and | or | xor | swap
  deriving DecidableEq, Repr
/-- `vadd`, `vsub`, `vmul`. -/
inductive VArith where | add | sub | mul
  deriving DecidableEq, Repr
/-- `vand`, `vor`, `vxor`. -/
inductive VLogic where | and | or | xor
  deriving DecidableEq, Repr
/-- `vshl`, `vshr`, `vsra`. -/
inductive VShift where | shl | shr | sra
  deriving DecidableEq, Repr
/-- `vcmp.eq`, `.lt`, `.le`. -/
inductive VRel where | eq | lt | le
  deriving DecidableEq, Repr
/-- `vred.add`, `.max`, `.min`. -/
inductive RedOp where | add | max | min
  deriving DecidableEq, Repr

/-- What a target outside the module's own stores answers to an access: read data (empty for a write), a refusal at a
peer (RSTATUS 1), a data error (RSTATUS 2), an expired cadence tag (RSTATUS 3), or the loss of the peer or of the Bursen
link. Ignored where the target is in the module. -/
inductive Answer where
  | data (bytes : List Byte)
  | refused | dataError | expired | lost
  deriving DecidableEq, Repr

/-- What TRAP_ENTRY finds at the fetch of the next bundle: nothing fetched, the eight syllables, or an uncorrectable
error in the bundle bytes (R410). -/
inductive Fetch where
  | none
  | bundle (syllables : List W64)
  | uncorrectable
  deriving DecidableEq, Repr

/-- A received codeword: whether FEC corrected it, the link control word and bytes 0–639 (R193). -/
structure RxFrame where
  fecOk : Bool
  lcw : BitVec 20
  bytes : List Byte
  deriving DecidableEq, Repr

/-- What a boot's built-in tests found in Loam: failed pages by an address of each, and rows that a spare mends (R289, R290). -/
structure LoamTests where
  pages : List Nat
  rows : List Nat
  deriving DecidableEq, Repr

/-- What ends with HBM training: the built-in tests before it, with their failed tiles, and the stacks that failed, each with its reason (false:
failed training, true: repair exceeded) (R289, R290). -/
structure BootTests where
  tiles : List Nat
  loam : LoamTests
  failedStacks : List (Nat × Bool)
  deriving DecidableEq, Repr

/-- The outcome of a port's training: the far end's domain, member and port, or a failure (R196). -/
inductive Training where
  | up (domain : W32) (peer : BitVec 6) (peerPort : BitVec 5)
  | failed
  deriving DecidableEq, Repr

/-- A Gauze packet, header of Table 8-6 and payload. -/
structure Packet where
  cls : BitVec 2
  hop : BitVec 2
  dst : BitVec 6
  src : BitVec 6
  flow : BitVec 4
  len : Nat
  epoch : BitVec 16
  addr : W64
  tagged : Bool
  cadence : BitVec 6
  period : BitVec 9
  txn : W32
  ctr : BitVec 10
  inc : BitVec 16
  rstatus : BitVec 8
  aop : BitVec 4
  seq : BitVec 16
  typ : BitVec 8
  payload : List Byte
  deriving DecidableEq, Repr

/-- Which slice of which collective a COLL_DATA packet carries: bolt and queue, phase (0 reduce-scatter, 1 all-gather),
chunk and first element within it (R213). -/
structure CollSlice where
  bolt : Fin 4
  queue : Fin 16
  gather : Bool
  chunk : Nat
  deriving DecidableEq, Repr

/-- A MEMBER packet: sender, epoch and, from the coordinator, the membership mask; whether it is a heartbeat, an epoch, a
leave notice, a loss report, or the announcement that the sender is entering FAULTED or a module reset (R203–R206). -/
inductive MemberMsg where
  | heartbeat (src : Fin 64)
  | epoch (src : Fin 64) (epoch : W32) (members : W64)
  | admission (src : Fin 64)
  | leave (src : Fin 64)
  | loss (src : Fin 64) (lost : Fin 64)
  | departing (src : Fin 64)
  deriving DecidableEq, Repr

/-- The four timestamps of a TIME_SYNC exchange, in units of 100 ps (R218), and the parent's full GT, used once at a
join. -/
structure TimeStamps where
  t1 : Int
  t2 : Int
  t3 : Int
  t4 : Int
  parentGt : W64
  deriving DecidableEq, Repr

/-- Who reads a line of the other's memory (R219): the module, or the host with the attribute of its transaction (R222). -/
inductive Reader where
  | module
  | host (secure : Bool)
  deriving DecidableEq, Repr

/-- An exchange: the secure attribute and the 128-byte line as words: bits [63:8] of the first word, HOST_TAG, and the
fourteen parameter words from offset 0x10 (Table 9-3); words not given are zero. The OPCODE is the row's, but where `opcode` puts a reserved
one in its place (R27, R229), for which the table has no row. `refused` says that the host refuses the first access to its memory that the
command has the module make (R222): to the image, the report, the data to restore, or, of SETUP_COMPLETION, each record. -/
structure Exchange where
  secure : Bool
  flags : BitVec 56
  tag : W64
  par : List W64
  opcode : Option (BitVec 8) := none
  refused : Bool := false
  deriving DecidableEq, Repr

/-- What the converter latches at a sweep tick: stack voltage (mV), stack current filtered at each of the four corners
(mA, charging positive) and the charge accumulator (µC) (R328). -/
structure StackSample where
  millivolts : Nat
  milliamps : List Int
  charge : Int
  deriving DecidableEq, Repr

/-- The blocks with indirect windows (R362). -/
inductive Window where | rail | cmw | exp | gz
  deriving DecidableEq, Repr

/-- A report to an error collector: source kind and number, TYPE, the context concerned, the DATA bytes (R369, R370). -/
structure Report where
  kind : BitVec 4
  source : W32
  typ : BitVec 16
  context : Option (Fin 16)
  data : List W32
  deriving DecidableEq, Repr

/-- What a patrol scrub reads: a clean word, a correctable error, an uncorrectable one; a correctable one with a store
reaching the word between the scrub's read and write (R142). -/
inductive ScrubFinding where | clean | correctable | raced | uncorrectable
  deriving DecidableEq, Repr

/-- The commands. -/
inductive Instr where
  /-- BR (R70). -/
  | br (i : Issue) (f : BitVec 48)
  /-- CALL (R70). -/
  | call (i : Issue) (f : BitVec 48)
  /-- JR (R70). -/
  | jr (i : Issue) (f : BitVec 48)
  /-- CALLR (R70). -/
  | callr (i : Issue) (f : BitVec 48)
  /-- SYS (R70). -/
  | sys (i : Issue) (f : BitVec 48)
  /-- BRK (R70). -/
  | brk (i : Issue) (f : BitVec 48)
  /-- TRET (R51). -/
  | tret (i : Issue) (f : BitVec 48)
  /-- WFI (R71). -/
  | wfi (i : Issue) (f : BitVec 48)
  /-- HALT (R60). -/
  | halt (i : Issue) (f : BitVec 48)
  /-- FENCE_I (R72). -/
  | fenceI (i : Issue) (f : BitVec 48)
  /-- ADD (R73). -/
  | add (i : Issue) (imm : Bool) (f : BitVec 48)
  /-- SUB (R73). -/
  | sub (i : Issue) (f : BitVec 48)
  /-- MUL (R73). -/
  | mul (i : Issue) (imm : Bool) (f : BitVec 48)
  /-- MULH (R73). -/
  | mulh (i : Issue) (unsigned : Bool) (f : BitVec 48)
  /-- DIV (R74). -/
  | div (i : Issue) (unsigned : Bool) (f : BitVec 48)
  /-- REM (R74). -/
  | rem (i : Issue) (unsigned : Bool) (f : BitVec 48)
  /-- AND (R73). -/
  | and (i : Issue) (imm : Bool) (f : BitVec 48)
  /-- OR (R73). -/
  | or (i : Issue) (imm : Bool) (f : BitVec 48)
  /-- XOR (R73). -/
  | xor (i : Issue) (imm : Bool) (f : BitVec 48)
  /-- ANDN (R73). -/
  | andn (i : Issue) (f : BitVec 48)
  /-- SHL (R73). -/
  | shl (i : Issue) (imm : Bool) (f : BitVec 48)
  /-- SHR (R73). -/
  | shr (i : Issue) (imm : Bool) (f : BitVec 48)
  /-- SRA (R73). -/
  | sra (i : Issue) (imm : Bool) (f : BitVec 48)
  /-- MIN_MAX (R73). -/
  | minMax (i : Issue) (max : Bool) (f : BitVec 48)
  /-- MINU_MAXU (R73). -/
  | minuMaxu (i : Issue) (max : Bool) (f : BitVec 48)
  /-- CLZ_CTZ_POPC (R73). -/
  | clzCtzPopc (i : Issue) (which : BitCount) (f : BitVec 48)
  /-- LI (R73). -/
  | li (i : Issue) (f : BitVec 48)
  /-- LIH (R73). -/
  | lih (i : Issue) (f : BitVec 48)
  /-- CMP (R73). -/
  | cmp (i : Issue) (rel : Rel) (imm : Bool) (f : BitVec 48)
  /-- PAND_POR_PXOR_PANDN (R73). -/
  | predLogic (i : Issue) (op : PredOp) (f : BitVec 48)
  /-- PFROMS (R73). -/
  | pfroms (i : Issue) (f : BitVec 48)
  /-- PTOS (R73). -/
  | ptos (i : Issue) (f : BitVec 48)
  /-- PFIRST (R73). -/
  | pfirst (i : Issue) (f : BitVec 48)
  /-- CSRR (R75). -/
  | csrr (i : Issue) (f : BitVec 48)
  /-- CSRW (R75). -/
  | csrw (i : Issue) (f : BitVec 48)
  /-- LD_S (R38). -/
  | ldS (i : Issue) (k : LoadKind) (f : BitVec 48)
  /-- LD_SV (R38). -/
  | ldSv (i : Issue) (f : BitVec 48)
  /-- ST_S (R34). -/
  | stS (i : Issue) (k : StoreKind) (f : BitVec 48)
  /-- ST_SV (R34). -/
  | stSv (i : Issue) (f : BitVec 48)
  /-- LD_F (R40). -/
  | ldF (i : Issue) (k : LoadKind) (f : BitVec 48)
  /-- LD_FV (R40). -/
  | ldFv (i : Issue) (f : BitVec 48)
  /-- ST_F (R41). -/
  | stF (i : Issue) (k : StoreKind) (f : BitVec 48)
  /-- ST_FV (R41). -/
  | stFv (i : Issue) (f : BitVec 48)
  /-- AMO (R77). -/
  | amo (i : Issue) (op : AmoOp) (f : BitVec 48)
  /-- AMO_CAS (R77). -/
  | amoCas (i : Issue) (f : BitVec 48)
  /-- FENCE_L (R136). -/
  | fenceL (i : Issue) (f : BitVec 48)
  /-- FENCE_G (R137). -/
  | fenceG (i : Issue) (f : BitVec 48)
  /-- FAR_LOAD_RESPONSE (R41). -/
  | farLoadResponse (t : Fin 1024) (n : Nat) (x : Answer)
  /-- FAR_STORE_ACK (R41). -/
  | farStoreAck (t : Fin 1024) (n : Nat) (x : Answer)
  /-- VADD_VSUB_VMUL (R82). -/
  | vaddVsubVmul (i : Issue) (op : VArith) (f : BitVec 48)
  /-- VFMA (R80). -/
  | vfma (i : Issue) (f : BitVec 48)
  /-- VMIN_VMAX (R80). -/
  | vminVmax (i : Issue) (max : Bool) (f : BitVec 48)
  /-- VABS_VNEG (R82). -/
  | vabsVneg (i : Issue) (neg : Bool) (f : BitVec 48)
  /-- VRCP_VRSQRT (R82). -/
  | vrcpVrsqrt (i : Issue) (rsqrt : Bool) (f : BitVec 48)
  /-- VAND_VOR_VXOR (R82). -/
  | vandVorVxor (i : Issue) (op : VLogic) (f : BitVec 48)
  /-- VSHL_VSHR_VSRA (R82). -/
  | vshlVshrVsra (i : Issue) (op : VShift) (f : BitVec 48)
  /-- VCMP (R82). -/
  | vcmp (i : Issue) (rel : VRel) (f : BitVec 48)
  /-- VSEL (R82). -/
  | vsel (i : Issue) (f : BitVec 48)
  /-- VBCAST (R82). -/
  | vbcast (i : Issue) (f : BitVec 48)
  /-- VEXT (R82). -/
  | vext (i : Issue) (f : BitVec 48)
  /-- VINS (R82). -/
  | vins (i : Issue) (f : BitVec 48)
  /-- VPERM (R82). -/
  | vperm (i : Issue) (f : BitVec 48)
  /-- VIDX (R82). -/
  | vidx (i : Issue) (f : BitVec 48)
  /-- VCVT (R83). -/
  | vcvt (i : Issue) (f : BitVec 48)
  /-- VPACK (R82). -/
  | vpack (i : Issue) (f : BitVec 48)
  /-- VUNPACK (R82). -/
  | vunpack (i : Issue) (f : BitVec 48)
  /-- VRED (R84). -/
  | vred (i : Issue) (op : RedOp) (f : BitVec 48)
  /-- SETVL (R31). -/
  | setvl (i : Issue) (f : BitVec 48)
  /-- VGTH (R85). -/
  | vgth (i : Issue) (f : BitVec 48)
  /-- VSCT (R85). -/
  | vsct (i : Issue) (f : BitVec 48)
  /-- VREDN (R84). -/
  | vredn (i : Issue) (f : BitVec 48)
  /-- VSORT (R85). -/
  | vsort (i : Issue) (f : BitVec 48)
  /-- VSORTI (R85). -/
  | vsorti (i : Issue) (f : BitVec 48)
  /-- MMAC (R87). -/
  | mmac (i : Issue) (f : BitVec 48)
  /-- MOUT (R109). -/
  | mout (i : Issue) (f : BitVec 48)
  /-- MZERO (R88). -/
  | mzero (i : Issue) (f : BitVec 48)
  /-- MRD (R88). -/
  | mrd (i : Issue) (f : BitVec 48)
  /-- MWR (R88). -/
  | mwr (i : Issue) (f : BitVec 48)
  /-- MST (R88). -/
  | mst (i : Issue) (f : BitVec 48)
  /-- MLD (R88). -/
  | mld (i : Issue) (f : BitVec 48)
  /-- MWAIT (R88). -/
  | mwait (i : Issue) (f : BitVec 48)
  /-- MRESUME (R55). -/
  | mresume (i : Issue) (f : BitVec 48)
  /-- MABORT (R55). -/
  | mabort (i : Issue) (f : BitVec 48)
  /-- MATRIX_UNIT_COMPLETE (R114). -/
  | matrixUnitComplete (t : Fin 1024) (e : Fin 4)
  /-- STREAM_BLOCK_ARRIVAL (R116). -/
  | streamBlockArrival (t : Fin 1024) (e : Fin 4) (x : Answer)
  /-- MVQ (R93). -/
  | mvq (i : Issue) (f : BitVec 48)
  /-- BAR_ARV (R90). -/
  | barArv (i : Issue) (f : BitVec 48)
  /-- BAR_WT (R94). -/
  | barWt (i : Issue) (f : BitVec 48)
  /-- BAR_ARM (R94). -/
  | barArm (i : Issue) (f : BitVec 48)
  /-- BAR_RD (R90). -/
  | barRd (i : Issue) (f : BitVec 48)
  /-- CAD_DONE (R95). -/
  | cadDone (i : Issue) (f : BitVec 48)
  /-- RELEASE_PERFORMED (R92). -/
  | releasePerformed (t : Fin 1024) (n : Nat)
  /-- TIMER_MATCH (R46). -/
  | timerMatch (t : Fin 1024)
  /-- TRAP_ENTRY (R50). -/
  | trapEntry (t : Fin 1024) (fetch : Fetch)
  /-- TILE_STOP (R57). -/
  | tileStop (t : Fin 1024) (p : Path)
  /-- SAVE_SEQUENCE (R58). -/
  | saveSequence (t : Fin 1024)
  /-- SAVE_COMPLETE (R57). -/
  | saveComplete (t : Fin 1024)
  /-- TILE_START (R63). -/
  | tileStart (t : Fin 1024) (p : Path)
  /-- TILE_RESET (R61). -/
  | tileReset (t : Fin 1024) (p : Path)
  /-- TILE_RESET_DONE (R61). -/
  | tileResetDone (t : Fin 1024)
  /-- TILE_RESTORE (R59). -/
  | tileRestore (t : Fin 1024) (p : Path)
  /-- RESTORE_COMPLETE (R59). -/
  | restoreComplete (t : Fin 1024)
  /-- TILE_SOFT (R162). -/
  | tileSoft (t : Fin 1024) (p : Path)
  /-- TILE_RETIRE (R60). -/
  | tileRetire (t : Fin 1024) (p : Path)
  /-- WALK_COMPLETE (R151). -/
  | walkComplete (b : Fin 4) (n : Nat)
  /-- FAULT_RECORD_POST (R159). -/
  | faultRecordPost (b : Fin 4) (n : Nat)
  /-- MMU_FQ_GET_WRITE (R159). -/
  | mmuFqGetWrite (b : Fin 4) (v : W32) (p : Path)
  /-- FAULT_QUEUE_SCAN (R162). -/
  | faultQueueScan
  /-- CONTEXT_REFUSAL_STOP (R163). -/
  | contextRefusalStop (c : Fin 16)
  /-- DEMAND_FILL_COMPLETE (R165). -/
  | demandFillComplete (n : Nat)
  /-- MMU_INVALIDATE (R155). -/
  | mmuInvalidate (v : W32) (p : Path)
  /-- INVALIDATION_COMPLETE (R155). -/
  | invalidationComplete
  /-- COPY (R170). -/
  | copy (b : Fin 4) (m : Fin 32)
  /-- FILL (R172). -/
  | fill (b : Fin 4) (m : Fin 32)
  /-- GATHER (R171). -/
  | gather (b : Fin 4) (m : Fin 32)
  /-- SCATTER (R171). -/
  | scatter (b : Fin 4) (m : Fin 32)
  /-- EXPAND (R183). -/
  | expand (b : Fin 4) (m : Fin 32)
  /-- TABLE_LOAD (R186). -/
  | tableLoad (b : Fin 4) (m : Fin 32)
  /-- DESCRIPTOR_COMPLETE (R175). -/
  | descriptorComplete (b : Fin 4) (m : Fin 32)
  /-- MOVER_SAFE_POINT (R178). -/
  | moverSafePoint (b : Fin 4) (m : Fin 32)
  /-- MOVER_EN_CLEAR (R178). -/
  | moverEnClear (b : Fin 4) (m : Fin 32) (drain : Bool) (p : Path)
  /-- MOVER_EN_SET (R415). -/
  | moverEnSet (b : Fin 4) (m : Fin 32) (p : Path)
  /-- MOVER_SUSPEND (R181). -/
  | moverSuspend (b : Fin 4) (m : Fin 32) (p : Path)
  /-- MOVER_UNSUSPEND (R181). -/
  | moverUnsuspend (b : Fin 4) (m : Fin 32) (p : Path)
  /-- MOVER_RESTART (R413). -/
  | moverRestart (b : Fin 4) (m : Fin 32) (p : Path)
  /-- MOVER_ABANDON (R413). -/
  | moverAbandon (b : Fin 4) (m : Fin 32) (p : Path)
  /-- MOV_CUR_LO_READ (R175). -/
  | movCurLoRead (b : Fin 4) (m : Fin 32)
  /-- EXPANDER_BLOCK_DONE (R188). -/
  | expanderBlockDone (x : Fin 24) (m : Fin 32)
  /-- EXPANDER_EN_CLEAR (R178). -/
  | expanderEnClear (x : Fin 24) (drain : Bool) (p : Path)
  /-- EXPANDER_EN_SET (R415). -/
  | expanderEnSet (x : Fin 24) (p : Path)
  /-- FRAME_RECEIVE (R195). -/
  | frameReceive (port : Fin 33) (r : RxFrame)
  /-- LINK_FAILURE (R196). -/
  | linkFailure (port : Fin 33)
  /-- PORT_TRAINING_COMPLETE (R196). -/
  | portTrainingComplete (port : Fin 33) (r : Training)
  /-- PORT_EN_CLEAR (R201). -/
  | portEnClear (port : Fin 32) (drain : Bool) (p : Path)
  /-- PORT_EN_SET (R196). -/
  | portEnSet (port : Fin 32) (timing : Bool) (p : Path)
  /-- RETRAIN (R196). -/
  | retrain (port : Fin 32) (p : Path)
  /-- WIN_LOAD (R208). -/
  | winLoad (k : Packet)
  /-- WIN_STORE (R208). -/
  | winStore (k : Packet)
  /-- WIN_ATOMIC (R208). -/
  | winAtomic (k : Packet)
  /-- PUT (R200). -/
  | put (k : Packet)
  /-- GET (R200). -/
  | get (k : Packet)
  /-- ATOMIC (R200). -/
  | atomic (k : Packet)
  /-- NOTIFY (R197). -/
  | notify (k : Packet)
  /-- RESPONSE (R197). -/
  | response (k : Packet)
  /-- COLL_DATA (R213). -/
  | collData (k : Packet) (x : CollSlice)
  /-- MEMBER (R203). -/
  | member (k : MemberMsg)
  /-- TIME_SYNC (R218). -/
  | timeSync (k : TimeStamps)
  /-- PACE (R312). -/
  | pace (src : Fin 64) (lo : W64) (hi : W64)
  /-- HEARTBEAT_TIMER (R206). -/
  | heartbeatTimer
  /-- PEER_LOST_TIMEOUT (R206). -/
  | peerLostTimeout (m : Fin 64)
  /-- DOMAIN_JOIN_TIMEOUT (R204). -/
  | domainJoinTimeout
  /-- TIMING_PORT_LOST (R217). -/
  | timingPortLost
  /-- OUT_OF_SYNC (R217). -/
  | outOfSync
  /-- GT_CORRECTION (R218). -/
  | gtCorrection (add : Bool)
  /-- FABRIC_DESCRIPTOR_START (R209). -/
  | fabricDescriptorStart (b : Fin 4) (q : Fin 16)
  /-- FABRIC_PUT (R211). -/
  | fabricPut (b : Fin 4) (q : Fin 16) (n : Nat)
  /-- FABRIC_GET (R211). -/
  | fabricGet (b : Fin 4) (q : Fin 16) (n : Nat)
  /-- FABRIC_ATOMIC (R211). -/
  | fabricAtomic (b : Fin 4) (q : Fin 16) (n : Nat)
  /-- FABRIC_NOTIFY (R211). -/
  | fabricNotify (b : Fin 4) (q : Fin 16) (n : Nat)
  /-- BARRIER (R211). -/
  | barrier (b : Fin 4) (q : Fin 16) (n : Nat)
  /-- ALL_REDUCE (R213). -/
  | allReduce (b : Fin 4) (q : Fin 16) (n : Nat)
  /-- REDUCE_SCATTER (R213). -/
  | reduceScatter (b : Fin 4) (q : Fin 16) (n : Nat)
  /-- ALL_GATHER (R213). -/
  | allGather (b : Fin 4) (q : Fin 16) (n : Nat)
  /-- FABRIC_DESCRIPTOR_COMPLETE (R211). -/
  | fabricDescriptorComplete (b : Fin 4) (q : Fin 16)
  /-- FQUEUE_EN_CLEAR (R178). -/
  | fqueueEnClear (b : Fin 4) (q : Fin 16) (drain : Bool) (p : Path)
  /-- FQUEUE_EN_SET (R415). -/
  | fqueueEnSet (b : Fin 4) (q : Fin 16) (p : Path)
  /-- READ_SHARED (R221). -/
  | readShared (fromHost : Reader) (line : Nat)
  /-- READ_OWN (R221). -/
  | readOwn (fromHost : Reader) (line : Nat)
  /-- WRITE (R219). -/
  | write (addr : Nat) (data : List Byte) (secure : Bool)
  /-- INVALIDATE (R220). -/
  | invalidate (byHost : Bool) (line : Nat)
  /-- SNOOP_TIMEOUT (R220). -/
  | snoopTimeout (line : Nat)
  /-- BURSEN_LINK_DOWN (R224). -/
  | bursenLinkDown
  /-- BURSEN_LINK_UP (R224). -/
  | bursenLinkUp
  /-- APERTURE_TIMEOUT (R226). -/
  | apertureTimeout (x : Exchange)
  /-- SETUP_COMPLETION (R235). -/
  | setupCompletion (x : Exchange)
  /-- LOAD_IMAGE (R249). -/
  | loadImage (x : Exchange)
  /-- FIT_CHECK (R251). -/
  | fitCheck (x : Exchange)
  /-- START (R255). -/
  | start (x : Exchange)
  /-- STOP (R243). -/
  | stop (x : Exchange)
  /-- CANCEL (R233). -/
  | cancel (x : Exchange)
  /-- QUERY (R240). -/
  | query (x : Exchange)
  /-- RETIRE (R237). -/
  | retire (x : Exchange)
  /-- MEM_COPY (R232). -/
  | memCopy (x : Exchange)
  /-- MEM_FILL (R232). -/
  | memFill (x : Exchange)
  /-- SAVE_CONTEXT (R257). -/
  | saveContext (x : Exchange)
  /-- RESTORE_CONTEXT (R258). -/
  | restoreContext (x : Exchange)
  /-- CADENCE_ARM (R264). -/
  | cadenceArm (x : Exchange)
  /-- CADENCE_DISARM (R274). -/
  | cadenceDisarm (x : Exchange)
  /-- POWER_ENVELOPE (R306). -/
  | powerEnvelope (x : Exchange)
  /-- DOMAIN_JOIN (R204). -/
  | domainJoin (x : Exchange)
  /-- DOMAIN_LEAVE (R205). -/
  | domainLeave (x : Exchange)
  /-- RESERVOIR_LEARN (R339). -/
  | reservoirLearn (x : Exchange)
  /-- RESERVOIR_RESTORE (R343). -/
  | reservoirRestore (x : Exchange)
  /-- ATTEST (R384). -/
  | attest (x : Exchange)
  /-- DRAIN (R25). -/
  | drain (x : Exchange)
  /-- RESET_MODULE (R28). -/
  | resetModule (x : Exchange)
  /-- SERVICE_PORT_MODULE_RESET (R283). -/
  | servicePortModuleReset
  /-- DRAIN_COMPLETE (R25). -/
  | drainComplete
  /-- PERIOD_START (R265). -/
  | periodStart (k : Fin 64)
  /-- DEADLINE (R268). -/
  | deadline (k : Fin 64)
  /-- EXPIRY_CLEANUP_COMPLETE (R269). -/
  | expiryCleanupComplete (k : Fin 64)
  /-- CADENCE_EN_CLEAR (R274). -/
  | cadenceEnClear (k : Fin 64) (drain : Bool) (p : Path)
  /-- POWER_APPLIED (R25). -/
  | powerApplied
  /-- POWER_LOSS (R25). -/
  | powerLoss
  /-- FIRST_BREAK_OPEN (R388). -/
  | firstBreakOpen
  /-- FIRST_BREAK_CLOSE (R25). -/
  | firstBreakClose
  /-- WITHDRAWN (R404). -/
  | withdrawn
  /-- CONVERTER_SHUTOFF_TIMER (R390). -/
  | converterShutoffTimer
  /-- FW_VERIFY (R287). -/
  | fwVerify (length : BitVec 22) (p : Path)
  /-- FW_VERIFY_DONE (R288). -/
  | fwVerifyDone (selfA : Bool) (selfB : Bool) (agree : Bool)
  /-- HBM_TRAINING_COMPLETE (R144). -/
  | hbmTrainingComplete (failed : BootTests)
  /-- BOOT_COMPLETE (R289). -/
  | bootComplete (failedTiles : List Nat) (failedPages : LoamTests)
  /-- BOOT_TIMEOUT (R290). -/
  | bootTimeout
  /-- PLL_LOCK_LOSS (R277). -/
  | pllLockLoss
  /-- TIME_GT_LO_READ (R282). -/
  | timeGtLoRead
  /-- SET_TARGET (R298). -/
  | setTarget (r : Fin 13) (frame : W32)
  /-- SHED (R295). -/
  | shed (r : Fin 13) (frame : W32)
  /-- UNSHED (R295). -/
  | unshed (r : Fin 13) (frame : W32)
  /-- TARGET_SETTLED (R298). -/
  | targetSettled (r : Fin 13)
  /-- LOAD_STEP (R295). -/
  | loadStep (r : Fin 13)
  /-- PHASE_OVERCURRENT (R294). -/
  | phaseOvercurrent (r : Fin 13)
  /-- ACK (R297). -/
  | ack (r : Fin 13) (frame : W32)
  /-- TRANSITION_DONE (R298). -/
  | transitionDone (r : Fin 13) (frame : W32)
  /-- SUPERSEDED (R298). -/
  | superseded (r : Fin 13) (frame : W32)
  /-- TELEMETRY (R301). -/
  | telemetry (r : Fin 13) (frame : W32)
  /-- SHED_CANCELLED (R295). -/
  | shedCancelled (r : Fin 13) (frame : W32)
  /-- NAK (R297). -/
  | nak (r : Fin 13) (frame : W32)
  /-- ALERT (R315). -/
  | alert (r : Fin 13) (frame : W32)
  /-- RAIL_RESEND_TIMEOUT (R297). -/
  | railResendTimeout (r : Fin 13)
  /-- RAIL_TGT_GO (R300). -/
  | railTgtGo (r : Fin 13) (v : W32) (p : Path)
  /-- RAIL_TGT_SHED (R295). -/
  | railTgtShed (r : Fin 13) (v : W32) (p : Path)
  /-- RAIL_TGT_UNSHED (R295). -/
  | railTgtUnshed (r : Fin 13) (v : W32) (p : Path)
  /-- RAIL_VI_READ (R301). -/
  | railViRead (r : Fin 13)
  /-- JUNCTION_SENSOR_READING (R317). -/
  | junctionSensorReading (b : Fin 4) (n : Fin 64) (tenths : Int)
  /-- MEASUREMENT_WINDOW (R301). -/
  | measurementWindow (vin : Nat) (pin : Nat) (conv : Int)
  /-- GOVERNOR_WINDOW (R302). -/
  | governorWindow
  /-- PACE_TICK (R306). -/
  | paceTick
  /-- CONTROL_STEP_TIMEOUT (R314). -/
  | controlStepTimeout
  /-- PACE_CUTOFF (R312). -/
  | paceCutoff
  /-- PACE_APPLY (R305). -/
  | paceApply
  /-- ENVELOPE_TIMEOUT (R307). -/
  | envelopeTimeout
  /-- BUS_UNDERVOLTAGE (R310). -/
  | busUndervoltage
  /-- BUS_OVERVOLTAGE (R389). -/
  | busOvervoltage
  /-- INPUT_OVERCURRENT (R389). -/
  | inputOvercurrent
  /-- BUS_RETURN (R310). -/
  | busReturn
  /-- BUS_STABLE_TIMER (R310). -/
  | busStableTimer
  /-- NODE_EXIT (R322). -/
  | nodeExit
  /-- HELD_RESERVE_BOUNDARY (R310). -/
  | heldReserveBoundary
  /-- STACK_LIMIT (R323). -/
  | stackLimit (millivolts : Nat)
  /-- FW_FORCE (R315). -/
  | fwForce (p : Path)
  /-- FLOOR_CLEAR (R316). -/
  | floorClear (p : Path)
  /-- ENERGY_ATTRIBUTION (R318). -/
  | energyAttribution
  /-- COEFFICIENT_REFIT (R318). -/
  | coefficientRefit
  /-- SWEEP_TICK (R328). -/
  | sweepTick (stack : StackSample)
  /-- RING_READ (R326). -/
  | ringRead (m : Fin 4) (frame : W64)
  /-- RING_WRITE (R326). -/
  | ringWrite (m : Fin 4) (frame : W64)
  /-- SAMPLE (R328). -/
  | sample (m : Fin 4) (frame : W64) (volts : List Nat) (temps : List Int)
  /-- PAUSE (R328). -/
  | pause (m : Fin 4) (frame : W64)
  /-- RESUME (R328). -/
  | resume (m : Fin 4) (frame : W64)
  /-- ENUM (R327). -/
  | enum (m : Fin 4) (frame : W64) (fromE1 : Bool)
  /-- READBLOCK (R326). -/
  | readblock (m : Fin 4) (frame : W64)
  /-- REPLY (R326). -/
  | reply (frame : W64)
  /-- RING_ACK (R326). -/
  | ringAck (frame : W64)
  /-- RING_NAK (R326). -/
  | ringNak (frame : W64)
  /-- RING_REQUEST_TIMEOUT (R326). -/
  | ringRequestTimeout
  /-- RING_BROKEN_DETECT (R331). -/
  | ringBrokenDetect (stack : StackSample)
  /-- ENUMERATION (R327). -/
  | enumeration
  /-- ESTIMATOR_UPDATE (R332). -/
  | estimatorUpdate
  /-- CELL_UNMEASURED_TIMEOUT (R323). -/
  | cellUnmeasuredTimeout (cell : Fin 24)
  /-- PACK_INTERLOCK_OPEN (R391). -/
  | packInterlockOpen
  /-- PACK_INTERLOCK_CLOSE (R391). -/
  | packInterlockClose
  /-- CLM_HB_WRITE (R351). -/
  | clmHbWrite (b : Bool) (v : W32) (p : Path)
  /-- CLM_CLAIM_HI_WRITE (R348). -/
  | clmClaimHiWrite (b : Bool) (v : W32) (p : Path)
  /-- CLM_CLAIM_LO_READ (R348). -/
  | clmClaimLoRead (b : Bool) (p : Path)
  /-- CLUSTER_LOST (R351). -/
  | clusterLost
  /-- STANDBY_LOST (R351). -/
  | standbyLost
  /-- CLAIM_WATCHDOG (R355). -/
  | claimWatchdog
  /-- CLUSTER_ERROR (R347). -/
  | clusterError (b : Bool)
  /-- IXA_READ_START (R363). -/
  | ixaReadStart (w : Window) (pair : Fin 3) (v : W32) (p : Path)
  /-- IXD_WRITE (R363). -/
  | ixdWrite (w : Window) (pair : Fin 3) (v : W32) (p : Path)
  /-- IXD_READ (R363). -/
  | ixdRead (w : Window) (pair : Fin 3) (p : Path)
  /-- IX_TARGET_ANSWER (R363). -/
  | ixTargetAnswer (w : Window) (pair : Fin 3) (x : W32)
  /-- IX_TIMEOUT (R364). -/
  | ixTimeout (w : Window) (pair : Fin 3)
  /-- ERROR_REPORT (R368). -/
  | errorReport (r : Report)
  /-- RATE_LIMIT_SECOND_END (R372). -/
  | rateLimitSecondEnd
  /-- ERR_LOG_GET_WRITE (R373). -/
  | errLogGetWrite (v : W32) (p : Path)
  /-- PATROL_SCRUB (R142). -/
  | patrolScrub (addr : Nat) (finding : ScrubFinding)
  /-- POLICY_LOCK (R382). -/
  | policyLock (p : Path)
  /-- REGISTER_WRITE (R356). -/
  | registerWrite (addr : Nat) (v : W32) (p : Path)
  /-- ALIGNMENT_CODEWORD (R193). -/
  | alignmentCodeword (port : Fin 33) (lane : Fin 8)
  /-- MOVER_ACCESS_RESPONSE (R177). -/
  | moverAccessResponse (b : Fin 4) (m : Fin 32) (x : Answer)
  /-- HBM_TEMPERATURE_REPORT (R317). -/
  | hbmTemperatureReport (h : Fin 24) (tenths : Int)
  /-- ROOT_PLL_LOCK (R279). -/
  | rootPllLock
  /-- TIME_SYNC_EXCHANGE (R218). -/
  | timeSyncExchange (port : Fin 32)
  /-- CONTROL_RAIL_LOSS (R20). -/
  | controlRailLoss (b : Bool)
  /-- MONITOR_LINK_SILENT (R324). -/
  | monitorLinkSilent (m : Fin 4)
  deriving DecidableEq, Repr

end Sys2Proof
end

