-- ==== Sys2Proof/Decode.lean ====
section
/-!
DEFINITION. The commands that a word of the opcode table spells. The table gives no row bits: a command of this block
reaches it on a port, in a frame, an exchange, a register access or as an event, each with its own operands, so no word
spells one.
-/

namespace Sys2Proof

/-- The command that a word spells by the bits of spec/opcode_table.json: none, as the table gives bits to no row. -/
def decodeTableWord (_nbits _w : Nat) : Option Instr := none

end Sys2Proof
end

