-- ==== Sys2Proof/Machine/Tab.lean ====
section
/-!
DEFINITION. Sparse maps in one canonical form: keys strictly rising, no entry equal to what an unlisted key reads as.
Memories, Silt, register files and every numbered set of parts are such maps, so equal contents are equal data.
-/

namespace Sys2Proof

/-- What key `k` reads as; `d` where it is not listed. -/
def Tab.look {α : Type} (d : α) : Tab α → Nat → α
  | [], _ => d
  | (j, v) :: r, k => if j = k then v else Tab.look d r k

/-- Write `v` at key `k`. Writing the unlisted value removes the entry. -/
def Tab.put {α : Type} [DecidableEq α] (d : α) : Tab α → Nat → α → Tab α
  | [], k, v => if v = d then [] else [(k, v)]
  | (j, u) :: r, k, v =>
    if k < j then (if v = d then (j, u) :: r else (k, v) :: (j, u) :: r)
    else if k = j then (if v = d then r else (k, v) :: r)
    else (j, u) :: Tab.put d r k v

/-- Every listed key is at least `lo`, keys rise strictly, and no entry holds the unlisted value. -/
def Tab.wfFrom {α : Type} [DecidableEq α] (d : α) : Nat → Tab α → Bool
  | _, [] => true
  | lo, (k, v) :: r => decide (lo ≤ k) && decide (v ≠ d) && Tab.wfFrom d (k + 1) r

/-- The canonical form. -/
def Tab.wf {α : Type} [DecidableEq α] (d : α) (m : Tab α) : Bool := Tab.wfFrom d 0 m

/-- Change every listed value. A value that becomes the unlisted one is removed. -/
def Tab.mapAll {α : Type} [DecidableEq α] (d : α) (f : Nat → α → α) : Tab α → Tab α
  | [] => []
  | (k, v) :: r => if f k v = d then Tab.mapAll d f r else (k, f k v) :: Tab.mapAll d f r

/-- The `n` values from key `k` on. -/
def Tab.readN {α : Type} (d : α) (m : Tab α) (k : Nat) : Nat → List α
  | 0 => []
  | n + 1 => Tab.look d m k :: Tab.readN d m (k + 1) n

/-- Write a list of values from key `k` on. -/
def Tab.writeN {α : Type} [DecidableEq α] (d : α) (m : Tab α) (k : Nat) : List α → Tab α
  | [] => m
  | v :: r => Tab.writeN d (Tab.put d m k v) (k + 1) r

end Sys2Proof
end

