-- ==== Sys2Proof/Machine/Bytes.lean ====
section
/-!
DEFINITION. Bit fields, byte order and the three CRCs. A field is read from a number with `fld`; every multi-byte value
is little-endian (R6).
-/

namespace Sys2Proof.Machine

/-- Bits [lo+n-1 : lo] of `w`. -/
def fld (w lo n : Nat) : Nat := w / 2 ^ lo % 2 ^ n

/-- Bit `k` of `w`. -/
def bitOf (w k : Nat) : Bool := w / 2 ^ k % 2 = 1

/-- `w` with bits [lo+n-1 : lo] replaced by the low bits of `v`. -/
def setFld (w lo n v : Nat) : Nat := w - fld w lo n * 2 ^ lo + v % 2 ^ n * 2 ^ lo

/-- One as a number where `b` holds. -/
def b2n (b : Bool) : Nat := if b then 1 else 0

/-- The low `n` bits of `v` as a two's-complement number (R5). -/
def sx (n v : Nat) : Int := if v % 2 ^ n < 2 ^ (n - 1) then (v % 2 ^ n : Nat) else (v % 2 ^ n : Nat) - (2 ^ n : Nat)

/-- An integer modulo 2ⁿ. -/
def wrapN (n : Nat) (v : Int) : Nat := (v % (2 ^ n : Nat)).toNat

/-- The low `n` bytes of a number, byte 0 first (R6). -/
def toLe : Nat → Nat → List Byte
  | 0, _ => []
  | n + 1, v => BitVec.ofNat 8 v :: toLe n (v / 256)

/-- The number that bytes spell, byte 0 least significant (R6). -/
def ofLe : List Byte → Nat
  | [] => 0
  | b :: r => b.toNat + 256 * ofLe r

/-- The 64-bit words of a byte string. -/
def wordsOf : Nat → List Byte → List W64
  | 0, _ => []
  | n + 1, l => BitVec.ofNat 64 (ofLe (l.take 8)) :: wordsOf n (l.drop 8)

/-- The `i`-th element of a list of words, zero beyond its end. -/
def wordAt (l : List W64) (i : Nat) : W64 := l.getD i 0

/-- A value rounded down to a multiple of `n`. -/
def alignDown (a n : Nat) : Nat := a / n * n

/-- The bits of bytes, each byte least significant bit first. -/
def bitsLsb (l : List Byte) : List Bool := l.flatMap fun b => (List.range 8).map fun k => bitOf b.toNat k

/-- The low `n` bits of a number, most significant first. -/
def bitsMsb : Nat → Nat → List Bool
  | 0, _ => []
  | n + 1, v => bitOf v n :: bitsMsb n v

/-- CRC-32 over a bit string in transmission order (R407): reflected, so bit 0 of the register is the next to leave. -/
def crc32Bits (l : List Bool) : W32 :=
  (l.foldl (fun (r : W32) b =>
    let out := (r.getLsbD 0) != b
    if out then (r >>> 1) ^^^ 0xEDB88320 else r >>> 1) 0xFFFFFFFF) ^^^ 0xFFFFFFFF

/-- CRC-32 over a byte string (R407). -/
def crc32 (l : List Byte) : W32 := crc32Bits (bitsLsb l)

/-- CRC-6 of a rail frame: polynomial x⁶ + x + 1, initial value zero, over bits [31:6] (R296). -/
def crc6 (frame : W32) : Nat :=
  (bitsMsb 26 (frame.toNat / 64)).foldl (fun r b =>
    let out := (bitOf r 5) != b
    let r := r * 2 % 64
    if out then r ^^^ 3 else r) 0

/-- CRC-8 of a ring frame: polynomial 0x2F, initial value 0xFF, over bits [63:8] (Table 14-3). -/
def crc8 (frame : W64) : Nat :=
  (bitsMsb 56 (frame.toNat / 256)).foldl (fun r b =>
    let out := (bitOf r 7) != b
    let r := r * 2 % 256
    if out then r ^^^ 0x2F else r) 0xFF

/-- Replace element `i` of a list; a list shorter than that stays as it is. -/
def setAt {α : Type} (l : List α) (i : Nat) (v : α) : List α := l.set i v

end Sys2Proof.Machine
end

