-- ==== Sys2Proof/Machine/Float.lean ====
section
/-!
DEFINITION. Number formats (R101–R103, Table 4-2), exact dyadic arithmetic and the roundings of R80, R83, R109, R111
and R112. A finite value is ±m · 2^e; every operation is computed exactly and rounded once.
-/

namespace Sys2Proof.Machine

/-- Which codes of a format are infinities and NaNs (Table 4-2). -/
inductive Special where | ieee | e4m3 | finite
  deriving DecidableEq, Repr

/-- A floating-point format: exponent bits, mantissa bits, bias (Table 4-2). -/
structure Fmt where
  e : Nat
  m : Nat
  bias : Nat
  sp : Special
  deriving DecidableEq, Repr

def fmtF32 : Fmt := ⟨8, 23, 127, .ieee⟩
def fmtF64 : Fmt := ⟨11, 52, 1023, .ieee⟩
def fmtBf16 : Fmt := ⟨8, 7, 127, .ieee⟩
def fmtF16 : Fmt := ⟨5, 10, 15, .ieee⟩
def fmtE4m3 : Fmt := ⟨4, 3, 7, .e4m3⟩
def fmtE5m2 : Fmt := ⟨5, 2, 15, .ieee⟩
def fmtE3m2 : Fmt := ⟨3, 2, 3, .finite⟩
def fmtE2m3 : Fmt := ⟨2, 3, 1, .finite⟩
def fmtE2m1 : Fmt := ⟨2, 1, 1, .finite⟩

/-- A value: NaN, a signed infinity, or (−1)^neg · m · 2^e with m = 0 for the zeros. -/
inductive FpNum where
  | nan
  | inf (neg : Bool)
  | fin (neg : Bool) (m : Nat) (e : Int)
  deriving DecidableEq, Repr

/-- TFFLAGS bits (Table 2-5). -/
def flInexact : Nat := 1
def flUnder : Nat := 2
def flOver : Nat := 4
def flDivZero : Nat := 8
def flInvalid : Nat := 16

/-- The sign bit of a format. -/
def signBit (f : Fmt) : Nat := 2 ^ (f.e + f.m)
/-- The code of +∞ (R101). -/
def infCode (f : Fmt) : Nat := (2 ^ f.e - 1) * 2 ^ f.m
/-- The code of the largest finite magnitude (Table 4-2). -/
def maxCode (f : Fmt) : Nat :=
  match f.sp with
  | .ieee => infCode f - 1
  | .e4m3 => signBit f - 2
  | .finite => signBit f - 1
/-- The canonical quiet NaN (R80, Table 4-5); E4M3's only NaN magnitude is 0x7F. -/
def nanCode (f : Fmt) : Nat :=
  match f.sp with
  | .ieee => infCode f + 2 ^ (f.m - 1)
  | _ => signBit f - 1

/-- The value of a code (R101). -/
def decodeNum (f : Fmt) (code : Nat) : FpNum :=
  let neg := bitOf code (f.e + f.m)
  let ex := fld code f.m f.e
  let man := fld code 0 f.m
  let top := 2 ^ f.e - 1
  if f.sp = .ieee ∧ ex = top then (if man = 0 then .inf neg else .nan)
  else if f.sp = .e4m3 ∧ ex = top ∧ man = 2 ^ f.m - 1 then .nan
  else if ex = 0 then .fin neg man (1 - (f.bias : Int) - f.m)
  else .fin neg (2 ^ f.m + man) ((ex : Int) - f.bias - f.m)

/-- A signaling NaN: a NaN whose leading mantissa bit is clear (IEEE 754, R80). -/
def isSignaling (f : Fmt) (code : Nat) : Bool :=
  decide (decodeNum f code = .nan) && decide (f.sp = .ieee) && !(bitOf code (f.m - 1))

/-- Number of bits of a magnitude. -/
def bitLen (m : Nat) : Nat := if m = 0 then 0 else Nat.log2 m + 1

/-- How a rounding decides (R80, R83, R112): nearest even, toward zero, down, up, or by a 32-bit draw. -/
inductive Rnd where
  | even | zero | down | up
  | draw (r : Nat)
  deriving DecidableEq, Repr

/-- m ÷ 2^k rounded to an integer, and whether that changed the value. For a draw, up when
floor(d · 2³²) + r ≥ 2³² (R112). -/
def roundShift (r : Rnd) (neg : Bool) (m k : Nat) : Nat × Bool :=
  let q := m / 2 ^ k
  let rem := m % 2 ^ k
  if rem = 0 then (q, false)
  else
    let goUp : Bool := match r with
      | .even => decide (2 * rem > 2 ^ k) || (decide (2 * rem = 2 ^ k) && decide (q % 2 = 1))
      | .zero => false
      | .down => neg
      | .up => !neg
      | .draw d => decide (2 ^ 32 ≤ rem * 2 ^ 32 / 2 ^ k + d)
    (if goUp then q + 1 else q, true)

/-- The multiple of 2^q nearest m · 2^e by the rounding, as a count of 2^q, and whether it is inexact. -/
def roundAt (r : Rnd) (neg : Bool) (m : Nat) (e q : Int) : Nat × Bool :=
  if q ≤ e then (m * 2 ^ (e - q).toNat, false) else roundShift r neg m (q - e).toNat

/-- Round a value to a format (R104, R109, R111): the exponent range is unbounded above, so a magnitude above the largest
finite overflows; below, the subnormal step holds (log entry 10). With `sat` an overflow or an infinity is written as the
largest finite magnitude. Answers the code and the flags of R108. -/
def roundTo (f : Fmt) (r : Rnd) (sat : Bool) (v : FpNum) : Nat × Nat :=
  match v with
  | .nan => (nanCode f, 0)
  | .inf neg =>
    let s := if neg then signBit f else 0
    if sat then (s + maxCode f, flOver)
    else if f.sp = .ieee then (s + infCode f, 0) else (s + nanCode f, 0)
  | .fin neg m e =>
    let s := if neg then signBit f else 0
    if m = 0 then (s, 0)
    else
      let top : Int := (Nat.log2 m : Int) + e
      let emin : Int := 1 - (f.bias : Int)
      let q : Int := max top emin - f.m
      let (man, inexact) := roundAt r neg m e q
      let mag := ((q + f.m + f.bias - 1) * (2 ^ f.m : Nat) + man).toNat
      let tiny : Bool :=
        if top < emin then
          let (man2, _) := roundAt r neg m e (top - f.m)
          decide (man2 < 2 ^ (emin - top + f.m).toNat)
        else false
      let fl := (if inexact then flInexact else 0) ||| (if tiny && inexact then flUnder else 0)
      if mag > maxCode f then
        let fl := fl ||| flOver ||| flInexact
        if sat then (s + maxCode f, fl)
        else if f.sp = .ieee then (s + infCode f, fl) else (s + nanCode f, fl)
      else (s + mag, fl)

/-- Whether a value's sign is minus. -/
def FpNum.isNeg : FpNum → Bool
  | .nan => false
  | .inf n => n
  | .fin n _ _ => n

/-- −v. -/
def FpNum.negate : FpNum → FpNum
  | .nan => .nan
  | .inf n => .inf !n
  | .fin n m e => .fin (!n) m e

/-- |v|. -/
def FpNum.abs : FpNum → FpNum
  | .nan => .nan
  | .inf _ => .inf false
  | .fin _ m e => .fin false m e

/-- The signed magnitude at scale 2^q, for q at most the value's exponent. -/
def signedAt (neg : Bool) (m : Nat) (e q : Int) : Int :=
  let a : Int := (m * 2 ^ (e - q).toNat : Nat)
  if neg then -a else a

/-- Exact sum. Equal operands of opposite sign give +0, or −0 when rounding down; −0 + −0 is −0 (IEEE 754). ∞ − ∞ is NaN and
raises invalid. -/
def FpNum.add (down : Bool) (a b : FpNum) : FpNum × Nat :=
  match a, b with
  | .nan, _ => (.nan, 0)
  | _, .nan => (.nan, 0)
  | .inf x, .inf y => if x = y then (.inf x, 0) else (.nan, flInvalid)
  | .inf x, _ => (.inf x, 0)
  | _, .inf y => (.inf y, 0)
  | .fin n m e, .fin n' m' e' =>
    let q := min e e'
    let t := signedAt n m e q + signedAt n' m' e' q
    if t = 0 then (.fin (if m = 0 ∧ m' = 0 then (if n = n' then n else down) else down) 0 0, 0)
    else (.fin (decide (t < 0)) t.natAbs q, 0)

/-- Exact product. 0 × ∞ is NaN and raises invalid. -/
def FpNum.mul (a b : FpNum) : FpNum × Nat :=
  match a, b with
  | .nan, _ => (.nan, 0)
  | _, .nan => (.nan, 0)
  | .inf x, .inf y => (.inf (x != y), 0)
  | .inf x, .fin n m _ => if m = 0 then (.nan, flInvalid) else (.inf (x != n), 0)
  | .fin n m _, .inf y => if m = 0 then (.nan, flInvalid) else (.inf (n != y), 0)
  | .fin n m e, .fin n' m' e' => (.fin (n != n') (m * m') (e + e'), 0)

/-- Order of two values that are not NaN; −0 and +0 are equal here. -/
def FpNum.lt (a b : FpNum) : Bool :=
  match a, b with
  | .inf x, .inf y => x && !y
  | .inf x, .fin .. => x
  | .fin .., .inf y => !y
  | .fin n m e, .fin n' m' e' =>
    let q := min e e'
    decide (signedAt n m e q < signedAt n' m' e' q)
  | _, _ => false

/-- Numeric equality of two values that are not NaN. -/
def FpNum.eqv (a b : FpNum) : Bool :=
  match a, b with
  | .inf x, .inf y => x == y
  | .fin n m e, .fin n' m' e' =>
    let q := min e e'
    decide (signedAt n m e q = signedAt n' m' e' q)
  | _, _ => false

/-- Floor of the square root, by at most `k` bits. -/
def isqrtBits (v : Nat) : Nat → Nat → Nat
  | 0, acc => acc
  | k + 1, acc =>
    let t := acc + 2 ^ k
    isqrtBits v k (if t * t ≤ v then t else acc)

/-- Floor of the square root. -/
def isqrt (v : Nat) : Nat := isqrtBits v (bitLen v / 2 + 1) 0

/-- 1 ÷ v with a sticky low bit, so that one rounding to at most 53 bits is correct (R82). 1 ÷ ±0 is ±∞ and divides by
zero. -/
def FpNum.recip (v : FpNum) : FpNum × Nat :=
  match v with
  | .nan => (.nan, 0)
  | .inf n => (.fin n 0 0, 0)
  | .fin n m e =>
    if m = 0 then (.inf n, flDivZero)
    else
      let k := bitLen m + 64
      let q := 2 ^ k / m
      (.fin n (2 * q + b2n (decide (q * m ≠ 2 ^ k))) (-(k : Int) - 1 - e), 0)

/-- 1 ÷ √v with a sticky low bit (R82). 1 ÷ √±0 is ±∞ and divides by zero; a negative value is invalid. -/
def FpNum.rsqrt (v : FpNum) : FpNum × Nat :=
  match v with
  | .nan => (.nan, 0)
  | .inf n => if n then (.nan, flInvalid) else (.fin false 0 0, 0)
  | .fin n m e =>
    if m = 0 then (.inf n, flDivZero)
    else if n then (.nan, flInvalid)
    else
      -- make the exponent even, then 1/√(m·2^e) = √(2^(2k)/m) · 2^(-k-e/2)
      let m' := if e % 2 = 0 then m else 2 * m
      let e' := if e % 2 = 0 then e else e - 1
      let k := bitLen m' + 64
      let q := isqrt (2 ^ (2 * k) / m')
      (.fin false (2 * q + b2n (decide (q * q * m' ≠ 2 ^ (2 * k)))) (-(k : Int) - 1 - e' / 2), 0)

/-- The integer nearest a finite value by the rounding, and whether it is inexact (R83). -/
def FpNum.toInt (r : Rnd) (neg : Bool) (m : Nat) (e : Int) : Int × Bool :=
  let (a, x) := roundAt r neg m e 0
  ((if neg then -(a : Int) else a), x)

/-- An integer as a value. -/
def FpNum.ofInt (v : Int) : FpNum := .fin (decide (v < 0)) v.natAbs 0

/-- An E8M0 scale: the exponent, or none for NaN (R103). -/
def e8m0 (x : Nat) : Option Int := if x = 255 then none else some ((x : Int) - 127)

/-- The 32-bit draw of output element (i, j) (R112). -/
def srDraw (mseed : W64) (cOff i j : Nat) : Nat :=
  let key := alignDown cOff 32 * 1024 ||| i * 32 ||| j
  let z : W64 := mseed + BitVec.ofNat 64 (key + 1) * 0x9E3779B97F4A7C15
  let z := (z ^^^ (z >>> 30)) * 0xBF58476D1CE4E5B9
  let z := (z ^^^ (z >>> 27)) * 0x94D049BB133111EB
  let z := z ^^^ (z >>> 31)
  (z >>> 32).toNat

end Sys2Proof.Machine
end

