-- ==== Sys2Proof/Machine/Fields.lean ====
section
/-!
DEFINITION. The fields of a syllable (Tables 3-1 to 3-3) and the sizes of operand blocks (Table 4-1).
-/

namespace Sys2Proof.Machine

/-! ### Fields -/

/-- A field of a syllable. -/
def wf (w : W64) (lo n : Nat) : Nat := fld w.toNat lo n
/-- Bit `k` of a syllable. -/
def wb (w : W64) (k : Nat) : Bool := bitOf w.toNat k

def sKind (w : W64) : Nat := wf w 60 4
def sOp (w : W64) : Nat := wf w 52 8
def sGuard (w : W64) : Nat := wf w 48 4
/-- RD, RA of formats C, SR, SI, MA; RA, RB of format T. -/
def fRD (w : W64) : Nat := wf w 42 6
def fRA (w : W64) : Nat := wf w 36 6
def fRB (w : W64) : Nat := wf w 30 6
def fRC (w : W64) : Nat := wf w 24 6
def fImm (w : W64) : Nat := wf w 0 32
/-- IMM sign-extended to 64 bits. -/
def fImmS (w : W64) : W64 := BitVec.ofInt 64 (sx 32 (fImm w))
/-- Format V. -/
def vVD (w : W64) : Nat := wf w 43 5
def vVA (w : W64) : Nat := wf w 38 5
def vVB (w : W64) : Nat := wf w 33 5
def vVC (w : W64) : Nat := wf w 28 5
def vSA (w : W64) : Nat := wf w 22 6
def vSB (w : W64) : Nat := wf w 16 6
def vET (w : W64) : Nat := wf w 12 4
def vMOD (w : W64) : Nat := wf w 0 12
def vBcast (w : W64) : Bool := wb w 11
/-- Formats X and XA. -/
def xE (w : W64) : Nat := wf w 46 2
def xACC (w : W64) : Nat := wf w 42 4
def xFA (w : W64) : Nat := wf w 38 4
def xFB (w : W64) : Nat := wf w 34 4
def xRA (w : W64) : Nat := wf w 28 6
def xRB (w : W64) : Nat := wf w 22 6
def xSTR (w : W64) : Bool := wb w 21
def xZERO (w : W64) : Bool := wb w 20
def xOUT (w : W64) : Bool := wb w 19
def xOFMT (w : W64) : Nat := wf w 15 4
def xSR (w : W64) : Bool := wb w 14
def xSAT (w : W64) : Bool := wb w 13
def xTSC (w : W64) : Bool := wb w 12
def aV (w : W64) : Nat := wf w 37 5
def aRA (w : W64) : Nat := wf w 31 6
def aMASK (w : W64) : Nat := wf w 27 4
def aROWP (w : W64) : Nat := wf w 23 4
/-- Format T. -/
def tCTR (w : W64) : Nat := wf w 26 10
def tIMM (w : W64) : Nat := wf w 0 16

/-- A syllable from its header and operand field (Table 3-1). -/
def syllable (kind op : Nat) (guard : BitVec 4) (f : BitVec 48) : W64 :=
  BitVec.ofNat 64 (kind * 2 ^ 60 + op * 2 ^ 52 + guard.toNat * 2 ^ 48 + f.toNat)

/-- NOP (R66). -/
def nopWord : W64 := 0x1000000000000000

/-! ### Operand blocks (R97, R98) -/

/-- Bits of an element, by format code (Tables 3-9, 4-1). -/
def elemBits (c : Nat) : Nat := if c ≤ 1 then 16 else if c ≤ 4 then 8 else if c ≤ 6 then 6 else if c ≤ 8 then 4 else 2
/-- Bytes of a block: 128 bytes of data per bit of width, and 32 scales but for the 16-bit formats (Table 4-1). -/
def blockBytes (c : Nat) : Nat := 128 * elemBits c + (if c ≤ 1 then 0 else 32)
/-- MOPA: KB, C_OFF, A_OFF; offsets with bits [4:0] cleared (R98, Table 3-10). -/
def mKB (a : W64) : Nat := wf a 38 12
def mCOff (a : W64) : Nat := wf a 24 14 * 32
def mAOff (a : W64) : Nat := wf a 5 14 * 32
/-- MOPB in the Silt form: B_OFF, TSCALE; in the streaming form: B_VA with bits [5:0] cleared (R98). -/
def mBOff (b : W64) : Nat := wf b 5 14 * 32
def mTScale (b : W64) : Nat := wf b 32 32
def mBVa (b : W64) : Nat := wf b 6 51 * 64
/-- Bytes of the output stage's result, by OFMT (R99). -/
def outBytes (ofmt : Nat) : Nat := if ofmt = 0 then 4096 else if ofmt ≤ 2 then 2048 else 1056

/-- Whether two ranges of Silt bytes, each taken modulo 512 KiB, share a byte. -/
def siltOverlap (a n b m : Nat) : Bool :=
  let k := 0x80000
  let hit (a b : Nat) := decide (a < b + m) && decide (b < a + n)
  decide (0 < n) && decide (0 < m) && (hit (a % k) (b % k) || hit (a % k + k) (b % k) || hit (a % k) (b % k + k))

end Sys2Proof.Machine
end

