-- ==== Sys2Proof/Config.lean ====
section
/-!
DEFINITION. What an implementation fixes and what the spec leaves open. Every constant here is opaque: it has no
body, so nothing can be proved of its value, and a statement that mentions it holds for every value. Each has a row
in the assumption log.
-/

namespace Sys2Proof

/-- The two variants of Table 0-1 (R1). -/
inductive Variant where
  | full | light
  deriving DecidableEq, Repr, Inhabited

/-- The fused variant: GK-7224-F or GK-7224-L (R1, R2). -/
opaque Config.variant : Variant
/-- The n-th free value: what stands where the spec calls a value undefined or does not state it (log entry 1). -/
opaque Config.freeValue : Nat → BitVec 64
/-- SM3 digest (R379; the standard is outside the spec). -/
opaque Config.sm3 : List Byte → BitVec 256
/-- SM2 verification: key x‖y, identity string, digest, signature r‖s (R379). -/
opaque Config.sm2Verify : BitVec 512 → List Byte → BitVec 256 → BitVec 512 → Bool
/-- SM2 signature by the module's fused identity key (R380). -/
opaque Config.sm2Sign : BitVec 256 → BitVec 512
/-- Module serial number (R380, Table 16-12). -/
opaque Config.serial : BitVec 64
/-- Fused hash of the firmware key (R287). -/
opaque Config.firmwareKeyHash : BitVec 256
/-- Identity public key x‖y (R380). -/
opaque Config.identityKey : BitVec 512
/-- The DER certificate, at most 1,024 bytes (R380). -/
opaque Config.certificate : List Byte
/-- Fused voltage table: bolt, rail (0 CORE, 1 LOAM), row (0 Run, 1 Floor), band 0–3 (R299). -/
opaque Config.voltageTable : Nat → Nat → Nat → Nat → BitVec 9
/-- Fused fixed targets of rails 8–12 (Table 13-1). -/
opaque Config.fixedTarget : Nat → BitVec 9
/-- Fused starting energy coefficients, one per event of Table 13-18, and the static one (R318). -/
opaque Config.energyCoefficient : Nat → Rat
/-- What the least-squares refit of R318 gives for a coefficient, before the 10 % bound. -/
opaque Config.refit : Nat → Nat → Rat
/-- The highest level at which firmware predicts a CORE current of at most 1,088 A, from the bolt, the measured current in 0.1 A and the
level applied (R308 states the bound and no way of predicting). -/
opaque Config.railCap : Nat → Nat → Nat → Nat
/-- Levels by which firmware lowers the energy cap and raises ballast in one control step, from the gap in 0.1 W (R308 states no step). -/
opaque Config.capStep : Int → Nat
opaque Config.ballastStep : Int → Nat
/-- exp(−x) as the estimator of R332 computes it. -/
opaque Config.expNeg : Rat → Rat
/-- Members to which a member of the domain has links of its own, as it learned at training (R198): the wiring beyond this module's
ports, which no packet of this manual carries. -/
opaque Config.neighbours : Nat → List Nat
/-- The cells of a Bursen transaction, from its row of Table 9-1, its secure attribute, address and data: their layout no rule gives (log
entry 180). -/
opaque Config.bursenCells : Nat → Bool → Nat → List Byte → List Byte
/-- The payloads of a MEMBER and of a TIME_SYNC packet, whose layouts no rule gives (log entry 181). -/
opaque Config.memberPayload : MemberMsg → List Byte
opaque Config.syncPayload : W64 → List Byte
/-- The member that is the time root of a domain: only that module itself is told so, by its join (R204, R217; log entry 28). -/
opaque Config.timeRoot : W32 → BitVec 6
/-- The module sits on a board of eight modules and not on a tray of four (R202; log entry 27). -/
opaque Config.boardOfEight : Bool
/-- The cluster's boot ROM self-test code, logged by CLUSTER_SELFTEST (Table 16-3). -/
opaque Config.selfTestCode : Nat → W32

/-- Whether `vcmp.lt` and `.le` raise invalid on a quiet NaN: IEEE 754 has both comparisons, R80 names neither (log entry
14). -/
opaque Config.cmpQuietInvalid : Bool
/-- Whether 0 × ∞ + a quiet NaN raises invalid: IEEE 754 leaves it to the implementation (log entry 14). -/
opaque Config.fmaQuietInvalid : Bool

end Sys2Proof
end

