-- ==== Sys2Proof/Machine/State.lean ====
section
/-!
DEFINITION. The state of one GK-7224, as plain data: every register, buffer, queue, counter, mode and pin the spec
names, grouped by the part that holds it, and the queue of waiting commands. Registers of numbered parts are sparse
maps whose unlisted entries read as the part's reset value. Each field's comment names its rule and its reset value.
-/

namespace Sys2Proof.Machine

/-! ### The module (01, 12) -/

/-- Module states of Table 1-5 (R23). -/
inductive ModState where | off | held | boot | ready | running | drain | faulted
  deriving DecidableEq, Repr

/-- TOP block and what the transitions of R25 need. -/
structure Top where
  /-- TOP_STATE.STATE, 3 bits (R24). Reset: HELD. -/
  st : ModState := .held
  /-- TOP_STATE.PREV_STATE (R24). Reset: OFF. -/
  prev : ModState := .off
  /-- TOP_STATE.CAUSE, 4 bits (R25). Reset: 0x0. -/
  cause : BitVec 4 := 0
  /-- TOP_STATE.TRANSITIONS, 8 bits (R25). Reset: 0x00. -/
  transitions : BitVec 8 := 0
  /-- TOP_STATE.FIRST_BREAK: the sense pin is open (R387). Reset: —, live; DESIGN CHOICE false (log entry 4). -/
  pinOpen : Bool := false
  /-- Drain causes still present, by CAUSE code 6, 7, 8 (R25). Reset: none. -/
  drainCauses : List Nat := []
  /-- TOP_HBM_STACKS.STACK_AVAIL, bits of stacks H0–H23 (R132). Reset: 0. -/
  hbmUp : BitVec 24 := 0
  /-- TOP_HBM_PAGES.LOADABLE_PAGES, 32 bits (R132). Reset: 0. -/
  pages : W32 := 0
  /-- Tray bus absent or out of range (R310, R389). Reset: false (50 V present, R25). -/
  busLost : Bool := false
  /-- Tray bus voltage at the blades, 10 mV units: RAIL_IN.VIN (Table 13-6). Reset: 0. -/
  vin : Nat := 0
  /-- Control rails CTLA, CTLB in regulation (R20). Reset: true (R25: HELD is entered with both in regulation). -/
  ctlA : Bool := true
  ctlB : Bool := true
  /-- HBMA or HBMB was powered off, so the next BOOT trains HBM in full (R291). Reset: true (cold reset, R284). -/
  hbmOff : Bool := true
  /-- Highest HBM junction or rail power-off: rails other than CTLA, CTLB are off (R25). Reset: true (HELD, R20). -/
  railsOff : Bool := true
  /-- Boot step reached (Table 12-11), as BOOT_TIMEOUT reports it (Table 16-3; log entry 114): 0 rails, 1 built-in tests, 2 HBM training,
  3 zero write and reserve, 4 enumeration, 5 first sweep, 6 Gauze ports. Reset: 0. -/
  bootStep : Nat := 0
  /-- The built-in tests of this boot have been taken account of (R290). Reset: false. -/
  tested : Bool := false
  /-- The stack that holds each bolt's reserve, as the last boot chose it (R130, R146). Reset: none. -/
  reserveAt : List (Option Nat) := []
  /-- GT at which the BOOT in progress began (R290). Reset: 0. -/
  bootGt : W64 := 0
  /-- GT at which the sense pin last opened, and at which the tray bus last left or came back into range (R310, R322, R390,
  R404). Reset: 0. -/
  pinGt : W64 := 0
  busGt : W64 := 0
  /-- The steps of a withdrawal have been taken (R404). Reset: false. -/
  withdrawn : Bool := false
  deriving DecidableEq, Repr

/-- CLK, TIME blocks and global time (12). -/
structure Clocks where
  /-- Global time, 64 bits (R279). Reset: 0. -/
  gt : W64 := 0
  /-- CLK_STAT.LOCKED: the root PLL is in lock and GT runs (R277, R279). Reset: false (locks later, in HELD). -/
  locked : Bool := false
  /-- Tile clock cycles since GT started, from which every TCYCLE is taken (R278; log entry 2). Reset: 0. -/
  tileCycles : W64 := 0
  /-- CLK_STAT.SOURCE: 0 crystal, 1 timing port, 2 holdover (Table 12-2). Reset: 0. -/
  source : BitVec 2 := 0
  /-- CLK_STAT.TIMING_PORT, 5 bits (Table 12-2). Reset: 0. -/
  timingPort : BitVec 5 := 0
  /-- CLK_STAT.SWITCHES, 8 bits (Table 12-2). Reset: 0. -/
  switches : BitVec 8 := 0
  /-- CLK_STAT.UNLOCKS, 8 bits (Table 12-2). Reset: 0. -/
  unlocks : BitVec 8 := 0
  /-- TIME_GT_HI: what each requester's last read of TIME_GT_LO latched, 32 bits, by requester (R282; log entry 164): clusters 0 and 1, host 2, service
  port 3, tile t 16 + t, mover 32b + m 2048 more, engine e of tile t 4096 + 4t + e. Reset: 0. -/
  gtHi : Tab W32 := []
  /-- TIME_SYNC.IN_SYNC, ROOT, DEPTH, LOADS, OFFSET (Table 12-5). Reset: 0. -/
  inSync : Bool := false
  root : Bool := false
  depth : BitVec 2 := 0
  loads : BitVec 8 := 0
  offset : BitVec 16 := 0
  /-- GT at which the last one-tt correction was made (R218: at most once every 64 tt). Reset: 0. -/
  lastCorrection : W64 := 0
  /-- One tt owed to GT by a withheld correction: the next tick does not advance it (R218). Reset: false. -/
  withhold : Bool := false
  /-- Timestamps of exchanges started by TIME_SYNC_EXCHANGE, by port (R218). Reset: none. -/
  syncs : Tab W64 := []
  deriving DecidableEq, Repr

/-! ### Tiles (02, 03, 04) -/

/-- Tile states (R60, Table 15-14). -/
inductive TileState where | reset | running | halted | stopped | retired
  deriving DecidableEq, Repr

/-- What holds the next bundle: `wfi` (R71), `fence.l`, `fence.g` (R136, R137), `fence.i` (R72). -/
inductive Hold where | none | wfi | fenceL | fenceG | fenceI
  deriving DecidableEq, Repr

/-- Why a register is poisoned: SUBCODE and address that FAR_POISON reports (Table 2-9). -/
structure Poison where
  sub : BitVec 8
  addr : W64
  deriving DecidableEq, Repr

/-- Where a far load delivers: nothing, a scalar or a vector register. -/
inductive FarDest where | none | scalar (n : Nat) | vector (n : Nat)
  deriving DecidableEq, Repr

/-- What a far access does at its target. -/
inductive FarKind where
  | load (signed : Bool)
  | store
  | amo (op : Nat)
  deriving DecidableEq, Repr

/-- One outstanding far access, translated (R39–R41). `data` is the store value or the atomic's operand. -/
structure FarAccess where
  id : Nat
  kind : FarKind
  dest : FarDest
  size : Nat
  va : W64
  pa : Nat
  data : Vec
  cmp : W64
  tagged : Bool
  /-- Issued before the tile was last reset: its error is no more the tile's (R273). -/
  stale : Bool := false
  deriving DecidableEq, Repr

/-- A released instruction not yet performed (R92): what it does, and the far-access number below which every store of
the tile must have ended first. -/
inductive ReleaseKind where
  | mvq (mover entry : Nat) (va : W64)
  | barArv (ctr : Nat) (inc : Nat)
  | cadDone
  deriving DecidableEq, Repr

/-- A release waiting for the stores before it (R92): what it does, and the number of the first far access not before it. -/
structure Release where
  what : ReleaseKind
  before : Nat
  deriving DecidableEq, Repr

/-- A streamed operand block that has arrived: its bytes, or none where an error made it NaN (R116, R118). -/
structure StreamBlock where
  index : Nat
  bytes : Option (List Byte)
  deriving DecidableEq, Repr

/-- Matrix engine registers and progress (R42, R55, R116, R117). -/
structure Engine where
  /-- MCUR, 64 bits (Table 2-11). Reset: 0. -/
  mcur : W64 := 0
  /-- MSYL, 64 bits (Table 2-5). Reset: 0. -/
  msyl : W64 := 0
  /-- MOPA, 64 bits (Table 2-5). Reset: 0. -/
  mopa : W64 := 0
  /-- MOPB, 64 bits (Table 2-5). Reset: 0. -/
  mopb : W64 := 0
  /-- The engine runs (R55). Reset: false. -/
  running : Bool := false
  /-- Stream blocks fetched, up to four ahead of the unit in progress (R116). Reset: none. -/
  blocks : List StreamBlock := []
  /-- A fault found on a stream block not yet reached: block, address, SUBCODE (R117). Reset: none. -/
  ahead : Option (Nat × W64 × BitVec 8) := none
  /-- TVAL and SUBCODE of the ENGINE_FAULT, kept while FAULTED (R59). Reset: 0. -/
  faultVa : W64 := 0
  faultSub : BitVec 8 := 0
  /-- A hazard of Table 2-4 made the operands undefined (R37): results are free values. Reset: false. -/
  undef : Bool := false
  /-- MSEED was written while an SR instruction was in flight (R113). Reset: false. -/
  seedUndef : Bool := false
  deriving DecidableEq, Repr

/-- Tile system registers of Table 2-5 that are not in an engine (R46, R62). -/
structure TileSys where
  /-- TSTATUS, 64 bits (Table 2-6). Reset: MODE = 1, PM = 1. -/
  tstatus : W64 := 0x11
  /-- TCAUSE, 64 bits (Table 2-7). Reset: 0. -/
  tcause : W64 := 0
  /-- TEPC, 64 bits. Reset: 0. -/
  tepc : W64 := 0
  /-- TVAL, 64 bits. Reset: 0. -/
  tval : W64 := 0
  /-- TVEC, 64 bits, [11:0] zero. Reset: 0. -/
  tvec : W64 := 0
  /-- TSCRATCH, 64 bits. Reset: 0. -/
  tscratch : W64 := 0
  /-- TIE, 64 bits, [4:0] used (Table 2-8). Reset: 0. -/
  tie : W64 := 0
  /-- TIP's latched bits SOFT, MOVER, BARRIER ([3:1]); TIMER and FAR_STORE_ERROR are live (Table 2-8). Reset: 0. -/
  tip : W64 := 0
  /-- VL, 64 bits, at most 64 (R31). Reset: 64. -/
  vl : W64 := 64
  /-- TFFLAGS, 64 bits, [4:0] used (Table 2-5). Reset: 0. -/
  tfflags : W64 := 0
  /-- MSEED, 64 bits (Table 4-6). Reset: 0. -/
  mseed : W64 := 0
  /-- TCYCLE, 64 bits (Table 2-5): kept as the module's count of tile cycles at which it was zero. Reset: TCYCLE 0. -/
  cycleZero : W64 := 0
  /-- TTIMER, 64 bits. Reset: all ones. -/
  ttimer : W64 := 0xFFFFFFFFFFFFFFFF
  /-- TCTX, 64 bits: [3:0] context, [15:4] ASID. Reset: 0. -/
  tctx : W64 := 0
  /-- VCUR, 64 bits (Table 2-10). Reset: 0. -/
  vcur : W64 := 0
  /-- VSYL, 64 bits. Reset: 0. -/
  vsyl : W64 := 0
  /-- VOPA, 64 bits. Reset: 0. -/
  vopa : W64 := 0
  /-- VOPB, 64 bits. Reset: 0. -/
  vopb : W64 := 0
  deriving DecidableEq, Repr

/-- Ages, in bundles, of the writes whose effect Table 2-4 does not interlock (R37); saturated at 7. -/
structure Hazards where
  /-- Bundles since VL was written. Reset: 7 (none pending). -/
  vl : Nat := 7
  /-- Bundles since TVEC, TIE, MSEED, TFFLAGS was written. Reset: 7. -/
  tvec : Nat := 7
  tie : Nat := 7
  mseed : Nat := 7
  tfflags : Nat := 7
  /-- Recent Silt stores of the tile: age, offset, bytes. Reset: none. -/
  stores : List (Nat × Nat × Nat) := []
  deriving DecidableEq, Repr

/-- What a cut long vector instruction leaves besides VCUR, VSYL, VOPA and VOPB, so that it resumes to the same result (R54, R56, log entry
17): where execution goes on after its bundle, and its guard, VL and vector sources where another slot of that bundle has since changed
them. -/
structure Cut where
  syl : W64
  base : W64
  next : W64
  guard : Option W64
  vl : Option Nat
  regs : List (Nat × Vec)
  /-- Its result is undefined: a store of its bundle touched an element that it reads (R37). -/
  race : Bool
  deriving DecidableEq, Repr

/-- What stands beside a save area for the same purpose (R59): the bundle that the stop cut, if one, and every cut instruction. -/
structure SavedCuts where
  cutAt : Option W64
  cuts : Tab (Option Cut)
  deriving DecidableEq, Repr

/-- One tile (R29) and what it holds beyond Table 2-1 to run: outstanding accesses, releases, requests. -/
structure Tile where
  /-- s1–s63, 64 bits each (R29). Reset: 0 (R61). -/
  s : Tab W64 := []
  /-- p1–p15, 64 bits each (R29). Reset: 0; p0 reads all ones (R61). -/
  p : Tab W64 := []
  /-- v0–v31, 2,048 bits each (R29). Reset: 0. -/
  v : Tab Vec := []
  /-- Accumulators, FP32: engine e, tile k, element (i, j) at e·16384 + k·1024 + 32i + j (R29). Reset: 0. -/
  acc : Tab W32 := []
  /-- Program counter, 64 bits, [5:0] zero (R29). Reset: DESIGN CHOICE 0 (log entry 4); START loads it (R63). -/
  pc : W64 := 0
  /-- Poison of scalar and vector registers (R29, R41). Reset: none. -/
  sPoison : Tab (Option Poison) := []
  vPoison : Tab (Option Poison) := []
  /-- System registers (R46). -/
  sys : TileSys := {}
  /-- Engines m0–m3 (R42). -/
  eng : Tab Engine := []
  /-- Silt, 512 KiB (R29, R38). Reset: zero (R61). -/
  silt : Tab Byte := []
  /-- Silt 64-bit words marked uncorrectable (R141). Reset: none. -/
  siltBad : Tab Bool := []
  /-- TILE_STATE.STATE (R60). Reset: RESET. -/
  st : TileState := .reset
  /-- TILE_STATE.STOPPING, SAVING (Table 15-14). Reset: 0. -/
  stopping : Bool := false
  saving : Bool := false
  /-- A restore reads the save area (R59). Reset: false. -/
  restoring : Bool := false
  /-- A reset zeroes Silt (R61). Reset: false. -/
  resetting : Bool := false
  /-- A retirement is due when the reset ends (R377). Reset: false. -/
  retireDue : Bool := false
  /-- Outstanding far accesses, in program order (R39, R134). Reset: none. -/
  far : List FarAccess := []
  /-- Number of the next far access. Reset: 0. -/
  farNext : Nat := 0
  /-- Far-store errors not yet reported, at most eight, oldest first (R41). Reset: none. -/
  storeErrs : List W64 := []
  /-- Releases not yet performed, oldest first (R92). Reset: none. -/
  releases : List Release := []
  /-- Armed barrier notification: counter and target (R94). Reset: none. -/
  armed : Option (Nat × W32) := none
  /-- What holds the next bundle. Reset: none. -/
  hold : Hold := .none
  /-- Translation fault of the next bundle, found by a walk: CODE, address, TLB or walk fault of fetch or slot 3 (R40).
  Reset: none. -/
  walkFault : Option (BitVec 8 × W64) := none
  /-- A fetch fault found by a walk (R40, R410). Reset: none. -/
  fetchFault : Option W64 := none
  /-- The model's own: what cut long vector instructions leave, by their bundle's address (R51, R56, log entry 17). Reset: none. -/
  cuts : Tab (Option Cut) := []
  /-- A long vector instruction stands at an element boundary and neither a trap nor a stop has been taken there (R54).
  Reset: false. -/
  longStop : Bool := false
  /-- Silt bytes that a mover's descriptor has written and not yet signalled: offset, bytes, mover as 32b + m (Table 2-4). Reset: none. -/
  incoming : List (Nat × Nat × Nat) := []
  /-- Hazard ages (R37). -/
  haz : Hazards := {}
  /-- Event counts of Table 13-18, by event number (R318). Reset: 0. -/
  events : Tab Nat := []
  deriving DecidableEq, Repr

/-! ### Translation (06) -/

/-- Who translates (R149, R411). -/
inductive Requester where
  | fetch (t : Nat) | slot3 (t : Nat) | engine (t e : Nat) | mover (b m : Nat) | expander (x b m : Nat)
  deriving DecidableEq, Repr

/-- ACCESS codes of Table 6-8. -/
inductive Access where
  | fetch | load | store | atomic | stream | descriptor | moverSrc | moverDst | coded
  deriving DecidableEq, Repr

/-- A cached leaf (R154): ASID, first virtual page address, page bytes as a power of two, physical page address, rights. -/
structure TlbEntry where
  asid : BitVec 12
  va : Nat
  bits : Nat
  pte : W64
  deriving DecidableEq, Repr

/-- A walk in the queue (R151, R153): requester, context, address, access, whether in supervisor mode. -/
structure Walk where
  who : Requester
  ctx : Nat
  va : W64
  acc : Access
  sup : Bool
  deriving DecidableEq, Repr

/-- A fault record of Table 6-8 before SEQ is given: the requester and words. -/
structure FaultRecord where
  who : Requester
  ctx : Nat
  acc : Access
  va : W64
  kind : BitVec 4
  level : BitVec 3
  malformed : Bool
  entry : W64
  paddr : BitVec 48
  peer : BitVec 8
  gtLow : W32
  seq : BitVec 8
  deriving DecidableEq, Repr

/-- What a physical descriptor of firmware serves (R167): a copy or fill by its command slot, a load by its context, a demand fill by its
context and page. -/
inductive FwWork where
  | none
  | command (slot : Nat)
  | load (ctx : Nat)
  | fill (ctx va : Nat)
  deriving DecidableEq, Repr

/-- One physical descriptor of firmware's work (R167): its words, and the bytes of the work that come before it. -/
structure FwPiece where
  words : List W64
  before : Nat
  deriving DecidableEq, Repr

/-- A demand fill in progress (R165): context, virtual page, host page, pool page. -/
structure Fill where
  ctx : Nat
  va : Nat
  host : Nat
  page : Nat
  /-- Descriptors of the fill still to be run, that of a copy back first; and whether one of them is queued. Reset: none, false. -/
  left : List FwPiece := []
  busy : Bool := false
  deriving DecidableEq, Repr

/-- Translation state of the module. -/
structure Mmu where
  /-- MMU_CTXn: VALID, WINDOW, ASID (Table 6-1), by context. Reset: 0. -/
  ctx : Tab W32 := []
  /-- MMU_ROOTn of bolt b at 16b + n (Table 6-2). Reset: 0. -/
  root : Tab W32 := []
  /-- MMU_INV_VA (Table 6-5). Reset: 0. -/
  invVa : W32 := 0
  /-- MMU_INV_CTRL (Table 6-6). Reset: 0. -/
  invCtrl : W32 := 0
  /-- MMU_FQ_PUTb, MMU_FQ_GETb, 11 bits each, by bolt (Tables 6-9, 6-10). Reset: 0. -/
  fqPut : Tab (BitVec 11) := []
  fqGet : Tab (BitVec 11) := []
  /-- SEQ of the next record of bolt b's queue, 8 bits (Table 6-8). Reset: 0. -/
  fqSeq : Tab (BitVec 8) := []
  /-- Records posted and not consumed, oldest first, by bolt (R159). Reset: none. -/
  posted : Tab (List FaultRecord) := []
  /-- Records held in their requesters, by bolt (R159). Reset: none. -/
  held : Tab (List FaultRecord) := []
  /-- Walk queue of each bolt, at most 64 (R153). Reset: none. -/
  walks : Tab (List Walk) := []
  /-- TLBs by requester (Table 6-4, R411), most recently used first: fetch t, data 1024 + t, mover 2048 + 32b + m,
  expander 2176 + x. Reset: empty. -/
  tlbs : Tab (List TlbEntry) := []
  /-- Walk cache of each bolt (Table 6-4): pointers, most recently used first: ASID, level, first address, table. Reset:
  empty. -/
  wcache : Tab (List (BitVec 12 × Nat × Nat × Nat)) := []
  /-- Demand fills in progress and filled pages, oldest first (R165). Reset: none. -/
  fills : List Fill := []
  filled : List Fill := []
  /-- Ring indices of posted records that firmware has dealt with and GET has not passed, by bolt (R162). Reset: none. -/
  answered : Tab (List (BitVec 11)) := []
  /-- Tiles' accesses, by tile and number, that GO waits for (R155). Reset: none. -/
  invWait : List (Nat × Nat) := []
  deriving DecidableEq, Repr

/-! ### Movers and expanders (07) -/

/-- MOV_STAT.STATE (Table 7-8). -/
inductive MovState where | idle | running | paused | suspended | draining | disabled | aborting
  deriving DecidableEq, Repr

/-- A queue entry: its descriptor address once the release has taken place (R93), the context, the queuing tile, and for
firmware descriptors (R149) the words of the descriptor and the work they serve. -/
structure MovEntry where
  num : Nat
  released : Bool
  va : W64
  ctx : Nat
  tile : Nat
  words : Option (List W64)
  work : FwWork := .none
  /-- Bytes of its work that come before it, and the descriptors of the same work that follow it (R167, R232). -/
  piece : Nat := 0
  more : List FwPiece := []
  /-- Source and destination of its work overlap (R232). -/
  overlap : Bool := false
  /-- It arrived while the mover accepted no work, and the status this gives it (R178). -/
  late : Bool := false
  lateStatus : Nat := 3
  deriving DecidableEq, Repr

/-- The descriptor being run (R168): its entry, its words 0x00–0x77 as read (none read yet: empty), its cursor, and what has happened to
it. -/
structure Running where
  entry : MovEntry
  words : List W64
  cursor : Nat := 0
  /-- Words of the descriptor that an uncorrectable error lost (R414). -/
  lost : List Nat := []
  /-- First poisoned destination byte (R176). -/
  poisoned : Option Nat := none
  /-- The status it will complete with, once decided before its end: STATUS, DETAIL. -/
  verdict : Option (Nat × Nat) := none
  /-- SEQ reported with FAULT (R413). -/
  seq : BitVec 8 := 0
  /-- List entry of the piece in progress: its number and address, none where it was lost (R171). -/
  piece : Option (Nat × Option Nat) := none
  /-- Next coded block of an EXPAND: its address, its number and the output byte at which it starts (R184). -/
  blockAt : Nat := 0
  block : Nat := 0
  blockOut : Nat := 0
  /-- Decoded output not yet written, or the table image read so far; none for a lost byte. -/
  buf : List (Option Byte) := []
  /-- The expander drains: a descriptor that would complete OK completes DRAINED (R178). -/
  drained : Bool := false
  /-- Its work is done and only the completion is left. -/
  done : Bool := false
  /-- It completes without its status words: their write met a fault that was not repaired (R180). -/
  noWrite : Bool := false
  /-- Bytes of its source have been found among those of its destination: what it writes is undefined (R172). -/
  overlap : Bool := false
  deriving DecidableEq, Repr

/-- A mover (R167, Tables 7-7 to 7-9). -/
structure Mover where
  /-- MOV_CTRL.EN, DRAIN, SUSPEND, CONTEXT, GRANTED (Table 7-7). Reset: 0. -/
  en : Bool := false
  drain : Bool := false
  suspend : Bool := false
  ctx : BitVec 4 := 0
  granted : Bool := false
  /-- MOV_STAT.STATE (Table 7-8). Reset: DISABLED. -/
  st : MovState := .disabled
  /-- State to which a resume returns (R181). Reset: IDLE. -/
  was : MovState := .idle
  /-- MOV_STAT.LAST_STATUS, COMPLETED (Table 7-8). Reset: 0. -/
  lastStatus : BitVec 8 := 0
  completed : BitVec 16 := 0
  /-- MOV_CUR_HI latch (Table 7-9). Reset: 0. -/
  curHi : BitVec 16 := 0
  /-- Descriptors waiting, oldest first (R93). Reset: none. -/
  queue : List MovEntry := []
  /-- The running descriptor (R167). Reset: none. -/
  run : Option Running := none
  /-- Number of the next entry. Reset: 0. -/
  nextNum : Nat := 0
  /-- SEQ of the fault record on which it paused, once that is posted (R413). Reset: none. -/
  faultSeq : Option (BitVec 8) := none
  /-- Why EN was cleared: CAUSE of Table 7-1 (R182). Reset: 0. -/
  abortCause : BitVec 4 := 0
  deriving DecidableEq, Repr

/-- EXP_STAT.STATE (Table 7-13). -/
inductive ExpState where | idle | decoding | draining | aborting | disabled | unavailable
  deriving DecidableEq, Repr

/-- An expander (R183, Tables 7-12, 7-13). -/
structure Expander where
  /-- EXP_CTRL.EN, DRAIN (Table 7-12). Reset: 0. -/
  en : Bool := false
  drain : Bool := false
  /-- EXP_STAT.STATE, ERRORS, BLOCKS (Table 7-13). Reset: DISABLED, 0, 0. -/
  st : ExpState := .disabled
  errors : BitVec 8 := 0
  blocks : BitVec 16 := 0
  /-- The mover whose block it took last: blocks are taken in round robin (R183). Reset: DESIGN CHOICE 31 (log entry 173). -/
  last : Nat := 31
  deriving DecidableEq, Repr

/-- A table of a bolt's store (R186): symbol width and entries. -/
structure TansTable where
  symw : Nat
  entries : List W32
  deriving DecidableEq, Repr

/-- Movers, expanders, table stores and barrier counters. -/
structure Engines where
  /-- Movers, at 32b + m (R167). -/
  mov : Tab Mover := []
  /-- Expanders, at 6b + k (R183). -/
  exp : Tab Expander := []
  /-- Tables valid in bolt b's store, at 64b + t: EXP_TVALID (R186, R187). Reset: none valid. -/
  tables : Tab (Option TansTable) := []
  /-- Barrier counters, 32 bits, at 256b + c (R90). Reset: DESIGN CHOICE 0 (log entry 4). -/
  ctr : Tab W32 := []
  /-- Context granted a counter, at 256b + c (R91, R256). Reset: none. -/
  ctrGrant : Tab (Option Nat) := []
  deriving DecidableEq, Repr

/-! ### Gauze (08) -/

/-- GZ_PORT_STAT.STATE (Table 8-5); for port B the codes of Table 9-2. -/
inductive PortState where | down | training | up | draining | disabled | aborting | failed
  deriving DecidableEq, Repr

/-- A data frame kept for replay (R195): its SEQ, the packets it carries, GT when it was first sent (R196). -/
structure TxFrame where
  seq : BitVec 12
  packets : List Packet
  sentAt : W64
  deriving DecidableEq, Repr

/-- A Gauze port, or port B as number 32 (R191, R219). -/
structure Port where
  /-- GZ_PORT_CTRL.EN, DRAIN, TIMING (Table 8-4). Reset: 0. -/
  en : Bool := false
  drain : Bool := false
  timing : Bool := false
  /-- GZ_PORT_STAT fields (Table 8-5). Reset: DISABLED, 0. -/
  st : PortState := .disabled
  peerValid : Bool := false
  peerMember : BitVec 6 := 0
  peerPort : BitVec 5 := 0
  /-- The far end's domain identifier, learned with them (Table 8-5). Reset: 0. -/
  peerDomain : W32 := 0
  retries : BitVec 8 := 0
  uncorrected : BitVec 8 := 0
  /-- SEQ of the next data frame sent, and of the next one expected (R195). Reset: 0. -/
  txSeq : BitVec 12 := 0
  rxSeq : BitVec 12 := 0
  /-- Frames not acknowledged, oldest first (R195). Reset: none. -/
  unacked : List TxFrame := []
  /-- Replays of the oldest frame (R196). Reset: 0. -/
  replays : Nat := 0
  /-- Credits used of the 256 cells of each virtual channel 0–11 (R194). Reset: 0 used. -/
  creditsUsed : Tab Nat := []
  /-- Packets waiting for credit, oldest first (R194). Reset: none. -/
  txq : List Packet := []
  /-- Bytes of a packet not yet complete (R193). Reset: none. -/
  partBytes : List Byte := []
  /-- An ACK owed to the far end; a NAK sent, after which frames are discarded until the expected SEQ arrives (R195). Reset: neither. -/
  ackDue : Bool := false
  nakDue : Bool := false
  /-- Packets received whose cells are still in the receiver's buffer, and cells of each virtual channel to return as credits (R194). Reset:
  none. -/
  rxBuf : List Packet := []
  creditsDue : Tab Nat := []
  /-- Frames sent, newest last (R193). Reset: none. -/
  wire : List RxFrame := []
  /-- Failed trainings in a row (R196). Reset: 0. -/
  fails : Nat := 0
  /-- GT of recent link failures (R405). Reset: none. -/
  failTimes : List W64 := []
  /-- Lanes locked to codeword boundaries and deskewed (R193), one bit per lane. Reset: 0. -/
  lanes : BitVec 8 := 0
  deriving DecidableEq, Repr

/-- What waits for a RESPONSE (R197, R206): a tile's far access, a fabric descriptor. -/
inductive Waiter where
  | far (tile : Nat) (id : Nat)
  | desc (b q n off : Nat)
  | none
  deriving DecidableEq, Repr

/-- An outstanding request to a peer: transaction number, peer, flow, who waits, and whether it left on a route that its flow has
since lost (R199). -/
structure Txn where
  num : W32
  peer : BitVec 6
  flow : BitVec 4
  who : Waiter
  old : Bool := false
  deriving DecidableEq, Repr

/-- An export of the export table (R207): context, number, rights, virtual range, counters. -/
structure Export where
  ctx : Nat
  num : Nat
  rights : BitVec 2
  va : Nat
  size : Nat
  ctrFirst : Nat
  ctrCount : Nat
  ctrBolt : Nat
  deriving DecidableEq, Repr

/-- A fabric descriptor in flight (R209, R210): its ring index, words, progress. -/
structure FabDesc where
  num : Nat
  va : W64
  words : List W64
  issued : Bool := false
  /-- Responses still missing (R211). -/
  missing : Nat := 0
  cursor : Nat := 0
  verdict : Option (Nat × Nat) := none
  /-- Chunks whose final value is stored (R215). -/
  chunks : W64 := 0
  /-- Collectives (R213): the ring list once read, steps whose data has been sent, steps done, and the bytes that the next step
  sends. -/
  ring : List Nat := []
  sent : Nat := 0
  step : Nat := 0
  acc : List Byte := []
  /-- First lost byte of the local source (R176). -/
  poisoned : Option Nat := none
  /-- Words of the descriptor that an uncorrectable error lost (R414). -/
  lost : List Nat := []
  /-- Its notification has been sent (R210). -/
  noted : Bool := false
  done : Bool := false
  /-- Its status write was abandoned on a fault (R180). -/
  noWrite : Bool := false
  deriving DecidableEq, Repr

/-- A slice of collective data received before its step: the member that sent it, chunk, phase, first element, bytes (R213). -/
structure CollPiece where
  src : Nat
  chunk : Nat
  gather : Bool
  elem : Nat
  bytes : List Byte
  deriving DecidableEq, Repr

/-- A fabric queue (R209, Tables 8-10, 8-11). -/
structure FabQueue where
  /-- GZ_FQ_CTRL fields. Reset: 0, SIZE 4. -/
  en : Bool := false
  drain : Bool := false
  granted : Bool := false
  ctx : BitVec 4 := 0
  size : BitVec 4 := 4
  mover : BitVec 5 := 0
  doorbell : BitVec 8 := 0
  cad : Bool := false
  cadence : BitVec 6 := 0
  /-- GZ_FQ_BASE, GZ_FQ_HEAD (Table 8-11). Reset: 0. -/
  base : W32 := 0
  head : BitVec 12 := 0
  /-- Descriptors started in all: the count that HEAD shows modulo 2^SIZE (R209). Reset: 0. -/
  started : Nat := 0
  /-- Descriptors in flight, oldest first, at most 64 (R209). Reset: none. -/
  flight : List FabDesc := []
  /-- Draining or aborting after an EN clear (R178). Reset: false. -/
  draining : Bool := false
  aborting : Bool := false
  /-- Descriptors posted in all at the last EN clear: later ones do not run (R178). Reset: none. -/
  limit : Option Nat := none
  deriving DecidableEq, Repr

/-- The fabric and the domain (R203–R218). -/
structure Gauze where
  /-- Ports G0–G31 (R191). -/
  ports : Tab Port := []
  /-- GZ_DOM_ID (Table 8-8). Reset: 0. -/
  domain : W32 := 0
  /-- GZ_DOM_STATE JOINED, COORD, MEMBER; the full EPOCH (Table 8-9, R203). Reset: 0. -/
  joined : Bool := false
  coord : Bool := false
  me : BitVec 6 := 0
  epoch : W32 := 0
  /-- Membership mask and coordinator index (R203). Reset: 0. -/
  members : W64 := 0
  coordinator : BitVec 6 := 0
  /-- Route table: byte 16m + f (R198, Table 9-13). Reset: 0xFF, no route. -/
  routes : Tab Byte := []
  /-- GT of the last heartbeat of each member; for a member that no route reaches, GT since when (R206). Reset: 0, none. -/
  heard : Tab W64 := []
  cutSince : Tab (Option W64) := []
  /-- A DOMAIN_JOIN or DOMAIN_LEAVE in progress: its slot (R204, R205). Reset: none. -/
  joining : Option Nat := none
  leaving : Option Nat := none
  /-- The join in progress: its time-root bit, and whether admission has been asked for (R204). Reset: false. -/
  joinRoot : Bool := false
  joinAsked : Bool := false
  /-- The membership that the host expects, from the join (R204). Reset: 0. -/
  expected : W64 := 0
  /-- A leave without a command is under way: the member was out of sync (R217). Reset: false. -/
  selfLeave : Bool := false
  /-- The leave notice has gone out (R205). Reset: false. -/
  leaveSent : Bool := false
  /-- A GT load is due in the join (R218). Reset: false. -/
  gtLoadDue : Bool := false
  /-- Packets that no route takes at present, oldest first: they go out when a route does (R199, R206). MEMBER, PACE and
  TIME_SYNC packets sent, newest last. Reset: none. -/
  sent : List Packet := []
  memberSent : List MemberMsg := []
  paceSent : List (W64 × W64) := []
  /-- Packets received for this member and not yet performed (R195). Reset: none. -/
  arrived : List Packet := []
  /-- E2E_SEQ of the next request to a destination and flow, at 16d + f (R200). Reset: 0. -/
  e2e : Tab (BitVec 16) := []
  /-- Sequence numbers and responses of the last 256 requests performed, at 16s + f (R200). Reset: none. -/
  dups : Tab (List (BitVec 16 × Packet)) := []
  /-- Requests outstanding and the next transaction number (R197). Reset: none, 0. -/
  txns : List Txn := []
  nextTxn : W32 := 0
  /-- Export table and export map (R207): the map by 64 KiB page, rights R, W. Reset: none. -/
  exports : List Export := []
  exportMap : Tab (BitVec 2) := []
  /-- Fabric queues, at 16b + q (R209). -/
  fq : Tab FabQueue := []
  /-- Collective data received before its step, at 16b + q (R213). Reset: none. -/
  collIn : Tab (List CollPiece) := []
  /-- Loss of a member noted, waiting for the epoch (R206). Reset: 0. -/
  suspects : W64 := 0
  deriving DecidableEq, Repr

/-! ### Bursen and commands (09) -/

/-- A report that firmware has made and not yet written (R240): its slot, buffer and bytes, and whether the host will refuse it (R222). -/
structure HostReport where
  slot : Nat
  buf : Nat
  bytes : List Byte
  refused : Bool
  deriving DecidableEq, Repr

/-- A line of the Bursen cache (R221): shared or owned, dirty, contents. -/
structure HostLine where
  owned : Bool
  dirty : Bool
  data : List Byte
  deriving DecidableEq, Repr

/-- What accepted commands are, as the work their handle tracks (R230). -/
inductive Op where
  | load | fit | start | stop | query | memCopy | memFill | save | restore | arm | disarm | envelope
  | join | leave | learn | resRestore | attest | drain | period
  deriving DecidableEq, Repr

/-- Slot states (R236). -/
inductive SlotState where | free | outstanding | complete
  deriving DecidableEq, Repr

/-- A handle slot (R236, R239). -/
structure Slot where
  /-- FREE, OUTSTANDING or COMPLETE (R236). Reset: FREE. -/
  st : SlotState := .free
  /-- Generation, 20 bits (R236). Reset: 0. -/
  gen : BitVec 20 := 0
  /-- OPCODE, HOST_TAG, INTR, GT_ACCEPT of the command (Table 9-8). Reset: 0. -/
  opcode : BitVec 8 := 0
  tag : W64 := 0
  intr : Bool := false
  gtAccept : W32 := 0
  /-- The work it tracks and the context, cadence or other number it names. Reset: start, 0. -/
  op : Op := .start
  arg : Nat := 0
  /-- Descriptors still running for it and the worst status so far (R232). Reset: 0. -/
  left : Nat := 0
  worst : Nat := 0
  detail : Nat := 0
  cursor : Nat := 0
  /-- A CANCEL has begun (R233). Reset: false. -/
  cancelled : Bool := false
  /-- The eight words of its completion record (Table 9-8). Reset: 0. -/
  record : List W64 := []
  deriving DecidableEq, Repr

/-- The response of the last exchange (Table 9-4). -/
structure Response where
  handle : W32 := 0
  detail : BitVec 16 := 0
  immediate : Bool := false
  result : BitVec 8 := 0
  info : BitVec 16 := 0
  state : BitVec 3 := 0
  gtLow : W32 := 0
  deriving DecidableEq, Repr

/-- An interrupt message: vector and payload (Table 9-1). -/
structure Message where
  vector : BitVec 16
  payload : BitVec 16
  secure : Bool
  deriving DecidableEq, Repr

/-- Bursen link, coherence and the command interface. -/
structure Cmd where
  /-- BRS_LINK_STAT.STATE (Table 9-2). Reset: DOWN. -/
  link : PortState := .down
  /-- Port B (R219); its state is `link`. -/
  portB : Port := {}
  /-- BRS_LINK_STAT.SNOOP_TIMEOUTS (Table 9-2); RETRIES and UNCORRECTED are port B's. Reset: 0. -/
  snoopTimeouts : BitVec 8 := 0
  /-- Module copies of host lines, by line number (R221). Reset: none. -/
  cache : Tab (Option HostLine) := []
  /-- Lines of module memory held by the host, with whether it owns them (R220). Reset: none. -/
  hostHeld : Tab (Option Bool) := []
  /-- INVALIDATEs sent to the host and not answered (R220). Reset: none. -/
  snoops : List Nat := []
  /-- CMD_STAT.AREA_VALID, AREA_SECURE; AREA, VECTOR, INT_EN (R235, Table 9-10). Reset: 0. -/
  areaValid : Bool := false
  areaSecure : Bool := false
  area : Nat := 0
  vector : BitVec 16 := 0
  intEn : Bool := false
  /-- Handle slots 0–4,095 (R236). -/
  slots : Tab Slot := []
  /-- The most recently allocated slot (R236). Reset: 4,095, so that slot 0 is next. -/
  lastSlot : Nat := 4095
  /-- The response of the last exchange (R228). Reset: none sent. -/
  resp : Option Response := none
  /-- Completion records held while the link is not UP, in order: slot (R224). Reset: none. -/
  heldRecords : List Nat := []
  /-- Slots whose records have been put in host memory since the last checkpoint (R347, R353). Reset: none. -/
  unsaved : List Nat := []
  /-- The host refuses the records: the area is secure and they are not (R222). Reset: false. -/
  areaRefused : Bool := false
  /-- Reports of QUERY and ATTEST to be written, oldest first (R240). Reset: none. -/
  reports : List HostReport := []
  /-- Messages sent to the host, newest last (R239). Reset: none. -/
  msgs : List Message := []
  /-- READ data returned to the host by the last READ_SHARED or READ_OWN (R219). Reset: none. -/
  readData : List Byte := []
  deriving DecidableEq, Repr

/-! ### Images and contexts (10) -/

/-- Context states (Table 10-1). -/
inductive CtxState where | unloaded | loading | loaded | running | saved
  deriving DecidableEq, Repr

/-- An image group as placed (Tables 10-6, 10-14). -/
structure Group where
  bolt : Nat
  phys : Nat
  siltKib : Nat
  entry : W64
  tvec : W64
  movers : Nat
  counters : Nat
  deriving DecidableEq, Repr

/-- A region entry (Table 10-7). -/
structure Region where
  va : Nat
  size : Nat
  kind : Nat
  rights : BitVec 4
  bolt : Nat
  stack : Nat
  host : Nat
  pool : Nat
  deriving DecidableEq, Repr

/-- A cadence declaration (Table 11-1). -/
structure CadDecl where
  number : Nat
  report : Nat
  period : Nat
  deadline : Nat
  groups : W64
  movers : List W32
  ctrFirst : Nat
  ctrCount : Nat
  periodVa : W64
  /-- Buffers: address, size, epoch word. -/
  bufs : List (W64 × Nat × W64)
  deriving DecidableEq, Repr

/-- A section of an image as its table gives it (Table 10-4). -/
structure ImageSection where
  typ : Nat
  off : Nat
  size : Nat
  arg : Nat
  deriving DecidableEq, Repr

/-- A queue entry of a fabric plan (Table 10-8). -/
structure PlanQueue where
  bolt : Nat
  mover : Nat
  size : Nat
  doorbell : Nat
  cad : Bool
  cadence : Nat
  deriving DecidableEq, Repr

/-- The policy as a load sampled it (R382). -/
structure Policy where
  requireSigned : Bool
  keyValid : BitVec 4
  unsignedPriv : BitVec 3
  keys : Tab W32
  keyPriv : Tab (BitVec 3)
  deriving DecidableEq, Repr

/-- A load between its fit and its end (R249): the slot, where the image and the shortfall buffer lie, its sections, the rest of its plan,
the policy of its first step, the chains of copying descriptors still running with the worst status so far, and that status once all have
ended. -/
structure Load where
  slot : Nat
  image : Nat
  length : Nat
  shortfall : Nat
  signed : Bool
  sects : List ImageSection
  queues : List PlanQueue
  exports : List Export
  priv : Nat
  policy : Policy
  /-- What it demands of each code and scope, in the order of the fit. -/
  demands : List Nat
  left : Nat := 0
  worst : Nat := 1
  copied : Option Nat := none
  deriving DecidableEq, Repr

/-- A context (R241, R243) and what it holds. -/
structure Ctx where
  /-- State (Table 10-1). Reset: UNLOADED. -/
  st : CtxState := .unloaded
  /-- Image digest, signed flag, policy slot, privileges, GT_LOW of load (Table 16-17). Reset: 0. -/
  digest : BitVec 256 := 0
  signed : Bool := false
  keySlot : BitVec 2 := 0
  priv : BitVec 3 := 0
  csrBlocks : BitVec 18 := 0
  loadGt : W32 := 0
  /-- The load in progress (R249). Reset: none. -/
  load : Option Load := none
  /-- Groups as placed, in image order (R242). Reset: none. -/
  groups : List Group := []
  regions : List Region := []
  /-- SILT_INIT sections: image group, offset, bytes (Table 10-5). Reset: none. -/
  siltInits : List (Nat × Nat × List Byte) := []
  /-- Declared cadences (R261). Reset: none. -/
  cads : List CadDecl := []
  /-- Bases and counts of movers, fabric queues, counters by bolt (R248). Reset: 0. -/
  movBase : List Nat := []
  movCount : List Nat := []
  fqBase : List Nat := []
  fqCount : List Nat := []
  ctrBase : List Nat := []
  ctrCount : List Nat := []
  /-- Table numbers granted (R187). Reset: none. -/
  tables : List Nat := []
  /-- Pages held: virtual page address and physical page address (R148). Reset: none. -/
  pages : List (Nat × Nat) := []
  /-- Free pool pages of demand-filled regions, by the region's address (R165). Reset: none. -/
  pool : List (Nat × Nat) := []
  /-- Firmware's mapping record (R164): virtual page and leaf entry, rising; an entry of zero where a page is not present. Reset:
  none. -/
  map : List (Nat × W64) := []
  /-- Offset of its page tables in each bolt's reserve (R148). Reset: 0. -/
  tabBase : Nat := 0
  /-- Answer page of each bolt (R161). Reset: none. -/
  answer : Tab (Option Nat) := []
  /-- The slots of the START, and of the save or restore in progress (R230). Reset: none. -/
  startSlot : Option Nat := none
  stopSlot : Option Nat := none
  saveSlot : Option Nat := none
  /-- A refusal is ending the context: the first refused record and the time of the verdict (R163). Reset: none. -/
  refusal : Option (FaultRecord × W64) := none
  /-- A context reset is due, or under way, with the RESULT its START handle completes with (R146, R163, R377). Reset: none. -/
  due : Option (List W64) := none
  ending : Option (List W64) := none
  /-- STOP or CANCEL is resetting its tiles before the unload (R233, R243). Reset: false. -/
  stopping : Bool := false
  /-- STOP or CANCEL waits for a save or restore in progress (R260). Reset: false. -/
  stopDue : Bool := false
  /-- Tiles that its last save wrote (R257). Reset: none. -/
  saved : List Nat := []
  /-- Groups released by a save (R259). Reset: false. -/
  released : Bool := false
  /-- Energy attributed, µJ (R319). Reset: 0. -/
  energy : Rat := 0
  deriving DecidableEq, Repr

/-! ### Cadences (11) -/

/-- CAD_STAT.STATE (Table 11-6). -/
inductive CadState where | disarmed | waiting | active | gap | expiring | draining
  deriving DecidableEq, Repr

/-- A cadence (R264–R275). -/
structure Cad where
  /-- CAD_CTRL.EN, DRAIN, CONTEXT (Table 11-5). Reset: 0. -/
  en : Bool := false
  drain : Bool := false
  ctx : BitVec 4 := 0
  /-- CAD_STAT.STATE, LOST, EXPIRED (Table 11-6). Reset: 0. -/
  st : CadState := .disarmed
  lost : BitVec 5 := 0
  expired : BitVec 8 := 0
  /-- The current period number (R265); CAD_STAT.PERIOD shows bits [15:0]. Reset: 0. -/
  period : Nat := 0
  /-- START_GT (R264). Reset: 0. -/
  startGt : W64 := 0
  /-- Slots of the arm, the disarm and the running period's handle (R264, R272). Reset: none. -/
  armSlot : Option Nat := none
  disarmSlots : List Nat := []
  periodSlot : Option Nat := none
  /-- Member tiles done in the period, and GT of the last (R267). Reset: none. -/
  done : List Nat := []
  lastDone : W32 := 0
  /-- Epoch of the buffers (R270). Reset: 0. -/
  epoch : W32 := 0
  /-- Tagged requests discarded in all (R216). Reset: 0. -/
  discards : Nat := 0
  /-- The number of the period that expires, tagged requests of it refused since it closed, and descriptors aborted or expired in the sequence
  (Table 11-3). Reset: 0. -/
  closed : Nat := 0
  late : Nat := 0
  aborted : Nat := 0
  /-- DETAIL of the running expiry (Table 11-3). Reset: 0. -/
  detail : Nat := 0
  /-- The period due did not start and advances at its deadline (R271). Reset: false. -/
  skipped : Bool := false
  /-- The status the arm handle will complete with once disarmed. Reset: none. -/
  armStatus : Option (Nat × Nat) := none
  deriving DecidableEq, Repr

/-! ### Power (13) -/

/-- RAIL_STAT.STATE (Table 13-4). -/
inductive RailState where | off | regulating | slewing | shed | fault | linkDown
  deriving DecidableEq, Repr

/-- A rail: its registers, its controller, its command link (R293–R298). -/
structure Rail where
  /-- RAIL_TGT.TARGET, SLEW, ACTIVE (Table 13-3). Reset: fused, 2, 0. -/
  target : BitVec 9
  slew : BitVec 3 := 2
  active : BitVec 6 := 0
  /-- RAIL_TGT.GO, SHED, UNSHED pending (SC). Reset: 0. -/
  go : Bool := false
  shedBit : Bool := false
  unshedBit : Bool := false
  /-- RAIL_STAT fields (Table 13-4). Reset: OFF, 0. -/
  st : RailState := .off
  phases : Nat := 0
  alert : Bool := false
  alertCause : BitVec 2 := 0
  last : BitVec 3 := 0
  lastSeq : BitVec 4 := 0
  targetNow : BitVec 9 := 0
  /-- RAIL_VI and RAIL_P of the last window, and the RAIL_P latch (Table 13-5). Reset: 0. -/
  vout : Nat := 0
  iout : Nat := 0
  pout : Nat := 0
  window : BitVec 8 := 0
  pLatch : W32 := 0
  /-- Number of the next command; commands sent and not answered, oldest first: SEQ, frame, sends (R297). Reset: 0. -/
  seq : BitVec 4 := 0
  sent : List (BitVec 4 × W32 × Nat) := []
  /-- SEQ of a NAKed command that waits its 256 tt (R297). Reset: none. -/
  nakWait : Option (BitVec 4) := none
  /-- SEQ of the SET_TARGET acknowledged whose TRANSITION_DONE has not come (R298, R300). Reset: none. -/
  settling : Option (BitVec 4) := none
  /-- SET_TARGETs raised to their cell of the voltage table (R300). Reset: 0. -/
  raises : Nat := 0
  /-- Controller: the SET_TARGET in progress, its SEQ and code (R298); whether its output has settled. Reset: none. -/
  moving : Option (BitVec 4 × BitVec 9) := none
  settled : BitVec 9 := 0
  /-- Controller: SEQ and phases of the shed in force (R295). Reset: none. -/
  shedSeq : Option (BitVec 4) := none
  /-- Controller answers on the line, oldest first. Reset: none. -/
  back : List W32 := []
  /-- Frame log: the last 64 frames sent or received, newest first, with GT_LOW (R364). Reset: none. -/
  log : List (W32 × W32) := []
  deriving DecidableEq, Repr

/-- A tile's issue governor (R302, Table 13-11). -/
structure Gov where
  /-- GOV_TILE.CEIL, BALLAST, ACT, 9 bits each. Reset: 0x100, 0, 0. -/
  ceil : Nat := 256
  ballast : Nat := 0
  act : Nat := 0
  /-- Limits of the present window (R302). Reset: 256, 0. -/
  hi : Nat := 256
  lo : Nat := 0
  /-- Windows of stagger left (R304). Reset: 0. -/
  stagger : Nat := 0
  /-- Stagger was given in the present window (R304). Reset: false. -/
  fresh : Bool := false
  /-- Engine cycles spent by real units in the window; excess carried from the one before, in 1/64 cycles (R302). Reset: 0. -/
  spent : Nat := 0
  excess : Nat := 0
  deriving DecidableEq, Repr

/-- An envelope: FLOOR, CEILING in W, SLOPE in W/s (R306). -/
structure Envelope where
  floor : Nat
  ceiling : Nat
  slope : Nat
  deriving DecidableEq, Repr

/-- Rails, measurement and governors (R293, R301, R302). -/
structure Power where
  rails : List Rail := []
  /-- RAIL_IN.PIN, 0.1 W (Table 13-6). Reset: 0. -/
  pin : Nat := 0
  /-- Converter power of the last window, 0.1 W, discharge positive (R301). Reset: 0. -/
  conv : Int := 0
  /-- Module consumption of the windows of the last 2 s, 0.1 W, newest first (R306). Reset: none. -/
  loads : List Int := []
  /-- Rail energy and load energy since the last attribution, µJ (R318). Reset: 0. -/
  railEnergy : Rat := 0
  loadEnergy : Rat := 0
  /-- Number of the measurement window (Table 13-5). Reset: 0. -/
  window : Nat := 0
  /-- Governors by tile. -/
  gov : Tab Gov := []
  /-- GOV_CTRL.UP, DOWN, STAGGER_EN (Table 13-8). Reset: 8, 8, 1. -/
  up : Nat := 8
  down : Nat := 8
  staggerEn : Bool := true
  /-- GOV_PACE.LEVEL, NEXT, ARMED; GOV_PACE_AT (Tables 13-9, 13-10). Reset: 0x100, 0x100, 0, 0. -/
  level : Nat := 256
  next : Nat := 256
  paceArmed : Bool := false
  paceAt : W32 := 0
  /-- GOV_ALERT.FLOOR, FW_FORCE, SOURCE, THERMAL, FIRMWARE, REFUSED, COUNT (Table 13-16). Reset: 0. -/
  floor : Bool := false
  fwForce : Bool := false
  source : BitVec 13 := 0
  thermal : Bool := false
  firmware : Bool := false
  clearRefused : BitVec 6 := 0
  floorCount : BitVec 8 := 0
  /-- GOV_ENV_STORED (Table 13-12). Reset: 0, 2000, 200. -/
  stored : Envelope := { floor := 0, ceiling := 2000, slope := 200 }
  deriving DecidableEq, Repr

/-- Firmware's control state: envelope, setpoint, levels, pace bookkeeping, thermal and energy accounts. -/
structure Govern where
  /-- The envelope in force and one accepted and not yet binding, with its slots (R306). Reset: stored; none. -/
  env : Envelope := { floor := 0, ceiling := 2000, slope := 200 }
  nextEnv : Option Envelope := none
  envSlots : List Nat := []
  /-- The stored envelope is in force (R307). Reset: true. -/
  storedBinds : Bool := true
  /-- GT_LOW of the last refresh (R307). Reset: 0. -/
  refreshGt : W32 := 0
  /-- Input setpoint p_in in W (R306). Reset: DESIGN CHOICE 0 (log entry 4). -/
  pinSet : Rat := 0
  /-- The envelope floor and ceiling of the present 100 µs, W (R306). Reset: 0. -/
  envLo : Rat := 0
  envHi : Rat := 0
  /-- Why FW_FORCE is set: 0 a register write, 1 an HBM temperature (R317), 2 the held reserve (R310), 3 a withdrawal (R404). Reset:
  none. -/
  forcedBy : List Nat := []
  /-- Input slope violation logged for the current deviation (R309). Reset: false. -/
  violating : Bool := false
  /-- Pace tick index k (R312). Reset: 0. -/
  tick : Nat := 0
  /-- The control step of the present tick has written its outputs (R314). Reset: true. -/
  stepDone : Bool := true
  /-- Control steps skipped (R314). Reset: 0. -/
  skipped : Nat := 0
  /-- SEQ of PACE packets sent (Table 13-14). Reset: 0. -/
  paceSeq : W32 := 0
  /-- Levels received: at 64·tick + member, level + 1, 0 for none (R312). Reset: none. -/
  received : Tab Nat := []
  /-- Own sustainable level sent for a tick (R312), at the tick. Reset: none. -/
  sentLevel : Tab Nat := []
  /-- Thermal, rail and energy levels of each bolt (R308). Reset: 256. -/
  thermalLvl : Tab Nat := []
  railLvl : Tab Nat := []
  energyLvl : Nat := 256
  /-- Junction sensors, tenths of °C, at 64b + n (R317). Reset: DESIGN CHOICE 0 (log entry 4). -/
  junction : Tab Int := []
  /-- HBM stack temperatures, tenths of °C (R317). Reset: DESIGN CHOICE 0 (log entry 4). -/
  hbmTemp : Tab Int := []
  /-- Temperature band of each bolt, 0–3 (R299). Reset: B0. -/
  band : Tab Nat := []
  /-- A bolt is throttled (R317). Reset: false. -/
  throttled : Tab Bool := []
  /-- Energy accounts: BALLAST, UNATTRIBUTED, INPUT, LOAD, µJ (Table 13-19). Reset: 0. -/
  eBallast : Rat := 0
  eUnattr : Rat := 0
  eInput : Rat := 0
  eLoad : Rat := 0
  /-- Energy coefficients, once refitted: at the event number (R318). Reset: the fused defaults (none refitted). -/
  coeff : Tab (Option Rat) := []
  refits : Nat := 0
  deriving DecidableEq, Repr

/-! ### Reservoir (14) -/

/-- RES_STAT.CONV_MODE (R322). -/
inductive ConvMode where | off | track | limit | stop | node
  deriving DecidableEq, Repr
/-- RES_STAT.RING (Table 14-4). -/
inductive Ring where | whole | broken | partialRing | down
  deriving DecidableEq, Repr
/-- RES_STAT.IDENT (Table 14-13). -/
inductive Ident where | own | blank | nominal | host | hostUnverified
  deriving DecidableEq, Repr

/-- A cell monitor (Table 14-15). -/
structure Monitor where
  /-- CM_CFG.CORNER, BLEED. Reset: 1, 0. -/
  corner : BitVec 2 := 1
  bleed : BitVec 6 := 0
  /-- CM_STAT.PAUSED, NV_BUSY, NAKS, TAG. Reset: 0. -/
  paused : Bool := false
  nvBusy : Bool := false
  naks : BitVec 8 := 0
  tag : BitVec 8 := 0
  /-- CM_V0–CM_V5 and CM_T0–CM_T1 (Table 14-15). Reset: 0. -/
  volts : Tab (BitVec 16) := []
  temps : Tab (BitVec 16) := []
  /-- CM_NV_ADDR, 9-bit word address. Reset: 0. -/
  nvAddr : BitVec 9 := 0
  /-- Non-volatile memory, 512 words of 32 bits (R340). Reset: none stated, and kept over power: log entry 4 (0). -/
  nv : Tab W32 := []
  /-- Hop index and forward delay toward each end (R327). Reset: 0. -/
  hop0 : Nat := 0
  hop1 : Nat := 0
  /-- The incoming link carries a clock (R324). Reset: true. -/
  clocked : Bool := true
  /-- The last request reached it (R326): false once unreachable from both ends. Reset: true. -/
  reachable : Bool := true
  /-- The ENUM of the running enumeration has reached it from E0, from E1 (R327). Reset: false. -/
  seen0 : Bool := false
  seen1 : Bool := false
  /-- The manager's requests reach it from E0, as the last enumeration or a break since has shown (R327, R331). Reset: true. -/
  from0 : Bool := true
  /-- The tags already acted on: the last SAMPLE's (R328). Reset: none. -/
  sampled : Option (BitVec 8) := none
  deriving DecidableEq, Repr

/-- A cell as the estimator sees it (R332, R337). -/
structure Cell where
  /-- v_b, v_r in V; p11, p12, p22 (R332). Reset: DESIGN CHOICE 0 (log entry 4); the first sweep loads them. -/
  vb : Rat := 0
  vr : Rat := 0
  p11 : Rat := 0
  p12 : Rat := 0
  p22 : Rat := 0
  /-- Corrected voltage z of the last sweep (R332). Reset: 0. -/
  z : Rat := 0
  /-- Temperature, tenths of °C. Reset: 0. -/
  temp : Int := 0
  /-- Capacitance in use, 0.01 F (R337). Reset: 300 F. -/
  cap : Nat := 30000
  /-- Learned flag (Table 14-7). Reset: false. -/
  learned : Bool := false
  /-- ESR of the impedance table in µΩ, at 4t + s for temperature band t and SoR band s (Table 14-7). Reset: 800, the nominal 0.8 mΩ of
  Table 14-1. -/
  esr : List Nat := List.replicate 16 800
  /-- GT of the last sweep that measured it (R323). Reset: 0. -/
  seen : W64 := 0
  /-- Bleed wanted (R330). Reset: false. -/
  bleeding : Bool := false
  deriving DecidableEq, Repr

/-- A rest point *A* and what has happened since (R337, R338): GT, accumulator, v_b of every cell, and the sum and number of the |amps| of
the sweeps since. -/
structure RestPoint where
  gt : W64
  charge : Int
  vbs : List Rat
  ampSum : Rat := 0
  amps : Nat := 0
  deriving DecidableEq, Repr

/-- A commanded learning cycle (R339): its slot, *A* once passed, the learn target, whether it lies above, and whether the SoR has reached
it. -/
structure Learn where
  slot : Option Nat
  atA : Option RestPoint
  target : Rat
  above : Bool
  reached : Bool
  deriving DecidableEq, Repr

/-- The reservoir (R321–R344). -/
structure Reservoir where
  /-- RES_CTRL.CONV_EN, BLEED_EN, SWEEP_MS, SETTLE_US (Table 14-10). Reset: 0, 1, 10, 500. -/
  convEn : Bool := false
  bleedEn : Bool := true
  sweepMs : Nat := 10
  settleUs : Nat := 500
  /-- RES_CONV_SET.PIN_TARGET, RES_CONV_LIM (Tables 14-11, 14-12). Reset: 0, 4000, 4000. -/
  pinTarget : Nat := 0
  chgLim : Nat := 4000
  disLim : Nat := 4000
  /-- RES_STAT fields (Table 14-13). Reset: OFF, DOWN, NOMINAL, 0. -/
  mode : ConvMode := .off
  ring : Ring := .down
  ident : Ident := .nominal
  needsLearn : Bool := false
  eoc : Bool := false
  eod : Bool := false
  splits : BitVec 8 := 0
  learnDq : BitVec 8 := 0
  /-- Raw SoR and reported SoR in J (R333, R334). Reset: 0. -/
  raw : Rat := 0
  rep : Rat := 0
  sorPct : Nat := 0
  /-- Hardware stack limits in force: charging stopped, discharging stopped (Table 14-2). Reset: false. -/
  chgStop : Bool := false
  disStop : Bool := false
  /-- Firmware limits in force by cell voltage and temperature (Table 14-2): charging stopped, discharging stopped, both halved,
  converter off. Reset: false. -/
  zHigh : Bool := false
  zLow : Bool := false
  hot : Bool := false
  tempOff : Bool := false
  /-- Limits that return after end of charge and end of discharge (R335). Reset: 4000. -/
  chgKeep : Nat := 4000
  disKeep : Nat := 4000
  /-- Firmware has turned the converter off for good (R390). Reset: false. -/
  shutOff : Bool := false
  /-- A cell has gone 50 ms without a measurement, and no sweep since has measured every cell (R323). Reset: false. -/
  unmeasured : Bool := false
  /-- Cells found below 2.0 V at the last sweep that measured them (R392). Reset: none. -/
  under : List Nat := []
  /-- Pack latch interlock closed (R391). Reset: true. -/
  interlock : Bool := true
  /-- GT of a change of ring state whose enumeration, 1 s later, has not begun (R327). Reset: none. -/
  enumDue : Option W64 := none
  /-- Settle time of the last sweep, µs (R329). Reset: 0. -/
  settled : Nat := 0
  monitors : Tab Monitor := []
  cells : Tab Cell := []
  /-- The sweep in progress: TAG, converter sample, second sample of a split sweep, monitors read back (R328, R331).
  Reset: none. -/
  tag : BitVec 8 := 0
  sample : Option StackSample := none
  last : Option StackSample := none
  sample2 : Option StackSample := none
  splitMons : List Nat := []
  readback : List Nat := []
  /-- GT of the last sweep used; the first sweep after a reset is still to come (R332). Reset: 0, true. -/
  lastSweep : W64 := 0
  first : Bool := true
  lastSplit : Bool := false
  /-- Charge accumulator at the last sweep and GT since which the stack rests (R334, R336). Reset: 0, none. -/
  charge : Int := 0
  restSince : Option W64 := none
  /-- The same with every cell temperature between 10 °C and 45 °C, and whether its rest point has been taken (R337). Reset: none. -/
  restLearn : Option (W64 × Bool) := none
  /-- Anchor of the charge account: accumulator and v_b of each cell (R336). Reset: none. -/
  anchor : Option (Int × List Rat) := none
  deriving DecidableEq, Repr

/-- The manager's requests and firmware's records (R326, R341–R344). -/
structure ResFw where
  /-- Request outstanding on the ring: frame, monitor, sends, from E1 (R326). Reset: none. -/
  req : Option (W64 × Nat × Nat) := none
  /-- Frames the manager or the monitors put on the ring, newest last. Reset: none. -/
  wire : List W64 := []
  /-- Requests that follow it, oldest first: monitor and frame (R328). Reset: none. -/
  todo : List (Nat × W64) := []
  /-- READBLOCK frames received of the monitor being read. Reset: none. -/
  block : List W32 := []
  /-- Voltages by cell, 100 µV, and temperatures by sensor 2m + j, 0.1 °C, that the readback has brought; none where it has not. Reset:
  none. -/
  gotV : Tab (Option Nat) := []
  gotT : Tab (Option Int) := []
  /-- Learning cycle (R339); the first rest point of a cycle not commanded, and whether that is disqualified (R337, R338). Reset: none. -/
  learn : Option Learn := none
  auto : Option RestPoint := none
  autoDq : Bool := false
  /-- By monitor: GT of the last record write, none where there was none, and CYCLES as last written (R342). Reset: none, 0. -/
  wroteGt : Tab (Option W64) := []
  wroteCycles : Tab Nat := []
  /-- Equivalent full cycles × 1,000 (Table 14-7) and charge throughput in µC not yet counted. Reset: 0. -/
  cycles : Nat := 0
  through : Int := 0
  /-- SERIAL of each monitor as read at enumeration (Table 14-8); none: not read. Reset: none. -/
  serials : Tab (Option W64) := []
  /-- The host-restored volatile copy: per monitor the 248 words of a record copy (R343). Reset: none. -/
  hostCopy : Tab (List W32) := []
  hostSerials : List W64 := []
  deriving DecidableEq, Repr

/-! ### Twin control and windows (15) -/

/-- CLM block (R346–R355). -/
structure Clm where
  /-- CLM_CLAIM_A, CLM_CLAIM_B, 64 bits (Table 15-2). Reset: 0. -/
  claimA : W64 := 0
  claimB : W64 := 0
  /-- Low words held for the next write of HI; high words latched by a read of LO (Table 15-2). Reset: 0. -/
  loA : W32 := 0
  loB : W32 := 0
  hiLatchA : W32 := 0
  hiLatchB : W32 := 0
  /-- CLM_STAT.WATCHDOG, HB_REFUSED, SWITCHES, CLAIM_REFUSED, OUTPUT_REFUSED (Table 15-3). Reset: 0. -/
  watchdog : Bool := false
  hbRefused : BitVec 6 := 0
  switches : BitVec 8 := 0
  claimRefused : BitVec 8 := 0
  outputRefused : BitVec 8 := 0
  /-- CLM_HB_A, CLM_HB_B (Table 15-4). Reset: 0. -/
  hbA : W32 := 0
  hbB : W32 := 0
  /-- CLM_AGE_A, CLM_AGE_B (Table 15-5). Reset: 0xFFFF_FFFF. -/
  ageA : W32 := 0xFFFFFFFF
  ageB : W32 := 0xFFFFFFFF
  /-- CLM_DENIED (Table 15-6). Reset: 0. -/
  secureDenied : BitVec 16 := 0
  windowDenied : BitVec 16 := 0
  /-- A cluster has found an error in itself and stopped its heartbeat (R347). Reset: false. -/
  deadA : Bool := false
  deadB : Bool := false
  deriving DecidableEq, Repr

/-- An indirect pair (Tables 15-10, 15-11). -/
structure Pair where
  /-- IXA: RD, AUTO, LOST, STATUS, STRIDE, ADDR. Reset: 0, 0, 0, DONE, 1, 0. -/
  rd : Bool := false
  auto : Bool := false
  lost : Bool := false
  status : BitVec 2 := 0
  stride : BitVec 4 := 1
  addr : BitVec 22 := 0
  /-- IXD. Reset: 0. -/
  data : W32 := 0
  /-- The pending access: a read, or a write of this value (R363). Reset: none. -/
  pend : Option (Option W32) := none
  deriving DecidableEq, Repr

/-! ### Errors and trust (16), boot (12) -/

/-- A log entry (Table 16-1). -/
structure LogEntry where
  kind : BitVec 4
  sev : BitVec 2
  typ : BitVec 16
  seq : W32
  ctx : Option (Fin 16)
  source : W32
  gtFirst : W32
  gtLast : W32
  first : W64
  count : W32
  data : List W32
  deriving DecidableEq, Repr

/-- A retirement (Table 16-10). -/
structure Retired where
  kind : Nat
  seq : W32
  id : Nat
  deriving DecidableEq, Repr

/-- What R372 counts of one source: GT of the first entry of its second, entries opened by severity, reports suppressed and
the TYPE of the first. -/
structure Rate where
  kind : BitVec 4
  source : W32
  since : W64
  corrected : Nat
  deferred : Nat
  contained : Nat
  suppressed : Nat
  firstType : BitVec 16
  deriving DecidableEq, Repr

/-- Error log and collectors (R367–R378). -/
structure Errors where
  /-- The log, oldest first: every entry since cold reset whose slot has not been reused (R368). Reset: empty. -/
  log : List LogEntry := []
  /-- ERR_LOG_PUT, ERR_LOG_GET (Tables 16-4, 16-5). Reset: 0. -/
  put : W32 := 0
  get : W32 := 0
  /-- ERR_LOG_STAT.LOST, RETIRE_GEN (Table 16-6). Reset: 0. -/
  lost : BitVec 16 := 0
  retireGen : BitVec 8 := 0
  /-- Reports lost since the last LOG_OVERFLOW and GT_LOW of the first (R373). Reset: 0. -/
  lostNow : Nat := 0
  lostGt : W32 := 0
  /-- ERR_LOG_SUPP (Table 16-7). Reset: 0. -/
  supp : W32 := 0
  /-- ERR_NOTIFY.EN, MIN_SEV, VECTOR (Table 16-8). Reset: 0, 2, 0. -/
  notifyEn : Bool := false
  minSev : BitVec 2 := 2
  vector : BitVec 16 := 0
  /-- Limits of the running second of each source (R372). Reset: none. -/
  rates : List Rate := []
  /-- Raw corrected events of the last 24 h: place and GT (R143, R145, R377). Reset: none. -/
  raw : List (Nat × W64) := []
  /-- Spares used, oldest first: bank key, row, GT of the repair (R143). Reset: none. -/
  rows : List (Nat × Nat × W64) := []
  /-- GT of the last report that a scrub made of each word marked uncorrectable, by place (R142). Reset: none. -/
  scrubbed : List (Nat × W64) := []
  /-- Retirements since cold reset, oldest first (R378). Reset: none. -/
  retired : List Retired := []
  deriving DecidableEq, Repr

/-- TRUST block and the firmware image (R285–R288, R382). -/
structure Trust where
  /-- TRUST_FW_CTRL.GO, LENGTH; TRUST_FW_STAT.RESULT, REASON, ATTEMPTS (Tables 12-9, 12-10). Reset: 0. -/
  go : Bool := false
  length : BitVec 22 := 0
  result : BitVec 3 := 0
  reason : BitVec 8 := 0
  attempts : BitVec 8 := 0
  /-- The 3 MiB staging window, by byte offset (R286). Reset: DESIGN CHOICE 0 (log entry 3). -/
  window : Tab Byte := []
  /-- The image in cluster SRAM: VERSION, digest (R284, R291). Reset: 0 (lost at a cold reset). -/
  version : W32 := 0
  digest : BitVec 256 := 0
  /-- The SRAM copy no longer matches its digest (R291). Reset: false. -/
  sramBad : Bool := false
  /-- TRUST_POLICY.LOCK, REQUIRE_SIGNED, KEY_VALID, UNSIGNED_PRIV (Table 16-14). Reset: 0, 0, 0, 7. -/
  lock : Bool := false
  requireSigned : Bool := false
  keyValid : BitVec 4 := 0
  unsignedPriv : BitVec 3 := 7
  /-- TRUST_KEYk words at 16k + i, TRUST_KEYPRIVk (Tables 16-15, 16-16). Reset: 0. -/
  keys : Tab W32 := []
  keyPriv : Tab (BitVec 3) := []
  deriving DecidableEq, Repr

/-! ### Memory (05) -/

/-- Memory outside the tiles. -/
structure Mem where
  /-- HBM and Loam by physical address (R124). Reset: 0 (written zero in BOOT, R284; log entry 3). -/
  phys : Tab Byte := []
  /-- Loam words and HBM sectors marked uncorrectable, by their first address (R141). Reset: none. -/
  bad : Tab Bool := []
  /-- The host's memory by host physical address (R127). Reset: DESIGN CHOICE 0 (log entry 3). -/
  host : Tab Byte := []
  /-- Retired 64 KiB pages, by page address, and retired stacks (R145, R146). Reset: none. -/
  badPages : Tab Bool := []
  badStacks : BitVec 24 := 0
  /-- HBM3 mode registers written through the EXP window, by window address (R364); one not written reads as its stack answers. Reset:
  none. -/
  modes : Tab (Option W32) := []
  /-- The model's own: what goes with each save area, by its physical address (R56, R59, log entry 17). Reset: none. -/
  cuts : Tab (Option SavedCuts) := []
  deriving DecidableEq, Repr

/-- The whole machine. -/
structure State where
  pending : List Instr := []
  top : Top := {}
  clk : Clocks := {}
  tiles : Tab Tile := []
  mem : Mem := {}
  mmu : Mmu := {}
  eng : Engines := {}
  gz : Gauze := {}
  cmd : Cmd := {}
  ctxs : Tab Ctx := []
  cads : Tab Cad := []
  pow : Power := {}
  gvn : Govern := {}
  res : Reservoir := {}
  rfw : ResFw := {}
  clm : Clm := {}
  pairs : Tab Pair := []
  err : Errors := {}
  trust : Trust := {}
  /-- The model's own: number of free values used so far (log entry 1). Reset: DESIGN CHOICE 0. -/
  free : Nat := 0
  deriving DecidableEq, Repr

/-- Reasons a step ends in a fault. Nothing in the spec stops the block, so no command of this model raises one. -/
inductive Fault where
  /-- Raised by nothing; the type must not be empty. Safe: no claim can rest on it. -/
  | noSuchPart
  deriving DecidableEq, Repr

/-- Reasons a step is refused. -/
inductive Refusal where
  /-- A command whose meaning is not written yet, by mnemonic. Safe: the model stops. -/
  | notModelled (mnemonic : String)
  deriving DecidableEq, Repr

/-- The rails as a cold reset leaves them; the CORE and LOAM targets are loaded from the voltage table's Run row, band B0 (Table 13-3:
fused). DESIGN CHOICE (log entry 163): RAIL_STAT of CTLA and CTLB, whose Reset column reads 0, shows what R20 and R293 say of the two in
HELD: regulating at their fixed targets, every phase switching. -/
def resetRails : List Rail :=
  (List.range 13).map fun r =>
    if r < 4 then { target := Config.voltageTable r 0 0 0 }
    else if r < 8 then { target := Config.voltageTable (r - 4) 1 0 0 }
    else if r < 11 then { target := Config.fixedTarget r }
    else { target := Config.fixedTarget r, st := .regulating, phases := 4, targetNow := Config.fixedTarget r }

/-- The machine right after a cold reset (R13, R24): in HELD, every register at its Reset value. -/
def State.reset : State := { pow := { rails := resetRails } }

end Sys2Proof.Machine
end

