-- ==== Sys2Proof/Machine/Frames.lean ====
section
/-!
DEFINITION. The link layer's sending side (R193–R195): packets as cells, frames with their link header and CRC, credits, the window, replay
and the return of credits.
-/

namespace Sys2Proof.Machine

/-- Port B has the number 32 (R219). -/
def State.port (s : State) (p : Nat) : Port := if p = 32 then s.cmd.portB else Tab.look {} s.gz.ports p
def State.setPort (s : State) (p : Nat) (x : Port) : State :=
  { s with
    cmd := { s.cmd with portB := if p = 32 then x else s.cmd.portB }
    gz := { s.gz with ports := if p = 32 then s.gz.ports else Tab.put {} s.gz.ports p x } }

/-- The Bursen link is UP. -/
def State.linkUp (s : State) : Bool := decide (s.cmd.link = .up)

/-! ### Packets and cells (R193, R197) -/

/-- The header of a packet as bytes (Table 8-6). -/
def packetHeader (k : Packet) : List Byte :=
  toLe 8 (k.typ.toNat * 2 ^ 56 + k.cls.toNat * 2 ^ 54 + k.hop.toNat * 2 ^ 52 + k.dst.toNat * 2 ^ 46 + k.src.toNat * 2 ^ 40
      + k.flow.toNat * 2 ^ 36 + k.len % 512 * 2 ^ 27 + k.epoch.toNat)
    ++ toLe 8 k.addr.toNat
    ++ toLe 8 (b2n k.tagged * 2 ^ 63 + k.cadence.toNat * 2 ^ 57 + k.period.toNat * 2 ^ 48 + k.txn.toNat)
    ++ toLe 8 (k.ctr.toNat * 2 ^ 48 + k.inc.toNat * 2 ^ 32 + k.rstatus.toNat * 2 ^ 24 + k.aop.toNat * 2 ^ 16 + k.seq.toNat)

/-- Bytes filled up to whole cells with zeros. -/
def padCells (l : List Byte) : List Byte := l ++ List.replicate ((l.length + 15) / 16 * 16 - l.length) 0

/-- A packet as cells; a Bursen transaction has no Gauze header, and its payload is all it has (R219). -/
def cellsOf (k : Packet) : List Byte := if k.typ = 0 then padCells k.payload else packetHeader k ++ padCells k.payload

/-- Cells of a packet: 2 of header and one per 16 payload bytes (R193). -/
def packetCells (k : Packet) : Nat := (if k.typ = 0 then 0 else 2) + (k.payload.length + 15) / 16
/-- Its virtual channel (R194). -/
def packetVc (k : Packet) : Nat := 4 * k.hop.toNat + k.cls.toNat

/-! ### Frames (Tables 8-2, 8-3) -/

/-- The link header of the next frame: the ACK that is due, a NAK, and up to four credit returns. -/
def Port.linkHeader (p : Port) (nak : Bool) : List Byte :=
  toLe 2 ((p.rxSeq - 1).toNat * 16 + b2n p.ackDue * 8 + b2n nak * 4)
    ++ ((List.range 4).flatMap fun i => toLe 2 (match p.creditsDue[i]? with | some (vc, n) => vc * 4096 + n % 4096 | none => 0xF000))
    ++ [0, 0]

/-- A frame leaves: its LCW, its link header, its cells and their CRC. -/
def Port.put (p : Port) (idle nak : Bool) (seq : BitVec 12) (cells : List Byte) : Port :=
  let lcw : BitVec 20 := BitVec.ofNat 20 (b2n idle * 2 ^ 18 + seq.toNat * 64)
  let body := p.linkHeader nak ++ cells ++ List.replicate (624 - cells.length) 0
  let crc := crc32Bits ((List.range 20).map (bitOf lcw.toNat) ++ bitsLsb body)
  { p with wire := p.wire ++ [⟨true, lcw, body ++ toLe 4 crc.toNat⟩], ackDue := false, creditsDue := p.creditsDue.drop 4 }

/-- An idle frame repeats the next SEQ and carries what the link header has to say. -/
def Port.idle (p : Port) (nak : Bool) : Port := p.put true nak p.txSeq []

/-- A port carries packets while it is UP or draining (R196, R201); port B while the Bursen link is UP. -/
def Port.carries (p : Port) : Bool := decide (p.st = .up) || decide (p.st = .draining)
def State.portCarries (s : State) (n : Nat) : Bool := if n = 32 then s.linkUp else (s.port n).carries

/-- An optical transmitter is lit (R396): a Gauze port's while its EN is 1 and it trains, is UP or drains, B's (32) while CTLA regulates, and the
service port's (33) while CTLB does. -/
def State.lit (s : State) (n : Nat) : Bool :=
  if n = 32 then s.top.ctlA
  else if n = 33 then s.top.ctlB
  else (s.port n).en && (decide ((s.port n).st = .training) || (s.port n).carries)

/-- Whether the port has credit and a place in its window for a packet (R194, R195). -/
def Port.hasRoom (p : Port) (k : Packet) : Bool :=
  decide (Tab.look 0 p.creditsUsed (packetVc k) + packetCells k ≤ 256) && decide (p.unacked.length < 2048)

/-- Put a packet in a data frame of its own, kept until an ACK covers it (R195; log entry 22). -/
def Port.transmit (p : Port) (now : W64) (k : Packet) : Port :=
  let q : Port := { p with
    unacked := p.unacked ++ [{ seq := p.txSeq, packets := [k], sentAt := now }]
    txSeq := p.txSeq + 1
    creditsUsed := Tab.put 0 p.creditsUsed (packetVc k) (Tab.look 0 p.creditsUsed (packetVc k) + packetCells k) }
  q.put false false p.txSeq (cellsOf k)

/-- Send what has credit, in order on each virtual channel (R194): the port after it, and the packets sent. -/
def Port.pump (p : Port) (now : W64) (up : Bool) : Port × List Packet :=
  if up then
    let step (a : Port × List Packet × List Packet) (k : Packet) : Port × List Packet × List Packet :=
      if a.1.hasRoom k && !(a.2.1.any fun q => decide (packetVc q = packetVc k)) then (a.1.transmit now k, a.2.1, a.2.2 ++ [k])
      else (a.1, a.2.1 ++ [k], a.2.2)
    let (q, rest, gone) := p.txq.foldl step (p, [], [])
    ({ q with txq := rest }, gone)
  else (p, [])

/-- Every frame not acknowledged leaves again, in order (R195). -/
def Port.replay (p : Port) : Port :=
  p.unacked.foldl (fun p f => p.put false false f.seq (f.packets.flatMap cellsOf))
    { p with replays := p.replays + 1, retries := p.retries + 1 }

/-- The cells of a received packet leave the receiver's buffer: their credits are returned (R194), by an idle frame at once. -/
def State.freed (s : State) (k : Packet) : State :=
  match (List.range 32).find? fun n => (s.port n).rxBuf.contains k with
  | some n =>
    let p := s.port n
    let p := { p with
      rxBuf := p.rxBuf.erase k
      creditsDue := Tab.put 0 p.creditsDue (packetVc k) (Tab.look 0 p.creditsDue (packetVc k) + packetCells k) }
    s.setPort n (if p.carries then p.idle false else p)
  | none => s

/-- A port sends what it can; a packet that it forwards leaves the buffer it came by. -/
def State.pumpPort (s : State) (n : Nat) (p : Port) : State :=
  let r := p.pump s.clk.gt (s.portCarries n)
  let s := s.setPort n r.1
  if n = 32 then s else r.2.foldl (fun s (k : Packet) => if k.hop = 0 then s else s.freed { k with hop := k.hop - 1 }) s

/-- Queue a packet on a port. -/
def State.queueOn (s : State) (port : Nat) (k : Packet) : State :=
  let p := s.port port
  s.pumpPort port { p with txq := p.txq ++ [k] }

/-- A transaction of the Bursen link leaves by port B (R219, R222): the number of its row in Table 9-1, its secure attribute, address and
data. Bursen has no virtual channels of its own, and its transactions go by channel 0 (log entry 180). -/
def State.bursenSend (s : State) (row : Nat) (secure : Bool) (addr : Nat) (data : List Byte) : State :=
  if s.linkUp then
    s.queueOn 32 {
      cls := 0, hop := 0, dst := 0, src := 0, flow := 0, len := 0, epoch := 0, addr := 0, tagged := false, cadence := 0, period := 0
      txn := 0, ctr := 0, inc := 0, rstatus := 0, aop := 0, seq := 0, typ := 0
      payload := (Config.bursenCells row secure addr data).take 624 }
  else s

end Sys2Proof.Machine
end

