-- ==== Sys2Proof/Machine/Ops.lean ====
section
/-!
DEFINITION. The named operations over the state that every family uses: parts by number, registers of a tile, the
physical stores (R124–R147), free values, the error log (R367–R378), messages and completion records (R236, R239).
-/

namespace Sys2Proof.Machine

/-- What a command answers. -/
abbrev Out := Host.Outcome State Fault Refusal

/-! ### Parts by number -/

def State.tile (s : State) (t : Nat) : Tile := Tab.look {} s.tiles t
def State.setTile (s : State) (t : Nat) (x : Tile) : State := { s with tiles := Tab.put {} s.tiles t x }
def State.ctx (s : State) (c : Nat) : Ctx := Tab.look {} s.ctxs c
def State.setCtx (s : State) (c : Nat) (x : Ctx) : State := { s with ctxs := Tab.put {} s.ctxs c x }
def State.cad (s : State) (k : Nat) : Cad := Tab.look {} s.cads k
def State.setCad (s : State) (k : Nat) (x : Cad) : State := { s with cads := Tab.put {} s.cads k x }
def State.mover (s : State) (b m : Nat) : Mover := Tab.look {} s.eng.mov (32 * b + m)
def State.setMover (s : State) (b m : Nat) (x : Mover) : State :=
  { s with eng := { s.eng with mov := Tab.put {} s.eng.mov (32 * b + m) x } }
def State.expander (s : State) (x : Nat) : Expander := Tab.look {} s.eng.exp x
def State.setExpander (s : State) (x : Nat) (v : Expander) : State :=
  { s with eng := { s.eng with exp := Tab.put {} s.eng.exp x v } }
def State.ctr (s : State) (n : Nat) : W32 := Tab.look 0 s.eng.ctr n
def State.setCtr (s : State) (n : Nat) (v : W32) : State :=
  { s with eng := { s.eng with ctr := Tab.put 0 s.eng.ctr n v } }
def State.fqueue (s : State) (b q : Nat) : FabQueue := Tab.look {} s.gz.fq (16 * b + q)
def State.setFqueue (s : State) (b q : Nat) (x : FabQueue) : State :=
  { s with gz := { s.gz with fq := Tab.put {} s.gz.fq (16 * b + q) x } }
def State.slotOf (s : State) (n : Nat) : Slot := Tab.look {} s.cmd.slots n
def State.setSlot (s : State) (n : Nat) (x : Slot) : State :=
  { s with cmd := { s.cmd with slots := Tab.put {} s.cmd.slots n x } }
def State.rail (s : State) (r : Nat) : Rail := s.pow.rails.getD r { target := 0 }
def State.setRail (s : State) (r : Nat) (x : Rail) : State :=
  { s with pow := { s.pow with rails := s.pow.rails.set r x } }
def State.monitor (s : State) (m : Nat) : Monitor := Tab.look {} s.res.monitors m
def State.setMonitor (s : State) (m : Nat) (x : Monitor) : State :=
  { s with res := { s.res with monitors := Tab.put {} s.res.monitors m x } }
def State.cell (s : State) (c : Nat) : Cell := Tab.look {} s.res.cells c
def State.setCell (s : State) (c : Nat) (x : Cell) : State :=
  { s with res := { s.res with cells := Tab.put {} s.res.cells c x } }
def State.gov (s : State) (t : Nat) : Gov := Tab.look {} s.pow.gov t
def State.setGov (s : State) (t : Nat) (x : Gov) : State :=
  { s with pow := { s.pow with gov := Tab.put {} s.pow.gov t x } }
def Tile.engine (x : Tile) (e : Nat) : Engine := Tab.look {} x.eng e
def Tile.setEngine (x : Tile) (e : Nat) (v : Engine) : Tile := { x with eng := Tab.put {} x.eng e v }

/-- The bolt of a tile (Table 0-4). -/
def boltOf (t : Nat) : Nat := t / 256
/-- Global time bits [31:0]. -/
def State.gtLow (s : State) : W32 := s.clk.gt.setWidth 32

/-- Apply `f` for each number of a list, in order. -/
def forAll {α : Type} (l : List α) (s : State) (f : State → α → State) : State := l.foldl f s

/-- A free value (log entry 1): the next opaque value, and the state that has used it. -/
def State.takeFree (s : State) : W64 × State := (Config.freeValue s.free, { s with free := s.free + 1 })

/-- A free byte string. -/
def State.freeBytes (s : State) : Nat → List Byte × State
  | 0 => ([], s)
  | n + 1 =>
    let (v, s) := s.takeFree
    let (r, s) := s.freeBytes n
    (v.setWidth 8 :: r, s)

/-! ### Registers of a tile (R29, R30) -/

/-- s0 reads zero. -/
def Tile.getS (x : Tile) (n : Nat) : W64 := if n = 0 then 0 else Tab.look 0 x.s n
/-- A write to s0 is discarded; a write of a value clears the poison bit (R41). -/
def Tile.setS (x : Tile) (n : Nat) (v : W64) : Tile :=
  if n = 0 then x else { x with s := Tab.put 0 x.s n v, sPoison := Tab.put none x.sPoison n none }
/-- p0 reads all ones. -/
def Tile.getP (x : Tile) (n : Nat) : W64 := if n = 0 then BitVec.allOnes 64 else Tab.look 0 x.p n
/-- A write to p0 is discarded. -/
def Tile.setP (x : Tile) (n : Nat) (v : W64) : Tile := if n = 0 then x else { x with p := Tab.put 0 x.p n v }
def Tile.getV (x : Tile) (n : Nat) : Vec := Tab.look 0 x.v n
def Tile.setV (x : Tile) (n : Nat) (v : Vec) : Tile :=
  { x with v := Tab.put 0 x.v n v, vPoison := Tab.put none x.vPoison n none }
def Tile.poisonS (x : Tile) (n : Nat) (p : Poison) : Tile :=
  if n = 0 then x else { x with sPoison := Tab.put none x.sPoison n (some p) }
def Tile.poisonV (x : Tile) (n : Nat) (p : Poison) : Tile :=
  { x with vPoison := Tab.put none x.vPoison n (some p) }
/-- Element (i, j) of accumulator tile k of engine e. -/
def accIndex (e k i j : Nat) : Nat := e * 16384 + k * 1024 + 32 * i + j
def Tile.getAcc (x : Tile) (e k i j : Nat) : W32 := Tab.look 0 x.acc (accIndex e k i j)
/-- A true truth value is all ones, a false one zero (R30). -/
def truth (b : Bool) : W64 := if b then BitVec.allOnes 64 else 0

/-! ### Issue governor (R302, R304) -/

/-- Tile cycles of a governor window: 2,500, or 625 in Floor (R302). -/
def State.windowTc (s : State) : Nat := if s.pow.floor then 625 else 2500

/-- The limit in force: that of the window, and in Floor at most the lower of 32 and the applied ceiling, at once (R302). -/
def State.govHi (s : State) (t : Nat) : Nat :=
  let g := s.gov t
  if s.pow.floor then min g.hi (min 32 (min g.ceil s.pow.level)) else g.hi

/-- A matrix unit may start: the cycles spent in the window are below hi × 4N ÷ 256, less the excess of the window before (R302). -/
def State.mayStart (s : State) (t : Nat) : Bool :=
  decide ((s.gov t).spent * 64 + (s.gov t).excess < s.govHi t * s.windowTc)

/-- A stagger given in the same window as a stop, a trap or a reset does not outlast it (R304). -/
def State.noStagger (s : State) (t : Nat) : State :=
  let g := s.gov t
  if g.fresh then s.setGov t { g with stagger := 0, fresh := false } else s

/-! ### Silt (R38, R141) -/

/-- 512 KiB. -/
def siltBytes : Nat := 0x80000
/-- The offset an access of `n` bytes uses: modulo 512 KiB, low log2(n) bits cleared (R38). -/
def siltOff (a n : Nat) : Nat := alignDown (a % siltBytes) n
/-- `n` bytes from an offset, each taken modulo 512 KiB (R98). -/
def Tile.siltRead (x : Tile) (off n : Nat) : List Byte :=
  (List.range n).map fun k => Tab.look 0 x.silt ((off + k) % siltBytes)
/-- Whether any 64-bit word of the range is marked uncorrectable. -/
def Tile.siltBadIn (x : Tile) (off n : Nat) : Bool := x.siltBad.any fun p => siltOverlap off n p.1 8
/-- Silt bytes that a mover's descriptor has written without having signalled (Table 2-4, sixth row). -/
def Tile.incomingIn (x : Tile) (off n : Nat) : Bool := x.incoming.any fun e => siltOverlap off n e.1 e.2.1
/-- Drop the marks of the words wholly inside a store (R141). -/
def clearMarks (m : Tab Bool) (off n word : Nat) : Tab Bool :=
  m.filter fun p => !(decide (off ≤ p.1) && decide (p.1 + word ≤ off + n))

/-- Whether a store to Silt lands on operand bytes of a running stage-0 instruction (Table 2-4, fifth row). -/
def Engine.readsFrom (e : Engine) (off n : Nat) : Bool :=
  e.running && decide (wf e.mcur 32 4 = 0) &&
    (siltOverlap (mAOff e.mopa) (mKB e.mopa * blockBytes (xFA e.msyl)) off n
      || (!xSTR e.msyl && siltOverlap (mBOff e.mopb) (mKB e.mopa * blockBytes (xFB e.msyl)) off n))

/-- Store bytes from an offset on, each at its offset modulo 512 KiB. An engine that is still reading one of the bytes, but
for the engine `own` whose output this is, has undefined results from then on (R37, R100). -/
def Tile.siltWrite (x : Tile) (off : Nat) (l : List Byte) (own : Option Nat := none) : Tile :=
  { x with
    silt := (l.zipIdx).foldl (fun m p => Tab.put 0 m ((off + p.2) % siltBytes) p.1) x.silt
    siltBad := clearMarks (clearMarks x.siltBad off l.length 8) 0 (off + l.length - siltBytes) 8
    eng := Tab.mapAll {} (fun k (e : Engine) =>
      if decide (own ≠ some k) && e.readsFrom off l.length then { e with undef := true } else e) x.eng }

/-! ### The physical map (R124, Table 5-2) -/

def stackBytes : Nat := 0x12_0000_0000
def loamBase : Nat := 0x0200_0000_0000
def siltBase : Nat := 0x0210_0000_0000
def csrBase : Nat := 0x03F0_0000_0000
def hostBase : Nat := 0x0400_0000_0000
def windowBase : Nat := 0x8000_0000_0000

/-- Where a physical address leads (Table 5-2). -/
inductive Target where
  | hbm (stack : Nat)
  | loam (bolt : Nat)
  | silt (tile off : Nat)
  | csr (off : Nat)
  | host (a : Nat)
  | window (m : Nat) (off : Nat)
  | nowhere
  deriving DecidableEq, Repr

/-- Table 5-2. -/
def targetOf (pa : Nat) : Target :=
  if pa < 24 * stackBytes then .hbm (pa / stackBytes)
  else if loamBase ≤ pa ∧ pa < loamBase + 4 * 0x8000_0000 then .loam ((pa - loamBase) / 0x8000_0000)
  else if siltBase ≤ pa ∧ pa < siltBase + 0x2000_0000 then
    .silt ((pa - siltBase) / siltBytes) ((pa - siltBase) % siltBytes)
  else if csrBase ≤ pa ∧ pa < csrBase + 0x10_0000_0000 then .csr (pa - csrBase)
  else if hostBase ≤ pa ∧ pa < 2 * hostBase then .host (pa - hostBase)
  else if windowBase ≤ pa ∧ pa < 2 * windowBase then
    .window ((pa - windowBase) / 0x200_0000_0000) ((pa - windowBase) % 0x200_0000_0000)
  else .nowhere

/-- A stack that is up: trained at boot and not retired (R408, Table 5-4). -/
def State.stackUp (s : State) (n : Nat) : Bool := s.top.hbmUp.getLsbD n

/-- The lowest healthy stack of a bolt (R130). -/
def State.lowestStack (s : State) (b : Nat) : Option Nat :=
  ((List.range 6).map fun k => 6 * b + k).find? fun n => s.stackUp n

/-- The stack that holds a bolt's reserve: the lowest that was healthy at the last boot; retired since, it is not replaced before the next
(R130, R146). -/
def State.reserveStack (s : State) (b : Nat) : Option Nat := s.top.reserveAt.getD b none

/-- Physical address of a bolt's firmware reserve: the top 2 GiB of its stack (R130). -/
def State.reserve (s : State) (b : Nat) : Option Nat :=
  (s.reserveStack b).map fun n => n * stackBytes + 0x11_8000_0000

/-- Why a physical access fails: an uncorrectable word or sector, an address of no store (R129), an inactive Silt window
(R125), a stack that is not up (R408). -/
inductive MemErr where
  | loam (addr : Nat) | hbm (addr : Nat) | silt (tile off : Nat) | decode (addr : Nat) | inactive (tile : Nat)
  deriving DecidableEq, Repr

/-- The window of a tile accepts accesses while it is RUNNING or HALTED with no stop latched and no restore going on
(R125). -/
def Tile.windowOpen (x : Tile) : Bool :=
  (decide (x.st = .running) || decide (x.st = .halted)) && !x.stopping && !x.restoring && !x.resetting

/-- First word or sector of the range that is marked. -/
def markIn (m : Tab Bool) (a n word : Nat) : Option Nat :=
  (m.find? fun p => decide (a < p.1 + word) && decide (p.1 < a + n)).map (·.1)

/-- Read `n` bytes of the module's own stores. -/
def State.physRead (s : State) (pa n : Nat) : Except MemErr (List Byte) :=
  match targetOf pa with
  | .hbm k =>
    if !s.stackUp k then .error (.hbm pa)
    else match markIn s.mem.bad pa n 32 with
      | some a => .error (.hbm a)
      | none => .ok (Tab.readN 0 s.mem.phys pa n)
  | .loam _ =>
    match markIn s.mem.bad pa n 8 with
    | some a => .error (.loam a)
    | none => .ok (Tab.readN 0 s.mem.phys pa n)
  | .silt t off =>
    let x := s.tile t
    if !x.windowOpen then .error (.inactive t)
    else if x.siltBadIn off n then .error (.silt t off)
    else .ok (x.siltRead off n)
  | _ => .error (.decode pa)

/-- Write bytes to the module's own stores. A partial store to a marked word or sector keeps the mark (R141). -/
def State.physWrite (s : State) (pa : Nat) (l : List Byte) : Except MemErr State :=
  match targetOf pa with
  | .hbm k =>
    if !s.stackUp k then .error (.hbm pa)
    else .ok { s with mem := { s.mem with
      phys := Tab.writeN 0 s.mem.phys pa l, bad := clearMarks s.mem.bad pa l.length 32 } }
  | .loam _ => .ok { s with mem := { s.mem with
      phys := Tab.writeN 0 s.mem.phys pa l, bad := clearMarks s.mem.bad pa l.length 8 } }
  | .silt t off =>
    let x := s.tile t
    if !x.windowOpen then .error (.inactive t) else .ok (s.setTile t (x.siltWrite off l))
  | _ => .error (.decode pa)

/-- Firmware's and sequencers' own writes to the reserve, which no failure stops but the loss of the stack. -/
def State.poke (s : State) (pa : Nat) (l : List Byte) : State :=
  match s.physWrite pa l with
  | .ok s => s
  | .error _ => s

/-! ### Host memory and messages (R224, R239) -/

/-- Bytes of a coherence line (R220). -/
def lineBytes : Nat := 128

/-- The lines that a range of bytes touches. -/
def linesOf (a n : Nat) : List Nat :=
  if n = 0 then [] else (List.range ((a + n - 1) / lineBytes - a / lineBytes + 1)).map fun k => a / lineBytes + k

/-- The WRITE transactions of a range, one for each line it touches (Table 9-1), with the attribute of firmware's traffic (R222). -/
def State.hostWrites (s : State) (a : Nat) (l : List Byte) : State :=
  forAll (linesOf a l.length) s fun s k =>
    let lo := max a (k * lineBytes)
    s.bursenSend 2 s.cmd.areaSecure lo ((l.drop (lo - a)).take (min (a + l.length) ((k + 1) * lineBytes) - lo))

/-- Write bytes to the host's memory, by WRITEs each of which the host observes whole. A module copy of a line follows them. -/
def State.hostWrite (s : State) (a : Nat) (l : List Byte) : State :=
  let s := s.hostWrites a l
  { s with
    mem := { s.mem with host := Tab.writeN 0 s.mem.host a l }
    cmd := { s.cmd with cache := Tab.mapAll none (fun line (h : Option HostLine) => h.map fun h =>
      { h with data := h.data.zipIdx.map fun q =>
          let k := line * 128 + q.2
          if a ≤ k ∧ k < a + l.length then l.getD (k - a) 0 else q.1 }) s.cmd.cache } }

/-- Send a message: a MESSAGE transaction of its vector and payload (R239, Table 9-1). -/
def State.send (s : State) (m : Message) : State :=
  let s := s.bursenSend 5 m.secure m.vector.toNat (toLe 2 m.payload.toNat)
  { s with cmd := { s.cmd with msgs := s.cmd.msgs ++ [m] } }

/-! ### Error log (R367–R378) -/

/-- SEVERITY of a TYPE (Table 16-3); none for a type the module does not report. -/
def severity (typ : Nat) : Option Nat :=
  if 0x01 ≤ typ ∧ typ ≤ 0x0A then some 0
  else if (0x10 ≤ typ ∧ typ ≤ 0x17) then some 2
  else if typ = 0x18 ∨ (0x20 ≤ typ ∧ typ ≤ 0x33) then some 1
  else if 0x40 ≤ typ ∧ typ ≤ 0x46 then some 3
  else none

/-- The 64 bytes of an entry (Table 16-1). -/
def LogEntry.bytes (e : LogEntry) : List Byte :=
  let w0 := e.kind.toNat * 2 ^ 60 + e.sev.toNat * 2 ^ 58 + e.typ.toNat * 2 ^ 32 + e.seq.toNat
  let w1 := (match e.ctx with | none => 0 | some c => 2 ^ 36 + c.val * 2 ^ 32) + e.source.toNat
  let w2 := e.gtLast.toNat * 2 ^ 32 + e.gtFirst.toNat
  toLe 8 w0 ++ toLe 8 w1 ++ toLe 8 w2 ++ toLe 8 e.count.toNat ++
    ((e.data ++ List.replicate 8 0).take 8).flatMap fun (w : W32) => toLe 4 w.toNat

/-- Both copies of an entry: bolt 0's reserve and bolt 3's (R368). -/
def State.storeEntry (s : State) (e : LogEntry) : State :=
  forAll [0, 3] s fun s b =>
    match s.reserve b with
    | some a => s.poke (a + 0x6000_0000 + 64 * (e.seq.toNat % 1024)) e.bytes
    | none => s

/-- Entries held: SEQ from GET to PUT − 1 (R373). -/
def State.held (s : State) : Nat := (s.err.put - s.err.get).toNat

/-- Open an entry, advance PUT and send the notification (R368); while the link is not UP a notification is dropped
(R224). -/
def State.openEntry (s : State) (kind : BitVec 4) (src : W32) (typ sev : Nat) (ctx : Option (Fin 16))
    (data : List W32) : State :=
  let e : LogEntry := {
    kind := kind, sev := BitVec.ofNat 2 sev, typ := BitVec.ofNat 16 typ, seq := s.err.put, ctx := ctx
    source := src, gtFirst := s.gtLow, gtLast := s.gtLow, first := s.clk.gt, count := 1, data := data }
  let s := s.storeEntry e
  let s := { s with err := { s.err with
    log := (s.err.log ++ [e]).drop (s.err.log.length + 1 - 1024), put := s.err.put + 1 } }
  if s.err.notifyEn && decide (s.err.minSev.toNat ≤ sev) && s.cmd.areaValid && s.linkUp then
    s.send { vector := s.err.vector, payload := e.seq.setWidth 16, secure := s.cmd.areaSecure }
  else s

/-- Write the LOG_OVERFLOW entry that R373 puts before any other new entry once a slot is free. -/
def State.flushOverflow (s : State) : State :=
  if s.err.lostNow ≠ 0 ∧ s.held < 1023 then
    let n := s.err.lostNow
    let g := s.err.lostGt
    { s with err := { s.err with lostNow := 0 } }.openEntry 0xD 0 0x33 1 none [BitVec.ofNat 32 n, g]
  else s

/-- Open an entry if a slot is free: 1,023 for all but a fatal report, which may take the last (R373). -/
def State.newEntry (s : State) (kind : BitVec 4) (src : W32) (typ sev : Nat) (ctx : Option (Fin 16))
    (data : List W32) : State :=
  let s := s.flushOverflow
  if s.held < (if sev = 3 then 1024 else 1023) then s.openEntry kind src typ sev ctx data
  else { s with err := { s.err with
    lost := s.err.lost + 1
    lostGt := if s.err.lostNow = 0 then s.gtLow else s.err.lostGt
    lostNow := s.err.lostNow + 1 } }

/-- One second of GT in tt (R371). -/
def secondTt : Nat := 156250000

/-- Entries a source may open in a second, by severity (R372). -/
def rateLimit (sev : Nat) : Nat := if sev = 0 then 4 else if sev = 1 then 16 else 64

/-- The rate row of a source: the running one, or a fresh one where a second has gone by since its first entry. -/
def State.rateRow (s : State) (kind : BitVec 4) (src : W32) : Option Rate :=
  s.err.rates.find? fun r => decide (r.kind = kind) && decide (r.source = src)
    && decide ((s.clk.gt - r.since).toNat < secondTt)

/-- How many entries of a severity the row has opened. -/
def Rate.opened (r : Rate) (sev : Nat) : Nat :=
  if sev = 0 then r.corrected else if sev = 1 then r.deferred else r.contained

/-- Replace or add a source's running row. -/
def State.putRate (s : State) (old : Option Rate) (r : Rate) : State :=
  match old with
  | none => { s with err := { s.err with rates := s.err.rates ++ [r] } }
  | some o => { s with err := { s.err with rates := s.err.rates.map fun q => if q = o then r else q } }

/-- Add one report to an entry, in both copies. -/
def State.coalesce (s : State) (e : LogEntry) : State :=
  let e' := { e with
    count := if e.count = 0xFFFFFFFF then e.count else e.count + 1
    gtLast := s.gtLow }
  { s with err := { s.err with log := s.err.log.map fun (q : LogEntry) => if q.seq = e.seq then e' else q } }.storeEntry e'

/-- The entry a corrected or deferred report coalesces into (R371): same source and TYPE, held, opened less than a second
ago. -/
def State.coalesceInto (s : State) (kind : BitVec 4) (src : W32) (typ : Nat) : Option LogEntry :=
  s.err.log.reverse.find? fun e =>
    decide (e.kind = kind) && decide (e.source = src) && decide (e.typ.toNat = typ)
      && decide ((e.seq - s.err.get).toNat < s.held) && decide ((s.clk.gt - e.first).toNat < secondTt)

/-- Types exempt from the per-source limits (R372). -/
def rateExempt (typ : Nat) : Bool := typ = 0x32 || typ = 0x33 || typ = 0x20 || typ = 0x21 || typ = 0x22

/-- A report reaches the log (R370–R373): it coalesces, opens an entry, is suppressed or is lost. -/
def State.report (s : State) (kind : BitVec 4) (src : W32) (typ : Nat) (ctx : Option (Fin 16)) (data : List W32) : State :=
  match severity typ with
  | none => s
  | some sev =>
    match (if sev ≤ 1 ∧ typ ≠ 0x32 ∧ typ ≠ 0x33 then s.coalesceInto kind src typ else none) with
    | some e => s.coalesce e
    | none =>
      if sev = 3 ∨ rateExempt typ then s.newEntry kind src typ sev ctx data
      else
        let old := s.rateRow kind src
        let r : Rate := old.getD {
          kind := kind, source := src, since := s.clk.gt, corrected := 0, deferred := 0
          contained := 0, suppressed := 0, firstType := 0 }
        if r.opened sev < rateLimit sev then
          let r := if sev = 0 then { r with corrected := r.corrected + 1 }
            else if sev = 1 then { r with deferred := r.deferred + 1 } else { r with contained := r.contained + 1 }
          (s.putRate old r).newEntry kind src typ sev ctx data
        else
          let s := s.putRate old { r with
            firstType := if r.suppressed = 0 then BitVec.ofNat 16 typ else r.firstType
            suppressed := r.suppressed + 1 }
          { s with err := { s.err with supp := s.err.supp + 1 } }

/-- A 64-bit DATA value as two words, low first. -/
def data64 (v : Nat) : List W32 := [BitVec.ofNat 32 v, BitVec.ofNat 32 (v / 2 ^ 32)]

/-! ### Repair and retirement (R143–R147, R377, R378) -/

/-- Whether a physical address lies in the firmware reserve of a bolt (R130). -/
def State.inReserve (s : State) (pa : Nat) : Bool :=
  (List.range 4).any fun b => match s.reserve b with | some a => decide (a ≤ pa) && decide (pa < a + 0x8000_0000) | none => false

/-- Loadable HBM in 64 KiB pages (R132): healthy stacks, less the reserves that lie on them, less the retired pages of what is left. -/
def State.loadable (s : State) : Nat :=
  let up := (List.range 24).filter fun n => s.stackUp n
  let res := (List.range 4).filter fun b => match s.reserveStack b with | some n => s.stackUp n | none => false
  let lost := (s.mem.badPages.filter fun p => match targetOf p.1 with | .hbm n => s.stackUp n && !s.inReserve p.1 | _ => false).length
  up.length * 1179648 - res.length * 32768 - lost

/-- Append a row to the retirement list with the SEQ of its entry, 0xFFFF_FFFF where a full log lost it, advance RETIRE_GEN and
update TOP_HBM_PAGES (R132, R378). -/
def State.noteRetired (s : State) (kind id : Nat) (rk : BitVec 4) (src : W32) (typ : Nat) : State :=
  let seq := match s.coalesceInto rk src typ with | some e => e.seq | none => 0xFFFFFFFF
  { s with
    err := { s.err with
      retireGen := s.err.retireGen + 1, retired := s.err.retired ++ [{ kind := kind, seq := seq, id := id }] }
    top := { s.top with pages := BitVec.ofNat 32 s.loadable } }

/-- What an expander carries stops with its stack: descriptors naming it complete FAULT (R146). -/
def State.stopExpander (s : State) (n : Nat) : State :=
  let s := s.setExpander n { s.expander n with st := .unavailable, en := false, drain := false }
  forAll (List.range 32) s fun s m =>
    let v := s.mover (n / 6) m
    match v.run with
    | some r =>
      let w0 := (wordAt r.words 0).toNat
      if fld w0 60 4 = 5 ∧ fld w0 48 3 = n % 6 then
        -- one that waits on a fault no longer does
        let st := if v.st ≠ .paused then v.st else if v.en then .running else .draining
        s.setMover (n / 6) m { v with st := st, run := some (if r.done then r else { r with verdict := some (4, 0), done := true }) }
      else s
    | none => s

/-- Retire a stack (R146): no access reaches it from now on (R408). -/
def State.retireStack (s : State) (n rule : Nat) : State :=
  if s.stackUp n then
    let s := { s with
      top := { s.top with hbmUp := s.top.hbmUp &&& ~~~ (BitVec.ofNat 24 (2 ^ n)) }
      mem := { s.mem with badStacks := s.mem.badStacks ||| BitVec.ofNat 24 (2 ^ n) } }
    let s := s.stopExpander n
    let src := BitVec.ofNat 32 n
    (s.report 5 src 0x22 none [BitVec.ofNat 32 rule]).noteRetired 3 n 5 src 0x22
  else s

/-- Retire the 64 KiB page that holds an address (R145): rule 0 uncorrectable, 1 corrected count, 2 repair exhausted. More than 256
retired pages retire their stack (R146). -/
def State.retirePage (s : State) (pa rule : Nat) : State :=
  let page := alignDown pa 65536
  if Tab.look false s.mem.badPages page then s
  else
    let put (s : State) : State :=
      { s with mem := { s.mem with badPages := Tab.put false s.mem.badPages page true } }
    let data := data64 page ++ [BitVec.ofNat 32 rule]
    match targetOf page with
    | .hbm n =>
      if !s.stackUp n then s
      else
        let s := ((put s).report 5 (BitVec.ofNat 32 n) 0x20 none data).noteRetired 1 page 5 (BitVec.ofNat 32 n) 0x20
        let lost := (s.mem.badPages.filter fun p => decide (p.1 / stackBytes = n)).length
        if 256 < lost then s.retireStack n 1 else s
    | .loam b => ((put s).report 4 (BitVec.ofNat 32 b) 0x20 none data).noteRetired 0 page 4 (BitVec.ofNat 32 b) 0x20
    | _ => s

/-- A tile is to be retired (R377): reported now, RETIRED once its reset ends. -/
def State.retireTile (s : State) (t rule : Nat) : State :=
  let x := s.tile t
  if x.retireDue || decide (x.st = .retired) then s
  else
    let src := BitVec.ofNat 32 t
    ((s.setTile t { x with retireDue := true }).report 0 src 0x21 none [BitVec.ofNat 32 rule]).noteRetired 2 t 0 src 0x21

/-- The bank of a Loam address within all slices, by address bits [13:8], and its row of 8 KiB (05; log entry 21). -/
def loamBank (a : Nat) : Nat := (a - loamBase) / 0x8000_0000 * 64 + a / 256 % 64
def loamRow (a : Nat) : Nat := (a - loamBase) % 0x8000_0000 / 0x80000

/-- Repair a Loam row with one of its bank's 16 spares (R143), a row repaired before among them, whose spare has failed in its turn; with none
left the page is retired. -/
def State.repairRow (s : State) (a : Nat) : State :=
  let bank := loamBank a
  let used := (s.err.rows.filter fun p => decide (p.1 = bank)).length
  if 16 ≤ used then s.retirePage a 2
  else
    { s with err := { s.err with rows := s.err.rows ++ [(bank, loamRow a, s.clk.gt)] } }.report 4 (BitVec.ofNat 32 (bank / 64)) 4 none
      [BitVec.ofNat 32 (bank % 64), BitVec.ofNat 32 (loamRow a), BitVec.ofNat 32 (15 - used)]

/-- Whether a row has been repaired at or after a time, so that an error seen at that time is not one of its present spare (R143). -/
def State.repairedSince (s : State) (a : Nat) (g : W64) : Bool :=
  s.err.rows.any fun p => decide (p.1 = loamBank a) && decide (p.2.1 = loamRow a) && decide (g ≤ p.2.2)

/-- 24 hours in tt. -/
def dayTt : Nat := 86400 * secondTt

/-- Places of raw corrected events: an address, or a Silt word of a tile. -/
def siltPlace (t off : Nat) : Nat := 2 ^ 52 + t * siltBytes + alignDown off 8

/-- The word or sector that an address lies in: what repair and retirement count (R143, R145). -/
def wordOf (a : Nat) : Nat := match targetOf a with | .loam _ => alignDown a 8 | .hbm _ => alignDown a 32 | _ => a

/-- A corrected error counts toward repair and retirement from the raw events of the last 24 hours (R143, R145, R367, R377). -/
def State.correctedAt (s : State) (at_ : Nat) : State :=
  let place := if 2 ^ 52 ≤ at_ then at_ else wordOf at_
  let recent := s.err.raw.filter fun p => decide ((s.clk.gt - p.2).toNat < dayTt)
  let raw := recent ++ [(place, s.clk.gt)]
  let s := { s with err := { s.err with raw := raw } }
  let distinct (f : Nat → Bool) : Nat := ((raw.map (·.1)).eraseDups.filter f).length
  if 2 ^ 52 ≤ place then
    let t := (place - 2 ^ 52) / siltBytes
    if 16 < distinct (fun p => decide (2 ^ 52 ≤ p) && decide ((p - 2 ^ 52) / siltBytes = t)) then s.retireTile t 1 else s
  else
    let s := match targetOf place with
      | .loam _ =>
        let inRow := raw.filter fun p => match targetOf p.1 with
          | .loam _ => decide (loamBank p.1 = loamBank place) && decide (loamRow p.1 = loamRow place) && !s.repairedSince place p.2
          | _ => false
        if 3 ≤ inRow.length then s.repairRow place else s
      | _ => s
    if 16 < distinct (fun p => decide (p < 2 ^ 52) && decide (p / 65536 = place / 65536)) then s.retirePage place 1 else s

/-- An access meets an uncorrectable error of the module's own stores: reported by the store that holds it, and acted on (R145, R377). The row
of a Loam word is repaired when the word is marked (R143). -/
def State.ueSilt (s : State) (t off : Nat) : State :=
  (s.report 0 (BitVec.ofNat 32 t) 0x10 none [BitVec.ofNat 32 off]).retireTile t 0
def State.ueSiltOpt (s : State) (t : Nat) (off : Option Nat) : State :=
  match off with
  | some o => s.ueSilt t o
  | none => s
def State.ueLoam (s : State) (a : Nat) : State :=
  (s.report 4 (BitVec.ofNat 32 ((a - loamBase) / 0x8000_0000)) 0x11 none (data64 a)).retirePage a 0
def State.ueHbm (s : State) (a : Nat) : State :=
  (s.report 5 (BitVec.ofNat 32 (a / stackBytes)) 0x12 none (data64 a)).retirePage a 0

/-- Report a failed physical access of a requester, which is the source of ADDRESS_DECODE and WINDOW_INACTIVE
(Table 16-3). -/
def State.reportMem (s : State) (e : MemErr) (rk : BitVec 4) (rid : Nat) : State :=
  match e with
  | .loam a => s.ueLoam a
  | .hbm a => s.ueHbm a
  | .silt t off => s.ueSilt t off
  | .decode a => s.report rk (BitVec.ofNat 32 rid) 0x13 none (data64 a)
  | .inactive t => s.report rk (BitVec.ofNat 32 rid) 0x14 none [BitVec.ofNat 32 t]

/-! ### Handles (R236, R239) -/

/-- The handle of a slot: generation and number (R236). -/
def Slot.handle (x : Slot) (n : Nat) : Nat := x.gen.toNat * 4096 + n

/-- The record of a slot as bytes (Table 9-8). -/
def Slot.recordBytes (x : Slot) : List Byte := x.record.flatMap fun w => toLe 8 w.toNat

/-- Put a completed slot's record at AREA + 64 · slot, then its interrupt message (R239). -/
def State.deliver (s : State) (n : Nat) : State :=
  let x := s.slotOf n
  let s := s.hostWrite (s.cmd.area + 64 * n) x.recordBytes
  let s := { s with cmd := { s.cmd with unsaved := s.cmd.unsaved ++ [n] } }
  if x.intr && s.cmd.intEn then
    s.send { vector := s.cmd.vector, payload := BitVec.ofNat 16 n, secure := s.cmd.areaSecure }
  else s

/-- After a switch-over the records put since the last checkpoint are written again, and their messages sent again (R353). -/
def State.redeliver (s : State) : State :=
  if s.linkUp && !s.cmd.areaRefused then
    forAll s.cmd.unsaved { s with cmd := { s.cmd with unsaved := [] } } fun s n =>
      if (s.slotOf n).st = .complete then s.deliver n else s
  else s

/-- Complete an outstanding handle: write its record and set the slot COMPLETE (R236, Table 9-8). While the link is not UP
the record is held, in completion order (R224), and so is one that the host refuses (R222). A slot that is not OUTSTANDING stays as it is, and once the
claim watchdog has acted no handle completes (R355). -/
def State.complete (s : State) (n : Nat) (status detail : Nat) (result : List W64) : State :=
  let x := s.slotOf n
  if x.st ≠ .outstanding ∨ s.clm.watchdog = true then s
  else
    let w0 := detail % 65536 * 2 ^ 48 + x.opcode.toNat * 2 ^ 40 + status % 256 * 2 ^ 32 + x.handle n
    let w2 := s.gtLow.toNat * 2 ^ 32 + x.gtAccept.toNat
    let rec5 := (result ++ List.replicate 5 0).take 5
    let x := { x with st := .complete
                      record := [BitVec.ofNat 64 w0, x.tag, BitVec.ofNat 64 w2] ++ rec5 }
    let s := s.setSlot n x
    if s.linkUp && !s.cmd.areaRefused then s.deliver n
    else { s with cmd := { s.cmd with heldRecords := s.cmd.heldRecords ++ [n] } }

/-- Complete a slot that may be absent. -/
def State.completeOpt (s : State) (n : Option Nat) (status detail : Nat) (result : List W64) : State :=
  match n with
  | some n => s.complete n status detail result
  | none => s

/-- A report is written and its handle completes OK with the bytes written; with the link not UP, or a host that refuses, PEER_LOST with
none (R222, R224, R240). -/
def State.writeReport (s : State) (r : HostReport) : State :=
  if s.linkUp && !r.refused then (s.hostWrite r.buf r.bytes).complete r.slot 0 0 [BitVec.ofNat 64 r.bytes.length]
  else s.complete r.slot 5 0 [0]

/-- Write every report that waits. -/
def State.writeReports (s : State) : State :=
  forAll s.cmd.reports { s with cmd := { s.cmd with reports := [] } } fun s r => s.writeReport r

end Sys2Proof.Machine
end

