-- ==== Sys2Proof/Machine/Send.lean ====
section
/-!
DEFINITION. Sending over Gauze: routes and flows (R198, R199), requests with their transaction and end-to-end numbers (R197, R200), the
packets of class control (R203–R206, R218).
-/

namespace Sys2Proof.Machine

/-- The flow of a request that carries an address (R199). -/
def flowOf (a : Nat) : BitVec 4 :=
  BitVec.ofNat 4 (fld a 8 4 ^^^ fld a 12 4 ^^^ fld a 16 4 ^^^ fld a 20 4)

/-- The port of the route table for a destination and flow, 0xFF for none (R198). -/
def State.routeOf (s : State) (dst : BitVec 6) (flow : BitVec 4) : Nat :=
  (Tab.look 0xFF s.gz.routes (16 * dst.toNat + flow.toNat)).toNat

/-- A flow is frozen while a request it sent on a route now lost has neither its response nor been sent again (R199). Responses and control
packets go on. -/
def State.frozen (s : State) (k : Packet) : Bool :=
  (k.cls = 0 || k.cls = 2) && s.gz.txns.any fun t => t.old && decide (t.peer = k.dst) && decide (t.flow = k.flow)

/-- Send a packet: back to this module's own receiver where it is its own destination, on the port its route names, or into waiting
where no route takes it or its flow is frozen (R198, R199). -/
def State.sendPacket (s : State) (k : Packet) : State :=
  let r := s.routeOf k.dst k.flow
  if s.gz.joined && decide (k.dst = s.gz.me) then { s with gz := { s.gz with arrived := s.gz.arrived ++ [k] } }
  else if r < 32 ∧ (s.port r).carries = true ∧ s.frozen k = false then s.queueOn r k
  else { s with gz := { s.gz with sent := s.gz.sent ++ [k] } }

/-- A blank packet from this module in the present epoch. -/
def State.packet (s : State) (typ : BitVec 8) (cls : BitVec 2) (dst : BitVec 6) : Packet :=
  { cls := cls, hop := 0, dst := dst, src := s.gz.me, flow := 0, len := 0, epoch := s.gz.epoch.setWidth 16, addr := 0
    tagged := false, cadence := 0, period := 0, txn := 0, ctr := 0, inc := 0, rstatus := 0, aop := 0, seq := 0, typ := typ
    payload := [] }

/-! ### Membership messages (R203–R206) -/

/-- The lowest member of a mask. -/
def lowestOf (mask : W64) : Option Nat := (List.range 64).find? fun m => mask.getLsbD m

/-- The members of a mask but this one. -/
def State.others (s : State) (mask : W64) : List Nat := (List.range 64).filter fun m => mask.getLsbD m && decide (m ≠ s.gz.me.toNat)

/-- Where a MEMBER packet goes: a heartbeat, an epoch and a departure to every other member, old and new; a leave and a loss to the
coordinator; a request for admission to the lowest member of the membership that the host expects (log entry 181). -/
def State.tellTo (s : State) (m : MemberMsg) : List Nat :=
  match m with
  | .heartbeat _ => (s.others s.gz.members).filter fun d => decide (s.routeOf (BitVec.ofNat 6 d) 0 < 32)
  | .epoch _ _ mask => s.others ((s.gz.members ||| mask) &&& ~~~ s.gz.suspects)
  | .departing _ => s.others s.gz.members
  | .leave _ => [s.gz.coordinator.toNat]
  | .loss _ _ => ((s.others (s.gz.members &&& ~~~ s.gz.suspects)).head?).toList
  | .admission _ => ((s.others s.gz.expected).head?).toList

/-- Ports of this module that are UP, with the member at the far end. -/
def State.upPorts (s : State) : List Nat := (List.range 32).filter fun p => decide ((s.port p).st = .up) && (s.port p).peerValid

/-- A MEMBER packet. Its payload has no stated layout, and is an opaque function of the message (log entry 181). -/
def State.memberPacket (s : State) (m : MemberMsg) (dst : Nat) : Packet :=
  let l := (Config.memberPayload m).take 256
  { s.packet 0x30 3 (BitVec.ofNat 6 dst) with len := l.length, payload := l }

/-- Send a MEMBER packet. A module that asks for admission has no routes yet: its packet leaves by its first port that is UP. -/
def State.tell (s : State) (m : MemberMsg) : State :=
  let s := forAll (s.tellTo m) s fun s d =>
    if s.gz.joined then s.sendPacket (s.memberPacket m d)
    else match s.upPorts.head? with
      | some p => s.queueOn p (s.memberPacket m d)
      | none => s
  { s with gz := { s.gz with memberSent := s.gz.memberSent ++ [m] } }

/-- Send a request: a transaction of its own and the next end-to-end number of its destination and flow (R197, R200). -/
def State.request (s : State) (k : Packet) (who : Waiter) : State :=
  let i := 16 * k.dst.toNat + k.flow.toNat
  let seq := Tab.look 0 s.gz.e2e i
  let k := { k with txn := s.gz.nextTxn, seq := seq }
  let s := { s with gz := { s.gz with
    e2e := Tab.put 0 s.gz.e2e i (seq + 1), nextTxn := s.gz.nextTxn + 1
    txns := s.gz.txns ++ [({ num := k.txn, peer := k.dst, flow := k.flow, who := who } : Txn)] } }
  s.sendPacket k

/-- Member `m` belongs to the membership this module has adopted. -/
def State.isMember (s : State) (m : Nat) : Bool := s.gz.joined && s.gz.members.getLsbD m

/-- The cadence and period that a tile's far accesses are tagged with (R265). -/
def State.tagOf (s : State) (t : Nat) : Option (Nat × Nat) :=
  (s.cads.find? fun p => (decide (p.2.st = .active) || decide (p.2.st = .draining)) &&
    let c := s.ctx p.2.ctx.toNat
    match c.cads.find? fun d => decide (d.number = p.1) with
    | some d => (c.groups.zipIdx).any fun g => d.groups.getLsbD g.2 && decide (g.1.phys = t / 16)
    | none => false).map fun p => (p.1, p.2.period)

/-- A far access to another member's window leaves as WIN_LOAD, WIN_STORE or WIN_ATOMIC (R208). -/
def State.sendFar (s : State) (t : Nat) (f : FarAccess) : State :=
  match targetOf f.pa with
  | .window m off =>
    if !s.isMember m || decide (m = s.gz.me.toNat) then s
    else
      let typ : BitVec 8 := match f.kind with | .load _ => 1 | .store => 2 | .amo _ => 3
      let k : Packet := { s.packet typ 0 (BitVec.ofNat 6 m) with
        addr := BitVec.ofNat 64 off
        flow := flowOf off
        len := f.size
        aop := match f.kind with | .amo op => BitVec.ofNat 4 op | _ => 0
        payload := match f.kind with
          | .load _ => []
          | .store => toLe f.size f.data.toNat
          | .amo _ => toLe 8 f.data.toNat ++ toLe 8 f.cmp.toNat }
      let k : Packet := match s.tagOf t with
        | some (c, n) => { k with tagged := true, cadence := BitVec.ofNat 6 c, period := BitVec.ofNat 9 n }
        | none => k
      s.request { k with len := match f.kind with | .amo _ => 16 | _ => k.len } (.far t f.id)
  | _ => s

end Sys2Proof.Machine
end

