-- ==== Sys2Proof/Machine/Operands.lean ====
section
/-!
DEFINITION. Syllables: their fields (Tables 3-1 to 3-3), what they read and write, and the checks of R33, R45, R65–R69,
R86, R87 and R91 that are made when a bundle issues.
-/

namespace Sys2Proof.Machine

/-- The eight words of the bundle of a command: `w` in its slot, the others as given, NOP where none is (R32). -/
def bundleOf (i : Issue) (w : W64) : List W64 :=
  (List.range 8).map fun k =>
    if k = i.slot.val then w
    else match i.rest.find? fun p => decide (p.1.val = k) with
      | some p => p.2
      | none => nopWord

/-! ### Element types (R79, Table 3-7) -/

def etFp (et : Nat) : Bool := decide (et ≤ 3)
def etInt (et : Nat) : Bool := decide (4 ≤ et) && decide (et ≤ 9)
def etSigned (et : Nat) : Bool := et = 4 || et = 6 || et = 8
/-- Bits of the type. -/
def etBits (et : Nat) : Nat :=
  if et = 1 then 64 else if et = 0 ∨ et = 4 ∨ et = 5 then 32 else if et ≤ 3 ∨ et = 6 ∨ et = 7 then 16 else 8
/-- Bits of its lane: the width w of R31. -/
def etLane (et : Nat) : Nat := if et = 1 then 64 else 32
/-- Lanes of a register. -/
def etLanes (et : Nat) : Nat := 2048 / etLane et
/-- The floating-point format of ET 0–3. -/
def etFmt (et : Nat) : Fmt := if et = 0 then fmtF32 else if et = 1 then fmtF64 else if et = 2 then fmtBf16 else fmtF16

/-! ### Registers that a syllable reads and writes -/

/-- A scalar, vector or predicate register. -/
inductive Reg where | s (n : Nat) | v (n : Nat) | p (n : Nat)
  deriving DecidableEq, Repr

/-- Operations of KIND 0x3 that read sA and sB: Table 3-5 register forms. -/
def scalarRR (op : Nat) : Bool := (1 ≤ op && op ≤ 0x14) || (0x80 ≤ op && op ≤ 0x85)
/-- Immediate forms (OP of the register form plus 0x40). -/
def scalarRI (op : Nat) : Bool :=
  op = 0x41 || op = 0x43 || op = 0x4A || op = 0x4B || op = 0x4C || op = 0x4E || op = 0x4F || op = 0x50
    || (0xC0 ≤ op && op ≤ 0xC5)
/-- `clz`, `ctz`, `popc`. -/
def scalarBits (op : Nat) : Bool := 0x18 ≤ op && op ≤ 0x1A
/-- Scalar operations whose RD names a predicate. -/
def scalarToP (op : Nat) : Bool :=
  (0x80 ≤ op && op ≤ 0x85) || (0xC0 ≤ op && op ≤ 0xC5) || (0x90 ≤ op && op ≤ 0x94) || op = 0x96
/-- Vector operations with an operand b that MOD[11] may broadcast (R81). -/
def vecHasB (op : Nat) : Bool := (1 ≤ op && op ≤ 6) || (0x10 ≤ op && op ≤ 0x15) || (0x20 ≤ op && op ≤ 0x22)
/-- Long vector operations (R33, Table 3-8). -/
def isLongOp (op : Nat) : Bool := 0x60 ≤ op && op ≤ 0x64
def isLong (w : W64) : Bool := sKind w = 5 && isLongOp (sOp w)

/-- Every register a syllable writes (R69). -/
def dests (w : W64) : List Reg :=
  let op := sOp w
  match sKind w with
  | 2 => if op = 2 ∨ op = 4 then [.s (fRD w)] else []
  | 3 =>
    if scalarToP op then [.p (fRD w)]
    else if scalarRR op || scalarRI op || scalarBits op || op = 0x60 || op = 0x61 || op = 0x95 || op = 0xF0
      then [.s (fRD w)]
    else []
  | 4 =>
    if (1 ≤ op ∧ op ≤ 7) ∨ (0x21 ≤ op ∧ op ≤ 0x27) ∨ (0x40 ≤ op ∧ op ≤ 0x45) then [.s (fRD w)]
    else if op = 8 ∨ op = 0x28 then [.v (fRD w)] else []
  | 5 =>
    if 0x20 ≤ op ∧ op ≤ 0x22 then [.p (vVD w)]
    else if op = 0x31 ∨ op = 0x70 then [.s (vSB w)]
    else if (1 ≤ op ∧ op ≤ 0x0A) ∨ (0x10 ≤ op ∧ op ≤ 0x15) ∨ op = 0x23 ∨ op = 0x30 ∨ (0x32 ≤ op ∧ op ≤ 0x34)
      ∨ (0x40 ≤ op ∧ op ≤ 0x42) ∨ (0x50 ≤ op ∧ op ≤ 0x52) ∨ op = 0x60 ∨ (0x62 ≤ op ∧ op ≤ 0x64) then [.v (vVD w)]
    else []
  | 6 => if op = 0x11 then [.v (aV w)] else []
  | 7 => if op = 0x13 then [.s (fRA w)] else []
  | _ => []

/-- Scalar and vector registers that a syllable reads, its guard apart. -/
def sources (w : W64) : List Reg :=
  let op := sOp w
  match sKind w with
  | 2 => if op = 3 ∨ op = 4 then [.s (fRA w)] else []
  | 3 =>
    if scalarRR op then [.s (fRA w), .s (fRB w)]
    else if scalarRI op || scalarBits op || op = 0x61 || op = 0x94 || op = 0x96 || op = 0xF1 then [.s (fRA w)]
    else []
  | 4 =>
    let base := [Reg.s (fRA w)]
    if (0x11 ≤ op ∧ op ≤ 0x17) ∨ (0x31 ≤ op ∧ op ≤ 0x37) then .s (fRD w) :: base
    else if op = 0x18 ∨ op = 0x38 then .v (fRD w) :: base
    else if 0x40 ≤ op ∧ op ≤ 0x44 then .s (fRB w) :: base
    else if op = 0x45 then [.s (fRB w), .s (fRC w)] ++ base
    else if op = 0x50 ∨ op = 0x51 then [] else base
  | 5 =>
    let b := if vBcast w then Reg.s (vSA w) else .v (vVB w)
    if op = 4 then [.v (vVA w), b, .v (vVC w)]
    else if vecHasB op then [.v (vVA w), b]
    else if (7 ≤ op ∧ op ≤ 0x0A) ∨ op = 0x31 ∨ (0x40 ≤ op ∧ op ≤ 0x42) ∨ (0x50 ≤ op ∧ op ≤ 0x52) ∨ op = 0x63 ∨ op = 0x64
      then [.v (vVA w)]
    else if op = 0x23 ∨ op = 0x33 then [.v (vVA w), .v (vVB w)]
    else if op = 0x30 ∨ op = 0x32 ∨ op = 0x70 then [.s (vSA w)]
    else if op = 0x60 then [.v (vVA w), .s (vSA w)]
    else if op = 0x61 then [.v (vVA w), .v (vVB w), .s (vSA w)]
    else if op = 0x62 then (List.range (wf w 0 5 + 1)).map fun k => .v (vVA w + k)
    else []
  | 6 =>
    if op = 1 ∨ op = 2 then [.s (xRA w), .s (xRB w)]
    else if op = 0x12 then [.v (aV w)]
    else if op = 0x13 ∨ op = 0x14 then [.s (aRA w)] else []
  | 7 =>
    if op = 1 then [.s (fRD w), .s (fRA w)]
    else if op = 0x11 ∨ op = 0x12 then [.s (fRD w)] else []
  | _ => []

/-! ### Bundle checks (R33) -/

/-- Whether a syllable's kind, or `csrr` and `csrw`, may stand in a slot (Table 3-2). -/
def slotAllows (k : Nat) (w : W64) : Bool :=
  match sKind w with
  | 1 => true
  | 2 => k = 0
  | 3 => if sOp w = 0xF0 ∨ sOp w = 0xF1 then k = 1 else k = 1 || k = 2
  | 4 => k = 3
  | 5 => k = 4 || k = 5
  | 6 => k = 6
  | 7 => k = 7
  | _ => false

/-- s0 and p0 are excepted from the duplicate check. -/
def Reg.counts : Reg → Bool
  | .s n => n ≠ 0
  | .v _ => true
  | .p n => n ≠ 0

/-- The lowest slot that takes part in any breach of R33 (R48). -/
def bundleBreach (ws : List W64) : Option Nat :=
  let w (k : Nat) := ws.getD k nopWord
  let sysBrk := decide (sKind (w 0) = 2) && (decide (sOp (w 0) = 0x10) || decide (sOp (w 0) = 0x11))
    && [3, 6, 7].any fun k => decide (w k ≠ nopWord)
  (List.range 8).find? fun k =>
    !(slotAllows k (w k))
      || ((dests (w k)).any fun r => r.counts && (List.range 8).any fun j => decide (j ≠ k) && (dests (w j)).contains r)
      || (decide (k = 4) && isLong (w 4) && isLong (w 5))
      || (decide (k = 0) && sysBrk)

/-! ### Syllable checks (R68) -/

/-- Table 2-5 numbers. -/
def csrListed (n : Nat) : Bool := n ≤ 0x13 || (0x40 ≤ n && n ≤ 0x4F)

/-- Rate class of a format code: 16-bit, 8-bit, narrow, ternary (Table 3-9). -/
def rateClass (c : Nat) : Nat := if c ≤ 1 then 0 else if c ≤ 4 then 1 else if c ≤ 8 then 2 else 3

/-- FA and FB pair (R86). -/
def pairOk (fa fb : Nat) : Bool :=
  decide (fa ≤ 8) && ((decide (fb ≤ 8) && decide (rateClass fa = rateClass fb))
    || (decide (fb = 9) && decide (rateClass fa = 1)))

/-- Legality of a control syllable (format C). -/
def controlOk (w : W64) : Bool :=
  let rd := fRD w; let ra := fRA w; let imm := fImm w
  wf w 32 4 = 0 &&
  match sOp w with
  | 0x01 => rd = 0 && ra = 0
  | 0x02 => ra = 0
  | 0x03 => rd = 0 && imm = 0
  | 0x04 => imm = 0
  | 0x10 | 0x11 => rd = 0 && ra = 0 && imm < 65536
  | 0x20 | 0x21 | 0x22 | 0x30 => rd = 0 && ra = 0 && imm = 0
  | _ => false

/-- Legality of a scalar syllable (formats SR, SI). -/
def scalarOk (w : W64) : Bool :=
  let op := sOp w
  let sr := wf w 0 30 = 0
  let si := wf w 32 4 = 0
  let pd := !scalarToP op || fRD w < 16
  pd &&
  if scalarRR op then sr
  else if scalarRI op then si
  else if scalarBits op then sr && fRB w = 0
  else if op = 0x60 then si && fRA w = 0
  else if op = 0x61 then si
  else if 0x90 ≤ op ∧ op ≤ 0x93 then sr && fRA w < 16 && fRB w < 16
  else if op = 0x94 ∨ op = 0x96 then sr && fRB w = 0
  else if op = 0x95 then sr && fRB w = 0 && fRA w < 16
  else if op = 0xF0 then si && fRA w = 0 && fImm w < 4096 && csrListed (fImm w)
  else if op = 0xF1 then si && fRD w = 0 && fImm w < 4096 && csrListed (fImm w)
  else false

/-- Legality of a memory syllable (formats SI, MA). -/
def memoryOk (w : W64) : Bool :=
  let op := sOp w
  let si := wf w 32 4 = 0
  if (1 ≤ op ∧ op ≤ 7) ∨ (0x21 ≤ op ∧ op ≤ 0x27) then si
  else if op = 0x11 ∨ op = 0x13 ∨ op = 0x15 ∨ op = 0x17 ∨ op = 0x31 ∨ op = 0x33 ∨ op = 0x35 ∨ op = 0x37 then si
  else if op = 8 ∨ op = 0x18 ∨ op = 0x28 ∨ op = 0x38 then si && fRD w < 32
  else if 0x40 ≤ op ∧ op ≤ 0x44 then wf w 0 30 = 0
  else if op = 0x45 then wf w 0 24 = 0
  else if op = 0x50 ∨ op = 0x51 then wf w 0 48 = 0
  else false

/-- Element types that a vector operation accepts (Table 3-8). -/
def vecTypeOk (op et : Nat) : Bool :=
  if op = 4 then etFp et
  else if op = 9 ∨ op = 0x0A then et ≤ 1
  else if (0x10 ≤ op ∧ op ≤ 0x15) ∨ op = 0x34 then etInt et
  else if op = 0x41 ∨ op = 0x42 then et ≤ 9 && etBits et ≤ 16
  else if op = 0x60 ∨ op = 0x61 then et = 0 || et = 1 || et = 4 || et = 5
  else if op = 0x70 then et = 0
  else et ≤ 9

/-- MOD of a vector syllable: only the bits its operation defines, at values in range (R81–R84, Table 3-8). -/
def vecModOk (w : W64) : Bool :=
  let op := sOp w; let m := vMOD w; let et := vET w
  if vecHasB op then m % 2048 = 0
  else if op = 0x31 ∨ op = 0x32 then m < etLanes et
  else if op = 0x40 then m < 128 && m % 16 ≤ 9
  else if op = 0x41 ∨ op = 0x42 then m < (if etBits et = 16 then 2 else 4)
  else if op = 0x62 then m < 96 && vVA w + m % 32 ≤ 31
  else m = 0

/-- Unused register fields of a vector syllable are zero, and predicates are 0–15 (R67). -/
def vecFieldsOk (w : W64) : Bool :=
  let op := sOp w
  let b := if vBcast w then vVB w = 0 else vSA w = 0
  let z (vd va vb vc sa sb : Bool) : Bool :=
    (vd || vVD w = 0) && (va || vVA w = 0) && (vb || vVB w = 0) && (vc || vVC w = 0) && (sa || vSA w = 0)
      && (sb || vSB w = 0)
  if 0x20 ≤ op ∧ op ≤ 0x22 then z true true true false true false && b && vVD w < 16
  else if op = 4 then z true true true true true false && b
  else if vecHasB op then z true true true false true false && b
  else if (7 ≤ op ∧ op ≤ 0x0A) ∨ (0x40 ≤ op ∧ op ≤ 0x42) ∨ (0x50 ≤ op ∧ op ≤ 0x52) ∨ op = 0x62
    then z true true false false false false
  else if op = 0x23 then z true true true true false false && vVC w < 16
  else if op = 0x30 ∨ op = 0x32 then z true false false false true false
  else if op = 0x31 then z false true false false false true
  else if op = 0x33 then z true true true false false false
  else if op = 0x34 then z true false false false false false
  else if op = 0x70 then z false false false false true true
  else if op = 0x60 then z true true false false true false
  else if op = 0x61 then z false true true false true false
  else if op = 0x63 ∨ op = 0x64 then z true true false false false false && vVD w ≠ vVA w
  else false

/-- Legality of a vector syllable. -/
def vectorOk (w : W64) : Bool := vecFieldsOk w && vecTypeOk (sOp w) (vET w) && vecModOk w

/-- The values of MOPA and MOPB that `mmac` and `mout` check at issue (Table 3-10). A TSCALE that is not zero although TSC
= 0 counts as an invalid value (log entry 11). -/
def matrixValuesOk (w a b : W64) : Bool :=
  let mout := sOp w = 2
  wf a 50 14 = 0
    && (if mout then wf a 38 12 = 0 && wf a 0 19 = 0 else wf a 38 12 ≠ 0)
    && (if xSTR w then wf b 57 7 = 0
        else wf b 19 13 = 0 && (xTSC w || wf b 32 32 = 0) && (!mout || wf b 0 19 = 0))

/-- Legality of a matrix syllable, with the tile's scalar registers for the values checked at issue. -/
def matrixOk (x : Tile) (w : W64) : Bool :=
  let op := sOp w
  let xa (acc v ra mask rowp : Bool) : Bool :=
    wf w 0 23 = 0 && (acc || xACC w = 0) && (v || aV w = 0) && (ra || aRA w = 0) && (mask || aMASK w = 0)
      && (rowp || aROWP w = 0)
  if op = 1 then
    wf w 0 12 = 0 && pairOk (xFA w) (xFB w)
      && (if xOUT w then xOFMT w ≤ 4 else xOFMT w = 0 && !xSR w && !xSAT w && !xTSC w)
      && !(xSTR w && xTSC w) && matrixValuesOk w (x.getS (xRA w)) (x.getS (xRB w))
  else if op = 2 then
    wf w 0 12 = 0 && xFA w = 0 && xFB w = 0 && !xSTR w && !xZERO w && xOUT w && xOFMT w ≤ 4
      && matrixValuesOk w (x.getS (xRA w)) (x.getS (xRB w))
  else if op = 0x10 then xa true false false false false
  else if op = 0x11 ∨ op = 0x12 then xa true true false false true
  else if op = 0x13 ∨ op = 0x14 then xa true false true false false
  else if op = 0x20 then xE w = 0 && xa false false false true false
  else if op = 0x21 ∨ op = 0x22 then xa false false false false false
  else false

/-- Legality of a stream and sync syllable. -/
def streamOk (x : Tile) (w : W64) : Bool :=
  let op := sOp w
  let ra := fRD w; let rb := fRA w
  wf w 16 10 = 0 &&
  if op = 1 then tCTR w = 0 && tIMM w = 0 && wf (x.getS rb) 5 59 = 0
  else if op = 0x10 then ra = 0 && rb = 0
  else if op = 0x11 ∨ op = 0x12 then rb = 0 && tIMM w = 0
  else if op = 0x13 then ra = 0 && tIMM w = 0
  else if op = 0x20 then ra = 0 && rb = 0 && tCTR w = 0 && tIMM w = 0
  else false

/-- R68, but for the guard. -/
def syllableOk (x : Tile) (w : W64) : Bool :=
  match sKind w with
  | 1 => w = nopWord
  | 2 => controlOk w
  | 3 => scalarOk w
  | 4 => memoryOk w
  | 5 => vectorOk w
  | 6 => matrixOk x w
  | 7 => streamOk x w
  | _ => false

/-- Bit 0 of the guard predicate, which decides outside the vector slots (R30). -/
def guardOn (x : Tile) (w : W64) : Bool := (x.getP (sGuard w)).getLsbD 0

/-- Whether the checks of R68 and R45 apply to the syllable in a slot (R68). -/
def checked (x : Tile) (k : Nat) (w : W64) : Bool := k = 4 || k = 5 || guardOn x w

/-! ### Privilege (R45, R75, R91) -/

def Tile.supervisor (x : Tile) : Bool := x.sys.tstatus.getLsbD 0
/-- TCTX.context. -/
def Tile.ctxNo (x : Tile) : Nat := wf x.sys.tctx 0 4
/-- TCTX.ASID. -/
def Tile.asid (x : Tile) : Nat := wf x.sys.tctx 4 12

/-- System registers that user mode reads and writes (Table 2-5). -/
def userRead (n : Nat) : Bool := n = 0 || n = 9 || n = 0xA || n = 0xB || n = 0xC || n = 0xD
def userWrite (n : Nat) : Bool := n = 9 || n = 0xA || n = 0xB

/-- Whether firmware granted a counter to the context (R91). -/
def State.ctrGranted (s : State) (c ctr : Nat) : Bool := Tab.look none s.eng.ctrGrant ctr = some c

/-- A syllable that raises PRIVILEGE, its guard apart. -/
def needsPrivilege (s : State) (t : Nat) (w : W64) : Bool :=
  let x := s.tile t
  let op := sOp w
  match sKind w with
  | 2 => (op = 0x20 || op = 0x21 || op = 0x22) && !x.supervisor
  | 3 => !x.supervisor && ((op = 0xF0 && !userRead (fImm w)) || (op = 0xF1 && !userWrite (fImm w)))
  | 6 => (op = 0x21 || op = 0x22) && !x.supervisor
  | 7 =>
    if op = 1 then
      let m := s.mover (boltOf t) (wf (x.getS (fRA w)) 0 5)
      !(m.granted && m.ctx.toNat = x.ctxNo)
    else if 0x10 ≤ op ∧ op ≤ 0x13 then !(s.ctrGranted x.ctxNo (tCTR w)) else false
  | _ => false

/-! ### Lanes enabled in a vector syllable (R30, R31) -/

/-- VL, at most 64 (R31). -/
def Tile.vlen (x : Tile) : Nat := min x.sys.vl.toNat 64

/-- Lanes that `vcvt` processes: as many as both its types have (log entry 12). -/
def vecLanes (w : W64) : Nat :=
  if sOp w = 0x40 then min (etLanes (vET w)) (etLanes (vMOD w % 16)) else etLanes (vET w)

/-- Lanes below the bound of R31 whose guard bit is set, in ascending order. -/
def enabledLanes (x : Tile) (vl : Nat) (w : W64) : List Nat :=
  let g := x.getP (sGuard w)
  (List.range (min vl (vecLanes w))).filter fun k => g.getLsbD k

/-- Whether a syllable in slot `k` reads its sources: outside the vector slots its guard decides; in a vector slot a
syllable with no enabled lane reads nothing, except `vext` and `setvl`, which the guard does not bind by lane (log entry
13). -/
def readsSources (x : Tile) (vl : Nat) (k : Nat) (w : W64) : Bool :=
  if k = 4 ∨ k = 5 then
    sOp w = 0x31 || sOp w = 0x70
      || (if sOp w = 0x32 then (enabledLanes x vl w).contains (vMOD w) else enabledLanes x vl w ≠ [])
  else guardOn x w

/-- The poison of the first poisoned register a syllable reads (R41). -/
def poisonRead (x : Tile) (vl : Nat) (k : Nat) (w : W64) : Option Poison :=
  if readsSources x vl k w then
    (sources w).findSome? fun r => match r with
      | .s n => Tab.look none x.sPoison n
      | .v n => Tab.look none x.vPoison n
      | .p _ => none
  else none

end Sys2Proof.Machine
end

