-- ==== Sys2Proof/Machine/Flags.lean ====
section
/-!
DEFINITION. TFFLAGS (Table 2-5, R80, R108) and the ages by which the hazards of Table 2-4 are recognised (R37).
-/

namespace Sys2Proof.Machine

/-- OR flags into TFFLAGS. -/
def Tile.orFlags (x : Tile) (fl : Nat) : Tile :=
  { x with sys := { x.sys with tfflags := x.sys.tfflags ||| BitVec.ofNat 64 (fl % 32) } }

/-- One bundle has passed: every age rises, saturating at 7; stores older than six bundles no longer matter. -/
def Hazards.tick (h : Hazards) : Hazards :=
  let up (n : Nat) := min (n + 1) 7
  { vl := up h.vl, tvec := up h.tvec, tie := up h.tie, mseed := up h.mseed, tfflags := up h.tfflags
    stores := (h.stores.map fun p => (p.1 + 1, p.2)).filter fun p => decide (p.1 < 6) }

/-- Record a Silt store of slots 3–5 (Table 2-4). -/
def Tile.noteStore (x : Tile) (off n : Nat) : Tile :=
  { x with haz := { x.haz with stores := (0, off, n) :: x.haz.stores } }

/-- VL was written in the bundle just before: a vector instruction that uses it has undefined results (Table 2-4). -/
def Hazards.vlOpen (h : Hazards) : Bool := h.vl < 1
/-- TVEC, TIE, MSEED or TFFLAGS was written less than two bundles before. -/
def Hazards.tvecOpen (h : Hazards) : Bool := h.tvec < 2
def Hazards.tieOpen (h : Hazards) : Bool := h.tie < 2
def Hazards.mseedOpen (h : Hazards) : Bool := h.mseed < 2
def Hazards.tfflagsOpen (h : Hazards) : Bool := h.tfflags < 2

/-- A store of the bundle in issue touches the range. -/
def Hazards.storeNow (h : Hazards) (off n : Nat) : Bool :=
  h.stores.any fun p => decide (p.1 = 0) && decide (off < p.2.1 + p.2.2) && decide (p.2.1 < off + n)

/-- A Silt store less than six bundles old touches the range. -/
def Hazards.storeIn (h : Hazards) (off n : Nat) : Bool :=
  h.stores.any fun p => decide (off < p.2.1 + p.2.2) && decide (p.2.1 < off + n)

end Sys2Proof.Machine
end

