-- ==== Sys2Proof/Machine/Scalar.lean ====
section
/-!
DEFINITION. What the scalar operations of Table 3-5 compute (R73, R74).
-/

namespace Sys2Proof.Machine

/-- Leading zeros; 64 for zero. -/
def clz64 (a : W64) : Nat := 64 - bitLen a.toNat
/-- Trailing zeros; 64 for zero. -/
def ctz64 (a : W64) : Nat := ((List.range 64).find? fun k => a.getLsbD k).getD 64
/-- Set bits. -/
def popc64 (a : W64) : Nat := ((List.range 64).filter fun k => a.getLsbD k).length

/-- Quotient: all ones for a zero divisor; −2⁶³ ÷ −1 is −2⁶³ (R74). -/
def divS (a b : W64) : W64 := if b = 0 then BitVec.allOnes 64 else BitVec.sdiv a b
def divU (a b : W64) : W64 := if b = 0 then BitVec.allOnes 64 else a / b
/-- Remainder: the dividend for a zero divisor (R74). -/
def remS (a b : W64) : W64 := if b = 0 then a else BitVec.srem a b
def remU (a b : W64) : W64 := if b = 0 then a else a % b

/-- High 64 bits of the signed product. -/
def mulHigh (a b : W64) : W64 := BitVec.ofInt 64 (a.toInt * b.toInt / 2 ^ 64)
/-- High 64 bits of the unsigned product. -/
def mulHighU (a b : W64) : W64 := BitVec.ofNat 64 (a.toNat * b.toNat / 2 ^ 64)

/-- sA op b for the operations with a scalar result, by the OP of the register form (Table 3-5). -/
def scalarAlu (op : Nat) (a b : W64) : W64 :=
  match op with
  | 0x01 => a + b
  | 0x02 => a - b
  | 0x03 => a * b
  | 0x04 => mulHigh a b
  | 0x05 => mulHighU a b
  | 0x06 => divS a b
  | 0x07 => divU a b
  | 0x08 => remS a b
  | 0x09 => remU a b
  | 0x0A => a &&& b
  | 0x0B => a ||| b
  | 0x0C => a ^^^ b
  | 0x0D => a &&& ~~~ b
  | 0x0E => a <<< (b.toNat % 64)
  | 0x0F => a >>> (b.toNat % 64)
  | 0x10 => BitVec.sshiftRight a (b.toNat % 64)
  | 0x11 => if BitVec.slt b a then b else a
  | 0x12 => if BitVec.slt a b then b else a
  | 0x13 => if b < a then b else a
  | 0x14 => if a < b then b else a
  | 0x18 => BitVec.ofNat 64 (clz64 a)
  | 0x19 => BitVec.ofNat 64 (ctz64 a)
  | 0x1A => BitVec.ofNat 64 (popc64 a)
  | _ => a

/-- sA rel b, by OP 0x80–0x85 (Table 3-5). -/
def scalarRel (op : Nat) (a b : W64) : Bool :=
  match op with
  | 0x80 => a = b
  | 0x81 => a ≠ b
  | 0x82 => BitVec.slt a b
  | 0x83 => a < b
  | 0x84 => BitVec.sle a b
  | _ => a ≤ b

/-- pA op pB, by OP 0x90–0x93. -/
def predAlu (op : Nat) (a b : W64) : W64 :=
  match op with
  | 0x90 => a &&& b
  | 0x91 => a ||| b
  | 0x92 => a ^^^ b
  | _ => a &&& ~~~ b

/-- `pfirst`: the low sA bits set; all ones from 64 up (Table 3-5). -/
def firstMask (a : W64) : W64 := if 64 ≤ a.toNat then BitVec.allOnes 64 else BitVec.ofNat 64 (2 ^ a.toNat - 1)

/-- `lih`: IMM in the high half over the low half of sA. -/
def lihValue (imm : Nat) (a : W64) : W64 := BitVec.ofNat 64 (imm * 2 ^ 32 + a.toNat % 2 ^ 32)

/-! ### System registers (R45, R46, R75) -/

/-- TIP: its latched bits, TIMER while TGT ≥ TTIMER, FAR_STORE_ERROR while an error is unreported (Table 2-8). -/
def tipNow (gt : W64) (x : Tile) : W64 :=
  BitVec.ofNat 64 (wf x.sys.tip 1 3 * 2 + b2n (x.sys.ttimer ≤ gt) + 16 * b2n (x.storeErrs ≠ []))

/-- The value `csrr` returns, by number, at a GT and count of tile cycles (Table 2-5). -/
def csrValue (gt cyc : W64) (t : Nat) (x : Tile) (n : Nat) : W64 :=
  match n with
  | 0x00 => BitVec.ofNat 64 t
  | 0x01 => x.sys.tstatus
  | 0x02 => x.sys.tcause
  | 0x03 => x.sys.tepc
  | 0x04 => x.sys.tval
  | 0x05 => x.sys.tvec
  | 0x06 => x.sys.tscratch
  | 0x07 => x.sys.tie
  | 0x08 => tipNow gt x
  | 0x09 => x.sys.vl
  | 0x0A => x.sys.tfflags
  | 0x0B => x.sys.mseed
  | 0x0C => cyc - x.sys.cycleZero
  | 0x0D => gt
  | 0x0E => x.sys.ttimer
  | 0x0F => x.sys.tctx
  | 0x10 => x.sys.vcur
  | 0x11 => x.sys.vsyl
  | 0x12 => x.sys.vopa
  | 0x13 => x.sys.vopb
  | _ =>
    let e := x.engine ((n - 0x40) / 4)
    match n % 4 with
    | 0 => e.mcur
    | 1 => e.msyl
    | 2 => e.mopa
    | _ => e.mopb

/-- An engine register write takes effect only while the engine is not running (R55). -/
def writeEngineCsr (x : Tile) (n : Nat) (v : W64) : Tile :=
  let e := x.engine ((n - 0x40) / 4)
  if e.running then x
  else x.setEngine ((n - 0x40) / 4)
    (match n % 4 with
    | 0 => { e with mcur := v &&& 0xC000000FFFFFFFFF }
    | 1 => { e with msyl := v }
    | 2 => { e with mopa := v }
    | _ => { e with mopb := v })

/-- A write of MSEED while an engine with an SR = 1 instruction is not idle, running or stopped on a fault, leaves that output undefined
(R113). -/
def markSeed (x : Tile) : Tile :=
  { x with eng := Tab.mapAll {} (fun _ (e : Engine) => if (e.running || e.mcur.getLsbD 62) && xSR e.msyl then { e with seedUndef := true } else e) x.eng }

/-- What `csrw` writes, by number: read-only fields keep their value, W1C bits are cleared by ones (Tables 2-5 to 2-11). -/
def writeCsr (x : Tile) (n : Nat) (v : W64) : Tile :=
  match n with
  | 0x01 => { x with sys := { x.sys with tstatus := (x.sys.tstatus &&& ~~~ 0x190) ||| (v &&& 0x190) } }
  | 0x02 => { x with sys := { x.sys with tcause := v &&& 0x8000000000FFF8FF } }
  | 0x03 => { x with sys := { x.sys with tepc := v } }
  | 0x04 => { x with sys := { x.sys with tval := v } }
  | 0x05 => { x with sys := { x.sys with tvec := v &&& ~~~ 0xFFF }, haz := { x.haz with tvec := 0 } }
  | 0x06 => { x with sys := { x.sys with tscratch := v } }
  | 0x07 => { x with sys := { x.sys with tie := v &&& 0x1F }, haz := { x.haz with tie := 0 } }
  | 0x08 => { x with sys := { x.sys with tip := x.sys.tip &&& ~~~ (v &&& 0xE) } }
  | 0x09 => { x with sys := { x.sys with vl := if 64 < v.toNat then 64 else v }, haz := { x.haz with vl := 0 } }
  | 0x0A => { x with sys := { x.sys with tfflags := v &&& 0x1F }, haz := { x.haz with tfflags := 0 } }
  | 0x0B => markSeed { x with sys := { x.sys with mseed := v }, haz := { x.haz with mseed := 0 } }
  | 0x0E => { x with sys := { x.sys with ttimer := v } }
  | 0x10 => { x with sys := { x.sys with vcur := v &&& 0x80000007FFFFFFFF } }
  | 0x11 => { x with sys := { x.sys with vsyl := v } }
  | 0x12 => { x with sys := { x.sys with vopa := v } }
  | 0x13 => { x with sys := { x.sys with vopb := v } }
  | n => if 0x40 ≤ n then writeEngineCsr x n v else x

end Sys2Proof.Machine
end

