-- ==== Sys2Proof/Machine/Vector.lean ====
section
/-!
DEFINITION. What the vector operations compute (R79–R85, Table 3-8). Every function reads the tile as it stood before the
bundle; an effect function writes into the tile that the bundle leaves.
-/

namespace Sys2Proof.Machine

/-! ### Lanes -/

/-- Lane `i` of width `n` of a register. -/
def laneOf (n : Nat) (v : Vec) (i : Nat) : Nat := fld v.toNat (n * i) n

/-- A register with some lanes of width `n` replaced. -/
def putLanes (n : Nat) (v : Vec) (l : List (Nat × Nat)) : Vec :=
  BitVec.ofNat 2048 (l.foldl (fun a p => setFld a (n * p.1) n p.2) v.toNat)

/-- The element code in lane `i`: the low bits of its lane (R79). -/
def elemOf (et : Nat) (v : Vec) (i : Nat) : Nat := laneOf (etLane et) v i % 2 ^ etBits et

/-- An element code extended to a width: sign-extended for signed integers, zero-extended otherwise (R79). -/
def extendTo (n et code : Nat) : Nat :=
  if etSigned et then wrapN n (sx (etBits et) code) else code % 2 ^ etBits et

/-- The lane that holds an element code. -/
def laneVal (et code : Nat) : Nat := extendTo (etLane et) et code

/-- The integer that an element code of an integer type stands for. -/
def intOf (et code : Nat) : Int := if etSigned et then sx (etBits et) code else (code % 2 ^ etBits et : Nat)

/-! ### Elementwise arithmetic -/

/-- Invalid, where any operand is a signaling NaN (IEEE 754, R80). -/
def snanFlag (et : Nat) (l : List Nat) : Nat := if l.any fun c => isSignaling (etFmt et) c then flInvalid else 0

/-- Round an exact result to the element type. -/
def finish (et : Nat) (r : FpNum × Nat) : Nat × Nat :=
  let (c, fl) := roundTo (etFmt et) .even false r.1
  (c, fl ||| r.2)

/-- a × b + c with one rounding. -/
def fmaNum (a b c : FpNum) : FpNum × Nat :=
  let (p, fl) := FpNum.mul a b
  let fl := if decide (c = .nan) && decide (fl = flInvalid) && !Config.fmaQuietInvalid then 0 else fl
  let (r, fl2) := FpNum.add false p c
  (r, fl ||| fl2)

/-- Minimum and maximum: the other operand when exactly one is NaN; −0 is less than +0 (R80). -/
def minMaxFp (et : Nat) (max : Bool) (a b : Nat) : Nat :=
  let f := etFmt et
  match decodeNum f a, decodeNum f b with
  | .nan, .nan => nanCode f
  | .nan, _ => b
  | _, .nan => a
  | x, y =>
    let less := x.lt y || (x.eqv y && x.isNeg && !y.isNeg)
    if less != max then a else b

/-- vA op b by OP 0x01–0x06: the code and the flags. -/
def vecBin (op et a b c : Nat) : Nat × Nat :=
  let n := etBits et
  if etFp et then
    let f := etFmt et
    let x := decodeNum f a
    let y := decodeNum f b
    match op with
    | 1 => let r := finish et (FpNum.add false x y); (r.1, r.2 ||| snanFlag et [a, b])
    | 2 => let r := finish et (FpNum.add false x y.negate); (r.1, r.2 ||| snanFlag et [a, b])
    | 3 => let r := finish et (FpNum.mul x y); (r.1, r.2 ||| snanFlag et [a, b])
    | 4 => let r := finish et (fmaNum x y (decodeNum f c)); (r.1, r.2 ||| snanFlag et [a, b, c])
    | 5 => (minMaxFp et false a b, snanFlag et [a, b])
    | _ => (minMaxFp et true a b, snanFlag et [a, b])
  else
    match op with
    | 1 => (wrapN n (a + b), 0)
    | 2 => (wrapN n (a - b), 0)
    | 3 => (wrapN n (a * b), 0)
    | 5 => (if intOf et b < intOf et a then b else a, 0)
    | _ => (if intOf et a < intOf et b then b else a, 0)

/-- Absolute value, negation, reciprocal and reciprocal square root, by OP 0x07–0x0A. -/
def vecUn (op et a : Nat) : Nat × Nat :=
  let n := etBits et
  if etFp et then
    let x := decodeNum (etFmt et) a
    match op with
    | 7 => finish et (x.abs, 0)
    | 8 => finish et (x.negate, 0)
    | 9 => let r := finish et x.recip; (r.1, r.2 ||| snanFlag et [a])
    | _ => let r := finish et x.rsqrt; (r.1, r.2 ||| snanFlag et [a])
  else
    match op with
    | 7 => (wrapN n (if intOf et a < 0 then -intOf et a else intOf et a), 0)
    | _ => (wrapN n (-intOf et a), 0)

/-- Bitwise operations and shifts of the integer types, by OP 0x10–0x15; a shift count is taken modulo the width. -/
def vecBits (op et a b : Nat) : Nat :=
  let n := etBits et
  match op with
  | 0x10 => a &&& b
  | 0x11 => a ||| b
  | 0x12 => a ^^^ b
  | 0x13 => a * 2 ^ (b % n) % 2 ^ n
  | 0x14 => a / 2 ^ (b % n)
  | _ => wrapN n (sx n a / (2 ^ (b % n) : Nat))

/-- vA rel b by OP 0x20–0x22, with its flags. Every relation is false of a NaN. -/
def vecRel (op et a b : Nat) : Bool × Nat :=
  if etFp et then
    let x := decodeNum (etFmt et) a
    let y := decodeNum (etFmt et) b
    let unordered := decide (x = .nan) || decide (y = .nan)
    let quiet := if unordered && decide (op ≠ 0x20) && Config.cmpQuietInvalid then flInvalid else 0
    let fl := snanFlag et [a, b] ||| quiet
    if unordered then (false, fl)
    else match op with
      | 0x20 => (x.eqv y, fl)
      | 0x21 => (x.lt y, fl)
      | _ => (x.lt y || x.eqv y, fl)
  else
    match op with
    | 0x20 => (decide (intOf et a = intOf et b), 0)
    | 0x21 => (decide (intOf et a < intOf et b), 0)
    | _ => (decide (intOf et a ≤ intOf et b), 0)

/-! ### Conversion (R83) -/

/-- Rounding mode of `vcvt`: MOD[5:4]. -/
def cvtRnd (m : Nat) : Rnd := match m % 4 with | 0 => .even | 1 => .zero | 2 => .down | _ => .up

/-- Least and greatest value of an integer type. -/
def intMin (et : Nat) : Int := if etSigned et then -(2 ^ (etBits et - 1) : Nat) else 0
def intMax (et : Nat) : Int := if etSigned et then (2 ^ (etBits et - 1) : Nat) - 1 else (2 ^ etBits et : Nat) - 1

/-- An integer into an integer type: wrapped, or the nearest bound where saturating. -/
def intInto (et : Nat) (sat : Bool) (v : Int) : Nat :=
  let v := if sat then (if v < intMin et then intMin et else if intMax et < v then intMax et else v) else v
  wrapN (etBits et) v

/-- Whether an overflow stops at the largest finite value: in the roundings toward zero and away from that infinity (IEEE 754, R80). -/
def overflowStops (r : Rnd) (neg : Bool) : Bool := match r with | .zero => true | .down => !neg | .up => neg | _ => false

/-- Convert a code of type `src` to type `dst` (R83). An integer that overflows a floating-point type gives what IEEE 754 gives in the
rounding (R80), and with MOD[6] = 1 the largest finite value, which R83 does not state (log entry 168). -/
def vecCvt (src dst : Nat) (r : Rnd) (sat : Bool) (a : Nat) : Nat × Nat :=
  if etFp src then
    let x := decodeNum (etFmt src) a
    if etFp dst then
      let sat' := sat && (match x with | .fin .. => true | _ => false)
      let (c, fl) := roundTo (etFmt dst) r sat' x
      (c, fl ||| snanFlag src [a])
    else
      match x with
      | .nan => (0, flInvalid)
      | .inf neg =>
        (wrapN (etBits dst) (if sat then (if neg then intMin dst else intMax dst) else intMin dst), flInvalid)
      | .fin neg m e =>
        let (v, inexact) := FpNum.toInt r neg m e
        if v < intMin dst ∨ intMax dst < v then
          (wrapN (etBits dst) (if sat then (if v < intMin dst then intMin dst else intMax dst) else intMin dst), flInvalid)
        else (wrapN (etBits dst) v, if inexact then flInexact else 0)
  else if etFp dst then roundTo (etFmt dst) r (sat || overflowStops r (decide (intOf src a < 0))) (FpNum.ofInt (intOf src a))
  else (intInto dst sat (intOf src a), 0)

/-! ### Reductions (R84) -/

/-- The identity that a lane without an element contributes, by operation 0 add, 1 maximum, 2 minimum. -/
def redIdentity (k et : Nat) : Nat :=
  if etFp et then
    let f := etFmt et
    match k with
    | 0 => signBit f
    | 1 => signBit f + infCode f
    | _ => infCode f
  else match k with
    | 0 => 0
    | 1 => wrapN (etBits et) (intMin et)
    | _ => wrapN (etBits et) (intMax et)

/-- One combination of a reduction. -/
def redStep (k et a b : Nat) : Nat × Nat :=
  match k with
  | 0 => vecBin 1 et a b 0
  | 1 => vecBin 6 et a b 0
  | _ => vecBin 5 et a b 0

/-- One level of the tree: elements 2j and 2j + 1. -/
def redLevel (k et : Nat) : List Nat → List Nat × Nat
  | a :: b :: r =>
    let (c, fl) := redStep k et a b
    let (cs, fl2) := redLevel k et r
    (c :: cs, fl ||| fl2)
  | l => (l, 0)

/-- The tree over all lanes: levels until one element is left. -/
def redTree (k et : Nat) : Nat → List Nat → Nat × Nat
  | 0, l => (l.getD 0 0, 0)
  | n + 1, l =>
    match l with
    | [a] => (a, 0)
    | l =>
      let (l', fl) := redLevel k et l
      let (r, fl2) := redTree k et n l'
      (r, fl ||| fl2)

/-! ### Sorting (R85) -/

/-- Sort key of an element: integers by value; floating-point codes by −NaN < −∞ < … < −0 < +0 < … < +∞ < +NaN, all NaNs of
a sign alike. -/
def sortKey (et code : Nat) : Int :=
  if etFp et then
    let f := etFmt et
    let neg := bitOf code (f.e + f.m)
    let mag := code % signBit f
    let mag := if decodeNum f code = .nan then signBit f else mag
    if neg then -(mag : Int) - 1 else mag
  else intOf et code

/-- Insert a lane after every lane whose key is not greater: a stable ascending order. -/
def insertLane (key : Nat → Int) (i : Nat) : List Nat → List Nat
  | [] => [i]
  | j :: r => if key j ≤ key i then j :: insertLane key i r else i :: j :: r

/-- The enabled lanes in the order of `vsort`. -/
def sortedLanes (et : Nat) (v : Vec) (lanes : List Nat) : List Nat :=
  lanes.foldl (fun acc i => insertLane (fun j => sortKey et (elemOf et v j)) i acc) []

/-! ### The effect of one vector syllable -/

/-- Operand b of a lane: vB, or the low bits of sA (R81). -/
def operandB (x : Tile) (w : W64) (i : Nat) : Nat :=
  let et := vET w
  if vBcast w then (x.getS (vSA w)).toNat % 2 ^ etBits et else elemOf et (x.getV (vVB w)) i

/-- Write lanes of vD. A syllable with no enabled lane writes nothing. -/
def writeLanes (new : Tile) (w : W64) (et : Nat) (l : List (Nat × Nat)) : Tile :=
  if l.isEmpty then new
  else new.setV (vVD w) (putLanes (etLane et) (new.getV (vVD w)) l)

/-- Lanes computed one by one, with the OR of their flags. -/
def lanewise (lanes : List Nat) (f : Nat → Nat × Nat) : List (Nat × Nat) × Nat :=
  lanes.foldr (fun i acc => let (v, fl) := f i; ((i, v) :: acc.1, fl ||| acc.2)) ([], 0)

/-- The effect of a vector syllable that is not long: from the tile before the bundle, into the tile it leaves. `vext` extends its element to
all 64 bits of sD (log entry 169). -/
def vectorEffect (x : Tile) (vl : Nat) (w : W64) (new : Tile) : Tile :=
  let op := sOp w
  let et := vET w
  let lanes := enabledLanes x vl w
  let va := x.getV (vVA w)
  let a (i : Nat) := elemOf et va i
  let b (i : Nat) := operandB x w i
  let out (f : Nat → Nat × Nat) : Tile :=
    let (l, fl) := lanewise lanes f
    (writeLanes new w et (l.map fun p => (p.1, laneVal et p.2))).orFlags fl
  if 1 ≤ op ∧ op ≤ 6 then out fun i => vecBin op et (a i) (b i) (elemOf et (x.getV (vVC w)) i)
  else if 7 ≤ op ∧ op ≤ 0x0A then out fun i => vecUn op et (a i)
  else if 0x10 ≤ op ∧ op ≤ 0x15 then out fun i => (vecBits op et (a i) (b i), 0)
  else if 0x20 ≤ op ∧ op ≤ 0x22 then
    let (l, fl) := lanewise lanes fun i => let (t, f) := vecRel op et (a i) (b i); (b2n t, f)
    (new.setP (vVD w) (BitVec.ofNat 64 (l.foldl (fun acc p => setFld acc p.1 1 p.2) (new.getP (vVD w)).toNat))).orFlags fl
  else match op with
    | 0x23 =>
      let vb := x.getV (vVB w)
      let pc := x.getP (vVC w)
      out fun i => (elemOf et (if pc.getLsbD i then va else vb) i, 0)
    | 0x30 => out fun _ => ((x.getS (vSA w)).toNat % 2 ^ etBits et, 0)
    | 0x31 => new.setS (vSB w) (BitVec.ofNat 64 (extendTo 64 et (a (vMOD w))))
    | 0x32 =>
      if lanes.contains (vMOD w) then
        writeLanes new w et [(vMOD w, laneVal et ((x.getS (vSA w)).toNat % 2 ^ etBits et))]
      else new
    | 0x33 =>
      writeLanes new w et (lanes.map fun i =>
        (i, laneOf (etLane et) va (laneOf (etLane et) (x.getV (vVB w)) i % etLanes et)))
    | 0x34 => out fun i => (i % 2 ^ etBits et, 0)
    | 0x40 =>
      let dst := vMOD w % 16
      let (l, fl) := lanewise lanes fun i => vecCvt et dst (cvtRnd (vMOD w / 16)) (bitOf (vMOD w) 6) (a i)
      (writeLanes new w dst (l.map fun p => (p.1, laneVal dst p.2))).orFlags fl
    | 0x41 =>
      if lanes.isEmpty then new
      else new.setV (vVD w) (putLanes (etBits et) (new.getV (vVD w)) (lanes.map fun i => (64 * (vMOD w % 4) + i, a i)))
    | 0x42 =>
      writeLanes new w et (lanes.map fun i => (i, laneVal et (laneOf (etBits et) va (64 * (vMOD w % 4) + i))))
    | 0x70 =>
      let n := min (x.getS (vSA w)).toNat 64
      let new := new.setS (vSB w) (BitVec.ofNat 64 n)
      { new with sys := { new.sys with vl := BitVec.ofNat 64 n }, haz := { new.haz with vl := 0 } }
    | _ =>
      -- vred: 0x50 add, 0x51 maximum, 0x52 minimum
      let k := op - 0x50
      let l := (List.range (etLanes et)).map fun i => if lanes.contains i then a i else redIdentity k et
      let (r, fl) := redTree k et 6 l
      (new.setV (vVD w) (putLanes (etLane et) (new.getV (vVD w)) [(0, laneVal et r)])).orFlags fl

/-! ### Long vector instructions (R54, R85) -/

/-- Elements of a long instruction in its element order: its enabled lanes, ascending (log entry 15). -/
def longElements (x : Tile) (vl : Nat) (w : W64) : List Nat := enabledLanes x vl w

/-- Silt offset of a gathered or scattered element. -/
def elementOff (base : W64) (size index : Nat) : Nat := siltOff (wrapN 64 (base.toInt + index * size)) size

/-- Elements `lo` to `hi` − 1 of a long instruction: from the tile before the bundle, into the tile it leaves. `base` is the
value of sA when the instruction started. -/
def longEffect (x : Tile) (vl : Nat) (w : W64) (base : W64) (lo hi : Nat) (new : Tile) : Tile :=
  let op := sOp w
  let et := vET w
  let size := etLane et / 8
  let lanes := longElements x vl w
  let part := (lanes.take hi).drop lo
  let va := x.getV (vVA w)
  let off (i : Nat) := elementOff base size (laneOf (etLane et) va i)
  match op with
  | 0x60 =>
    let new := writeLanes new w et (part.map fun i => (i, ofLe (x.siltRead (off i) size)))
    match part.find? fun i => x.siltBadIn (off i) size with
    | some i => new.poisonV (vVD w) ⟨0x22, BitVec.ofNat 64 (off i)⟩
    | none => new
  | 0x61 =>
    let vb := x.getV (vVB w)
    part.foldl (fun n i => (n.siltWrite (off i) (toLe size (laneOf (etLane et) vb i))).noteStore (off i) size) new
  | 0x62 =>
    let k := wf w 5 2
    let n := wf w 0 5
    let (l, fl) := lanewise part fun i =>
      (List.range n).foldl (fun acc j =>
        let (r, f) := redStep k et acc.1 (elemOf et (x.getV (vVA w + j + 1)) i)
        (r, f ||| acc.2)) (elemOf et va i, 0)
    (writeLanes new w et (l.map fun p => (p.1, laneVal et p.2))).orFlags fl
  | _ =>
    -- vsort, vsorti: the k-th smallest element goes to the k-th enabled lane (log entry 16)
    let order := sortedLanes et va lanes
    let pairs := ((lanes.zip order).take hi).drop lo
    writeLanes new w et (pairs.map fun p =>
      (p.1, laneVal et (if op = 0x63 then elemOf et va p.2 else p.2)))

/-- The Silt offset of the first element of a gather, among elements `lo` to `hi` − 1, that meets an uncorrectable word. -/
def gatherLost (x : Tile) (vl : Nat) (w : W64) (base : W64) (lo hi : Nat) : Option Nat :=
  let size := etLane (vET w) / 8
  let off (i : Nat) := elementOff base size (laneOf (etLane (vET w)) (x.getV (vVA w)) i)
  if sOp w = 0x60 then ((((longElements x vl w).take hi).drop lo).map off).find? fun o => x.siltBadIn o size else none

end Sys2Proof.Machine
end

