-- ==== Sys2Proof/Machine/Matrix.lean ====
section
/-!
DEFINITION. The matrix engines (04): operand blocks, exact block sums, the accumulator update, the output stage with its row
scales and stochastic draws, and how MCUR moves (R96–R118).
-/

namespace Sys2Proof.Machine

/-! ### MCUR (Table 2-11) -/

def Engine.valid (e : Engine) : Bool := e.mcur.getLsbD 63
def Engine.faulted (e : Engine) : Bool := e.mcur.getLsbD 62
def Engine.stage (e : Engine) : Nat := wf e.mcur 32 4
def Engine.units (e : Engine) : Nat := wf e.mcur 0 32
/-- MCUR with the given fields. -/
def mcurOf (valid faulted : Bool) (stage units : Nat) : W64 :=
  BitVec.ofNat 64 (b2n valid * 2 ^ 63 + b2n faulted * 2 ^ 62 + stage * 2 ^ 32 + units)
/-- Idle for R44 and `mwait`: not running and not stopped on a fault; a held engine counts as idle (R55). -/
def Engine.idle (e : Engine) : Bool := !e.running && !e.faulted
/-- Idle for the accumulator moves, for which a faulted engine counts as idle (R88). -/
def Engine.quiet (e : Engine) : Bool := !e.running

/-! ### Operand elements (R97, R102, R103) -/

/-- The value of an element code of a matrix format (Tables 4-2 to 4-4). -/
def matrixElem (c code : Nat) : FpNum :=
  match c with
  | 0 => decodeNum fmtBf16 code
  | 1 => decodeNum fmtF16 code
  | 2 => decodeNum fmtE4m3 code
  | 3 => decodeNum fmtE5m2 code
  | 4 => FpNum.ofInt (sx 8 code)
  | 5 => decodeNum fmtE3m2 code
  | 6 => decodeNum fmtE2m3 code
  | 7 => decodeNum fmtE2m1 code
  | 8 => FpNum.ofInt (sx 4 code)
  | _ => match code % 4 with
    | 1 => FpNum.ofInt 1
    | 3 => FpNum.ofInt (-1)
    | _ => FpNum.ofInt 0

/-- Vector `v` of a block: its 32 elements and its scale, none for a NaN scale (R97, R103). The 16-bit formats have no
scale. -/
def blockVector (c : Nat) (blk : List Byte) (v : Nat) : List FpNum × Option Int :=
  let w := elemBits c
  let bits := ofLe ((blk.drop (4 * w * v)).take (4 * w))
  ((List.range 32).map fun k => matrixElem c (fld bits (w * k) w),
   if c ≤ 1 then some 0 else e8m0 (blk.getD (128 * w + v) 0).toNat)

/-- What a block sum is: NaN, with whether it arose from inputs that held no NaN; an infinity; an exact value (R107). -/
def dotProduct (a b : List FpNum) : FpNum × Bool :=
  let pairs := a.zip b
  let factorNan := pairs.any fun p => decide (p.1 = .nan) || decide (p.2 = .nan)
  let prods := pairs.map fun p => (FpNum.mul p.1 p.2).1
  if prods.any fun p => decide (p = .nan) then (.nan, !factorNan)
  else
    let pos := prods.any fun p => decide (p = .inf false)
    let neg := prods.any fun p => decide (p = .inf true)
    if pos && neg then (.nan, true)
    else if pos then (.inf false, false)
    else if neg then (.inf true, false)
    else
      match prods.foldl (fun acc p => (FpNum.add false acc p).1) (.fin false 0 0) with
      | .fin n m e => (if m = 0 then .fin false 0 0 else .fin n m e, false)
      | v => (v, false)

/-- The block sum of one element with its scales (R104): NaN where a scale is NaN; the flag says whether a NaN arose. -/
def blockSum (a b : List FpNum × Option Int) : FpNum × Bool :=
  let factorNan := (a.1 ++ b.1).any fun p => decide (p = .nan)
  match a.2, b.2 with
  | some x, some y =>
    match dotProduct a.1 b.1 with
    | (.fin n m e, f) => (if m = 0 then .fin false 0 0 else .fin n m (e + x + y), f)
    | r => r
  | _, _ => (.nan, !factorNan)

/-- acc + s rounded once to FP32: the new accumulator and the flags (R104, R107, R108). -/
def accStep (acc : Nat) (s : FpNum × Bool) : Nat × Nat :=
  let (v, fl) := FpNum.add false (decodeNum fmtF32 acc) s.1
  let (c, fl2) := roundTo fmtF32 .even false v
  (c, fl ||| fl2 ||| (if s.2 then flInvalid else 0))

/-- One stage-0 unit on whole blocks: the 1,024 new accumulator values in row order, and the flags. `fresh` is unit 0 with
ZERO = 1; a block that was lost makes every sum NaN and raises no flag (R118). -/
def unitAccs (fa fb : Nat) (ablk bblk : Option (List Byte)) (fresh : Bool) (old : Nat → Nat → Nat) : List Nat × Nat :=
  match ablk, bblk with
  | some ab, some bb =>
    let rows := (List.range 32).map fun i => blockVector fa ab i
    let cols := (List.range 32).map fun j => blockVector fb bb j
    let l := (rows.zipIdx).flatMap fun r => (cols.zipIdx).map fun c =>
      accStep (if fresh then 0 else old r.2 c.2) (blockSum r.1 c.1)
    (l.map (·.1), l.foldl (fun f p => f ||| p.2) 0)
  | _, _ => (List.replicate 1024 (nanCode fmtF32), 0)

/-! ### The output stage (R109–R112) -/

/-- The format of an OFMT code. -/
def outFmt (ofmt : Nat) : Fmt :=
  match ofmt with | 0 => fmtF32 | 1 => fmtBf16 | 2 => fmtF16 | 3 => fmtE4m3 | _ => fmtE5m2

/-- 2^k times a value. -/
def FpNum.scaleBy (v : FpNum) (k : Int) : FpNum := match v with | .fin n m e => .fin n m (e + k) | v => v

/-- floor(log2) of a finite nonzero magnitude. -/
def floorLog2 (v : FpNum) : Int := match v with | .fin _ m e => (Nat.log2 m : Int) + e | _ => 0

/-- The largest magnitude of a row. -/
def rowMax (ys : List FpNum) : FpNum := ys.foldl (fun m y => if m.lt y.abs then y.abs else m) (.fin false 0 0)

/-- The scale of an FP8 row, and the row with infinities replaced; 255 where the row is NaN (R110). -/
def rowScale (ofmt : Nat) (sat : Bool) (ys : List FpNum) : Nat × List FpNum :=
  let f := outFmt ofmt
  let isInf (y : FpNum) := decide (y = .inf true) || decide (y = .inf false)
  if (ys.any fun y => decide (y = .nan)) || (!sat && ys.any isInf) then (255, ys)
  else
    let ys := ys.map fun y => match y with
      | .inf n => .fin n (2 ^ 24 - 1) 104
      | y => y
    match rowMax ys with
    | .fin _ 0 _ => (127, ys)
    | m =>
      let x := floorLog2 m - (if ofmt = 3 then 8 else 15)
      let tooBig := (roundTo f .even false (m.scaleBy (-x))).2 &&& flOver ≠ 0
      let x := if tooBig then x + 1 else x
      ((min (max (x + 127) 0) 254).toNat, ys)

/-- One stage-1 unit: the bytes of row i (with the row's scale byte for FP8), and the flags. `y` is the row's accumulators as
values; TSCALE multiplies exactly. An infinite y that an FP8 row replaces is saturated, which raises overflow (R108). An FP32 output of a NaN
is 0x7FC0_0000 whatever NaN the accumulator held (log entry 170); an output that becomes NaN from no NaN, a row of scale 0xFF or an E4M3
overflow, raises no invalid (log entry 171). -/
def unitRow (ofmt : Nat) (sr sat tsc : Bool) (tscale : Nat) (draw : Nat → Nat) (accs : List Nat) :
    List Byte × Option Byte × Nat :=
  let f := outFmt ofmt
  let forms := accs.map fun a =>
    let y := decodeNum fmtF32 a
    if tsc then FpNum.mul y (decodeNum fmtF32 tscale) else (y, 0)
  let fl0 := forms.foldl (fun f p => f ||| p.2) 0
  let ys := forms.map (·.1)
  let rnd (j : Nat) : Rnd := if sr then .draw (draw j) else .even
  if ofmt ≤ 2 then
    let l := (ys.zipIdx).map fun p => roundTo f (rnd p.2) sat p.1
    (l.flatMap fun p => toLe (if ofmt = 0 then 4 else 2) p.1, none, l.foldl (fun f p => f ||| p.2) fl0)
  else
    let fl0 := if sat && !(ys.any fun y => decide (y = .nan)) && ys.any fun y => decide (y = .inf true) || decide (y = .inf false) then fl0 ||| flOver else fl0
    let (scale, ys) := rowScale ofmt sat ys
    if scale = 255 then (List.replicate 32 0, some 255, fl0)
    else
      let l := (ys.zipIdx).map fun p => roundTo f (rnd p.2) sat (p.1.scaleBy (127 - (scale : Int)))
      (l.flatMap fun p => toLe 1 p.1, some (BitVec.ofNat 8 scale), l.foldl (fun f p => f ||| p.2) fl0)

/-! ### Units on a tile -/

/-- A Silt block of an operand, none where one of its words is uncorrectable (Table 5-6). -/
def Tile.siltBlock (x : Tile) (off c : Nat) : Option (List Byte) :=
  if x.siltBadIn off (blockBytes c) then none else some (x.siltRead off (blockBytes c))

/-- Put an accumulator tile. -/
def Tile.putAccs (x : Tile) (e k : Nat) (l : List Nat) : Tile :=
  { x with acc := (l.zipIdx).foldl (fun m p => Tab.put 0 m (accIndex e k 0 0 + p.2) (BitVec.ofNat 32 p.1)) x.acc }

/-- The rate class of an engine's instruction as an event of Table 13-18: 16-bit, 8-bit, narrow, ternary. -/
def Engine.eventClass (e : Engine) : Nat := if xFB e.msyl = 9 then 3 else rateClass (xFA e.msyl)

/-- tc that a unit takes (R114). -/
def unitTc (e : Engine) : Nat :=
  if e.stage = 1 then 2 else match e.eventClass with | 0 => 128 | 1 => 32 | 2 => 16 | _ => 8

/-- Count an attribution event (Table 13-18): 0–3 matrix units by class, 4–6 vector syllables integer, FP32 and narrower, FP64,
7–9 Silt, Loam and HBM bytes, 10 Gauze bytes, 11 ballast engine cycles. -/
def Tile.count (x : Tile) (ev n : Nat) : Tile := { x with events := Tab.put 0 x.events ev (Tab.look 0 x.events ev + n) }

/-- The engine stops on the fault of block `u` at the boundary before unit u: MCUR FAULTED, EFP set (R117). -/
def Tile.engineFault (x : Tile) (n : Nat) (u : Nat) (va : W64) (sub : BitVec 8) : Tile :=
  let e := x.engine n
  let x := x.setEngine n { e with
    mcur := mcurOf true true 0 u, running := false, blocks := [], ahead := none, faultVa := va, faultSub := sub }
  { x with sys := { x.sys with tstatus := x.sys.tstatus ||| BitVec.ofNat 64 (2 ^ (32 + n)) } }

/-- What an engine does at a unit boundary: a fault found ahead stops it there; else a stop request stops it, with FAULTED = 0 and
the blocks fetched ahead discarded (R117, Table 2-12). -/
def Tile.engineBoundary (x : Tile) (n : Nat) : Tile :=
  let e := x.engine n
  if !e.running then x
  else match e.ahead with
    | some (u, va, sub) =>
      if e.stage = 0 ∧ u ≤ e.units then x.engineFault n u va sub
      else if x.stopping then x.setEngine n { e with running := false, blocks := [], ahead := none } else x
    | none => if x.stopping then x.setEngine n { e with running := false, blocks := [], ahead := none } else x

/-- How MCUR moves when a unit completes (R114). -/
def Engine.advance (e : Engine) : Engine :=
  let out := xOUT e.msyl
  if e.stage = 0 then
    if e.units + 1 < mKB e.mopa then { e with mcur := mcurOf true false 0 (e.units + 1) }
    else if out then { e with mcur := mcurOf true false 1 0, blocks := [], ahead := none }
    else { e with mcur := mcurOf false false 0 (e.units + 1), running := false, blocks := [], ahead := none
                  undef := false, seedUndef := false }
  else if e.units + 1 < 32 then { e with mcur := mcurOf true false 1 (e.units + 1) }
  else { e with mcur := mcurOf false false 1 32, running := false, undef := false, seedUndef := false }

/-- Block `u` of operand B: from Silt, or as it arrived in the streaming form; the outer none says it has not arrived yet
(R116). -/
def Tile.operandB (x : Tile) (e : Engine) (u : Nat) : Option (Option (List Byte)) :=
  if xSTR e.msyl then (e.blocks.find? fun b => decide (b.index = u)).map (·.bytes)
  else some (x.siltBlock (mBOff e.mopb + u * blockBytes (xFB e.msyl)) (xFB e.msyl))

/-- The first uncorrectable Silt word among the operands of unit `u`. -/
def Tile.operandLost (x : Tile) (e : Engine) (u : Nat) : Option Nat :=
  let na := blockBytes (xFA e.msyl)
  let nb := if xSTR e.msyl then 0 else blockBytes (xFB e.msyl)
  let a := mAOff e.mopa + u * na
  let b := mBOff e.mopb + u * nb
  (x.siltBad.find? fun p => siltOverlap a na p.1 8 || siltOverlap b nb p.1 8).map (·.1)

/-- Stage 0, unit u (R104). Undefined operands give free accumulator values and flags (R37). -/
def State.stage0 (s : State) (t n : Nat) : State :=
  let x := s.tile t
  let e := x.engine n
  let u := e.units
  match x.operandB e u with
  | none => s
  | some bblk =>
    let k := xACC e.msyl
    let fa := xFA e.msyl
    let x' := x.setEngine n { e.advance with blocks := e.advance.blocks.filter fun b => decide (u < b.index) }
    let x' := (x'.count e.eventClass 1).count 7
      (blockBytes fa + if xSTR e.msyl then 0 else blockBytes (xFB e.msyl))
    if e.undef then
      let (bs, s) := s.freeBytes 4097
      let x' := x'.putAccs n k ((List.range 1024).map fun j => ofLe ((bs.drop (4 * j)).take 4))
      s.setTile t ((x'.orFlags (bs.getD 4096 0).toNat).engineBoundary n)
    else
      let (l, fl) := unitAccs fa (xFB e.msyl) (x.siltBlock (mAOff e.mopa + u * blockBytes fa) fa) bblk
        (xZERO e.msyl && decide (u = 0)) (fun i j => (x.getAcc n k i j).toNat)
      let s := s.setTile t (((x'.putAccs n k l).orFlags fl).engineBoundary n)
      match x.operandLost e u with
      | some off => s.ueSilt t off
      | none => s

/-- Stage 1, unit i: convert and write row i (R109). An output whose seed or operands are undefined is free (R37, R113). -/
def State.stage1 (s : State) (t n : Nat) : State :=
  let x := s.tile t
  let e := x.engine n
  let i := e.units
  let ofmt := xOFMT e.msyl
  let off := mCOff e.mopa
  let x' := x.setEngine n e.advance
  let accs := (List.range 32).map fun j => (x.getAcc n (xACC e.msyl) i j).toNat
  let (row, scale, fl) := unitRow ofmt (xSR e.msyl) (xSAT e.msyl) (xTSC e.msyl) (mTScale e.mopb)
    (fun j => srDraw x.sys.mseed off i j) accs
  let (row, scale, fl, s) : List Byte × Option Byte × Nat × State :=
    if e.undef || e.seedUndef then
      let (bs, s) := s.freeBytes (row.length + 2)
      (bs.take row.length, scale.map fun _ => bs.getD row.length 0, (bs.getD (row.length + 1) 0).toNat, s)
    else (row, scale, fl, s)
  let x' := x'.siltWrite (off + i * row.length) row (some n)
  let x' := match scale with
    | some b => x'.siltWrite (off + 1024 + i) [b] (some n)
    | none => x'
  s.setTile t ((x'.orFlags fl).engineBoundary n)

/-- One unit of a running engine completes; in FAULTED none does (Table 1-5). It waits while the governor's budget is spent, and the
window counts its cycles (R302). -/
def State.matrixUnit (s : State) (t n : Nat) : State :=
  let e := (s.tile t).engine n
  if e.running && e.valid && !e.faulted && decide (s.top.st ≠ .faulted) && s.mayStart t then
    let g := s.gov t
    if e.stage = 0 then
      if ((s.tile t).operandB e e.units).isSome then
        (s.stage0 t n).setGov t { g with spent := g.spent + unitTc e }
      else s
    else (s.stage1 t n).setGov t { g with spent := g.spent + unitTc e }
  else s

/-- Dispatch (R42): the engine takes its copies and starts at unit 0 of stage 0, or of stage 1 for `mout` (R114). A store of the
last six bundles to the operands, or a write of MSEED too near an SR instruction, leaves the result undefined (Table 2-4). -/
def Tile.dispatch (x old : Tile) (w : W64) : Tile :=
  let a := old.getS (xRA w)
  let b := old.getS (xRB w)
  let mout := sOp w = 2
  let h := old.haz
  let touched := !mout && (h.storeIn (mAOff a) (mKB a * blockBytes (xFA w))
    || (!xSTR w && h.storeIn (mBOff b) (mKB a * blockBytes (xFB w))))
  x.setEngine (xE w) { mcur := mcurOf true false (b2n mout) 0, msyl := w, mopa := a, mopb := b, running := true
                       undef := touched, seedUndef := xSR w && h.mseedOpen }

/-- `mresume`: clears FAULTED and restarts a held or faulted engine; no effect on one with VALID = 0 or running (R55). -/
def Tile.mresume (x : Tile) (n : Nat) : Tile :=
  let e := x.engine n
  if e.valid && !e.running then
    x.setEngine n { e with mcur := mcurOf true false e.stage e.units, running := true, ahead := none, blocks := []
                           faultVa := 0, faultSub := 0 }
  else x

/-- `mabort`: clears VALID and FAULTED; the accumulators keep their partial sums (R55). -/
def Tile.mabort (x : Tile) (n : Nat) : Tile :=
  let e := x.engine n
  x.setEngine n { e with mcur := mcurOf false false e.stage e.units, running := false, ahead := none, blocks := []
                         faultVa := 0, faultSub := 0, undef := false, seedUndef := false }

end Sys2Proof.Machine
end

