-- ==== Sys2Proof/Machine/Mmu.lean ====
section
/-!
DEFINITION. Address translation (06): the TLBs and the walk cache, the walk of R151, the leaf checks of R152 and the
fault records of R158 and R159.
-/

namespace Sys2Proof.Machine

/-- The bolt whose walkers and fault queue serve a requester (R149, R158). -/
def Requester.bolt : Requester → Nat
  | .fetch t => boltOf t
  | .slot3 t => boltOf t
  | .engine t _ => boltOf t
  | .mover b _ => b
  | .expander x _ _ => x / 6

/-- The TLB that serves a requester (R411): tile fetch, tile data, mover, expander. -/
def Requester.tlb : Requester → Nat
  | .fetch t => t
  | .slot3 t => 1024 + t
  | .engine t _ => 1024 + t
  | .mover b m => 2048 + 32 * b + m
  | .expander x _ _ => 2176 + x

/-- Entries of the requester's TLB (Table 6-4). -/
def Requester.tlbSize : Requester → Nat
  | .fetch _ => 32
  | .slot3 _ => 128
  | .engine _ _ => 128
  | .mover _ _ => 32
  | .expander _ _ _ => 16

/-- The requester as one hardware unit: fetch and slot 3 of a tile are one requester of fault records each (R159). -/
def Requester.unit : Requester → Nat × Nat
  | .fetch t => (0, t)
  | .slot3 t => (0, t)
  | .engine t e => (1, 4 * t + e)
  | .mover b m => (2, 32 * b + m)
  | .expander x _ _ => (3, x)

/-- ACCESS codes (Table 6-8). -/
def Access.code : Access → Nat
  | .fetch => 0 | .load => 1 | .store => 2 | .atomic => 3 | .stream => 4 | .descriptor => 5 | .moverSrc => 6
  | .moverDst => 7 | .coded => 8

/-! ### Contexts and leaves -/

def State.mmuCtx (s : State) (c : Nat) : W32 := Tab.look 0 s.mmu.ctx c
def State.ctxValid (s : State) (c : Nat) : Bool := (s.mmuCtx c).getLsbD 31
def State.ctxWindow (s : State) (c : Nat) : Bool := (s.mmuCtx c).getLsbD 30
def State.ctxAsid (s : State) (c : Nat) : Nat := fld (s.mmuCtx c).toNat 0 12
/-- Physical address of the L0 table of a context in a bolt's copy (Table 6-2). -/
def State.rootOf (s : State) (b c : Nat) : Nat := fld (Tab.look 0 s.mmu.root (16 * b + c)).toNat 0 29 * 4096

def pteV (e : W64) : Bool := e.getLsbD 0
def pteLeaf (e : W64) : Bool := e.getLsbD 1
def pteR (e : W64) : Bool := e.getLsbD 2
def pteW (e : W64) : Bool := e.getLsbD 3
def pteX (e : W64) : Bool := e.getLsbD 4
def pteU (e : W64) : Bool := e.getLsbD 5
/-- PA_HI and PA_LO as an address: bits [47:8]. -/
def ptePa (e : W64) : Nat := fld e.toNat 8 40 * 256

/-- log2 of the page size of a leaf found at a level: 1 GiB, 2 MiB, 64 KiB (R151). -/
def leafBits (level : Nat) : Nat := if level = 2 then 30 else if level = 3 then 21 else 16

/-- The right an access needs (R152). -/
def rightOk (e : W64) : Access → Bool
  | .fetch => pteX e
  | .load => pteR e
  | .stream => pteR e
  | .descriptor => pteR e
  | .moverSrc => pteR e
  | .coded => pteR e
  | .store => pteW e
  | .moverDst => pteW e
  | .atomic => pteR e && pteW e

/-- A tile's fetch, load, store or atomic in supervisor mode may use a leaf with U = 0 (R152). -/
def superOk (sup : Bool) : Access → Bool
  | .fetch => sup
  | .load => sup
  | .store => sup
  | .atomic => sup
  | _ => false

/-- Accesses that change memory. -/
def Access.writes : Access → Bool
  | .store => true
  | .atomic => true
  | .moverDst => true
  | _ => false

/-- A page of CSR space, which is mapped read-only (R126, R357). -/
def csrPage (e : W64) : Bool := csrBase ≤ ptePa e && ptePa e < csrBase + 0x10_0000_0000

/-- The checks of a valid leaf, in order: WINDOW, PERMISSION; none when they pass (R152). -/
def State.leafCheck (s : State) (c : Nat) (e : W64) (acc : Access) (sup : Bool) : Option (BitVec 4) :=
  if decide (windowBase ≤ ptePa e) && !s.ctxWindow c then some 2
  else if csrPage e && acc.writes then some 1
  else if !rightOk e acc then some 1
  else if !pteU e && !superOk sup acc then some 1
  else none

/-! ### The walk -/

/-- A fault found by a translation: KIND, LEVEL, MALFORMED, ENTRY, PADDR. -/
structure WalkFault where
  kind : BitVec 4
  level : Nat
  malformed : Bool
  entry : W64
  paddr : Nat
  deriving DecidableEq, Repr

/-- Shift of the index of a level (R151). -/
def levelShift (level : Nat) : Nat := if level = 4 then 16 else 48 - 9 * level
/-- Index into the table of a level. -/
def levelIndex (level va : Nat) : Nat := if level = 4 then fld va 16 5 else fld va (levelShift level) 9

/-! ### The shared subtree of the Global Window (R149)

Its tables stand at a fixed place of each bolt's reserve, identical for all contexts: one L1 table of 256 pointers and 256 L2 tables of 1 GiB
leaves. Their contents never change, so they are not held byte by byte (log entry 26). -/

/-- Offset in the reserve, and size. -/
def subtreeAt : Nat := 0x2F00_0000
def subtreeBytes : Nat := 257 * 4096

/-- The entry at an offset of the subtree that stands at a base address. -/
def subtreeEntry (base off : Nat) : W64 :=
  let i := off / 8
  if i < 512 then (if i < 256 then BitVec.ofNat 64 (base + 4096 * (i + 1) + 1) else 0)
  else BitVec.ofNat 64 (windowBase + (i - 512) * 2 ^ 30 + 0x2F)

/-- Read a table entry. -/
def State.readEntry (s : State) (a : Nat) : Except MemErr W64 :=
  match s.physRead a 8 with
  | .error e => .error e
  | .ok l =>
    match s.reserve (a / (6 * stackBytes)) with
    | some r =>
      if r + subtreeAt ≤ a ∧ a < r + subtreeAt + subtreeBytes then .ok (subtreeEntry (r + subtreeAt) (a - r - subtreeAt))
      else .ok (BitVec.ofNat 64 (ofLe l))
    | none => .ok (BitVec.ofNat 64 (ofLe l))

/-- The walk from a level on (R151): the leaf with its level, or the fault; and the pointers read on the way, as the walk
cache holds them: level, first address covered, table. -/
def State.walkFrom (s : State) (va : Nat) : Nat → Nat → Nat → List (Nat × Nat × Nat) →
    Except WalkFault (W64 × Nat × Nat) × List (Nat × Nat × Nat)
  | 0, _, _, ptrs => (.error ⟨0, 4, true, 0, 0⟩, ptrs)
  | fuel + 1, level, table, ptrs =>
    let a := table + levelIndex level va * 8
    match s.readEntry a with
    | .error _ => (.error ⟨3, level, false, 0, a⟩, ptrs)
    | .ok e =>
      if !pteV e then (.error ⟨0, level, false, e, a⟩, ptrs)
      else if pteLeaf e then
        if level < 2 ∨ ptePa e % 2 ^ leafBits level ≠ 0 ∨ (pteW e && !pteR e) = true then
          (.error ⟨0, level, true, e, a⟩, ptrs)
        else (.ok (e, level, a), ptrs)
      else if level = 4 then (.error ⟨0, level, true, e, a⟩, ptrs)
      else if level < 3 ∧ fld e.toNat 8 4 ≠ 0 then (.error ⟨0, level, true, e, a⟩, ptrs)
      else s.walkFrom va fuel (level + 1) (ptePa e)
        (ptrs ++ [(level, alignDown va (2 ^ levelShift level), ptePa e)])

/-- The deepest pointer that the walk cache of a bolt holds for an address (Table 6-4). -/
def State.cachedPointer (s : State) (b asid va : Nat) : Option (Nat × Nat) :=
  let l := (Tab.look [] s.mmu.wcache b).filter fun p =>
    decide (p.1.toNat = asid) && decide (alignDown va (2 ^ levelShift p.2.1) = p.2.2.1)
  ([3, 2, 1, 0].findSome? fun k => l.find? fun p => decide (p.2.1 = k)).map fun p => (p.2.1, p.2.2.2)

/-- A whole walk: invalid contexts and addresses beyond 57 bits fault at level 0, where no entry has been read: ENTRY and PADDR are zero (log
entry 176). The walk cache may supply the pointer to start from (R151, R153). -/
def State.walk (s : State) (b c va : Nat) : Except WalkFault (W64 × Nat × Nat) × List (Nat × Nat × Nat) :=
  if 2 ^ 57 ≤ va ∨ s.ctxValid c = false then (.error ⟨0, 0, false, 0, 0⟩, [])
  else match s.cachedPointer b (s.ctxAsid c) va with
    | some (k, table) => s.walkFrom va 5 (k + 1) table []
    | none => s.walkFrom va 5 0 (s.rootOf b c) []

/-- A pointer that the walk cache supplies becomes the most recently used (R411). -/
def State.touchPointer (s : State) (b c va : Nat) : State :=
  let asid := s.ctxAsid c
  let l := Tab.look [] s.mmu.wcache b
  if 2 ^ 57 ≤ va ∨ s.ctxValid c = false then s
  else match s.cachedPointer b asid va with
    | some (k, table) =>
      let e := (BitVec.ofNat 12 asid, k, alignDown va (2 ^ levelShift k), table)
      { s with mmu := { s.mmu with wcache := Tab.put [] s.mmu.wcache b (e :: l.filter fun p => decide (p ≠ e)) } }
    | none => s

/-- Put pointers into a bolt's walk cache, newest first, 512 at most (R411). -/
def State.cachePointers (s : State) (b asid : Nat) (ptrs : List (Nat × Nat × Nat)) : State :=
  let old := Tab.look [] s.mmu.wcache b
  let new := ptrs.reverse.map fun p => (BitVec.ofNat 12 asid, p.1, p.2.1, p.2.2)
  { s with mmu := { s.mmu with
    wcache := Tab.put [] s.mmu.wcache b ((new ++ old.filter fun p => !new.contains p).take 512) } }

/-- Whether a TLB entry translates an address of an ASID. -/
def TlbEntry.hits (e : TlbEntry) (asid va : Nat) : Bool :=
  decide (e.asid.toNat = asid) && decide (alignDown va (2 ^ e.bits) = e.va)

/-- Install a leaf, replacing the least recently used entry of a full TLB (R411). -/
def State.installLeaf (s : State) (who : Requester) (e : TlbEntry) : State :=
  let old := Tab.look [] s.mmu.tlbs who.tlb
  { s with mmu := { s.mmu with
    tlbs := Tab.put [] s.mmu.tlbs who.tlb ((e :: old.filter fun q => decide (q ≠ e)).take who.tlbSize) } }

/-- What a translation answers: a physical address, a fault, or a miss that must be walked. -/
inductive Xlat where
  | hit (pa : Nat)
  | fault (f : WalkFault)
  | miss
  deriving DecidableEq, Repr

/-- Translate through the requester's TLB (R152, R154). A fault at a hit has LEVEL 7 and the translated address (Table
6-8). -/
def State.translate (s : State) (who : Requester) (c asid va : Nat) (acc : Access) (sup : Bool) : Xlat :=
  match (Tab.look [] s.mmu.tlbs who.tlb).find? fun e => e.hits asid va with
  | none => .miss
  | some e =>
    let pa := ptePa e.pte + va % 2 ^ e.bits
    match s.leafCheck c e.pte acc sup with
    | none => .hit pa
    | some k => .fault ⟨k, 7, false, e.pte, pa⟩

/-- A hit makes its entry the most recently used, also where the leaf's checks then fail (R411). -/
def State.touch (s : State) (who : Requester) (asid va : Nat) : State :=
  match (Tab.look [] s.mmu.tlbs who.tlb).find? fun e => e.hits asid va with
  | none => s
  | some e => s.installLeaf who e

/-- Queue a walk at the requester's bolt; at most 64 wait, and a walk already queued is not queued twice (R153). -/
def State.queueWalk (s : State) (w : Walk) : State :=
  let b := w.who.bolt
  let q := Tab.look [] s.mmu.walks b
  if q.contains w ∨ 64 ≤ q.length then s
  else { s with mmu := { s.mmu with walks := Tab.put [] s.mmu.walks b (q ++ [w]) } }

/-! ### Fault records -/

/-- The 32 bytes of a record (Table 6-8). -/
def FaultRecord.words (r : FaultRecord) : List W64 :=
  let (ty, id) := r.who.unit
  [ BitVec.ofNat 64 (r.va.toNat % 2 ^ 57),
    BitVec.ofNat 64 (r.gtLow.toNat * 2 ^ 32 + id % 4096 * 2 ^ 20 + ty * 2 ^ 16 + r.ctx % 16 * 2 ^ 12 + r.acc.code * 256
      + b2n r.malformed * 128 + r.level.toNat * 16 + r.kind.toNat),
    r.entry,
    BitVec.ofNat 64 (r.seq.toNat * 2 ^ 56 + r.peer.toNat * 2 ^ 48 + r.paddr.toNat) ]

/-- A fault leaves a record in its requester, to be posted (R158, R159). -/
def State.holdRecord (s : State) (who : Requester) (c : Nat) (acc : Access) (va : W64) (f : WalkFault) (peer : Nat) :
    State :=
  let r : FaultRecord := {
    who := who, ctx := c, acc := acc, va := va, kind := f.kind, level := BitVec.ofNat 3 f.level, malformed := f.malformed
    entry := f.entry, paddr := BitVec.ofNat 48 f.paddr, peer := BitVec.ofNat 8 peer, gtLow := 0, seq := 0 }
  let b := who.bolt
  { s with mmu := { s.mmu with held := Tab.put [] s.mmu.held b (Tab.look [] s.mmu.held b ++ [r]) } }

/-- The trap cause of a fault kind (Table 6-7): 0x10–0x13. -/
def trapCode (k : BitVec 4) : BitVec 8 := BitVec.ofNat 8 (0x10 + k.toNat)

end Sys2Proof.Machine
end

