-- ==== Sys2Proof/Machine/Trap.lean ====
section
/-!
DEFINITION. Taking a trap and returning from one (R47–R53), as one shared operation each, and the long vector instruction that an
interrupt or a stop cuts (R54).
-/

namespace Sys2Proof.Machine

/-- Change a tile. -/
def State.onTile (s : State) (t : Nat) (f : Tile → Tile) : State := s.setTile t (f (s.tile t))

/-- A trap: interrupt or exception, CODE, SUBCODE, ENGINE, SLOT, TEPC and TVAL (Tables 2-7, 2-9). -/
structure Trap where
  interrupt : Bool
  code : Nat
  sub : BitVec 8
  engine : Nat
  slot : Nat
  epc : W64
  val : W64
  deriving DecidableEq, Repr

/-- TCAUSE (Table 2-7). -/
def Trap.cause (k : Trap) : W64 :=
  BitVec.ofNat 64 (b2n k.interrupt * 2 ^ 63 + k.sub.toNat * 2 ^ 16 + k.engine * 2 ^ 14 + k.slot * 2 ^ 11 + k.code)

/-- TSTATUS after trap entry: PM and PIE take MODE and IE, MODE becomes supervisor, IE zero (R50). -/
def statusOnEntry (st : W64) : W64 :=
  let mode := st &&& 1
  let ie := (st >>> 7) &&& 1
  (st &&& 0xF00000000) ||| (ie <<< 8) ||| (mode <<< 4) ||| 1

/-- TSTATUS after `tret`: MODE and IE take PM and PIE (R51). -/
def statusOnReturn (st : W64) : W64 :=
  (st &&& 0xFFFFFFFFFFFFFF7E) ||| ((st >>> 4) &&& 1) ||| (((st >>> 8) &&& 1) <<< 7)

/-- TVEC's base as trap entry reads it: free where TVEC was written less than two bundles before (Table 2-4). -/
def State.trapBase (s : State) (t : Nat) : W64 × State :=
  let x := s.tile t
  if x.haz.tvecOpen then
    let (v, s) := s.takeFree
    (v &&& ~~~ 0xFFF, s)
  else (x.sys.tvec, s)

/-- Trap entry, as one action (R50). A FETCH_FAULT at TVEC.BASE or TVEC.BASE + 0x200 does not trap: the tile enters HALTED with
TCAUSE and TVAL set and the halt is reported (R53). ENGINE_FAULT clears the EFP bit of the engine whose fault it takes. -/
def State.trapEntry (s : State) (t : Nat) (k : Trap) : State :=
  let (base, s) := (s.noStagger t).trapBase t
  let x := s.tile t
  if !k.interrupt && decide (k.code = 1) && (decide (k.val = base) || decide (k.val = base + 0x200)) then
    (s.setTile t { x with st := .halted, sys := { x.sys with tcause := k.cause, tval := k.val }, fetchFault := none }).report
      0 (BitVec.ofNat 32 t) 0x16 (some (Fin.ofNat 16 x.ctxNo)) (data64 k.cause.toNat ++ data64 k.val.toNat)
  else
    let st := statusOnEntry x.sys.tstatus
    let st := if !k.interrupt && decide (k.code = 0x18) then st &&& ~~~ (BitVec.ofNat 64 (2 ^ (32 + k.engine))) else st
    s.setTile t { x with
      sys := { x.sys with tepc := k.epc, tval := k.val, tcause := k.cause, tstatus := st }
      pc := base + (if k.interrupt then 0x200 else 0)
      hold := if x.hold = .wfi then .none else x.hold
      longStop := false
      walkFault := none
      fetchFault := none }

/-- The pending engine fault that is taken first: the lowest engine whose EFP bit is set (R49). -/
def engineTrap (x : Tile) : Option Trap :=
  ((List.range 4).find? fun e => x.sys.tstatus.getLsbD (32 + e)).map fun e =>
    { interrupt := false, code := 0x18, sub := (x.engine e).faultSub, engine := e, slot := 0, epc := x.pc
      val := (x.engine e).faultVa }

/-- The interrupt taken, if IE is 1: FAR_STORE_ERROR, TIMER, SOFT, BARRIER, MOVER in this order (R49). -/
def interruptTrap (gt : W64) (x : Tile) : Option Trap :=
  let p := tipNow gt x &&& x.sys.tie
  let mk (code : Nat) (v : W64) : Option Trap :=
    some { interrupt := true, code := code, sub := 0, engine := 0, slot := 0, epc := x.pc, val := v }
  if !x.sys.tstatus.getLsbD 7 then none
  else if p.getLsbD 4 then mk 5 (x.storeErrs.headD 0)
  else if p.getLsbD 0 then mk 1 0
  else if p.getLsbD 1 then mk 2 0
  else if p.getLsbD 3 then mk 4 0
  else if p.getLsbD 2 then mk 3 0
  else none

/-- Take an interrupt; FAR_STORE_ERROR delivers the oldest recorded error (R41). -/
def State.takeInterrupt (s : State) (t : Nat) (k : Trap) : State :=
  let x := s.tile t
  let s := if k.code = 5 then s.setTile t { x with storeErrs := x.storeErrs.drop 1 } else s
  s.trapEntry t k

/-! ### Long vector instructions -/

/-- VCUR with the given fields (Table 2-10). -/
def vcurOf (slot done : Nat) : W64 := BitVec.ofNat 64 (2 ^ 63 + slot * 2 ^ 32 + done)

/-- The value of VL that a vector instruction uses; free where VL was written in the bundle before (Table 2-4). -/
def State.useVl (s : State) (t : Nat) : Nat × State :=
  let x := s.tile t
  if x.haz.vlOpen then
    let (v, s) := s.takeFree
    (v.toNat % 65, s)
  else (x.vlen, s)

/-- A vector register takes a free value. -/
def State.freeVec (s : State) (t n : Nat) : State :=
  let (l, s) := s.freeBytes 256
  s.onTile t fun x => x.setV n (BitVec.ofNat 2048 (ofLe l))

/-- Whether a register of the bundle waits for an outstanding far load (R36). -/
def farPending (x : Tile) (ws : List W64) : Bool :=
  ws.any fun w => (dests w ++ sources w).any fun r => x.far.any fun f =>
    match r, f.dest with
    | .s n, .scalar m => n ≠ 0 && n = m
    | .v n, .vector m => n = m
    | _, _ => false

/-- What the long instruction cut in the bundle at an address left; where nothing goes with VSYL and VOPA, execution goes on behind the
bundle and the registers are as they stand. -/
def Tile.cutOf (x : Tile) (bundle : W64) : Cut :=
  match Tab.look none x.cuts bundle.toNat with
  | some k =>
    if k.syl = x.sys.vsyl ∧ k.base = x.sys.vopa then k
    else ⟨x.sys.vsyl, x.sys.vopa, bundle + 64, none, none, [], false⟩
  | none => ⟨x.sys.vsyl, x.sys.vopa, bundle + 64, none, none, [], false⟩

/-- The tile as a cut instruction reads it: with the guard, VL and sources that its bundle found. -/
def Tile.withCut (x : Tile) (k : Cut) : Tile :=
  let x := match k.guard with | some g => x.setP (sGuard k.syl) g | none => x
  { x with v := k.regs.foldl (fun m p => Tab.put 0 m p.1 p.2) x.v }

/-- A gather that reads, in elements `lo` to `hi` − 1, bytes which a mover's descriptor has written without having signalled (Table 2-4,
sixth row). -/
def gatherIncoming (x : Tile) (vl : Nat) (w base : W64) (lo hi : Nat) : Bool :=
  decide (sOp w = 0x60) && (((longElements x vl w).take hi).drop lo).any fun i =>
    x.incomingIn (elementOff base (etLane (vET w) / 8) (laneOf (etLane (vET w)) (x.getV (vVA w)) i)) (etLane (vET w) / 8)

/-- Resume the instruction of VSYL from VCUR.ELEMENTS_DONE with the sources in VOPA and VOPB, up to the element boundary `stop` if
one is given (R51, R85), as the bundle at an address found its registers. Poison that its first elements left stays (R38). When it ends
VCUR is cleared and execution goes on at `next`. -/
def State.finishLong (s : State) (t : Nat) (stop : Option Nat) (bundle next : W64) : State :=
  let x := s.tile t
  let w := x.sys.vsyl
  let k := x.cutOf bundle
  let src := x.withCut k
  let vl := k.vl.getD x.vlen
  let from_ := wf x.sys.vcur 0 32
  let n := (longElements src vl w).length
  let to_ := match stop with | some k => max from_ (min k n) | none => n
  let x' := longEffect src vl w x.sys.vopa from_ to_ x
  let x' := match Tab.look none x.vPoison (vVD w) with
    | some p => if 0 < from_ ∧ sOp w = 0x60 then x'.poisonV (vVD w) p else x'
    | none => x'
  let s := s.ueSiltOpt t (gatherLost src vl w x.sys.vopa from_ to_)
  let x' := { x' with retireDue := (s.tile t).retireDue }
  let race := k.race || gatherIncoming src vl w x.sys.vopa from_ n
  if to_ < n then
    s.setTile t { x' with cuts := Tab.put none x.cuts bundle.toNat (some { k with race := race }), sys := { x'.sys with vcur := vcurOf (wf x.sys.vcur 32 3) to_ }, longStop := true }
  else
    let s := s.setTile t { x' with sys := { x'.sys with vcur := 0 }, longStop := false, pc := next }
    if race then s.freeVec t (vVD w) else s

/-- Where execution goes on after the bundle at an address whose long instruction was interrupted. -/
def Tile.afterLong (x : Tile) (bundle : W64) : W64 := (x.cutOf bundle).next

/-- `tret`, after the other slots of its bundle (R51). A resumed instruction one of whose registers waits for a far load stands at its
element boundary until that has come (R36). -/
def State.tret (s : State) (t : Nat) (stop : Option Nat) : State :=
  let x := s.tile t
  let pc := x.sys.tepc &&& ~~~ 63
  let s := s.setTile t { x with sys := { x.sys with tstatus := statusOnReturn x.sys.tstatus }, pc := pc }
  if !x.sys.vcur.getLsbD 63 then s
  else if farPending x [x.sys.vsyl] then s.onTile t fun x => { x with longStop := true }
  else s.finishLong t stop pc (x.afterLong pc)

end Sys2Proof.Machine
end

