-- ==== Sys2Proof/Machine/Bundle.lean ====
section
/-!
DEFINITION. Issuing one bundle (R32, R33, R49): the trap taken at its boundary, what holds it, and the effect of each slot, from
the tile as it stood before the bundle into the tile the bundle leaves.
-/

namespace Sys2Proof.Machine

/-! ### Memory syllables (R76) -/

/-- log2 of the bytes an access moves, from the OP's low nibble (Table 3-6). -/
def accessSize (op : Nat) : Nat :=
  if 0x40 ≤ op then 8
  else match op % 16 with
    | 1 => 1 | 2 => 1 | 3 => 2 | 4 => 2 | 5 => 4 | 6 => 4 | 7 => 8 | _ => 256

/-- Whether a scalar load sign-extends: `b`, `h`, `w` (R76). -/
def loadSigned (op : Nat) : Bool := op % 16 = 1 || op % 16 = 3 || op % 16 = 5

/-- sA + sign-extended IMM. -/
def effAddr (x : Tile) (w : W64) : W64 := x.getS (fRA w) + fImmS w

/-- Bytes of a load as a register value, extended as R76 states. -/
def extendLoad (signed : Bool) (l : List Byte) : W64 :=
  if signed then BitVec.ofInt 64 (sx (8 * l.length) (ofLe l)) else BitVec.ofNat 64 (ofLe l)

/-- A far syllable: loads, stores, atomics. -/
def isFar (w : W64) : Bool := sKind w = 4 && 0x21 ≤ sOp w && sOp w ≤ 0x45
/-- A far atomic. -/
def isAmo (w : W64) : Bool := sKind w = 4 && 0x40 ≤ sOp w && sOp w ≤ 0x45
/-- A far store. -/
def isFarStore (w : W64) : Bool := sKind w = 4 && 0x31 ≤ sOp w && sOp w ≤ 0x38

/-- The cleared virtual address and the access of a far syllable (R76). Atomics take sA with no immediate. -/
def farAccess (x : Tile) (w : W64) : W64 × Access :=
  let n := accessSize (sOp w)
  if isAmo w then (BitVec.ofNat 64 (alignDown (x.getS (fRA w)).toNat n), .atomic)
  else (BitVec.ofNat 64 (alignDown (effAddr x w).toNat n), if isFarStore w then .store else .load)

/-- What slot 3's translation gives, where it holds an unguarded far syllable (R40). -/
def State.slot3 (s : State) (t : Nat) (w : W64) : Option (W64 × Access × Xlat) :=
  let x := s.tile t
  if isFar w && guardOn x w then
    let (va, acc) := farAccess x w
    some (va, acc, match x.walkFault with
      | some (code, v) =>
        if v = va then .fault ⟨BitVec.ofNat 4 (code.toNat - 0x10), 0, false, 0, 0⟩
        else s.translate (.slot3 t) x.ctxNo x.asid va.toNat acc x.supervisor
      | none => s.translate (.slot3 t) x.ctxNo x.asid va.toNat acc x.supervisor)
  else none

/-- A target that is local to a tile (05, "Local target"). -/
def localTo (t pa : Nat) : Bool :=
  match targetOf pa with
  | .hbm k => k / 6 = boltOf t
  | .loam b => b = boltOf t
  | .silt u _ => boltOf u = boltOf t
  | _ => false

/-! ### Exceptions of the next bundle (R48, R49) -/

/-- The exception that the bundle raises before any slot acts, slot-3 translation apart: ILLEGAL_BUNDLE, ILLEGAL_SYLLABLE,
PRIVILEGE, FAR_POISON, in this order, each at its lowest slot. -/
def State.bundleTrap (s : State) (t : Nat) (ws : List W64) (vl : Nat) : Option Trap :=
  let x := s.tile t
  let w (k : Nat) := ws.getD k nopWord
  let mk (code : Nat) (sub : BitVec 8) (k : Nat) (v : W64) : Trap :=
    { interrupt := false, code := code, sub := sub, engine := 0, slot := k, epc := x.pc, val := v }
  match bundleBreach ws with
  | some k => some (mk 2 0 k x.pc)
  | none =>
    match (List.range 8).find? fun k => checked x k (w k) && !syllableOk x (w k) with
    | some k => some (mk 3 0 k (w k))
    | none =>
      match (List.range 8).find? fun k => checked x k (w k) && needsPrivilege s t (w k) with
      | some k => some (mk 4 0 k (w k))
      | none =>
        match (List.range 8).find? fun k => (poisonRead x vl k (w k)).isSome with
        | some k => (poisonRead x vl k (w k)).map fun p => mk 0x14 p.sub k p.addr
        | none => none

/-! ### What holds a bundle -/

/-- Whether what an earlier bundle set still holds the next one: `wfi` until (TIP & TIE) ≠ 0 (R71), `fence.l` until every far
access to a local target is performed (R136), `fence.g` until every far access is (R137), `fence.i` until every far store is
(R72). -/
def Tile.held (gt : W64) (t : Nat) (x : Tile) : Bool :=
  match x.hold with
  | .none => false
  | .wfi => tipNow gt x &&& x.sys.tie = 0
  | .fenceL => x.far.any fun f => localTo t f.pa
  | .fenceG => x.far ≠ []
  | .fenceI => x.far.any fun f => f.kind ≠ .load true && f.kind ≠ .load false

/-- An engine with its MASK bit set is not idle or is faulted (`mwait`). -/
def maskBusy (x : Tile) (mask : Nat) : Bool := (List.range 4).any fun e => bitOf mask e && !(x.engine e).idle

/-- What slot 6 waits for: a dispatch until its engine is idle (R42, R89); accumulator moves and `mabort` until it does not run
(R44, R88), `mresume` among them; `mwait` (Table 3-11). -/
def matrixWaits (x : Tile) (w : W64) : Bool :=
  if sKind w = 6 && guardOn x w then
    let op := sOp w
    let e := x.engine (xE w)
    if op = 1 ∨ op = 2 then !e.idle
    else if op = 0x20 then maskBusy x (aMASK w)
    else !e.quiet
  else false

/-- Descriptors a mover holds or has promised an entry: the running one and those queued (R93, Table 7-8). -/
def Mover.depth (m : Mover) : Nat := m.queue.length + b2n m.run.isSome

/-- A counter has reached a target: their difference as a signed 32-bit number is at least zero. -/
def reached (v target : W32) : Bool := !(v - target).getLsbD 31

/-- What slot 7 waits for: `mvq` for one of the 16 entries (R93), `bar.wt` for its target (Table 3-12). -/
def State.streamWaits (s : State) (t : Nat) (w : W64) : Bool :=
  let x := s.tile t
  if sKind w = 7 && guardOn x w then
    if sOp w = 1 then 16 ≤ (s.mover (boltOf t) (wf (x.getS (fRA w)) 0 5)).depth
    else if sOp w = 0x11 then !reached (s.ctr (tCTR w)) ((x.getS (fRD w)).setWidth 32)
    else false
  else false

/-- What slot 3 waits for: the limit of 64 outstanding far loads, atomics among them, or 64 far stores (R39, R77), and an
outstanding CSR access (R126). -/
def farWaits (x : Tile) (w : W64) : Bool :=
  if isFar w && guardOn x w then
    let stores := x.far.filter fun f => f.kind = .store
    (if isFarStore w then 64 ≤ stores.length else 64 ≤ x.far.length - stores.length)
      || x.far.any fun f => match targetOf f.pa with | .csr _ => true | _ => false
  else false

/-! ### Slot effects -/

/-- Slot 0 (R70–R72): the program counter, the link register, and what holds or halts the tile after the bundle. -/
def controlEffect (x : Tile) (w : W64) (waits : Bool) (new : Tile) : Tile :=
  let rel := x.pc + fImmS w * 64
  let abs := x.getS (fRA w) &&& ~~~ 63
  match sOp w with
  | 0x01 => { new with pc := rel }
  | 0x02 => { new.setS (fRD w) (x.pc + 64) with pc := rel }
  | 0x03 => { new with pc := abs }
  | 0x04 => { new.setS (fRD w) (x.pc + 64) with pc := abs }
  | 0x21 => if waits then { new with hold := .wfi } else new
  | 0x22 => { new with st := .halted }
  | 0x30 => { new with hold := .fenceI }
  | _ => new

/-- Slots 1 and 2 (R73–R75). `stale` stands for a register that a `csrr` reads too near a write (Table 2-4). -/
def scalarEffect (gt cyc : W64) (t : Nat) (x : Tile) (w : W64) (stale : Option W64) (new : Tile) : Tile :=
  let op := sOp w
  let a := x.getS (fRA w)
  let b := if 0x40 ≤ op % 128 ∧ op ≠ 0x60 ∧ op ≠ 0x61 then fImmS w else x.getS (fRB w)
  if op = 0x60 then new.setS (fRD w) (fImmS w)
  else if op = 0x61 then new.setS (fRD w) (lihValue (fImm w) a)
  else if op < 0x80 then new.setS (fRD w) (scalarAlu (op % 64) a b)
  else if 0x80 ≤ op ∧ op ≤ 0x85 then new.setP (fRD w) (truth (scalarRel op a b))
  else if 0xC0 ≤ op ∧ op ≤ 0xC5 then new.setP (fRD w) (truth (scalarRel (op - 0x40) a b))
  else if 0x90 ≤ op ∧ op ≤ 0x93 then new.setP (fRD w) (predAlu op (x.getP (fRA w)) (x.getP (fRB w)))
  else match op with
    | 0x94 => new.setP (fRD w) a
    | 0x95 => new.setS (fRD w) (x.getP (fRA w))
    | 0x96 => new.setP (fRD w) (firstMask a)
    | 0xF0 => new.setS (fRD w) (stale.getD (csrValue gt cyc t x (fImm w)))
    | 0xF1 => writeCsr new (fImm w) a
    | _ => new

/-- Slot 3, Silt and fences (R38, R76, R78). -/
def siltEffect (x : Tile) (w : W64) (new : Tile) : Tile :=
  let op := sOp w
  let n := accessSize op
  let off := siltOff (effAddr x w).toNat n
  if op = 0x50 then { new with hold := .fenceL, haz := { new.haz with stores := [] } }
  else if op = 0x51 then { new with hold := .fenceG }
  else if op ≤ 8 then
    let bad := x.siltBadIn off n
    let p : Poison := ⟨0x22, BitVec.ofNat 64 off⟩
    let l := x.siltRead off n
    let new := new.count 7 n
    if op = 8 then
      if bad then new.poisonV (fRD w) p else new.setV (fRD w) (BitVec.ofNat 2048 (ofLe l))
    else if bad then new.poisonS (fRD w) p
    else new.setS (fRD w) (extendLoad (loadSigned op) l)
  else
    let v := if op = 0x18 then (x.getV (fRD w)).toNat else (x.getS (fRD w)).toNat
    ((new.siltWrite off (toLe n v)).noteStore off n).count 7 n

/-- The register that a slot-3 Silt load of such bytes has loaded is free (Table 2-4, sixth row). -/
def State.siltRace (s : State) (t : Nat) (x : Tile) (w : W64) : State :=
  let n := accessSize (sOp w)
  let off := siltOff (effAddr x w).toNat n
  if sOp w ≤ 8 && x.incomingIn off n && !x.siltBadIn off n then
    if sOp w = 8 then s.freeVec t (fRD w)
    else
      let (v, s) := s.takeFree
      s.onTile t fun y => y.setS (fRD w) (extendLoad (loadSigned (sOp w)) (toLe n v.toNat))
  else s

/-- The Silt offset of a slot-3 Silt load that meets an uncorrectable word. -/
def siltLost (x : Tile) (w : W64) : Option Nat :=
  let n := accessSize (sOp w)
  let off := siltOff (effAddr x w).toNat n
  if sOp w ≤ 8 && x.siltBadIn off n then some off else none

/-- Slot 3, far accesses: an outstanding access at its translated address (R39–R41, R77). `tagged`: the tile is in an active
cadence period (R272). -/
def farEffect (x : Tile) (w : W64) (pa : Nat) (tagged : Bool) (new : Tile) : Tile :=
  let op := sOp w
  let n := accessSize op
  let (va, _) := farAccess x w
  let kind : FarKind := if isAmo w then .amo (op - 0x40) else if isFarStore w then .store else .load (loadSigned op)
  let dest : FarDest :=
    if isFarStore w then .none else if op = 0x28 then .vector (fRD w) else .scalar (fRD w)
  let data : Vec :=
    if isAmo w then (x.getS (fRB w)).setWidth 2048
    else if op = 0x38 then x.getV (fRD w)
    else if isFarStore w then (x.getS (fRD w)).setWidth 2048 else 0
  { new with
    far := new.far ++ [{
      id := new.farNext, kind := kind, dest := dest, size := n, va := va, pa := pa, data := data
      cmp := if op = 0x45 then x.getS (fRC w) else 0, tagged := tagged }]
    farNext := new.farNext + 1 }

/-- Slot 6 (R87, R88). -/
def matrixEffect (x : Tile) (w : W64) (new : Tile) : Tile :=
  let e := xE w
  let k := xACC w
  match sOp w with
  | 0x01 => new.dispatch x w
  | 0x02 => new.dispatch x w
  | 0x10 => new.putAccs e k (List.replicate 1024 0)
  | 0x11 =>
    let r := 2 * aROWP w
    new.setV (aV w) (putLanes 32 0 ((List.range 64).map fun i => (i, (x.getAcc e k (r + i / 32) (i % 32)).toNat)))
  | 0x12 =>
    let r := 2 * aROWP w
    let v := x.getV (aV w)
    { new with acc := (List.range 64).foldl (fun m i =>
        Tab.put 0 m (accIndex e k (r + i / 32) (i % 32)) (BitVec.ofNat 32 (laneOf 32 v i))) new.acc }
  | 0x13 =>
    let off := siltOff (x.getS (aRA w)).toNat 4096
    new.siltWrite off ((List.range 1024).flatMap fun j => toLe 4 (x.getAcc e k 0 j).toNat)
  | 0x14 =>
    let off := siltOff (x.getS (aRA w)).toNat 4096
    let l := x.siltRead off 4096
    new.putAccs e k ((List.range 1024).map fun j => ofLe ((l.drop (4 * j)).take 4))
  | 0x21 => new.mresume e
  | 0x22 => new.mabort e
  | _ => new

/-- Elements of an `mld` whose Silt word is uncorrectable take free values: the spec gives an accumulator no poison (log entry
19). -/
def State.mldLost (s : State) (t : Nat) (x : Tile) (w : W64) : State :=
  if sOp w = 0x14 then
    let off := siltOff (x.getS (aRA w)).toNat 4096
    let lost := (List.range 1024).filter fun j => x.siltBadIn (off + 4 * j) 4
    let s := lost.foldl (fun s j =>
      let (v, s) := s.takeFree
      s.onTile t fun n => { n with acc := Tab.put 0 n.acc (accIndex (xE w) (xACC w) 0 j) (v.setWidth 32) }) s
    s.ueSiltOpt t (lost.head?.map fun j => off + 4 * j)
  else s

/-- Set TIP.BARRIER of a tile whose armed notification's counter has reached its target; it fires once (R94). -/
def Tile.fireArmed (x : Tile) (ctr : Nat) (v : W32) : Tile :=
  match x.armed with
  | some (c, target) =>
    if c = ctr ∧ reached v target then { x with armed := none, sys := { x.sys with tip := x.sys.tip ||| 8 } } else x
  | none => x

/-- A counter takes a value, and every armed notification it satisfies fires (R90, R94). -/
def State.bumpCtr (s : State) (n : Nat) (inc : Nat) : State :=
  let v := s.ctr n + BitVec.ofNat 32 inc
  let s := s.setCtr n v
  { s with tiles := Tab.mapAll {} (fun _ x => x.fireArmed n v) s.tiles }

/-- Stagger of a tile whose `bar.wt` is satisfied while its act is 128 or less (R304). -/
def State.stagger (s : State) (t : Nat) : State :=
  let g := s.gov t
  if s.pow.staggerEn && decide (g.act ≤ 128) then s.setGov t { g with stagger := t % 16, fresh := true } else s

/-- Slot 7 (R90–R95). Released instructions wait as releases of the tile (R92). -/
def streamEffect (t : Nat) (x : Tile) (w : W64) (s : State) : State :=
  let ctr := tCTR w
  let release (s : State) (k : ReleaseKind) : State :=
    s.onTile t fun n => { n with releases := n.releases ++ [{ what := k, before := x.farNext }] }
  match sOp w with
  | 0x01 =>
    let b := boltOf t
    let m := wf (x.getS (fRA w)) 0 5
    let mv := s.mover b m
    let e : MovEntry := {
      num := mv.nextNum, released := false, va := 0, ctx := x.ctxNo, tile := t, words := none
      late := !mv.en, lateStatus := if mv.drain then 2 else 3 }
    let s := s.setMover b m { mv with queue := mv.queue ++ [e], nextNum := mv.nextNum + 1 }
    release s (.mvq m e.num (x.getS (fRD w) &&& ~~~ 63))
  | 0x10 => release s (.barArv ctr (tIMM w))
  | 0x11 => s.stagger t
  | 0x12 =>
    let target := (x.getS (fRD w)).setWidth 32
    s.onTile t fun n => ({ n with armed := some (ctr, target) } : Tile).fireArmed ctr (s.ctr ctr)
  | 0x13 => s.onTile t fun n => n.setS (fRA w) ((s.ctr ctr).setWidth 64)
  | 0x20 => release s .cadDone
  | _ => s

/-- Slot 3, far accesses: the access becomes outstanding, and leaves for its member where it goes to the Global Window. -/
def State.issueFar (s : State) (t : Nat) (x : Tile) (w : W64) (pa : Nat) : State :=
  let s := s.onTile t (farEffect x w pa (s.tagOf t).isSome)
  match (s.tile t).far.getLast? with
  | some f => s.sendFar t f
  | none => s

/-- A store of slot 3 that touches an element a gather of the same bundle reads (Table 2-4, fifth row). -/
def gatherRaces (x : Tile) (vl : Nat) (w3 w : W64) : Bool :=
  if sOp w = 0x60 && sKind w3 = 4 && 0x11 ≤ sOp w3 && sOp w3 ≤ 0x18 && guardOn x w3 then
    let n := accessSize (sOp w3)
    let size := etLane (vET w) / 8
    (longElements x vl w).any fun i =>
      siltOverlap (siltOff (effAddr x w3).toNat n) n
        (elementOff (x.getS (vSA w)) size (laneOf (etLane (vET w)) (x.getV (vVA w)) i)) size
  else false

/-- What a long instruction cut in the bundle leaves: `x` is the tile before the bundle, `y` after its other slots, which changed what is
listed (R56). -/
def cutLeft (x y : Tile) (vl : Nat) (w base : W64) (race : Bool) : Cut :=
  { syl := w, base := base, next := y.pc
    guard := if y.getP (sGuard w) = x.getP (sGuard w) then none else some (x.getP (sGuard w))
    vl := if y.vlen = vl then none else some vl
    regs := (sources w).filterMap fun r => match r with
      | .v n => if y.getV n = x.getV n then none else some (n, x.getV n)
      | _ => none
    race := race }

/-- Slots 4 and 5. A long instruction cut at an element boundary fills VCUR, VSYL, VOPA and VOPB (R54). -/
def vecSlot (t : Nat) (x : Tile) (vl k : Nat) (w w3 : W64) (stopAt : Option Nat) (s : State) : State :=
  let ev := if vET w = 1 then 6 else if etFp (vET w) then 5 else 4
  if isLong w then
    let n := (longElements x vl w).length
    let base := x.getS (vSA w)
    let race := gatherRaces x vl w3 w || gatherIncoming x vl w base 0 n
    let upTo (d : Nat) (s : State) : State :=
      (s.onTile t fun y => (longEffect x vl w base 0 d y).count ev 1).ueSiltOpt t (gatherLost x vl w base 0 d)
    match stopAt with
    | some d =>
      if d < n then
        let left := cutLeft x (s.tile t) vl w base race
        (upTo d s).onTile t fun y =>
          { y with sys := { y.sys with vcur := vcurOf k d, vsyl := w, vopa := base, vopb := 0 }
                   cuts := Tab.put none y.cuts x.pc.toNat (some left), pc := x.pc, longStop := true }
      else if race then (upTo n s).freeVec t (vVD w) else upTo n s
    | none => if race then (upTo n s).freeVec t (vVD w) else upTo n s
  else s.onTile t fun y => (vectorEffect x vl w y).count ev 1

/-- What a `csrr` that follows a write of its register too closely returns (Table 2-4); none where the write is far enough back. -/
def Hazards.stale (h : Hazards) (n : Nat) (v : W64) : Option W64 :=
  if n = 5 ∧ h.tvecOpen then some (v &&& ~~~ 0xFFF)
  else if n = 7 ∧ h.tieOpen then some (v &&& 0x1F)
  else if n = 0x0A ∧ h.tfflagsOpen then some (v &&& 0x1F)
  else if n = 0x0B ∧ h.mseedOpen then some v
  else none

/-- The effect of the syllable in slot `k` (R30: outside the vector slots only where its guard is on). -/
def slotEffect (t : Nat) (x : Tile) (vl : Nat) (ws : List W64) (pa : Nat) (stopAt : Option Nat) (s : State) (k : Nat) :
    State :=
  let w := ws.getD k nopWord
  if sKind w = 1 then s
  else if k = 4 ∨ k = 5 then vecSlot t x vl k w (ws.getD 3 nopWord) stopAt s
  else if !guardOn x w then s
  else match k with
    | 0 =>
      -- `wfi` too near a write of TIE holds or not, freely (Table 2-4)
      if sOp w = 0x21 ∧ x.haz.tieOpen then
        let (v, s) := s.takeFree
        s.onTile t (controlEffect x w (v.getLsbD 0))
      else s.onTile t (controlEffect x w true)
    | 3 => if isFar w then s.issueFar t x w pa else ((s.onTile t (siltEffect x w)).siltRace t x w).ueSiltOpt t (siltLost x w)
    | 6 => (s.onTile t (matrixEffect x w)).mldLost t x w
    | 7 => streamEffect t x w s
    | _ =>
      if sOp w = 0xF0 ∧ (x.haz.stale (fImm w) 0).isSome then
        let (v, s) := s.takeFree
        s.onTile t (scalarEffect s.clk.gt s.clk.tileCycles t x w (x.haz.stale (fImm w) v))
      else s.onTile t (scalarEffect s.clk.gt s.clk.tileCycles t x w none)

/-- Slot 0 holds a `sys` or `brk` that is not guarded off: its bundle ends in a trap (R48). -/
def endsInTrap (x : Tile) (ws : List W64) : Bool :=
  let w := ws.getD 0 nopWord
  sKind w = 2 && guardOn x w && (sOp w = 0x10 || sOp w = 0x11)

/-- The syllable dispatches a matrix instruction. -/
def dispatches (x : Tile) (w : W64) : Bool := sKind w = 6 && guardOn x w && (sOp w = 1 || sOp w = 2)

/-- An engine dispatched in a bundle whose own slots store to its operands, or write the MSEED that it draws from, has undefined results:
nothing separates the two (Table 2-4). -/
def Tile.markDispatch (y : Tile) (w : W64) : Tile :=
  let e := y.engine (xE w)
  let touched := sOp w = 1 && (y.haz.storeNow (mAOff e.mopa) (mKB e.mopa * blockBytes (xFA w))
    || (!xSTR w && y.haz.storeNow (mBOff e.mopb) (mKB e.mopa * blockBytes (xFB w))))
  y.setEngine (xE w) { e with undef := e.undef || touched, seedUndef := e.seedUndef || (xSR w && decide (y.haz.mseed = 0)) }

/-- The bundle executes as one step (R32): every slot in slot order (R34), each from the tile `x` as it stood; then `sys` and `brk`
trap (R48) and `tret` returns (R51). Long instructions are taken after the other slots of the bundle, which complete (R54); beside
`sys`, `brk`, `tret` and `halt`, which end at the bundle's end, a long instruction runs whole (log entry 17). -/
def State.runBundle (s : State) (t : Nat) (ws : List W64) (vl pa : Nat) (stopAt : Option Nat) : State :=
  let x := s.tile t
  let w0 := ws.getD 0 nopWord
  let order := ([0, 1, 2, 3, 4, 5, 6, 7].filter fun k => !isLong (ws.getD k nopWord))
    ++ ([4, 5].filter fun k => isLong (ws.getD k nopWord))
  let ends := sKind w0 = 2 && guardOn x w0
    && (sOp w0 = 0x10 || sOp w0 = 0x11 || sOp w0 = 0x20 || sOp w0 = 0x22)
  let s := s.setTile t { x with pc := x.pc + 64, hold := .none, haz := x.haz.tick, walkFault := none }
  let s := order.foldl (slotEffect t x vl ws pa (if ends then none else stopAt)) s
  let w6 := ws.getD 6 nopWord
  let s := if dispatches x w6 then s.onTile t fun y => y.markDispatch w6 else s
  if sKind w0 = 2 && guardOn x w0 then
    match sOp w0 with
    | 0x10 => s.trapEntry t { interrupt := false, code := 5, sub := 0, engine := 0, slot := 0, epc := x.pc + 64
                              val := BitVec.ofNat 64 (fImm w0) }
    | 0x11 => s.trapEntry t { interrupt := false, code := 6, sub := 0, engine := 0, slot := 0, epc := x.pc + 64
                              val := BitVec.ofNat 64 (fImm w0) }
    | 0x20 => s.tret t stopAt
    | _ => s
  else s

/-! ### The boundary -/

/-- Whether a tile issues at all: RUNNING with no stop latched (R57, R60). -/
def Tile.issues (x : Tile) : Bool :=
  decide (x.st = .running) && !x.stopping && !x.restoring && !x.resetting

/-- Fetch of the next bundle as TRAP_ENTRY finds it: a translation fault that a walk found, or an uncorrectable error in the
bytes, which goes to the collector as an error of the store that holds them (R410). -/
def fetchTrap (x : Tile) (uncorrectable : Bool) : Option Trap :=
  if x.fetchFault.isSome ∨ uncorrectable then
    some { interrupt := false, code := 1, sub := if x.fetchFault.isSome then 0 else 0x20, engine := 0, slot := 0, epc := x.pc
           val := x.pc }
  else none

/-- The next bundle raises an exception as far as can be seen before its registers are there: no interrupt goes before it (R49). -/
def State.raises (s : State) (t : Nat) (ws : List W64) : Bool :=
  let x := s.tile t
  (fetchTrap x false).isSome || (s.bundleTrap t ws x.vlen).isSome || endsInTrap x ws
    || (match s.slot3 t (ws.getD 3 nopWord) with | some (_, _, .fault _) => true | _ => false)

/-- The boundary before the bundle `ws`: an engine fault first, then an exception of the bundle, then an interrupt (R49); then what
holds it; else, if `run`, the bundle executes. A bundle that raises an exception keeps an interrupt waiting, also while an earlier `wfi`
or fence or a register that waits for a far load holds it; `sys` and `brk` trap as their bundle executes. -/
def State.boundary (s : State) (t : Nat) (ws : List W64) (stopAt : Option Nat) (run : Bool) : State :=
  let x := s.tile t
  match engineTrap x with
  | some k => s.trapEntry t k
  | none =>
    let interrupt (s : State) (otherwise : State → State) : State :=
      match interruptTrap s.clk.gt (s.tile t) with
      | some k => s.takeInterrupt t k
      | none => otherwise s
    if x.held s.clk.gt t || farPending x ws then (if s.raises t ws then s else interrupt s id)
    else match fetchTrap x false with
    | some k => s.trapEntry t k
    | none =>
      let (vl, s) := if ws.any fun w => sKind w = 5 then s.useVl t else (x.vlen, s)
      match s.bundleTrap t ws vl with
      | some k => s.trapEntry t k
      | none =>
        let w3 := ws.getD 3 nopWord
        let go (s : State) (pa : Nat) : State :=
          if endsInTrap x ws then s.runBundle t ws vl pa stopAt
          else interrupt s fun s =>
            if matrixWaits x (ws.getD 6 nopWord) || s.streamWaits t (ws.getD 7 nopWord) || farWaits x w3 then s
            else if run then s.runBundle t ws vl pa stopAt else s
        match s.slot3 t w3 with
        | none => go s 0
        | some (va, _, .hit pa) => go (s.touch (.slot3 t) x.asid va.toNat) pa
        | some (va, acc, .miss) =>
          interrupt s fun s =>
            s.queueWalk { who := .slot3 t, ctx := x.ctxNo, va := va, acc := acc, sup := x.supervisor }
        | some (va, acc, .fault f) =>
          -- a fault at a TLB hit posts its record now; one found by a walk has done so
          let s := if x.walkFault.isSome then s else (s.touch (.slot3 t) x.asid va.toNat).holdRecord (.slot3 t) x.ctxNo acc va f 0
          s.trapEntry t { interrupt := false, code := 0x10 + f.kind.toNat, sub := 0, engine := 0, slot := 3, epc := x.pc
                          val := va }

/-- One bundle of a tile reaches its boundary (R32, R49); in FAULTED no tile issues (Table 1-5). A long instruction that an earlier command
left at an element boundary finishes first, once no register of it waits for a far load, unless an interrupt is taken there: nothing else
stops it (R54). -/
def State.issue (s : State) (t : Nat) (ws : List W64) (stopAt : Option Nat) : State :=
  let x := s.tile t
  if !x.issues || decide (s.top.st = .faulted) then s
  else if x.longStop then
    match interruptTrap s.clk.gt x with
    | some k => s.takeInterrupt t k
    | none =>
      if farPending x [x.sys.vsyl] then s
      else (s.finishLong t none x.pc (x.afterLong x.pc)).boundary t ws stopAt true
  else s.boundary t ws stopAt true

end Sys2Proof.Machine
end

