-- ==== Sys2Proof/Machine/Tick.lean ====
section
/-!
DEFINITION. What one tick of global time does when no command waits (log entry 2).
-/

namespace Sys2Proof.Machine

/-- Saturating addition on an age in cc. -/
def ageBy (a : W32) (n : Nat) : W32 := if 0xFFFFFFFF - n ≤ a.toNat then 0xFFFFFFFF else a + BitVec.ofNat 32 n

/-- One tt of the root clock (R276, R279): GT advances unless a correction withholds it (R218), the tile clocks make 16 cycles, 4
in Floor (R278), and the heartbeat ages grow by 4 cc (Table 15-5). Firmware writes the reports that wait (R240; log entry 186). Nothing runs before the root PLL first locks. -/
def tick (s : State) : State :=
  if !s.clk.locked then s
  else
    ({ s with
      clk := { s.clk with
        gt := if s.clk.withhold then s.clk.gt else s.clk.gt + 1
        withhold := false
        tileCycles := s.clk.tileCycles + (if s.pow.floor then 4 else 16) }
      clm := { s.clm with ageA := ageBy s.clm.ageA 4, ageB := ageBy s.clm.ageB 4 } } : State).writeReports

end Sys2Proof.Machine
end

