-- ==== Sys2Proof/Machine/Csr.lean ====
section
/-!
DEFINITION. The register blocks as they read (Table 15-8): what each register holds, which registers are secure (R358), whose a
window pair is (R362), and what a read changes (R282, R301, R363, Tables 7-9 and 15-2).
-/

namespace Sys2Proof.Machine

/-- A register's value from its fields. -/
def reg (n : Nat) : W32 := BitVec.ofNat 32 n

/-! ### Codes of states -/

def ModState.code : ModState → Nat
  | .off => 0 | .held => 1 | .boot => 2 | .ready => 3 | .running => 4 | .drain => 5 | .faulted => 6
def TileState.code : TileState → Nat
  | .reset => 0 | .running => 1 | .halted => 2 | .stopped => 3 | .retired => 4
def MovState.code : MovState → Nat
  | .idle => 0 | .running => 1 | .paused => 2 | .suspended => 3 | .draining => 4 | .disabled => 5 | .aborting => 6
def ExpState.code : ExpState → Nat
  | .idle => 0 | .decoding => 1 | .draining => 2 | .aborting => 3 | .disabled => 4 | .unavailable => 5
def PortState.code : PortState → Nat
  | .down => 0 | .training => 1 | .up => 2 | .draining => 3 | .disabled => 4 | .aborting => 5 | .failed => 6
def CadState.code : CadState → Nat
  | .disarmed => 0 | .waiting => 1 | .active => 2 | .gap => 3 | .expiring => 4 | .draining => 5
def RailState.code : RailState → Nat
  | .off => 0 | .regulating => 1 | .slewing => 2 | .shed => 3 | .fault => 4 | .linkDown => 5
def ConvMode.code : ConvMode → Nat
  | .off => 0 | .track => 1 | .limit => 2 | .stop => 3 | .node => 4
def Ring.code : Ring → Nat
  | .whole => 0 | .broken => 1 | .partialRing => 2 | .down => 3
def Ident.code : Ident → Nat
  | .own => 0 | .blank => 1 | .nominal => 2 | .host => 3 | .hostUnverified => 4
def variantCode : Variant → Nat
  | .full => 0 | .light => 1

/-! ### Paths (R356, R358, R362) -/

/-- Whether a requester counts as secure. -/
def pathSecure : Path → Bool
  | .bursen => false
  | _ => true

/-- The window pair a requester owns (R362). -/
def pathPair : Path → Nat
  | .aelconA => 0
  | .aelconB => 1
  | _ => 2

/-- The active cluster: B where its claim is the higher (R346). -/
def State.activeB (s : State) : Bool := s.clm.claimA < s.clm.claimB

/-- Whether a requester is the cluster whose claim is the higher (R349). The claims are both zero until the firmware starts, and
once the claim watchdog has acted neither cluster writes one (R355). -/
def State.mayDrive (s : State) : Path → Bool
  | .aelconA => decide (s.clm.claimB < s.clm.claimA) && !s.clm.watchdog
  | .aelconB => decide (s.clm.claimA < s.clm.claimB) && !s.clm.watchdog
  | _ => false

/-- A requester's way to the registers stands (R20, R224): a cluster and the service port need their control rail, the host its link; in OFF no
rail but the node is up, and nobody reaches them. -/
def State.pathUp (s : State) (p : Path) : Bool :=
  decide (s.top.st ≠ .off) && match p with
    | .aelconA => s.top.ctlA
    | .aelconB => s.top.ctlB
    | .service => s.top.ctlB
    | _ => s.linkUp

/-- What a requester does that may not reach the module. -/
def State.via (s : State) (p : Path) (f : State → State) : State := if s.pathUp p then f s else s

/-- The number of a path's requester, for its latch of TIME_GT_HI (R282): the clusters, the host, the service port; a tile t is 16 + t. -/
def pathWho : Path → Nat
  | .aelconA => 0
  | .aelconB => 1
  | .service => 3
  | _ => 2

/-- Offsets of the window pairs. -/
def inPairs (o : Nat) : Bool := 0xF00 ≤ o && o < 0xF18

/-- Whether the register at an offset of a block is secure. -/
def regSecure (j o : Nat) : Bool :=
  match j with
  | 3 => true
  | 4 => (o < 0xD0 && o % 16 = 0) || (0x400 ≤ o && o < 0x514) || inPairs o
  | 5 => o < 12
  | 6 => inPairs o
  | 7 => true
  | 8 => o < 0x800 && o % 16 = 0
  | 9 => (o < 0x180 && o % 16 = 0) || inPairs o
  | 10 => (o < 0x200 && o % 16 = 0) || o = 0x400 || o = 0x404
      || (0x800 ≤ o && o < 0xC00 && (o % 16 = 0 || o % 16 = 4)) || inPairs o
  | 13 => o < 0x400 && o % 16 = 0
  | 15 => o = 0 || o = 0x20 || (0x100 ≤ o && o < 0x210)
  | 16 => o < 16 || o = 0x20 || o = 0x24
  | 17 => true
  | _ => false

/-- Whether a register stands at an offset of a block. -/
def regHere (j o : Nat) : Bool :=
  match j with
  | 0 => o = 0 || o = 0x10 || o = 0x14
  | 1 => o = 0
  | 2 => o = 0 || o = 4 || o = 8
  | 3 => o = 0 || o = 0x10 || o = 0x14 || o = 0x20 || o = 0x30 || o = 0x34 || (0x1000 ≤ o && o < 0x2000)
  | 4 => o < 0xD0 || o = 0x300 || (0x400 ≤ o && o < 0x514) || inPairs o
  | 5 => o < 12 || (0x10 ≤ o && o < 0x1C)
  | 6 => inPairs o
  | 7 => o = 0x10 || o = 0x14 || (0x40 ≤ o && o < 0x60) || (0x80 ≤ o && o < 0xC0) || (0x100 ≤ o && o < 0x200)
  | 8 => o < 0x800
  | 9 => (o < 0x180 && o % 16 < 8) || (0x200 ≤ o && o < 0x220) || inPairs o
  | 10 => (o < 0x200 && o % 16 < 8) || o = 0x400 || o = 0x404 || (0x800 ≤ o && o < 0xC00 && o % 16 ≠ 8) || inPairs o
  | 11 => o = 0
  | 12 => o = 0
  | 13 => o < 0x400 && o % 16 < 8
  | 14 => o < 0x14
  | 15 => o = 0 || o = 4 || o = 0x20 || (0x100 ≤ o && o < 0x210) || (0x100000 ≤ o && o < 0x400000)
  | 16 => o < 0x14 || (0x20 ≤ o && o < 0x34)
  | 17 => o / 0x1000 < 1024 && ((o % 0x1000 < 0x800 && csrListed (o % 0x1000 / 8)) || o % 0x1000 = 0x800
      || o % 0x1000 = 0x804)
  | _ => false

/-! ### What the registers hold -/

/-- TOP_STATE (Table 1-6). -/
def State.topState (s : State) : W32 :=
  reg (s.top.transitions.toNat * 2 ^ 24 + variantCode Config.variant * 2 ^ 15 + b2n s.activeB * 2 ^ 14
    + b2n s.top.pinOpen * 2 ^ 13 + b2n s.pow.floor * 2 ^ 12 + s.top.cause.toNat * 256 + s.top.prev.code * 16 + s.top.st.code)

/-- CLK_STAT (Table 12-2). -/
def State.clkStat (s : State) : W32 :=
  reg (s.clk.source.toNat * 2 ^ 30 + b2n s.clk.locked * 2 ^ 29 + b2n s.pow.floor * 2 ^ 28 + s.clk.timingPort.toNat * 2 ^ 23
    + s.clk.switches.toNat * 256 + s.clk.unlocks.toNat)

/-- TIME_SYNC (Table 12-5). -/
def State.timeSyncReg (s : State) : W32 :=
  reg (b2n s.clk.inSync * 2 ^ 31 + b2n s.clk.root * 2 ^ 30 + s.clk.depth.toNat * 2 ^ 28 + s.clk.loads.toNat * 2 ^ 16
    + s.clk.offset.toNat)

/-- Block GOV (Tables 13-8 to 13-12, 13-16). -/
def State.govReg (s : State) (o : Nat) : W32 :=
  let p := s.pow
  match o with
  | 0x00 => reg (p.up * 2 ^ 27 + p.down * 2 ^ 22 + b2n p.staggerEn * 2 ^ 21)
  | 0x10 => reg (p.level * 2 ^ 23 + p.next * 2 ^ 14 + b2n p.paceArmed * 2 ^ 13)
  | 0x14 => p.paceAt
  | 0x20 => reg (b2n p.floor * 2 ^ 31 + b2n p.fwForce * 2 ^ 30 + p.source.toNat * 2 ^ 16 + b2n p.thermal * 2 ^ 15
      + b2n p.firmware * 2 ^ 14 + p.clearRefused.toNat * 256 + p.floorCount.toNat)
  | 0x30 => reg (p.stored.floor * 2 ^ 16 + p.stored.ceiling)
  | 0x34 => reg p.stored.slope
  | _ =>
    let g := s.gov ((o - 0x1000) / 4)
    reg (g.ceil * 2 ^ 23 + g.ballast * 2 ^ 14 + g.act)

/-- Block RAIL (Tables 13-3 to 13-7). -/
def State.railReg (s : State) (o : Nat) : W32 :=
  if o < 0xD0 then
    let r := s.rail (o / 16)
    match o % 16 with
    | 0 => reg (b2n r.go * 2 ^ 31 + b2n r.shedBit * 2 ^ 30 + b2n r.unshedBit * 2 ^ 29 + r.slew.toNat * 2 ^ 26
        + r.active.toNat * 2 ^ 20 + r.target.toNat)
    | 4 => reg (r.st.code * 2 ^ 29 + r.phases * 2 ^ 23 + b2n r.alert * 2 ^ 22 + r.alertCause.toNat * 2 ^ 20
        + r.last.toNat * 2 ^ 17 + r.lastSeq.toNat * 2 ^ 13 + r.targetNow.toNat)
    | 8 => reg (r.vout * 2 ^ 16 + r.iout)
    | _ => r.pLatch
  else if o = 0x300 then reg (s.top.vin * 2 ^ 16 + s.pow.pin)
  else if 0x500 ≤ o then reg (Config.fixedTarget (8 + (o - 0x500) / 4)).toNat
  else
    let k := o - 0x400
    reg (Config.voltageTable (k / 64) (k / 32 % 2) (k / 16 % 2) (k / 4 % 4)).toNat

/-- Held reserve in J (R335): fused by variant. -/
def heldReserve : Nat := match Config.variant with | .full => 6000 | .light => 3000

/-- Shaping budget in J (R335): the reported state of reserve above the held reserve. -/
def State.shapingBudget (s : State) : Nat := (s.res.rep.floor - heldReserve).toNat

/-- Whether any cell bleeds. -/
def State.balancing (s : State) : Bool :=
  s.res.bleedEn && s.res.monitors.any fun m => decide (m.2.bleed ≠ 0) && !m.2.paused && m.2.clocked

/-- A cell's switch is closed outside the pauses of sweeps: BLEED_EN, its bit of CM_CFG.BLEED, and a clock on its monitor's link (R324). -/
def State.bleeds (s : State) (i : Nat) : Bool :=
  s.res.bleedEn && (s.monitor (i / 6)).bleed.getLsbD (i % 6) && (s.monitor (i / 6)).clocked

/-- Monitors that the last request reached. -/
def State.monitorsUp (s : State) : Nat :=
  if s.res.ring = .down then 0 else ((List.range 4).filter fun m => (s.monitor m).reachable).length

/-- Block RES (Tables 14-10 to 14-14). -/
def State.resReg (s : State) (o : Nat) : W32 :=
  let r := s.res
  match o with
  | 0x00 => reg (b2n r.convEn * 2 ^ 31 + b2n r.bleedEn * 2 ^ 30 + r.sweepMs * 2 ^ 20 + r.settleUs * 2 ^ 9)
  | 0x04 => reg r.pinTarget
  | 0x08 => reg (r.chgLim * 2 ^ 16 + r.disLim)
  | 0x10 => reg (r.mode.code * 2 ^ 29 + r.ring.code * 2 ^ 27 + r.ident.code * 2 ^ 24 + b2n r.needsLearn * 2 ^ 23
      + b2n s.rfw.learn.isSome * 2 ^ 22 + b2n r.eoc * 2 ^ 21 + b2n r.eod * 2 ^ 20 + b2n s.balancing * 2 ^ 19
      + s.monitorsUp * 2 ^ 16 + r.splits.toNat * 256 + r.learnDq.toNat)
  | 0x14 => reg (min r.rep.floor.toNat 65535 * 2 ^ 16 + r.sorPct * 256)
  | 0x18 => reg (min s.shapingBudget 65535 * 2 ^ 16 + heldReserve)
  | _ => 0

/-- Block MMU (Tables 6-1, 6-2, 6-5, 6-6, 6-9, 6-10). -/
def State.mmuReg (s : State) (o : Nat) : W32 :=
  if o = 0x10 then s.mmu.invVa
  else if o = 0x14 then s.mmu.invCtrl
  else if o < 0x60 then
    let b := (o - 0x40) / 8
    if o % 8 = 0 then (Tab.look 0 s.mmu.fqPut b).setWidth 32 else (Tab.look 0 s.mmu.fqGet b).setWidth 32
  else if o < 0xC0 then s.mmuCtx ((o - 0x80) / 4)
  else Tab.look 0 s.mmu.root ((o - 0x100) / 4)

/-- The cursor of a mover's running, paused or suspended descriptor (Table 7-9). -/
def Mover.cursor (m : Mover) : Nat := (m.run.map (·.cursor)).getD 0

/-- Block MOV (Tables 7-7 to 7-9). -/
def State.movReg (s : State) (o : Nat) : W32 :=
  let m := s.mover (o / 0x200) (o / 16 % 32)
  match o % 16 with
  | 0 => reg (b2n m.en * 2 ^ 31 + b2n m.drain * 2 ^ 30 + b2n m.suspend * 2 ^ 29 + m.ctx.toNat * 2 ^ 16 + b2n m.granted)
  | 4 => reg (m.st.code * 2 ^ 29 + m.depth * 2 ^ 24 + m.lastStatus.toNat * 2 ^ 16 + m.completed.toNat)
  | 8 => reg m.cursor
  | _ => m.curHi.setWidth 32

/-- A table is valid in a bolt's store (R186). -/
def State.tableOf (s : State) (b t : Nat) : Option TansTable := Tab.look none s.eng.tables (64 * b + t)

/-- Block EXP (Tables 7-12 to 7-14). -/
def State.expReg (s : State) (o : Nat) : W32 :=
  if o < 0x180 then
    let x := s.expander (o / 16)
    if o % 16 = 0 then reg (b2n x.en * 2 ^ 31 + b2n x.drain * 2 ^ 30)
    else reg (x.st.code * 2 ^ 29 + x.errors.toNat * 2 ^ 16 + x.blocks.toNat)
  else
    let b := (o - 0x200) / 8
    reg ((List.range 32).foldl (fun a k =>
      a + b2n (s.tableOf b (o % 8 * 8 + k)).isSome * 2 ^ k) 0)

/-- Block GZ (Tables 8-4, 8-5, 8-8 to 8-11). -/
def State.gzReg (s : State) (o : Nat) : W32 :=
  if o < 0x200 then
    let p := s.port (o / 16)
    if o % 16 = 0 then reg (b2n p.en * 2 ^ 31 + b2n p.drain * 2 ^ 30 + b2n p.timing * 2 ^ 28)
    else reg (p.st.code * 2 ^ 29 + b2n p.peerValid * 2 ^ 28 + p.peerMember.toNat * 2 ^ 22 + p.peerPort.toNat * 2 ^ 17
      + p.retries.toNat * 256 + p.uncorrected.toNat)
  else if o = 0x400 then s.gz.domain
  else if o = 0x404 then
    reg (b2n s.gz.joined * 2 ^ 31 + b2n s.gz.coord * 2 ^ 30 + s.gz.me.toNat * 2 ^ 24 + s.gz.epoch.toNat % 2 ^ 24)
  else
    let q := s.fqueue ((o - 0x800) / 0x100) (o / 16 % 16)
    match o % 16 with
    | 0 => reg (b2n q.en * 2 ^ 31 + b2n q.drain * 2 ^ 30 + b2n q.granted * 2 ^ 29 + q.ctx.toNat * 2 ^ 25 + q.size.toNat * 2 ^ 21
        + q.mover.toNat * 2 ^ 16 + q.doorbell.toNat * 256 + b2n q.cad * 128 + q.cadence.toNat * 2)
    | 4 => q.base
    | _ => reg (q.started % 2 ^ q.size.toNat % 4096)

/-- Slots in a state (Table 9-10). -/
def State.slotsIn (s : State) (k : SlotState) : Nat := (s.cmd.slots.filter fun p => decide (p.2.st = k)).length

/-- BRS_LINK_STAT (Table 9-2). RETRIES and UNCORRECTED are those of port B. -/
def State.brsReg (s : State) : W32 :=
  reg (s.cmd.link.code * 2 ^ 29 + s.cmd.snoopTimeouts.toNat * 2 ^ 16 + (s.port 32).retries.toNat * 256
    + (s.port 32).uncorrected.toNat)

/-- CMD_STAT (Table 9-10). -/
def State.cmdStat (s : State) : W32 :=
  reg (b2n s.cmd.areaValid * 2 ^ 31 + b2n s.cmd.areaSecure * 2 ^ 30 + s.slotsIn .outstanding * 2 ^ 16 + s.slotsIn .complete)

/-- Block CAD (Tables 11-5, 11-6). -/
def State.cadReg (s : State) (o : Nat) : W32 :=
  let c := s.cad (o / 16)
  if o % 16 = 0 then reg (b2n c.en * 2 ^ 31 + b2n c.drain * 2 ^ 30 + c.ctx.toNat * 2 ^ 26)
  else reg (c.st.code * 2 ^ 29 + c.lost.toNat * 2 ^ 24 + c.expired.toNat * 2 ^ 16 + c.period % 65536)

/-- Entries of the log still held, oldest first (R373). -/
def State.heldEntries (s : State) : List LogEntry :=
  s.err.log.filter fun e => decide ((e.seq - s.err.get).toNat < s.held)

/-- ERR_LOG_STAT (Table 16-6). -/
def State.errStat (s : State) : W32 :=
  let l := s.heldEntries
  reg (s.err.lost.toNat * 2 ^ 16 + s.err.retireGen.toNat * 256 + b2n (l.any fun e => decide (e.sev = 3)) * 4
    + l.foldl (fun m e => max m e.sev.toNat) 0)

/-- Block ERR (Tables 16-4 to 16-8). -/
def State.errReg (s : State) (o : Nat) : W32 :=
  match o with
  | 0x00 => s.err.put
  | 0x04 => s.err.get
  | 0x08 => s.errStat
  | 0x0C => s.err.supp
  | _ => reg (b2n s.err.notifyEn * 2 ^ 31 + s.err.minSev.toNat * 2 ^ 29 + s.err.vector.toNat)

/-- TRUST_POLICY (Table 16-14). -/
def State.policyReg (s : State) : W32 :=
  reg (b2n s.trust.lock * 2 ^ 31 + b2n s.trust.requireSigned * 2 ^ 30 + s.trust.keyValid.toNat * 2 ^ 26
    + s.trust.unsignedPriv.toNat)

/-- Block TRUST (Tables 12-9, 12-10, 16-14 to 16-16). The staging window is written, never read (R286); its bytes read as zero
(log entry 20). -/
def State.trustReg (s : State) (o : Nat) : W32 :=
  if o = 0 then reg (b2n s.trust.go * 2 ^ 31 + s.trust.length.toNat)
  else if o = 4 then
    reg (s.trust.result.toNat * 2 ^ 29 + s.trust.reason.toNat * 2 ^ 16 + s.trust.attempts.toNat * 256)
  else if o = 0x20 then s.policyReg
  else if o < 0x200 then Tab.look 0 s.trust.keys ((o - 0x100) / 4)
  else if o < 0x210 then ((Tab.look 0 s.trust.keyPriv ((o - 0x200) / 4)).setWidth 32)
  else 0

/-- Block CLM (Tables 15-2 to 15-6). -/
def State.clmReg (s : State) (o : Nat) : W32 :=
  let c := s.clm
  match o with
  | 0x00 => c.claimA.setWidth 32
  | 0x04 => c.hiLatchA
  | 0x08 => c.claimB.setWidth 32
  | 0x0C => c.hiLatchB
  | 0x10 => reg (b2n s.activeB * 2 ^ 31 + b2n c.watchdog * 2 ^ 30 + c.hbRefused.toNat * 2 ^ 24 + c.switches.toNat * 2 ^ 16
      + c.claimRefused.toNat * 256 + c.outputRefused.toNat)
  | 0x20 => c.hbA
  | 0x24 => c.hbB
  | 0x28 => c.ageA
  | 0x2C => c.ageB
  | 0x30 => reg (c.secureDenied.toNat * 2 ^ 16 + c.windowDenied.toNat)
  | _ => 0

/-- Block TILE (R365, Table 15-14). TILE_CTRL's bits all clear themselves: STOP shows while a stop is under way, RESET while a
reset is. -/
def State.tileReg (s : State) (t o : Nat) : W32 :=
  let x := s.tile t
  if o = 0x800 then reg (b2n x.stopping * 2 ^ 31 + b2n x.resetting * 2 ^ 29 + b2n x.restoring * 2 ^ 28)
  else if o = 0x804 then
    reg (x.st.code * 2 ^ 29 + b2n x.stopping * 2 ^ 28 + b2n (x.saving || x.restoring) * 2 ^ 27)
  else
    let v := csrValue s.clk.gt s.clk.tileCycles t x (o / 8)
    if o % 8 = 0 then v.setWidth 32 else (v >>> 32).setWidth 32

/-- The pair of a window block: block index 4, 6, 9, 10 and pair number. -/
def pairIndex (j p : Nat) : Nat := 4 * j + p

def State.pair (s : State) (j p : Nat) : Pair := Tab.look {} s.pairs (pairIndex j p)
def State.setPair (s : State) (j p : Nat) (x : Pair) : State :=
  { s with pairs := Tab.put {} s.pairs (pairIndex j p) x }

/-- IXA (Table 15-10). -/
def Pair.ixa (x : Pair) : W32 :=
  reg (b2n x.rd * 2 ^ 31 + b2n x.auto * 2 ^ 30 + b2n x.lost * 2 ^ 29 + x.status.toNat * 2 ^ 26 + x.stride.toNat * 2 ^ 22
    + x.addr.toNat)

/-- The value of the register at an offset of a block, for a requester that may see it, by its number. -/
def State.regValue (s : State) (j o who : Nat) : W32 :=
  match j with
  | 0 => if o = 0 then s.topState else if o = 0x10 then s.top.hbmUp.setWidth 32 else s.top.pages
  | 1 => s.clkStat
  | 2 => if o = 0 then s.gtLow else if o = 4 then Tab.look 0 s.clk.gtHi who else s.timeSyncReg
  | 3 => s.govReg o
  | 4 => s.railReg o
  | 5 => s.resReg o
  | 7 => s.mmuReg o
  | 8 => s.movReg o
  | 9 => s.expReg o
  | 10 => s.gzReg o
  | 11 => s.brsReg
  | 12 => s.cmdStat
  | 13 => s.cadReg o
  | 14 => s.errReg o
  | 15 => s.trustReg o
  | 16 => s.clmReg o
  | 17 => s.tileReg (o / 0x1000) (o % 0x1000)
  | _ => 0

/-! ### Reads -/

/-- Start the next target access of a pair. -/
def Pair.startRead (x : Pair) : Pair := { x with rd := true, status := 1, pend := some none }

/-- ADDR after a completed access: 4 × STRIDE further (Table 15-10). -/
def Pair.advance (x : Pair) : Pair := { x with addr := x.addr + BitVec.ofNat 22 (4 * x.stride.toNat) }

/-- A read of a pair's register (R362, R363). -/
def State.pairRead (s : State) (j o : Nat) (p : Path) : W32 × State :=
  let k := (o - 0xF00) / 8
  if k ≠ pathPair p then
    (0, { s with clm := { s.clm with windowDenied := s.clm.windowDenied + 1 } })
  else
    let x := s.pair j k
    if o % 8 = 0 then (x.ixa, s)
    else if x.status = 0 ∧ x.auto then (x.data, s.setPair j k x.advance.startRead)
    else (x.data, s)

/-- What a read of a register changes besides: the requester's latch of TIME_GT_HI (R282), the latches of MOV_CUR_HI (Table 7-9), RAIL_P (R301) and the
claims' high words (Table 15-2). -/
def State.readEffect (s : State) (j o who : Nat) : State :=
  if j = 2 ∧ o = 0 then { s with clk := { s.clk with gtHi := Tab.put 0 s.clk.gtHi who ((s.clk.gt >>> 32).setWidth 32) } }
  else if j = 4 ∧ o < 0xD0 ∧ o % 16 = 8 then
    let r := s.rail (o / 16)
    s.setRail (o / 16) { r with pLatch := reg (r.window.toNat * 2 ^ 24 + r.pout % 2 ^ 24) }
  else if j = 8 ∧ o % 16 = 8 then
    let m := s.mover (o / 0x200) (o / 16 % 32)
    s.setMover (o / 0x200) (o / 16 % 32) { m with curHi := BitVec.ofNat 16 (m.cursor / 2 ^ 32) }
  else if j = 16 ∧ o = 0 then { s with clm := { s.clm with hiLatchA := (s.clm.claimA >>> 32).setWidth 32 } }
  else if j = 16 ∧ o = 8 then { s with clm := { s.clm with hiLatchB := (s.clm.claimB >>> 32).setWidth 32 } }
  else s

/-- Read the register at an offset of CSR space (R356–R359): unoccupied offsets read zero, and so does a secure register on a
non-secure path. -/
def State.csrRead (s : State) (off : Nat) (p : Path) (who : Nat) : W32 × State :=
  let j := off / 0x1000000
  let o := alignDown (off % 0x1000000) 4
  if !regHere j o then (0, s)
  else if regSecure j o && !pathSecure p then (0, s)
  else if (j = 4 ∨ j = 6 ∨ j = 9 ∨ j = 10) ∧ inPairs o then s.pairRead j o p
  else (s.regValue j o who, s.readEffect j o who)

end Sys2Proof.Machine
end

