-- ==== Sys2Proof/Machine/Access.lean ====
section
/-!
DEFINITION. Data accesses after translation: the Bursen cache (R221), the Global Window (R128), and how a tile's outstanding far
access is performed or fails (R41, R134, R137).
-/

namespace Sys2Proof.Machine

/-! ### Host lines (R220, R221, R224) -/

/-- Lines of the 64 MiB Bursen cache (R131, R221). -/
def cacheLines : Nat := 524288

/-- A dirty line is written back at its home (R220, R221). -/
def State.writeBack (s : State) (line : Nat) (h : HostLine) : State :=
  if h.dirty then
    let s := s.bursenSend 2 false (line * lineBytes) h.data
    { s with mem := { s.mem with host := Tab.writeN 0 s.mem.host (line * lineBytes) h.data } }
  else s

/-- A full cache gives up a line for another: which one the spec leaves open, so a free value chooses it (log entry 167). -/
def State.evictLine (s : State) : State :=
  if s.cmd.cache.length < cacheLines then s
  else
    let (u, s) := s.takeFree
    match s.cmd.cache[u.toNat % s.cmd.cache.length]? with
    | some (line, some h) =>
      let s := s.writeBack line h
      { s with cmd := { s.cmd with cache := Tab.put none s.cmd.cache line none } }
    | _ => s

/-- The module's copy of a host line, taken with READ_SHARED or READ_OWN where it is not held (R221). -/
def State.takeLine (s : State) (line : Nat) (own : Bool) : HostLine × State :=
  let s := if (Tab.look none s.cmd.cache line).isSome then s else s.evictLine
  let held := match Tab.look none s.cmd.cache line with | some h => h.owned || !own | none => false
  let s := if held then s else s.bursenSend (b2n own) false (line * lineBytes) []
  let h := match Tab.look none s.cmd.cache line with
    | some h => { h with owned := h.owned || own }
    | none => { owned := own, dirty := false, data := Tab.readN 0 s.mem.host (line * lineBytes) lineBytes }
  (h, { s with cmd := { s.cmd with cache := Tab.put none s.cmd.cache line (some h) } })

/-- Read host memory through the cache. -/
def State.hostRead (s : State) (a n : Nat) : List Byte × State :=
  let (data, s) := (linesOf a n).foldl (fun (acc : List Byte × State) line =>
    let (h, s) := acc.2.takeLine line false
    (acc.1 ++ h.data, s)) ([], s)
  ((data.drop (a % lineBytes)).take n, s)

/-- Write host memory through the cache: each line is owned first, then written (R221, R137). -/
def State.hostStore (s : State) (a : Nat) (l : List Byte) : State :=
  forAll (linesOf a l.length) s fun s line =>
    let (h, s) := s.takeLine line true
    let h := { h with dirty := true, data := h.data.zipIdx.map fun q =>
      let k := line * lineBytes + q.2
      if a ≤ k ∧ k < a + l.length then l.getD (k - a) 0 else q.1 }
    { s with cmd := { s.cmd with cache := Tab.put none s.cmd.cache line (some h) } }

/-- Lines of module memory in a range that the host holds. -/
def State.hostCopies (s : State) (pa n : Nat) : List Nat :=
  (linesOf pa n).filter fun k => (Tab.look none s.cmd.hostHeld k).isSome

/-- Ask the host for the copies of a range (R133, R220). -/
def State.snoop (s : State) (pa n : Nat) : State :=
  let l := (s.hostCopies pa n).filter fun k => !s.cmd.snoops.contains k
  let s := forAll l s fun s k => s.bursenSend 3 false (k * lineBytes) []
  { s with cmd := { s.cmd with snoops := s.cmd.snoops ++ l } }

/-! ### One access -/

/-- What an access comes to: bytes read (none for a write), a data error with the store that reported it, a data error at a peer or the host
with the physical address, the loss of a peer or of the Bursen link, a tag that has expired, or an access that cannot be performed yet. -/
inductive Got where
  | data (l : List Byte)
  | ecc (e : MemErr)
  | remoteEcc (pa : Nat)
  | lost (peer : Option Nat)
  | expired
  | wait
  deriving DecidableEq, Repr

/-- The outcome at a peer, from its answer; a member outside the membership is lost (R128, R206). -/
def State.peerGot (s : State) (pa m n : Nat) (x : Answer) : Got :=
  if !s.isMember m then .lost (some m)
  else match x with
    | .data l => .data ((l ++ List.replicate n 0).take n)
    | .refused => .lost (some m)
    | .dataError => .remoteEcc pa
    | .expired => .expired
    | .lost => .lost (some m)

/-- How an access to host memory at *a* fails: the link is not UP, or the host, where the module's copy of a line does not serve, refuses or
answers with a data error (R41, R222, R224). -/
def State.hostFails (s : State) (pa a n : Nat) (own : Bool) (x : Answer) : Option Got :=
  let served := (linesOf a n).all fun k => match Tab.look none s.cmd.cache k with | some h => h.owned || !own | none => false
  if !s.linkUp then some (.lost none)
  else if served then none
  else match x with
    | .refused => some (.lost none)
    | .lost => some (.lost none)
    | .dataError => some (.remoteEcc pa)
    | _ => none

/-- The module's own window slot reaches its own HBM (R128). -/
def State.ownWindow (s : State) (m : Nat) : Bool := s.gz.joined && decide (m = s.gz.me.toNat)

/-- Where a physical address leads once the module's own window slot is seen through: two addresses of one byte agree (R128, R134). -/
def State.truePlace (s : State) (pa : Nat) : Nat :=
  match targetOf pa with
  | .window m off => if s.ownWindow m then off else pa
  | _ => pa

/-- Whether the export map gives a right to every byte of a range of module HBM: bit 0 R, bit 1 W (R207). -/
def State.exportRight (s : State) (off n : Nat) (right : BitVec 2) : Bool :=
  let pages := (List.range (if n = 0 then 1 else (off + n - 1) / 65536 - off / 65536 + 1)).map fun k => off / 65536 + k
  (match targetOf off with | .hbm _ => true | _ => false)
    && pages.all fun p => decide (Tab.look 0 s.gz.exportMap p &&& right = right)

/-- Lines of module memory in a range that the host owns, and so may have changed. -/
def State.hostOwns (s : State) (pa n : Nat) : Bool :=
  (linesOf pa n).any fun k => decide (Tab.look none s.cmd.hostHeld k = some true)

/-- Read `n` bytes at a physical address for a requester inside the module, by its number; `x` is what a target outside it answers. A line of
module memory that the host owns is withdrawn first (R220). The own window slot serves only what the module exports (R128). -/
def State.readAt (s : State) (pa n : Nat) (x : Answer) (who : Nat := 4) : Got × State :=
  let local_ (pa : Nat) : Got × State :=
    if s.hostOwns pa n then (.wait, s.snoop pa n)
    else match s.physRead pa n with | .ok l => (.data l, s) | .error e => (.ecc e, s)
  match targetOf pa with
  | .csr off =>
    if 18 ≤ off / 0x1000000 then (.ecc (.decode pa), s)
    else
      let (v, s) := s.csrRead off .bursen who
      let l := toLe 4 v.toNat
      (.data (if n ≤ 4 then ((l.drop (off % 4)).take n) else (l ++ List.replicate (n - 4) 0)), s)
  | .host a =>
    match s.hostFails pa a n false x with
    | some g => (g, s)
    | none =>
      let (l, s) := s.hostRead a n
      (.data l, s)
  | .window m off =>
    if s.ownWindow m then (if s.exportRight off n 1 then local_ off else (.lost (some m), s))
    else (s.peerGot pa m n x, s)
  | _ => local_ pa

/-- Write bytes at a physical address. A host copy of a line of module memory is withdrawn first (R133). -/
def State.writeAt (s : State) (pa : Nat) (l : List Byte) (x : Answer) : Got × State :=
  let local_ (pa : Nat) : Got × State :=
    if s.hostCopies pa l.length ≠ [] then (.wait, s.snoop pa l.length)
    else match s.physWrite pa l with | .ok s' => (.data [], s') | .error e => (.ecc e, s)
  match targetOf pa with
  | .csr _ => (.ecc (.decode pa), s)
  | .host a =>
    match s.hostFails pa a l.length true x with
    | some g => (g, s)
    | none => (.data [], s.hostStore a l)
  | .window m off =>
    if s.ownWindow m then (if s.exportRight off l.length 2 then local_ off else (.lost (some m), s))
    else match s.peerGot pa m 0 x with
      | .data _ => (.data [], s)
      | g => (g, s)
  | _ => local_ pa

/-- What an atomic writes: add, and, or, xor, swap, compare-and-swap (R77, Table 8-6). -/
def atomicNew (op : Nat) (old v cmp : W64) : W64 :=
  match op with
  | 0 => old + v
  | 1 => old &&& v
  | 2 => old ||| v
  | 3 => old ^^^ v
  | 4 => v
  | _ => if old = cmp then v else old

/-- A 64-bit atomic at a physical address: the old value, with the new one written at once (R77, R134). A peer answers with the old
value. -/
def State.atomicAt (s : State) (pa op : Nat) (v cmp : W64) (x : Answer) : Got × State :=
  match targetOf pa with
  | .csr _ => (.ecc (.decode pa), s)
  | .window m _ =>
    if s.ownWindow m then atomicLocal s pa op v cmp x else (s.peerGot pa m 8 x, s)
  | _ => atomicLocal s pa op v cmp x
where
  /-- Read and write in one step. -/
  atomicLocal (s : State) (pa op : Nat) (v cmp : W64) (x : Answer) : Got × State :=
    match s.readAt pa 8 x with
    | (.data l, s1) =>
      let old : W64 := BitVec.ofNat 64 (ofLe l)
      match s1.writeAt pa (toLe 8 (atomicNew op old v cmp).toNat) x with
      | (.data _, s2) => (.data l, s2)
      | r => r
    | r => r

/-- Report a failed access of a requester to the collector: the store's own error, a lost peer or the lost link (R41, R224). A data error of a
peer's HBM is a UE_HBM of that stack at the window's address, one of the host a BURSEN_DOWN as other failed host accesses are (log entry 54). -/
def State.reportGot (s : State) (g : Got) (rk : BitVec 4) (rid : Nat) : State :=
  match g with
  | .ecc e => s.reportMem e rk rid
  | .remoteEcc pa =>
    match targetOf pa with
    | .window _ off => s.report 5 (BitVec.ofNat 32 (off / stackBytes)) 0x12 none (data64 pa)
    | _ => s.report 8 0 0x27 none [0, 0, 0]
  | .lost (some m) => s.report 7 0xFF 0x26 none [BitVec.ofNat 32 m, s.gz.epoch]
  | .lost none => s.report 8 0 0x27 none [0, 0, 0]
  | _ => s

/-! ### A tile's outstanding far accesses -/

/-- Attribution event of a far access's target (Table 13-18). -/
def targetEvent (pa : Nat) : Option Nat :=
  match targetOf pa with
  | .silt _ _ => some 7
  | .loam _ => some 8
  | .hbm _ => some 9
  | .window _ _ => some 10
  | _ => none

/-- Whether two accesses share a byte, by whichever address each names it (R128, R134). -/
def State.overlap (s : State) (f g : FarAccess) : Bool :=
  decide (s.truePlace f.pa < s.truePlace g.pa + g.size) && decide (s.truePlace g.pa < s.truePlace f.pa + f.size)

/-- A far store's error: recorded for its interrupt, or reported as an overflow beyond eight (R41). -/
def State.storeError (s : State) (t : Nat) (va : W64) : State :=
  let x := s.tile t
  if x.storeErrs.length < 8 then s.setTile t { x with storeErrs := x.storeErrs ++ [va] }
  else s.report 0 (BitVec.ofNat 32 t) 0x18 none (data64 va.toNat)

/-- Deliver a far load's or atomic's value, or poison its destination (R41). -/
def Tile.deliver (x : Tile) (f : FarAccess) (l : List Byte) : Tile :=
  match f.dest, f.kind with
  | .scalar n, .load sg => x.setS n (extendLoad sg l)
  | .scalar n, _ => x.setS n (BitVec.ofNat 64 (ofLe l))
  | .vector n, _ => x.setV n (BitVec.ofNat 2048 (ofLe l))
  | .none, _ => x

def Tile.poisonDest (x : Tile) (f : FarAccess) (p : Poison) : Tile :=
  match f.dest with
  | .scalar n => x.poisonS n p
  | .vector n => x.poisonV n p
  | .none => x

/-- SUBCODE of the poison a failed access leaves (Table 2-9). -/
def Got.sub : Got → BitVec 8
  | .ecc _ => 0x20
  | .remoteEcc _ => 0x20
  | _ => 0x21

/-- Perform one outstanding access of a tile at its target. -/
def State.doFar (s : State) (t : Nat) (f : FarAccess) (x : Answer) : Got × State :=
  match f.kind with
  | .load _ => s.readAt f.pa f.size x (16 + t)
  | .store => s.writeAt f.pa (toLe f.size f.data.toNat) x
  | .amo op => s.atomicAt f.pa op (f.data.setWidth 64) f.cmp x

/-- End an outstanding access with what it came to (R41); a store of before the tile's reset leaves the tile no error (R273). -/
def State.endFar (s : State) (t : Nat) (f : FarAccess) (g : Got) : State :=
  let drop (s : State) : State := s.onTile t fun x => { x with far := x.far.filter fun h => decide (h.id ≠ f.id) }
  let s := { s with gz := { s.gz with txns := s.gz.txns.filter fun n => decide (n.who ≠ .far t f.id) } }
  match g with
  | .wait => s
  | .data l =>
    let s := drop s
    let s := if f.kind = .store then s else s.onTile t fun x => x.deliver f l
    match targetEvent f.pa with
    | some ev => s.onTile t fun x => x.count ev f.size
    | none => s
  | g =>
    let s := (drop s).reportGot g 0 t
    if f.kind = .store then (if f.stale then s else s.storeError t f.va)
    else s.onTile t fun x => x.poisonDest f ⟨g.sub, f.va⟩

/-- The n-th outstanding access of a tile, if it is of the wanted kind and no earlier access to one of its bytes is outstanding
(R134), is performed or fails. -/
def State.farResponse (s : State) (t n : Nat) (store : Bool) (x : Answer) : State :=
  let l := (s.tile t).far
  match l[n]? with
  | some f =>
    if (decide (f.kind = .store) != store) || (l.take n).any (fun g => s.overlap g f) then s
    else
      let (g, s) := s.doFar t f x
      s.endFar t f g
  | none => s

end Sys2Proof.Machine
end

