-- ==== Sys2Proof/Machine/Mover.lean ====
section
/-!
DEFINITION. The movers (R167–R182, R413–R415): reading and checking a descriptor, one access at a time in descriptor order, its
completion, and turning work off.
-/

namespace Sys2Proof.Machine

/-! ### Fields of a descriptor (Table 7-1) -/

def dWord (ws : List W64) (i lo n : Nat) : Nat := fld (wordAt ws i).toNat lo n
def dOp (ws : List W64) : Nat := dWord ws 0 60 4
def dIntr (ws : List W64) : Bool := dWord ws 0 59 1 = 1
def dSigFlag (ws : List W64) : Bool := dWord ws 0 58 1 = 1
def dSigCtr (ws : List W64) : Bool := dWord ws 0 57 1 = 1
def dExp (ws : List W64) : Nat := dWord ws 0 48 3
def dTable (ws : List W64) : Nat := dWord ws 0 42 6
def dLen0 (ws : List W64) : Nat := dWord ws 3 0 32
def dCnt1 (ws : List W64) : Nat := dWord ws 3 32 16
def dCnt2 (ws : List W64) : Nat := dWord ws 3 48 16
def dFlagVal (ws : List W64) : Nat := dWord ws 8 32 32
def dFlagTile (ws : List W64) : Nat := dWord ws 8 19 10
def dFlagOff (ws : List W64) : Nat := dWord ws 8 0 19
def dCtr (ws : List W64) : Nat := dWord ws 9 16 10
def dCtrInc (ws : List W64) : Nat := dWord ws 9 0 16
/-- A signed word. -/
def dStride (ws : List W64) (i : Nat) : Int := (wordAt ws i).toInt

/-- Bytes the descriptor delivers (R169). -/
def dTotal (ws : List W64) : Nat := if dOp ws = 5 then dLen0 ws else dLen0 ws * dCnt1 ws * dCnt2 ws

/-! ### Checks at the head of the queue (R173, Table 7-4) -/

/-- A tile of a context: in one of its groups as placed. -/
def State.ctxHasTile (s : State) (c t : Nat) : Bool := (s.ctx c).groups.any fun g => decide (g.phys = t / 16)

/-- Reserved OPs, reserved bits and unused fields (DETAIL 8). -/
def badFields (ws : List W64) : Bool :=
  let op := dOp ws
  let nz (i lo n : Nat) := decide (dWord ws i lo n ≠ 0)
  decide (op = 0) || decide (6 < op) || nz 0 51 6 || nz 0 0 42 || (decide (op ≠ 5) && nz 0 48 3)
    || (decide (op = 5) && decide (6 ≤ dExp ws)) || (decide (op ≠ 6) && nz 0 42 6)
    || (decide (op ≠ 2) && nz 1 57 7) || nz 2 57 7
    || nz 8 29 3 || (!dSigFlag ws && nz 8 0 64) || nz 9 26 38 || (!dSigCtr ws && nz 9 0 26)
    || nz 10 57 7 || (decide (op ≠ 3) && decide (op ≠ 4) && nz 10 0 64)
    || nz 11 0 64 || nz 12 0 64 || nz 13 0 64

/-- Counts, lengths and the rules of Table 7-2 (DETAIL 9). -/
def badCounts (ws : List W64) : Bool :=
  let op := dOp ws
  let z (i : Nat) := decide (wordAt ws i = 0)
  let ok :=
    match op with
    | 1 => true
    | 2 => z 4 && z 5
    | 3 => decide (dCnt2 ws = 1) && z 1 && z 4 && z 5 && z 7
    | 4 => decide (dCnt2 ws = 1) && z 2 && z 6 && z 7 && z 5
    | 5 => decide (dCnt2 ws = 1) && z 4 && z 5 && z 7
    | _ => decide (dLen0 ws = 16448) && decide (dCnt1 ws = 1) && decide (dCnt2 ws = 1) && z 2 && z 4 && z 5 && z 6 && z 7
  decide (dLen0 ws = 0) || decide (dCnt1 ws = 0) || decide (dCnt2 ws = 0) || decide (2 ^ 48 ≤ dTotal ws) || !ok

/-- FLAG_TILE outside the context, or CTR not granted to it (DETAIL 11). -/
def State.flagOutside (s : State) (c : Nat) (ws : List W64) : Bool := dSigFlag ws && !s.ctxHasTile c (dFlagTile ws)
def State.ctrOutside (s : State) (c : Nat) (ws : List W64) : Bool := dSigCtr ws && !s.ctrGranted c (dCtr ws)

/-- The DETAIL with which a descriptor is refused, taking the checks in the order of log entry 23; none where it passes. -/
def State.checkDescriptor (s : State) (b c : Nat) (ws : List W64) : Option Nat :=
  if badFields ws then some 8
  else if badCounts ws then some 9
  else if dWord ws 15 0 8 ≠ 0 then some 10
  else if s.flagOutside c ws || s.ctrOutside c ws then some 11
  else if dOp ws = 5 ∧ s.stackUp (6 * b + dExp ws) = false then some 12
  else if dOp ws = 6 ∧ (s.ctx c).tables.contains (dTable ws) = false then some 12
  else if (dSigFlag ws && decide (dFlagOff ws % 8 ≠ 0)) || (decide (dOp ws = 5) && decide (dWord ws 1 0 6 ≠ 0))
      || ((decide (dOp ws = 3) || decide (dOp ws = 4)) && decide (dWord ws 10 0 3 ≠ 0)) then some 13
  else none

/-! ### Addresses in descriptor order (R170) -/

/-- Base plus strides, modulo 2⁵⁷. -/
def strided (base : Nat) (k2 : Nat) (s2 : Int) (k1 : Nat) (s1 : Int) (k0 : Nat) : Nat :=
  ((base : Int) + k2 * s2 + k1 * s1 + k0) % (2 ^ 57 : Nat) |>.toNat

/-- Middle and outer counts and byte of the row at a cursor. -/
def rowAt (ws : List W64) (c : Nat) : Nat × Nat × Nat :=
  let row := c / dLen0 ws
  (row / dCnt1 ws, row % dCnt1 ws, c % dLen0 ws)

/-- Source address of the byte at a cursor; none where a lost list entry would give it. -/
def srcAt (r : Running) : Option Nat :=
  let ws := r.words
  let (k2, k1, k0) := rowAt ws r.cursor
  match dOp ws with
  | 3 => (r.piece.bind (·.2)).map fun a => (a + k0) % 2 ^ 57
  | _ => some (strided (dWord ws 1 0 57) k2 (dStride ws 5) k1 (dStride ws 4) k0)

/-- Destination address of the byte at a cursor. -/
def dstAt (r : Running) : Option Nat :=
  let ws := r.words
  let (k2, k1, k0) := rowAt ws r.cursor
  match dOp ws with
  | 4 => (r.piece.bind (·.2)).map fun a => (a + k0) % 2 ^ 57
  | 5 =>
    if wordAt ws 6 = 0 then some ((dWord ws 2 0 57 + r.cursor) % 2 ^ 57)
    else some (strided (dWord ws 2 0 57) 0 0 (r.block - 1) (dStride ws 6) (r.cursor - r.blockOut))
  | _ => some (strided (dWord ws 2 0 57) k2 (dStride ws 7) k1 (dStride ws 6) k0)

/-! ### Overlap (R172) -/

/-- First addresses of the rows from a base word, with the words of its outer and middle stride. -/
def rowStarts (ws : List W64) (base outer middle : Nat) : List Nat :=
  (List.range (dCnt2 ws)).flatMap fun k2 => (List.range (dCnt1 ws)).map fun k1 =>
    strided (dWord ws base 0 57) k2 (dStride ws outer) k1 (dStride ws middle) 0

/-- Whether `n` bytes at an address share one with a row. -/
def meetsRow (ws : List W64) (base outer middle a n : Nat) : Bool :=
  (rowStarts ws base outer middle).any fun r => decide (a < r + dLen0 ws) && decide (r < a + n)

/-- Whether an access of a COPY, GATHER or SCATTER shows an overlap: of the two ranges themselves, or with the rows of the other side of a
list operation. -/
def showsOverlap (ws : List W64) (sva dva spa dpa n : Nat) : Bool :=
  (decide (spa < dpa + n) && decide (dpa < spa + n))
    || (decide (dOp ws = 3) && meetsRow ws 2 7 6 sva n) || (decide (dOp ws = 4) && meetsRow ws 1 5 4 dva n)

/-! ### Translation for a mover (R149) -/

/-- What a translation for a mover's running descriptor comes to. -/
inductive MovXlat where
  | hit (pa : Nat) (s : State)
  | stop (s : State)
  deriving DecidableEq, Repr

/-- Change the running descriptor. -/
def State.setRun (s : State) (b m : Nat) (r : Running) : State := s.setMover b m { s.mover b m with run := some r }

/-- Its work ends with a status decided here. -/
def State.endRun (s : State) (b m : Nat) (r : Running) (status detail : Nat) : State :=
  s.setRun b m { r with verdict := some (status, detail), done := true }

/-- A descriptor whose words were not read: all lost. -/
def Running.unread (r : Running) : Running :=
  if r.words = [] then { r with words := List.replicate 16 0, lost := List.range 14 } else r

/-- A descriptor that an abort finds stopped on a fault: ABORTED at its fault cursor; one whose status write it was completes without it
(R180). -/
def Running.stopped (r : Running) : Running :=
  { r.unread with verdict := some (3, 0), done := true, noWrite := r.done }

/-- Walks that a mover and the expanders that serve its descriptor wait for are dropped. -/
def State.dropWalks (s : State) (b m : Nat) : State :=
  let mine (w : Walk) : Bool := match w.who with
    | .mover b' m' => decide (b' = b) && decide (m' = m)
    | .expander x _ m' => decide (x / 6 = b) && decide (m' = m)
    | _ => false
  { s with mmu := { s.mmu with walks := Tab.put [] s.mmu.walks b ((Tab.look [] s.mmu.walks b).filter fun w => !mine w) } }

/-- The running descriptor becomes PAUSED on a fault whose record has no SEQ yet (R160, R413). An abort, or a mover off with DRAIN = 0, does
not wait for its repair (R180). -/
def State.pauseMover (s : State) (b m : Nat) : State :=
  let v := s.mover b m
  let pause : State := s.setMover b m { v with st := .paused, faultSeq := none }
  let stop (r : Running) : State := s.setMover b m { v with run := some r.stopped }
  match v.st, v.run with
  | .aborting, some r => stop r
  | .disabled, some r => if r.entry.late ∧ r.entry.lateStatus = 2 then pause else stop r
  | .aborting, none => s
  | .disabled, none => s
  | .suspended, _ => s
  | .paused, _ => s
  | _, _ => pause

/-- Translate an address of a descriptor through the mover's TLB, in the descriptor's context; firmware's descriptors carry physical
addresses (R149). A miss is queued for a walker; a fault leaves its record and pauses the mover (R160). -/
def State.moverXlat (s : State) (b m : Nat) (who : Requester) (e : MovEntry) (va : Nat) (acc : Access) : MovXlat :=
  match e.words with
  | some _ => .hit va s
  | none =>
    let asid := s.ctxAsid e.ctx
    match s.translate who e.ctx asid va acc false with
    | .hit pa => .hit pa (s.touch who asid va)
    | .miss => .stop (s.queueWalk { who := who, ctx := e.ctx, va := BitVec.ofNat 64 va, acc := acc, sup := false })
    | .fault f => .stop (((s.touch who asid va).holdRecord who e.ctx acc (BitVec.ofNat 64 va) f 0).pauseMover b m)

/-! ### The start of a descriptor -/

/-- Words of the 64 bytes at a physical address, with those an uncorrectable error lost; none where it lies outside the module's own
stores. -/
def State.halfWords (s : State) (pa : Nat) : List (Option W64) :=
  (List.range 8).map fun k => match s.physRead (pa + 8 * k) 8 with
    | .ok l => some (BitVec.ofNat 64 (ofLe l))
    | .error _ => none

/-- Report what made a half unreadable, as for a source read (R414). -/
def State.reportHalf (s : State) (pa rid : Nat) : State :=
  match (List.range 8).findSome? fun k => match s.physRead (pa + 8 * k) 8 with | .error e => some e | .ok _ => none with
  | some e => s.reportMem e 2 rid
  | none => s

/-- Sixteen words have been read: check them and go on, or complete without running (R173, R178, R414). -/
def State.startRun (s : State) (b m : Nat) (e : MovEntry) (ws : List (Option W64)) : State :=
  let v := s.mover b m
  let words := ws.map fun w => w.getD 0
  let lost := (List.range 14).filter fun k => (ws.getD k none).isNone
  let r : Running := {
    entry := e, words := words, lost := lost, blockAt := dWord words 1 0 57, drained := !v.en && v.drain
    overlap := e.overlap || decide (dOp words = 1) && (rowStarts words 1 5 4).any fun a => meetsRow words 2 7 6 a (dLen0 words) }
  if e.late then s.endRun b m r e.lateStatus 0
  else if lost ≠ [] then s.endRun b m r 9 14
  else if v.st = .aborting then s.endRun b m r 3 0
  else match s.checkDescriptor b e.ctx words with
    | some d => s.endRun b m r 9 d
    | none =>
      if dOp words = 5 then
        let x := s.expander (6 * b + dExp words)
        if x.en then s.setRun b m r
        else s.endRun b m r (if x.drain then 2 else 3) 0
      else s.setRun b m r

/-- Whether an address leads outside the module. -/
def State.outside (s : State) (pa : Nat) : Bool :=
  match targetOf pa with
  | .host _ => true
  | .window k _ => !s.ownWindow k
  | _ => false

/-- The descriptor's fetch meets a loss: it completes PEER_LOST unread (R160), a lost peer leaving its record (R158). -/
def State.fetchLost (s : State) (b m : Nat) (e : MovEntry) (pa : Nat) (g : Got) : State :=
  let s := s.reportGot g 2 (32 * b + m)
  let s := match g with
    | .lost (some k) => s.holdRecord (.mover b m) e.ctx .descriptor e.va ⟨4, 7, false, 0, pa⟩ k
    | _ => s
  s.endRun b m { entry := e, words := List.replicate 16 0, lost := List.range 14 } 5 0

/-- Read the descriptor at the head of the queue (R168): two halves of 64 bytes, each translated, by ACCESS 5. A descriptor in a peer's
or the host's memory is read there; a peer's bytes come with the next access response. -/
def State.readHead (s : State) (b m : Nat) (e : MovEntry) : State :=
  match e.words with
  | some ws => s.startRun b m e (ws.map some)
  | none =>
    let rid := 32 * b + m
    match s.moverXlat b m (.mover b m) e e.va.toNat .descriptor with
    | .stop s => s
    | .hit pa s =>
      match s.moverXlat b m (.mover b m) e (e.va.toNat + 64) .descriptor with
      | .stop s => s
      | .hit pb s =>
        if s.outside pa || s.outside pb then
          if hostBase ≤ pa ∧ pa < windowBase ∧ hostBase ≤ pb ∧ pb < windowBase then
            match s.readAt pa 64 (.data []) with
            | (.data l, s) =>
              match s.readAt pb 64 (.data []) with
              | (.data h, s) => s.startRun b m e ((wordsOf 8 l ++ wordsOf 8 h).map some)
              | (g, s) => s.fetchLost b m e pb g
            | (g, s) => s.fetchLost b m e pa g
          else s
        else
          let ws := s.halfWords pa ++ s.halfWords pb
          let s := (s.reportHalf pa rid).reportHalf pb rid
          s.startRun b m e ws

/-- A peer's answer to the fetch of a descriptor that lies there. -/
def State.fetchResponse (s : State) (b m : Nat) (e : MovEntry) (x : Answer) : State :=
  match s.moverXlat b m (.mover b m) e e.va.toNat .descriptor with
  | .stop s => s
  | .hit pa s =>
    match s.moverXlat b m (.mover b m) e (e.va.toNat + 64) .descriptor with
    | .stop s => s
    | .hit pb s =>
      let at_ := match targetOf pa with | .window k _ => if s.ownWindow k then pb else pa | _ => pb
      match targetOf at_ with
      | .window k _ =>
        if s.ownWindow k then s.readHead b m e
        else match s.peerGot at_ k 128 x with
          | .data l => s.startRun b m e ((wordsOf 16 l).map some)
          | .remoteEcc _ => (s.reportGot (.remoteEcc at_) 2 (32 * b + m)).startRun b m e (List.replicate 16 none)
          | .lost p => s.fetchLost b m e at_ (.lost p)
          | _ => s
      | _ => s.readHead b m e

/-- States in which a mover takes up work: not paused, and not once its SUSPEND is set (R181). -/
def Mover.works (m : Mover) : Bool :=
  !m.suspend && (decide (m.st = .idle) || decide (m.st = .running) || decide (m.st = .draining) || decide (m.st = .aborting)
    || decide (m.st = .disabled))

/-- Take the released entry at the head of the queue into the mover, or go on with one whose read was held (R93, R168). The command's
operation is the descriptor's own. -/
def State.startDescriptor (s : State) (b m op : Nat) : State :=
  let v := s.mover b m
  let begin_ (s : State) (e : MovEntry) : State :=
    let s' := s.readHead b m e
    match (s'.mover b m).run with
    | some r => if r.words = [] ∨ dOp r.words = op ∨ dOp r.words = 0 ∨ 6 < dOp r.words then s' else s
    | none => s'
  if !v.works then s
  else match v.run with
    | some r => if r.words = [] then begin_ s r.entry else s
    | none => match v.queue with
      | e :: q =>
        if e.released && (match e.words with | some ws => decide (dOp ws = op) | none => true) then
          let st := if v.st = .idle then MovState.running else v.st
          let s1 := s.setMover b m { v with queue := q, run := some { entry := e, words := [] }, st := st }
          begin_ s1 e
        else s
      | [] => s

/-! ### One access (R167, R176, R177) -/

/-- Bytes up to the next 256-byte boundary. -/
def toBoundary (a : Nat) : Nat := 256 - a % 256

/-- Bytes of a read at a physical address, each one lost or not: an uncorrectable error of the module's stores loses the word or sector
it lies in (R176). The other failures come as they are. -/
def State.readFlags (s : State) (pa n rid : Nat) (x : Answer) : Got × List (Option Byte) × State :=
  match s.readAt pa n x (2048 + rid) with
  | (.data l, s) => (.data [], l.map some, s)
  | (.ecc e, s) =>
    let l := (List.range n).map fun k => match s.physRead (s.truePlace pa + k) 1 with
      | .ok l => some (l.getD 0 0)
      | .error _ => none
    (.data [], l, s.reportMem e 2 rid)
  | (.remoteEcc q, s) => (.data [], List.replicate n none, s.reportGot (.remoteEcc q) 2 rid)
  | (g, s) => (g, [], s)

/-- Mark the destination word or sector of a lost byte, where the destination can hold a mark (R176). -/
def State.markAt (s : State) (pa : Nat) : State :=
  match targetOf pa with
  | .hbm _ => { s with mem := { s.mem with bad := Tab.put false s.mem.bad (alignDown pa 32) true } }
  | .loam _ => { s with mem := { s.mem with bad := Tab.put false s.mem.bad (alignDown pa 8) true } }
  | .silt t off => s.onTile t fun x => { x with siltBad := Tab.put false x.siltBad (alignDown off 8) true }
  | _ => s

/-- Runs of present bytes of a list with their offsets. -/
def runsOf : List (Option Byte) → Nat → List (Nat × List Byte)
  | [], _ => []
  | none :: r, k => runsOf r (k + 1)
  | some b :: r, k =>
    match runsOf r (k + 1) with
    | (j, l) :: q => if j = k + 1 then (k, b :: l) :: q else (k, [b]) :: (j, l) :: q
    | [] => [(k, [b])]

/-- Write bytes at a destination, a lost one with the mark of its word or sector; where the destination can hold no mark, the present ones
alone (R176). Answers the first failure (R177). -/
def State.writeFlags (s : State) (pa : Nat) (l : List (Option Byte)) (x : Answer) : Got × State :=
  if s.outside pa then
    (runsOf l 0).foldl (fun (acc : Got × State) p =>
      match acc.1 with
      | .data _ => acc.2.writeAt (pa + p.1) p.2 x
      | _ => acc) ((.data [], s) : Got × State)
  else match s.writeAt pa (l.map fun b => b.getD 0) x with
    | (.data _, s) => (.data [], (l.zipIdx).foldl (fun s p => if p.1.isNone then s.markAt (s.truePlace pa + p.2) else s) s)
    | r => r

/-- Silt bytes that a mover's descriptor has written are not to be loaded before its completion is seen (Table 2-4). -/
def State.noteIncoming (s : State) (b m pa n : Nat) : State :=
  match targetOf pa with
  | .silt t off => s.onTile t fun x => { x with incoming := x.incoming ++ [(off, n, 32 * b + m)] }
  | _ => s

/-- The mover's descriptor has been signalled. -/
def State.clearIncoming (s : State) (b m : Nat) : State :=
  { s with tiles := Tab.mapAll {} (fun _ (x : Tile) => { x with incoming := x.incoming.filter fun e => decide (e.2.2 ≠ 32 * b + m) }) s.tiles }

/-- The descriptor ends PEER_LOST at its cursor (R160): a lost peer leaves its record, a lost Bursen link only its report (R224; log
entry 24). -/
def State.lostRun (s : State) (b m : Nat) (r : Running) (peer : Option Nat) (acc : Access) (va pa : Nat) : State :=
  let s := s.reportGot (.lost peer) 2 (32 * b + m)
  let s := match peer with
    | some k => s.holdRecord (.mover b m) r.entry.ctx acc (BitVec.ofNat 64 va) ⟨4, 7, false, 0, pa⟩ k
    | none => s
  s.endRun b m r 5 0

/-- The first poisoned byte so far (R176). -/
def firstPoison (r : Running) (l : List (Option Byte)) : Option Nat :=
  match r.poisoned, l.findIdx? fun b => b.isNone with
  | some p, _ => some p
  | none, some k => some (r.cursor + k)
  | none, none => none

/-- Deliver a chunk to the destination at the cursor, and advance (R170, R177). -/
def State.deliverChunk (s : State) (b m : Nat) (r : Running) (l : List (Option Byte)) (va pa : Nat) (x : Answer) : State :=
  match s.writeFlags pa l x with
  | (.data _, s) => (s.setRun b m { r with cursor := r.cursor + l.length, poisoned := firstPoison r l }).noteIncoming b m pa l.length
  | (.wait, s) => s
  | (.lost p, s) => s.lostRun b m r p .moverDst va pa
  | (g, s) => (s.reportGot g 2 (32 * b + m)).endRun b m r 8 0

/-- The list entry of the piece at the cursor is read as a mover source access (R171). -/
def State.readPiece (s : State) (b m : Nat) (r : Running) (i : Nat) (x : Answer) : State :=
  let va := dWord r.words 10 0 57 + 8 * i
  match s.moverXlat b m (.mover b m) r.entry va .moverSrc with
  | .stop s => s
  | .hit pa s =>
    match s.readAt pa 8 x (2048 + 32 * b + m) with
    | (.data l, s) =>
      let a := ofLe l
      if 2 ^ 57 ≤ a then s.endRun b m r 9 8 else s.setRun b m { r with piece := some (i, some a) }
    | (.lost p, s) => s.lostRun b m r p .moverSrc va pa
    | (.wait, s) => s
    | (g, s) =>
      (s.reportGot g 2 (32 * b + m)).setRun b m
        { r with piece := some (i, none), poisoned := some (r.poisoned.getD (i * dLen0 r.words)) }

/-- One access of COPY, FILL, GATHER or SCATTER: at most 256 bytes, crossing no 256-byte boundary of source or destination (R167). -/
def State.copyChunk (s : State) (b m : Nat) (r : Running) (x : Answer) : State :=
  let ws := r.words
  let (_, i, k0) := rowAt ws r.cursor
  let op := dOp ws
  let room := dLen0 ws - k0
  if (op = 3 ∨ op = 4) ∧ (r.piece.map (·.1)) ≠ some i then s.readPiece b m r i x
  else
    match dstAt r with
    | none =>
      -- SCATTER of a piece whose entry was lost: nothing is written (R171)
      s.setRun b m { r with cursor := r.cursor + room }
    | some dva =>
      match s.moverXlat b m (.mover b m) r.entry dva .moverDst with
      | .stop s => s
      | .hit dpa s =>
        if op = 2 then
          let n := min room (toBoundary dva)
          let l := (List.range n).map fun k => some (BitVec.ofNat 8 (dWord ws 1 (8 * ((r.cursor + k) % 8)) 8))
          s.deliverChunk b m r l dva dpa x
        else
          match srcAt r with
          | none => s.deliverChunk b m r (List.replicate (min room (toBoundary dva)) none) dva dpa x
          | some sva =>
            match s.moverXlat b m (.mover b m) r.entry sva .moverSrc with
            | .stop s => s
            | .hit spa s =>
              match s.readFlags spa (min room (min (toBoundary dva) (toBoundary sva))) (32 * b + m) x with
              | (.data _, l, s) =>
                if r.overlap || showsOverlap ws sva dva spa dpa l.length then
                  let (f, s) := s.freeBytes l.length
                  s.deliverChunk b m { r with overlap := true } (f.map some) dva dpa x
                else s.deliverChunk b m r l dva dpa x
              | (.lost p, _, s) => s.lostRun b m r p .moverSrc sva spa
              | (.wait, _, s) => s
              | (_, _, s) => s.endRun b m r 8 0

/-- One access of a TABLE_LOAD: the image is gathered until its last byte (R186). -/
def State.tableChunk (s : State) (b m : Nat) (r : Running) (x : Answer) : State :=
  let va := (dWord r.words 1 0 57 + r.cursor) % 2 ^ 57
  match s.moverXlat b m (.mover b m) r.entry va .moverSrc with
  | .stop s => s
  | .hit pa s =>
    match s.readFlags pa (min (16448 - r.cursor) (toBoundary va)) (32 * b + m) x with
    | (.data _, l, s) =>
      s.setRun b m { r with cursor := r.cursor + l.length, buf := r.buf ++ l, poisoned := firstPoison r l }
    | (.lost p, _, s) => s.lostRun b m r p .moverSrc va pa
    | (_, _, s) => s

/-- One write of decoded output (R183). -/
def State.expandChunk (s : State) (b m : Nat) (r : Running) (x : Answer) : State :=
  match dstAt r with
  | none => s
  | some dva =>
    match s.moverXlat b m (.mover b m) r.entry dva .moverDst with
    | .stop s => s
    | .hit dpa s =>
      let n := min r.buf.length (toBoundary dva)
      s.deliverChunk b m { r with buf := r.buf.drop n } (r.buf.take n) dva dpa x

/-! ### Tables (R186, R187) -/

/-- A table image that passes validation. -/
def parseTable (l : List Byte) : Option TansTable :=
  let w := (l.getD 0 0).toNat
  let head := (l.take 64).drop 1
  let entries := (wordsOf 2048 (l.drop 64)).flatMap fun (d : W64) => [d.setWidth 32, (d >>> 32).setWidth 32]
  let ok (e : W32) : Bool :=
    let v := e.toNat
    decide (fld v 28 4 = 0) && decide (fld v 12 4 = 0) && decide (fld v 8 4 ≤ 12) && decide (fld v 0 8 < 2 ^ w)
      && decide (fld v 16 12 + 2 ^ fld v 8 4 ≤ 4096)
  if l.length = 16448 ∧ (w = 2 ∨ w = 4 ∨ w = 6 ∨ w = 8) ∧ head.all (· = 0) ∧ entries.all ok then
    some { symw := w, entries := entries }
  else none

/-- Put a table, valid or not, into a bolt's store. -/
def State.setTable (s : State) (b t : Nat) (v : Option TansTable) : State :=
  { s with eng := { s.eng with tables := Tab.put none s.eng.tables (64 * b + t) v } }

/-- The work of a descriptor ends at its total: a TABLE_LOAD validates its image (R186). -/
def State.atTotal (s : State) (b m : Nat) : State :=
  match (s.mover b m).run with
  | none => s
  | some r =>
    if r.done || decide (r.words = []) || decide (r.cursor < dTotal r.words) then s
    else if dOp r.words = 6 then
      if r.poisoned.isSome then s.setRun b m { r with done := true }
      else match parseTable (r.buf.map fun b => b.getD 0) with
        | some t => (s.setTable b (dTable r.words) (some t)).setRun b m { r with done := true }
        | none => s.endRun b m r 6 1
    else if dOp r.words = 5 then s
    else s.setRun b m { r with done := true }

/-- A decode error of an EXPAND is counted and reported (R189). -/
def State.noteDecode (s : State) (b : Nat) (r : Running) (d : Nat) : State :=
  let x := 6 * b + dExp r.words
  let v := s.expander x
  let s := s.setExpander x { v with errors := v.errors + 1 }
  s.report 3 (BitVec.ofNat 32 x) 0x15 (some (Fin.ofNat 16 r.entry.ctx)) (data64 r.entry.va.toNat ++ data64 d)

/-- An EXPAND whose output has all been written: its end, or the end of a stopped one (R178). -/
def State.expandEnd (s : State) (b m : Nat) : State :=
  match (s.mover b m).run with
  | none => s
  | some r =>
    if r.done || decide (r.words = []) || decide (dOp r.words ≠ 5) || r.buf ≠ [] then s
    else if r.verdict.isSome then s.setRun b m { r with done := true }
    else if r.block < dCnt1 r.words ∨ r.block = 0 then s
    else if r.cursor = dTotal r.words then s.setRun b m { r with done := true }
    else (s.noteDecode b r 6).endRun b m { r with blockOut := r.cursor } 6 6

/-- A response to an access of the running descriptor (R170, R176, R177). Once SUSPEND is set no access is issued (R181). -/
def State.moverResponse (s : State) (b m : Nat) (x : Answer) : State :=
  let v := s.mover b m
  match v.run with
  | none => s
  | some r =>
    if r.done || v.suspend then s
    else if r.words = [] then
      if v.works then s.fetchResponse b m r.entry x else s
    else if decide (v.st = .running) || decide (v.st = .draining) then
      let s := match dOp r.words with
        | 5 => if r.buf = [] then s else s.expandChunk b m r x
        | 6 => s.tableChunk b m r x
        | _ => s.copyChunk b m r x
      (s.atTotal b m).expandEnd b m
    else s

/-! ### Completion (R174, R175) -/

/-- The command status of a descriptor status (Table 7-3). -/
def commandStatus (status : Nat) : Nat :=
  match status with
  | 1 => 0 | 2 => 3 | 3 => 2 | 5 => 5 | 6 => 8 | _ => 1

/-- STATUS and DETAIL a finished descriptor completes with. -/
def finalStatus (r : Running) : Nat × Nat :=
  match r.verdict with
  | some d => d
  | none =>
    if r.poisoned.isSome then (7, 0)
    else if r.drained then (2, 0) else (1, 0)

/-- CURSOR a descriptor completes with (Table 7-3). -/
def finalCursor (r : Running) (status : Nat) : Nat :=
  if status = 7 then r.poisoned.getD r.cursor
  else if status = 6 ∧ dOp r.words = 5 then r.blockOut
  else r.cursor

/-- The two status words (Table 7-1). CAUSE is given with ABORTED, FAULT_SEQ with FAULT. -/
def statusWords (gt : W32) (cause seq : Nat) (status detail cursor : Nat) : List Byte :=
  toLe 8 cursor ++ toLe 8 (gt.toNat * 2 ^ 32 + (if status = 4 then seq else 0) * 2 ^ 24 + detail % 16 * 2 ^ 20
    + (if status = 3 then cause else 0) * 2 ^ 16 + status)

/-- The next state of a mover whose descriptor has completed: disabled once an EN clear has no work left (R178). -/
def Mover.rest (v : Mover) : MovState :=
  if v.suspend then .suspended
  else if v.en then .idle
  else if v.queue = [] then .disabled
  else v.st

/-- Signals of a completion: flag, counter, interrupt. One that would reach outside the descriptor's context is withheld, whatever the status,
and so is one whose fields were lost (R175, R414). A misaligned FLAG_OFF is aligned down (log entry 174). -/
def State.signals (s : State) (b m : Nat) (r : Running) (status : Nat) : State :=
  let ws := r.words
  let c := r.entry.ctx
  let ok (l : List Nat) : Bool := l.all fun k => !r.lost.contains k
  let s :=
    if dSigFlag ws && ok [0, 8] && !s.flagOutside c ws then
      let t := dFlagTile ws
      let x := s.tile t
      if x.windowOpen then
        s.setTile t (x.siltWrite (alignDown (dFlagOff ws) 8) (toLe 8 (status * 2 ^ 32 + dFlagVal ws)))
      else s.reportMem (.inactive t) 2 (32 * b + m)
    else s
  let s := if dSigCtr ws && ok [0, 9] && !s.ctrOutside c ws then s.bumpCtr (dCtr ws) (dCtrInc ws) else s
  if dIntr ws && ok [0] then
    s.onTile r.entry.tile fun x => { x with sys := { x.sys with tip := x.sys.tip ||| 4 } }
  else s

/-- The cadence whose expiry aborted a mover's descriptor counts it (Table 11-3). -/
def State.countAborted (s : State) (b m status : Nat) : State :=
  if status = 3 then
    { s with cads := Tab.mapAll {} (fun k (d : Cad) =>
      let c := s.ctx d.ctx.toNat
      let named := (c.cads.find? fun e => decide (e.number = k)).any fun e =>
        decide (c.movBase.getD b 0 ≤ m) && (e.movers.getD b 0).getLsbD (m - c.movBase.getD b 0)
      if decide (d.st = .expiring) && named then { d with aborted := d.aborted + 1 } else d) s.cads }
  else s

/-! ### Firmware's work as physical descriptors (R149, R167) -/

/-- The words of a physical descriptor: COPY, FILL with its pattern, or TABLE_LOAD of `n` bytes. -/
def physWords (op src dst n : Nat) : List W64 :=
  [BitVec.ofNat 64 (op * 2 ^ 60), BitVec.ofNat 64 src, BitVec.ofNat 64 dst, BitVec.ofNat 64 (2 ^ 48 + 2 ^ 32 + n)] ++ List.replicate 12 0

/-- Queue the first of a chain of physical descriptors on a mover; each of the others follows when the one before it has completed. -/
def State.queueWork (s : State) (b m c : Nat) (w : FwWork) (ps : List FwPiece) (overlap first : Bool) : State :=
  match ps with
  | [] => s
  | p :: rest =>
    let v := s.mover b m
    let e : MovEntry := {
      num := v.nextNum, released := true, va := 0, ctx := c, tile := 0, words := some p.words, work := w, piece := p.before, more := rest
      overlap := overlap, late := !v.en, lateStatus := if v.drain then 2 else 3 }
    s.setMover b m { v with queue := if first then e :: v.queue else v.queue ++ [e], nextNum := v.nextNum + 1 }

/-- Firmware takes back descriptors that it has queued for some work: none of them is run on. -/
def State.dropWork (s : State) (p : FwWork → Bool) : State :=
  { s with eng := { s.eng with mov := Tab.mapAll {} (fun _ (v : Mover) =>
      let runs := match v.run with | some r => p r.entry.work | none => false
      let v := { v with queue := v.queue.filter fun e => !p e.work, run := if runs then none else v.run }
      if runs then { v with st := v.rest } else v) s.eng.mov } }

/-- One descriptor of a firmware copy or fill has completed: the command completes with the last, or with the first that fails, which ends
the work. A poisoned one is the command's status, with its first poisoned byte, once all are done (R232, Table 7-3). -/
def State.commandDone (s : State) (b m n : Nat) (e : MovEntry) (status detail cursor : Nat) : State :=
  let x := s.slotOf n
  let went := decide (status = 1) || decide (status = 7)
  let x := if status = 7 ∧ x.worst ≠ 7 then { x with worst := 7, detail := e.piece + cursor } else x
  match e.more with
  | p :: _ =>
    if went then (s.setSlot n { x with cursor := p.before }).queueWork b m e.ctx e.work e.more e.overlap true
    else s.complete n (commandStatus status) detail [BitVec.ofNat 64 (e.piece + cursor), BitVec.ofNat 64 status]
  | [] =>
    let (st, cur) := if went && decide (x.worst = 7) then (7, x.detail) else (status, e.piece + cursor)
    s.complete n (commandStatus st) detail [BitVec.ofNat 64 cur, BitVec.ofNat 64 st]

/-- One descriptor of the copying of a load has completed: its chain goes on, or has ended; with the last chain the copying has (R249). -/
def State.loadDone (s : State) (b m c : Nat) (e : MovEntry) (status : Nat) : State :=
  match (s.ctx c).load with
  | none => s
  | some l =>
    if status = 1 ∧ e.more ≠ [] then s.queueWork b m e.ctx e.work e.more false true
    else
      let worst := if l.worst = 1 then status else l.worst
      s.setCtx c { s.ctx c with load := some { l with
        left := l.left - 1, worst := worst, copied := if l.left ≤ 1 then some worst else none } }

/-- One descriptor of a demand fill has completed (R165): the next follows; one that failed is run again when the fill is seen to. -/
def State.fillDone (s : State) (b m c va : Nat) (e : MovEntry) (status : Nat) : State :=
  let went := status = 1 ∨ status = 7
  let left : List FwPiece := if went then e.more else { words := e.words.getD [], before := e.piece } :: e.more
  let s := { s with mmu := { s.mmu with fills := s.mmu.fills.map fun f =>
    if f.ctx = c ∧ f.va = va then { f with left := left, busy := decide (went ∧ left ≠ []) } else f } }
  if went then s.queueWork b m e.ctx e.work e.more false true else s

/-- Everything after the status words (R175 steps 3 and 4), and the mover's own registers. -/
def State.afterStatus (s : State) (b m : Nat) (r : Running) (status detail cursor : Nat) : State :=
  let v := s.mover b m
  let s := s.setMover b m { v with
    run := none, lastStatus := BitVec.ofNat 8 status, completed := v.completed + 1, st := v.rest, abortCause := v.abortCause }
  let s := (((s.dropWalks b m).signals b m r status).countAborted b m status).clearIncoming b m
  let s := match r.entry.work with
    | .command n => s.commandDone b m n r.entry status detail cursor
    | .load c => s.loadDone b m c r.entry status
    | .fill c va => s.fillDone b m c va r.entry status
    | .none => s
  -- a TABLE_LOAD that ends otherwise leaves a table of its context invalid (R186, R187)
  let s := if dOp r.words = 6 ∧ (s.ctx r.entry.ctx).tables.contains (dTable r.words) = true ∧ status ≠ 1
      ∧ ¬ (status = 2 ∧ cursor = 16448) then
      s.setTable b (dTable r.words) none
    else s
  -- an expander that has no more work after an EN clear is DISABLED (R178)
  if dOp r.words = 5 ∧ dExp r.words < 6 then
    let k := 6 * b + dExp r.words
    let x : Expander := s.expander k
    let busy : Bool := (List.range 32).any fun j => (s.mover b j).run.any fun q => decide (dOp q.words = 5) && decide (dExp q.words = dExp r.words)
    if decide (x.st = ExpState.unavailable) || busy then s
    else s.setExpander k { x with st := if x.en then .idle else .disabled }
  else s

/-- Complete the running descriptor whose work is done. `write`: the status words are written, by a mover destination access on which a
fault pauses the mover (R175). -/
def State.completeDescriptor (s : State) (b m : Nat) (write : Bool) : State :=
  let v := s.mover b m
  match v.run with
  | none => s
  | some r =>
    if !r.done then s
    else
      let (status, detail) := finalStatus r
      let cursor := finalCursor r status
      if r.entry.words.isSome || !write || r.noWrite then s.afterStatus b m r status detail cursor
      else
        match s.moverXlat b m (.mover b m) r.entry (r.entry.va.toNat + 0x70) .moverDst with
        | .stop s => s
        | .hit pa s =>
          let l := statusWords s.gtLow v.abortCause.toNat r.seq.toNat status detail cursor
          match s.writeAt pa l (.data []) with
          | (.data _, s) => s.afterStatus b m r status detail cursor
          | (.wait, s) => s
          | (g, s) => (s.reportGot g 2 (32 * b + m)).afterStatus b m r status detail cursor

/-- Complete where the mover is in a state to do so: not paused and not suspended. -/
def State.descriptorComplete (s : State) (b m : Nat) : State :=
  let v := s.mover b m
  if v.works then s.completeDescriptor b m true else s

/-! ### Turning movers off and on (R178–R181, R413) -/

/-- A safe point: an aborting mover completes its descriptor ABORTED at its cursor, reading it first where that has not been done, since its
signals are still given (R175); one whose SUSPEND is set becomes SUSPENDED. -/
def State.moverSafePoint (s : State) (b m : Nat) : State :=
  let v := s.mover b m
  match v.st with
  | .aborting =>
    match v.run with
    | some r =>
      let s := if r.done then s else if r.words = [] then s.readHead b m r.entry else s.endRun b m r 3 0
      s.completeDescriptor b m true
    | none => if v.queue = [] then s.setMover b m { v with st := .disabled } else s
  | .running => if v.suspend then s.setMover b m { v with st := .suspended, was := .running } else s
  | .idle => if v.suspend then s.setMover b m { v with st := .suspended, was := .idle } else s
  | .draining => if v.suspend then s.setMover b m { v with st := .suspended, was := .draining } else s
  | _ => s

/-- A PAUSED mover meets a clear of EN with DRAIN = 0: its descriptor completes ABORTED at its fault cursor (R180). -/
def State.abortPaused (s : State) (b m : Nat) (v : Mover) : State :=
  match v.run with
  | some r => (s.setMover b m { v with st := .aborting, run := some r.stopped }).completeDescriptor b m true
  | none => s.setMover b m { v with st := .disabled }

/-- Work under way when EN is cleared with DRAIN = 1: what would complete OK completes DRAINED, but for a descriptor whose last write is
already performed (R178, R180). -/
def Running.drainMark (r : Running) : Running := if r.done then r else { r with drained := true }

/-- Clear EN with the given DRAIN, or turn a drain into an abort (R178–R180). `cause`: CAUSE of the abort (R182). -/
def State.moverOff (s : State) (b m : Nat) (drain : Bool) (cause : Nat) : State :=
  let v := s.mover b m
  if v.en then
    let v := { v with
      en := false, drain := drain, abortCause := BitVec.ofNat 4 cause, run := if drain then v.run.map Running.drainMark else v.run }
    let busy := v.run.isSome || v.queue ≠ []
    match v.st with
    | .suspended => s.setMover b m v
    | .paused => if drain then s.setMover b m v else s.abortPaused b m v
    | _ =>
      if !busy then s.setMover b m { v with st := .disabled }
      else if drain then s.setMover b m { v with st := .draining }
      else (s.setMover b m { v with st := .aborting }).dropWalks b m
  else if !drain && v.drain then
    let v := { v with
      drain := false, abortCause := BitVec.ofNat 4 cause, queue := v.queue.map fun (e : MovEntry) => { e with lateStatus := 3 } }
    match v.st with
    | .draining => (s.setMover b m { v with st := .aborting }).dropWalks b m
    | .paused => s.abortPaused b m v
    | .suspended => s.setMover b m v
    | _ => s
  else s

/-- Set EN: it stays 0 while the mover drains or aborts, and while a suspension holds such work (R179, R181). -/
def State.moverOn (s : State) (b m : Nat) : State :=
  let v := s.mover b m
  let busy := v.run.isSome || v.queue ≠ []
  if v.en || decide (v.st = .draining) || decide (v.st = .aborting) || decide (v.st = .paused) || (decide (v.st = .suspended) && busy) then s
  else
    s.setMover b m { v with
      en := true, drain := false, abortCause := 0
      st := if v.st = .suspended then .suspended else if v.run.isSome then .running else .idle }

/-- Set SUSPEND (R181): the mover issues nothing more and stops at its next safe point. -/
def State.moverHold (s : State) (b m : Nat) : State :=
  (s.setMover b m { s.mover b m with suspend := true }).dropWalks b m

/-- Clear SUSPEND: the held work goes on, or meets the EN clear that came meanwhile (R181). -/
def State.moverResume (s : State) (b m : Nat) : State :=
  let v := s.mover b m
  let busy := v.run.isSome || v.queue ≠ []
  let st := if v.st ≠ .suspended then v.st
    else if v.en then (if v.run.isSome then .running else .idle)
    else if !busy then .disabled
    else if v.drain then .draining else .aborting
  s.setMover b m { v with suspend := false, st := st }

/-- RESTART of a PAUSED descriptor (R413): it goes on at its cursor, draining where EN is clear (R180), and the record is no longer its
own. -/
def State.moverRestart (s : State) (b m : Nat) : State :=
  let v := s.mover b m
  if v.st = .paused then s.setMover b m { v with
      faultSeq := none, st := if !v.en then .draining else if v.run.isSome then .running else .idle } else s

/-- ABANDON of a PAUSED descriptor (R413): it completes FAULT at its cursor with the SEQ of its record, zero where that is not yet posted
(log entry 175). A status write that faults again counts as failed. -/
def State.moverAbandon (s : State) (b m : Nat) : State :=
  let v := s.mover b m
  match v.st, v.run with
  | .paused, some r =>
    let r := { r.unread with verdict := some (4, 0), seq := v.faultSeq.getD 0, done := true, noWrite := r.done }
    let s := s.setMover b m { v with st := if v.en then .running else .draining, run := some r, faultSeq := none }
    s.completeDescriptor b m true
  | _, _ => s

end Sys2Proof.Machine
end

