-- ==== Sys2Proof/Machine/Expander.lean ====
section
/-!
DEFINITION. The expanders (R183–R189, R416): the header checks and the tANS decoding of one coded block, its output, and turning an
expander off and on (R178).
-/

namespace Sys2Proof.Machine

/-! ### Decoding (R184, R185, R188) -/

/-- Fields of a coded block header (Table 7-10). -/
structure BlockHeader where
  nsym : Nat
  coded : Nat
  raw : Nat
  table : Nat
  flags : Nat
  states : List Nat
  reservedZero : Bool
  deriving DecidableEq, Repr

/-- The header in 32 bytes. -/
def blockHeader (l : List Byte) : BlockHeader :=
  let n (o k : Nat) := ofLe ((l.drop o).take k)
  { nsym := n 0 4, coded := n 4 4, raw := n 8 2, table := n 10 1, flags := n 11 1
    states := [n 16 2, n 18 2, n 20 2, n 22 2], reservedZero := n 12 4 = 0 && n 24 8 = 0 }

/-- Every field in range and every reserved one zero. -/
def BlockHeader.ok (h : BlockHeader) : Bool :=
  decide (1 ≤ h.nsym) && decide (h.nsym ≤ 65536) && decide (h.coded ≤ 98304) && decide (h.flags = 0) && h.reservedZero
    && h.states.all fun x => decide (x ≤ 4095)

/-- Header, bitstream and raw bytes; the next block starts at the 64-byte boundary after them. -/
def BlockHeader.bytes (h : BlockHeader) : Nat := 32 + h.coded + h.raw
def BlockHeader.stride (h : BlockHeader) : Nat := (h.bytes + 63) / 64 * 64

/-- Bytes of the block's output (R185). -/
def BlockHeader.output (h : BlockHeader) (symw : Nat) : Nat := (h.nsym * symw + 7) / 8 + h.raw

/-- Fields of a table entry (Table 7-11). -/
def entryBase (e : W32) : Nat := fld e.toNat 16 12
def entryBits (e : W32) : Nat := fld e.toNat 8 4
def entrySym (e : W32) : Nat := fld e.toNat 0 8

/-- The four streams take turns from symbol `i` on: the symbols decoded, the final states, the bits consumed; or error 3 (R188). The
bitstream is one little-endian number. -/
def decodeSyms (entries : List W32) (stream limit : Nat) :
    Nat → Nat → List Nat → Nat → Option (List Nat × List Nat × Nat)
  | 0, _, xs, pos => some ([], xs, pos)
  | n + 1, i, xs, pos =>
    let e := entries.getD (xs.getD (i % 4) 0) 0
    if limit < pos + entryBits e then none
    else
      let x := entryBase e + fld stream pos (entryBits e)
      match decodeSyms entries stream limit n (i + 1) (xs.set (i % 4) x) (pos + entryBits e) with
      | some (l, xs, pos) => some (entrySym e :: l, xs, pos)
      | none => none

/-- Symbols packed at their width, symbol 0 lowest (R185). -/
def packSyms (w : Nat) : List Nat → Nat
  | [] => 0
  | v :: r => v + 2 ^ w * packSyms w r

/-- Decode a block from its header, bitstream and raw bytes: its output or the error code 3, 4 or 5 (R188). -/
def decodeBlock (t : TansTable) (h : BlockHeader) (stream raw : List Byte) : Except Nat (List Byte) :=
  match decodeSyms t.entries (ofLe stream) (8 * h.coded) h.nsym 0 h.states 0 with
  | none => .error 3
  | some (syms, xs, pos) =>
    if (pos + 7) / 8 ≠ h.coded ∨ ofLe stream / 2 ^ pos ≠ 0 then .error 4
    else if xs.any (fun x => decide (x ≠ 0x555)) then .error 5
    else .ok (toLe ((h.nsym * t.symw + 7) / 8) (packSyms t.symw syms) ++ raw)

/-! ### Reading a block -/

/-- A table of the bolt's store that a block of the context may name (R187). -/
def State.grantedTable (s : State) (b c t : Nat) : Option TansTable :=
  if (s.ctx c).tables.contains t then s.tableOf b t else none

/-- A TABLE_LOAD of the table runs on the bolt and has not completed: blocks that start now wait for its end (R187). -/
def State.tableLoading (s : State) (b t : Nat) : Bool :=
  (List.range 32).any fun m => (s.mover b m).run.any fun r => decide (dOp r.words = 6) && decide (dTable r.words = t)

/-- What reading a range through the expander's TLB comes to: bytes, lost ones as none; off the stack; or not now (a walk is queued or
the mover has paused). -/
inductive BlockRead where
  | bytes (l : List (Option Byte))
  | off
  | stop
  deriving DecidableEq, Repr

/-- Read up to `n` bytes at a virtual address, page by page, on stack `x` alone. The first failure decides. -/
def State.readCoded (s : State) (x m : Nat) (r : Running) : Nat → Nat → Nat → BlockRead × State
  | 0, _, _ => (.bytes [], s)
  | fuel + 1, va, n =>
    if n = 0 then (.bytes [], s)
    else
      let b := x / 6
      match s.moverXlat b m (.expander x b m) r.entry (va % 2 ^ 57) .coded with
      | .stop s => (.stop, s)
      | .hit pa s =>
        let k := min n (65536 - va % 65536)
        if pa / stackBytes ≠ x ∨ (pa + k - 1) / stackBytes ≠ x then (.off, s)
        else
          match s.readFlags pa k (32 * b + m) (.data []) with
          | (.wait, _, s) => (.stop, s)
          | (_, l, s) =>
            match s.readCoded x m r fuel (va + k) (n - k) with
            | (.bytes q, s) => (.bytes (l ++ q), s)
            | q => q

/-- Undefined bytes at a descriptor's cursor: each piece that the mover's TLB translates is written as far as its target takes it. -/
def State.scribble (s : State) (b m : Nat) (r : Running) : Nat → List Byte → State
  | 0, _ => s
  | fuel + 1, l =>
    match l, dstAt r with
    | _ :: _, some dva =>
      let n := min l.length (toBoundary dva)
      let s := match s.translate (.mover b m) r.entry.ctx (s.ctxAsid r.entry.ctx) dva .moverDst false with
        | .hit pa => (s.writeFlags pa ((l.take n).map some) (.data [])).2
        | _ => s
      s.scribble b m { r with cursor := r.cursor + n } fuel (l.drop n)
    | _, _ => s

/-- A decode error in the next block of a descriptor (R189): it completes DECODE_ERROR with the cursor at the block's first output byte,
the error is counted and reported. Where the header was good, so that the block was in flight, its own output bytes are undefined: those
within LEN0 that the mover can reach take free values, and no failure there changes the descriptor's end. -/
def State.decodeError (s : State) (x m : Nat) (r : Running) (d out : Nat) : State :=
  let r := { r with verdict := some (6, d), block := r.block + 1, blockOut := r.cursor, done := true }
  let s := (s.noteDecode (x / 6) r d).setRun (x / 6) m r
  let (l, s) := s.freeBytes (min out (dLen0 r.words - r.cursor))
  s.scribble (x / 6) m r l.length l

/-- Bytes of a read that came whole. -/
def wholeBytes (l : List (Option Byte)) : List Byte := l.map fun b => b.getD 0

/-- The block's bytes are in hand: decode it, then hold its output to LEN0 and DSTR1 (R188, Table 7-4). One with lost bytes is not decoded
and raises no error: its output within LEN0 is handed on as lost (R416). -/
def State.finishBlock (s : State) (x m : Nat) (r : Running) (h : BlockHeader) (t : TansTable) (l : List (Option Byte)) : State :=
  let b := x / 6
  let out := h.output t.symw
  let left := dLen0 r.words - r.cursor
  let room := min left (if wordAt r.words 6 = 0 then out else (wordAt r.words 6).toInt.natAbs)
  let next (buf : List (Option Byte)) : Running := { r with
    buf := buf, block := r.block + 1, blockOut := r.cursor, blockAt := r.blockAt + h.stride }
  if l.any fun q => q.isNone then s.setRun b m (next (List.replicate (min left out) none))
  else
    match decodeBlock t h (wholeBytes (l.take h.coded)) (wholeBytes (l.drop h.coded)) with
    | .error d => s.decodeError x m r d out
    | .ok o =>
      let v := s.expander x
      let s := s.setExpander x { v with blocks := v.blocks + 1 }
      if room < out then s.decodeError x m r 6 out
      else s.setRun b m (next (o.map some))

/-- A block of the descriptor that a mover runs is due at the expander: the output of the one before is written, and the descriptor is not
ending, held or paused. -/
def State.blockDue (s : State) (x m : Nat) : Bool :=
  let v := s.mover (x / 6) m
  (decide (v.st = .running) || decide (v.st = .draining)) && !v.suspend && v.run.any fun r =>
    !r.done && r.verdict.isNone && decide (dOp r.words = 5) && decide (dExp r.words = x % 6) && decide (r.buf = [])
      && decide (r.block < dCnt1 r.words)

/-- The mover whose block the expander takes next: round robin over those with a block due, from the one after the last it took (R183). -/
def State.blockTurn (s : State) (x : Nat) : Option Nat :=
  ((List.range 32).map fun k => ((s.expander x).last + 1 + k) % 32).find? fun m => s.blockDue x m

/-- The next coded block of the descriptor that mover `m` of the expander's bolt runs, when its turn has come (R183, R188). It does nothing
where no such block is due. -/
def State.expanderBlock (s : State) (x m : Nat) : State :=
  let b := x / 6
  if s.blockTurn x ≠ some m ∨ (s.expander x).st = .unavailable then s
  else match (s.mover b m).run with
    | none => s
    | some r =>
        let e := s.expander x
        let s := s.setExpander x { e with last := m, st := if e.st = .idle then .decoding else e.st }
        match s.readCoded x m r 4 r.blockAt 32 with
        | (.stop, s) => s
        | (.off, s) => s.decodeError x m r 7 0
        | (.bytes hl, s) =>
          if hl.any fun q => q.isNone then
            s.setRun b m { r with verdict := some (7, 0), poisoned := some (r.poisoned.getD r.cursor), done := true }
          else
            let h := blockHeader (wholeBytes hl)
            if s.tableLoading b h.table then s
            else match s.grantedTable b r.entry.ctx h.table with
              | none => s.decodeError x m r 1 0
              | some t =>
                if !h.ok then s.decodeError x m r 2 0
                else match s.readCoded x m r 8 (r.blockAt + 32) (h.coded + h.raw) with
                  | (.stop, s) => s
                  | (.off, s) => s.decodeError x m r 7 0
                  | (.bytes l, s) => s.finishBlock x m r h t l

/-! ### Turning an expander off and on (R178, R179) -/

/-- An EXPAND descriptor meets the EN clear of its expander: one that has begun a block ends at the next block boundary, or runs to its
end in a drain; one that has not begun does not run (Table 7-5). -/
def Running.expanderOff (r : Running) (drain : Bool) : Running :=
  if r.done || r.verdict.isSome then r
  else if drain then (if r.block = 0 then { r with verdict := some (2, 0), done := true } else { r with drained := true })
  else if r.block = 0 then { r with verdict := some (3, 0), done := true }
  else { r with verdict := some (3, 0), done := r.buf = [] }

/-- Movers of the bolt whose running descriptor names the expander. -/
def State.namers (s : State) (x : Nat) : List Nat :=
  (List.range 32).filter fun m => (s.mover (x / 6) m).run.any fun r => decide (dOp r.words = 5) && decide (dExp r.words = x % 6)

/-- A descriptor that waits on a fault when its expander is turned off with DRAIN = 0 completes ABORTED at its fault cursor, and its mover
goes on (R180). -/
def State.unpause (s : State) (b m : Nat) : State :=
  let v := s.mover b m
  (s.setMover b m { v with
    st := if v.en then .running else .draining, faultSeq := none, run := v.run.map Running.stopped }).completeDescriptor b m true

/-- A walk for the next block of a descriptor that an abort ends is dropped. -/
def State.dropExpWalks (s : State) (x m : Nat) (drain : Bool) : State := if drain then s else s.dropWalks (x / 6) m

/-- Clear EN with the given DRAIN, or turn a drain into an abort. -/
def State.expanderOff (s : State) (x : Nat) (drain : Bool) : State :=
  let v := s.expander x
  if v.st = .unavailable then s
  else if v.en || (decide (v.st = .draining) && !drain) then
    let l := s.namers x
    let s := s.setExpander x { v with
      en := false, drain := drain, st := if l = [] then .disabled else if drain then .draining else .aborting }
    forAll l s fun s m =>
      let mv := s.mover (x / 6) m
      if mv.st = .paused ∧ mv.run.any (fun r => r.done) then s
      else if mv.st = .paused then (if drain then s.setMover (x / 6) m { mv with run := mv.run.map Running.drainMark } else s.unpause (x / 6) m)
      else (s.setMover (x / 6) m { mv with run := mv.run.map fun r => r.expanderOff drain }).dropExpWalks x m drain
  else s

/-- Set EN: it stays 0 while the expander drains, aborts or is unavailable (R179). -/
def State.expanderOn (s : State) (x : Nat) : State :=
  let v := s.expander x
  if v.en || decide (v.st ≠ .disabled) then s
  else s.setExpander x { v with en := true, drain := false, st := .idle }

end Sys2Proof.Machine
end

