-- ==== Sys2Proof/Machine/Tiles.lean ====
section
/-!
DEFINITION. Stopping, saving, restoring, starting, resetting and retiring a tile (R57–R63, R365, R366), each one shared operation.
-/

namespace Sys2Proof.Machine

/-! ### The save area (Table 2-13) -/

/-- Bytes of a save area. -/
def areaBytes : Nat := 0xC3000

/-- The save area of a tile in the reserve of its bolt (R257); none where the bolt has no healthy stack. -/
def State.saveArea (s : State) (t : Nat) : Option Nat :=
  (s.reserve (boltOf t)).map fun a => a + 0x5000_0000 + t % 256 * areaBytes

/-- The program counter a stop saves: the next bundle to issue, that after a long instruction's bundle where one was cut (R54). -/
def Tile.stopPc (x : Tile) : W64 := if x.longStop then x.afterLong x.pc else x.pc

/-- A list of 64-bit words as bytes. -/
def words64 (l : List W64) : List Byte := l.flatMap fun w => toLe 8 w.toNat

/-- Bits of a map of poison, by register number. -/
def poisonBits (m : Tab (Option Poison)) (n : Nat) : W64 :=
  BitVec.ofNat 64 ((List.range n).foldl (fun a k => a + b2n (Tab.look none m k).isSome * 2 ^ k) 0)

/-- Silt as the save sequencer reads it, lost where a word is marked uncorrectable. -/
def Tile.siltFlags (x : Tile) : List (Option Byte) :=
  (List.range siltBytes).map fun k => if Tab.look false x.siltBad (alignDown k 8) then none else some (Tab.look 0 x.silt k)

/-- What follows Silt in the save area, from 0x8_0000 on. -/
def Tile.areaTail (gt cyc : W64) (t : Nat) (x : Tile) : List Byte :=
  ((List.range 65536).flatMap fun k => toLe 4 (Tab.look 0 x.acc k).toNat)
    ++ ((List.range 32).flatMap fun k => toLe 256 (x.getV k).toNat)
    ++ words64 ((List.range 64).map x.getS)
    ++ words64 ((List.range 16).map x.getP)
    ++ words64 [x.stopPc, x.sys.tstatus &&& 1, poisonBits x.sPoison 64, poisonBits x.vPoison 32,
      BitVec.ofNat 64 x.storeErrs.length]
    ++ words64 ((x.storeErrs ++ List.replicate 8 0).take 8)
    ++ words64 ((List.range 4).flatMap fun e =>
      if (x.engine e).faulted then [(x.engine e).faultVa &&& 0x1FFFFFFFFFFFFFF, (x.engine e).faultSub.setWidth 64] else [0, 0])
    ++ List.replicate 216 0
    ++ words64 ((List.range 256).map fun n => if csrListed n then csrValue gt cyc t x n else 0)
    ++ List.replicate 1024 0

/-- The tile can be saved: stopped, its engines stopped and every far access ended (Table 2-12). -/
def Tile.saveReady (x : Tile) : Bool :=
  x.stopping && !x.saving && x.far.isEmpty && x.releases.isEmpty && (List.range 4).all fun e => !(x.engine e).running

/-- The save sequencer writes the save area (R58). A Silt word that is uncorrectable marks what it is saved to. -/
def State.saveTile (s : State) (t : Nat) : State :=
  let x := s.tile t
  if x.saveReady then
    let s := match s.saveArea t with
      | some a =>
        let (_, s) := s.writeFlags a x.siltFlags (.data [])
        let s := { s with mem := { s.mem with
          cuts := Tab.put none s.mem.cuts a (some ⟨if x.longStop then some x.pc else none, x.cuts⟩) } }
        s.poke (a + 0x80000) (x.areaTail s.clk.gt s.clk.tileCycles t)
      | none => s
    s.onTile t fun y => { y with saving := true }
  else s

/-- The save ends: the tile is STOPPED (R57). -/
def State.endSave (s : State) (t : Nat) : State :=
  let x := s.tile t
  if x.saving && x.stopping then
    s.setTile t { x with st := .stopped, stopping := false, saving := false, pc := x.stopPc, longStop := false }
  else s

/-! ### Stop, start, restore -/

/-- A stop request (R57): no further bundle issues; an engine at a boundary stops there. Ignored unless RUNNING. -/
def State.stopTile (s : State) (t : Nat) : State :=
  let x := s.tile t
  if x.st = .running ∧ x.stopping = false ∧ x.resetting = false ∧ x.restoring = false then
    let x := { x with stopping := true }
    (s.noStagger t).setTile t ((List.range 4).foldl (fun x e =>
      -- a streamed unit whose block has not come is not yet begun: the engine stands at its boundary
      if (x.engine e).running && ((x.engine e).stage = 0) && (x.operandB (x.engine e) (x.engine e).units).isNone
      then x.engineBoundary e else x) x)
  else s

/-- The supervisor entry point of a tile: that of its group in the context that TCTX names, or else in the context that holds its group
(R63). -/
def State.entryOf (s : State) (t : Nat) : Option W64 :=
  let inCtx (c : Nat) : Option W64 := ((s.ctx c).groups.find? fun g => decide (g.phys = t / 16)).map (·.entry)
  match inCtx (s.tile t).ctxNo with
  | some e => some e
  | none => (List.range 16).findSome? inCtx

/-- Start a tile (R63): RUNNING from its entry point in supervisor mode with interrupts off. Ignored unless RESET. A tile that no loaded context
holds has no entry point and starts at its present PC (log entry 84). -/
def State.startTile (s : State) (t : Nat) : State :=
  let x := s.tile t
  if x.st = .reset ∧ x.resetting = false ∧ x.restoring = false then
    s.setTile t { x with
      st := .running
      pc := (s.entryOf t).getD x.pc &&& ~~~ 63
      sys := { x.sys with tstatus := (x.sys.tstatus ||| 1) &&& ~~~ 0x80 } }
  else s

/-- RESTORE: the save area is being read (R59). Ignored unless STOPPED or RESET. -/
def State.restoreTile (s : State) (t : Nat) : State :=
  let x := s.tile t
  if (x.st = .stopped ∨ x.st = .reset) ∧ x.resetting = false ∧ x.restoring = false then
    s.setTile t { x with restoring := true }
  else s

/-- Registers poisoned by a saved set of bits. Their SUBCODE and address are not saved, and are free values. -/
def State.poisonFrom (s : State) (t : Nat) (bits : W64) (n : Nat) (vector : Bool) : State :=
  forAll ((List.range n).filter fun k => bits.getLsbD k) s fun s k =>
    let (a, s) := s.takeFree
    let (b, s) := s.takeFree
    s.onTile t fun x => if vector then x.poisonV k ⟨a.setWidth 8, b⟩ else x.poisonS k ⟨a.setWidth 8, b⟩

/-- The tile that the bytes of a save area describe, poison apart. TID, TCYCLE and TGT are not restored. -/
def Tile.fromArea (x : Tile) (silt : List (Option Byte)) (l : List Byte) : Tile :=
  let w (o : Nat) : W64 := BitVec.ofNat 64 (ofLe (((l.drop (o - 0x80000)).take 8)))
  let sr (n : Nat) : W64 := w (0xC2400 + 8 * n)
  let nerr := min (w 0xC22A0).toNat 8
  let y : Tile := { x with
    st := .running, restoring := false, stopping := false, saving := false
    silt := Tab.writeN 0 [] 0 (wholeBytes silt)
    siltBad := (List.range 65536).foldl (fun m k =>
      if ((silt.drop (8 * k)).take 8).any (fun b => b.isNone) then Tab.put false m (8 * k) true else m) []
    acc := Tab.writeN 0 [] 0 ((List.range 65536).map fun k => BitVec.ofNat 32 (ofLe ((l.drop (4 * k)).take 4)))
    v := Tab.writeN 0 [] 0 ((List.range 32).map fun k => BitVec.ofNat 2048 (ofLe ((l.drop (0x40000 + 256 * k)).take 256)))
    s := Tab.writeN 0 [] 1 ((List.range 63).map fun k => w (0xC2008 + 8 * k))
    p := Tab.writeN 0 [] 1 ((List.range 15).map fun k => w (0xC2208 + 8 * k))
    sPoison := [], vPoison := []
    pc := w 0xC2280 &&& ~~~ 63
    storeErrs := (List.range nerr).map fun k => w (0xC22A8 + 8 * k)
    sys := {
      tstatus := (sr 1 &&& 0xF00000190) ||| (w 0xC2288 &&& 1)
      tcause := sr 2 &&& 0x8000000000FFF8FF, tepc := sr 3, tval := sr 4, tvec := sr 5 &&& ~~~ 0xFFF
      tscratch := sr 6, tie := sr 7 &&& 0x1F, tip := sr 8 &&& 0xE
      vl := if 64 < (sr 9).toNat then 64 else sr 9
      tfflags := sr 0xA &&& 0x1F, mseed := sr 0xB, cycleZero := x.sys.cycleZero, ttimer := sr 0xE, tctx := sr 0xF &&& 0xFFFF
      vcur := sr 0x10 &&& 0x80000007FFFFFFFF, vsyl := sr 0x11, vopa := sr 0x12, vopb := sr 0x13 }
    armed := none, hold := .none, walkFault := none, fetchFault := none, longStop := false, haz := {}, cuts := [] }
  (List.range 4).foldl (fun (y : Tile) e =>
    let mcur := sr (0x40 + 4 * e) &&& 0xC000000FFFFFFFFF
    let g : Engine := { x.engine e with
      mcur := mcur, msyl := sr (0x41 + 4 * e), mopa := sr (0x42 + 4 * e), mopb := sr (0x43 + 4 * e)
      running := mcur.getLsbD 63 && !mcur.getLsbD 62, blocks := [], ahead := none
      faultVa := if mcur.getLsbD 62 then w (0xC22E8 + 16 * e) else 0
      faultSub := if mcur.getLsbD 62 then (w (0xC22F0 + 16 * e)).setWidth 8 else 0 }
    let y := y.setEngine e g
    if g.faulted then { y with sys := { y.sys with tstatus := y.sys.tstatus ||| BitVec.ofNat 64 (2 ^ (32 + e)) } } else y) y

/-- The restore ends (R59): the tile holds what its save area describes, engines with VALID restart, a cut long vector instruction
finishes as the bundle that it was cut in, or else the one at TEPC, found its registers, and the tile is RUNNING. Bytes of the area that an uncorrectable error lost leave a marked Silt word, or a free value. -/
def State.endRestore (s : State) (t : Nat) : State :=
  let x := s.tile t
  if x.restoring then
    match s.saveArea t with
    | none => s.setTile t { x with restoring := false }
    | some a =>
      let (_, silt, s) := s.readFlags a siltBytes 0 (.data [])
      let (_, tail, s) := s.readFlags (a + 0x80000) (areaBytes - siltBytes) 0 (.data [])
      let (tail, s) := tail.foldr (fun b (acc : List Byte × State) => match b with
        | some b => (b :: acc.1, acc.2)
        | none =>
          let (v, s) := acc.2.takeFree
          (v.setWidth 8 :: acc.1, s)) ([], s)
      let cuts := (Tab.look none s.mem.cuts a).getD ⟨none, []⟩
      let s := s.setTile t { (s.tile t).fromArea silt tail with cuts := cuts.cuts }
      let bits (o : Nat) : W64 := BitVec.ofNat 64 (ofLe ((tail.drop (o - 0x80000)).take 8))
      let s := (s.poisonFrom t (bits 0xC2290) 64 false).poisonFrom t (bits 0xC2298) 32 true
      let x := s.tile t
      if x.sys.vcur.getLsbD 63 then s.finishLong t none (cuts.cutAt.getD (x.sys.tepc &&& ~~~ 63)) x.pc else s
  else s

/-! ### Reset and retirement (R61, R62, R377) -/

/-- The tile reset as one change: engines, far loads, registers, poison and system registers; Silt is zeroed when it ends. Far stores
already issued are still performed, and the releases behind them but `cad.done`, which belongs to the period that ended (R95); an atomic
loses its destination. -/
def Tile.reset (cyc : W64) (x : Tile) : Tile :=
  { silt := x.silt, siltBad := x.siltBad
    st := .reset
    resetting := true
    retireDue := x.retireDue
    sys := { cycleZero := cyc }
    pc := x.pc
    far := (x.far.filter fun f => match f.kind with | .load _ => false | _ => true).map fun f => { f with dest := .none, stale := true }
    farNext := x.farNext
    releases := x.releases.filter fun r => decide (r.what ≠ .cadDone)
    events := x.events }

/-- The requester belongs to a tile. -/
def Requester.ofTile (t : Nat) : Requester → Bool
  | .fetch u => u = t
  | .slot3 u => u = t
  | .engine u _ => u = t
  | _ => false

/-- Ring index of the k-th posted record of a bolt (R159). -/
def State.ringIndex (s : State) (b k : Nat) : BitVec 11 := Tab.look 0 s.mmu.fqGet b + BitVec.ofNat 11 k

/-- What a reset tile had asked of translation is dropped, a record not yet posted among it (log entry 172), and firmware will consume its posted
records without answering them (R166). -/
def State.forgetTile (s : State) (t : Nat) : State :=
  let b := boltOf t
  let posted := Tab.look [] s.mmu.posted b
  let dead := (posted.zipIdx.filter fun p => p.1.who.ofTile t).map fun p => s.ringIndex b p.2
  let m := s.mmu
  { s with mmu := { m with
    walks := Tab.put [] m.walks b ((Tab.look [] m.walks b).filter fun w => !w.who.ofTile t)
    held := Tab.put [] m.held b ((Tab.look [] m.held b).filter fun r => !r.who.ofTile t)
    answered := Tab.put [] m.answered b ((Tab.look [] m.answered b ++ dead).eraseDups) } }

/-- RESET (R61, R366). Ignored in RETIRED. -/
def State.resetTile (s : State) (t : Nat) : State :=
  let x := s.tile t
  if x.st = .retired then s
  else
    -- a save that the reset ends leaves its area undefined (R366)
    let s := if x.saving && x.stopping then
        match s.saveArea t with
        | some a =>
          let (l, s) := s.freeBytes areaBytes
          s.poke a l
        | none => s
      else s
    -- a tile that a save stopped keeps its records: its answer still comes (R166)
    let s := if x.st = .stopped then s else s.forgetTile t
    (s.noStagger t).setTile t (x.reset s.clk.tileCycles)

/-- Zeroing of Silt ends and the tile rests in RESET, or in RETIRED where its retirement was due (R61, R377). TCYCLE counts from
here. -/
def State.endReset (s : State) (t : Nat) : State :=
  let x := s.tile t
  if x.resetting then
    s.setTile t { x with
      silt := [], siltBad := [], resetting := false, retireDue := false
      st := if x.retireDue then .retired else .reset
      sys := { x.sys with cycleZero := s.clk.tileCycles } }
  else s

/-- RETIRE: ignored unless RESET (Table 15-13). -/
def State.retireNow (s : State) (t : Nat) : State :=
  let x := s.tile t
  if x.st = .reset ∧ x.resetting = false ∧ x.restoring = false then s.setTile t { x with st := .retired } else s

/-- SOFT: TIP.SOFT, or its copy in the save area while STOPPED (R162). -/
def State.softTile (s : State) (t : Nat) : State :=
  let x := s.tile t
  if x.st = .stopped then
    match s.saveArea t with
    | some a =>
      let at_ := a + 0xC2400 + 8 * 8
      match s.physRead at_ 1 with
      | .ok l => s.poke at_ [l.getD 0 0 ||| 2]
      | .error _ => s
    | none => s
  else s.setTile t { x with sys := { x.sys with tip := x.sys.tip ||| 2 } }

end Sys2Proof.Machine
end

