-- ==== Sys2Proof/Machine/Handles.lean ====
section
/-!
DEFINITION. Handle slots (R236), the transitions of the module state (R23–R28), and turning fabric queues off and on (R178, R209).
-/

namespace Sys2Proof.Machine

/-! ### Slots (R236) -/

/-- The free slot that follows the most recently allocated one, in cyclic order. -/
def State.freeSlot (s : State) : Option Nat :=
  ((List.range 4096).map fun k => (s.cmd.lastSlot + 1 + k) % 4096).find? fun n => decide ((s.slotOf n).st = .free)

/-- Allocate a slot: its generation rises by one and it is OUTSTANDING. -/
def State.allocSlot (s : State) (n opcode : Nat) (tag : W64) (intr : Bool) (op : Op) (arg : Nat) : State :=
  let x := s.slotOf n
  let s := s.setSlot n { gen := x.gen + 1, st := .outstanding, opcode := BitVec.ofNat 8 opcode, tag := tag, intr := intr
                         gtAccept := s.gtLow, op := op, arg := arg }
  { s with cmd := { s.cmd with lastSlot := n } }

/-- Outstanding slots in the order of their acceptance: the cyclic order that ends at the slot allocated last (log entry 25). -/
def State.outstanding (s : State) : List Nat :=
  let l := (s.cmd.slots.filter fun p => decide (p.2.st = .outstanding)).map (·.1)
  (l.filter fun n => decide (s.cmd.lastSlot < n)) ++ l.filter fun n => decide (n ≤ s.cmd.lastSlot)

/-- Complete every outstanding handle with a status and detail (R28). -/
def State.completeAll (s : State) (status detail : Nat) : State :=
  forAll s.outstanding s fun s n => s.complete n status detail []

/-! ### Module state (R25, R28) -/

/-- States in which the firmware runs. -/
def ModState.firmware : ModState → Bool
  | .boot | .ready | .running | .drain | .faulted => true
  | _ => false

/-- The active cluster runs its firmware (R347, R355). -/
def State.fwRuns (s : State) : Bool :=
  s.top.st.firmware && !s.clm.watchdog && !(if s.activeB then s.clm.deadB else s.clm.deadA)

/-- A transition of the module: STATE, PREV_STATE and CAUSE together, TRANSITIONS up by one (R25). Once the claim watchdog has acted,
TOP_STATE holds its last value (R355). -/
def State.goTo (s : State) (to_ : ModState) (cause : Nat) : State :=
  if s.clm.watchdog then s
  else { s with top := { s.top with
    st := to_, prev := s.top.st, cause := BitVec.ofNat 4 cause, transitions := s.top.transitions + 1 } }

/-- Every mover stops: what it ran and held is gone and no status is written (R182); EN of movers and expanders is 0 until the next
BOOT (R415). -/
def State.stopMovers (s : State) : State :=
  { s with eng := { s.eng with
    mov := Tab.mapAll {} (fun _ (v : Mover) =>
      { v with en := false, drain := false, suspend := false, st := .disabled, run := none, queue := [] }) s.eng.mov
    exp := Tab.mapAll {} (fun _ (v : Expander) =>
      { v with en := false, drain := false, st := if v.st = .unavailable then .unavailable else .disabled }) s.eng.exp } }

/-- The module tells its domain that it is going (R206). -/
def State.announce (s : State) : State :=
  if s.gz.joined then
    s.tell (.departing (Fin.ofNat 64 s.gz.me.toNat))
  else s

/-- The module may still enter FAULTED (Table 1-7). -/
def ModState.canFault : ModState → Bool
  | .boot => true
  | .ready => true
  | .running => true
  | .drain => true
  | _ => false

/-- Entry to FAULTED (R28, R182, R275): every outstanding handle completes ABORTED, movers stop, cadences end without a record. Tiles
and engines do no more work (Table 1-5). -/
def State.enterFaulted (s : State) (cause : Nat) : State :=
  if s.top.st.canFault && !s.clm.watchdog then
    let s := (s.goTo .faulted cause).announce.completeAll 2 cause
    let s := s.stopMovers
    { s with
      cmd := { s.cmd with reports := [] }
      cads := Tab.mapAll {} (fun _ (k : Cad) =>
        { k with en := false, st := .disarmed, armSlot := none, disarmSlots := [], periodSlot := none, armStatus := none }) s.cads
      gz := { s.gz with joining := none, leaving := none } }
  else s

/-- Every rail but CTLA and CTLB powers off (R25, R317), with the HBM stacks. -/
def State.shutRails (s : State) : State :=
  { s with
    top := { s.top with railsOff := true, hbmOff := true }
    pow := { s.pow with rails := s.pow.rails.zipIdx.map fun (p : Rail × Nat) =>
      if p.2 < 11 then
        { p.1 with st := .off, phases := 0, targetNow := 0, sent := [], moving := none, settling := none, nakWait := none, shedSeq := none }
      else p.1 } }

/-- A report of fatal severity, and the transition it causes (R376): CAUSE 0xB for a thermal shutdown, with which the rails go off, 0xD for a
failed rail, else 0xA. -/
def State.fatal (s : State) (kind : BitVec 4) (src : W32) (typ : Nat) (data : List W32) : State :=
  let s := if typ = 0x45 then s.shutRails else s
  (s.report kind src typ none data).enterFaulted (if typ = 0x45 then 0xB else if typ = 0x46 then 0xD else 0xA)

/-- A drain trigger (R25): DRAIN from READY or RUNNING; in DRAIN its cause is added. The first entry disarms every cadence with DRAIN = 1
through `disarm` (R274). -/
def State.addDrain (s : State) (cause : Nat) (disarm : State → State) : State :=
  let add (s : State) : State :=
    if s.top.drainCauses.contains cause then s
    else { s with top := { s.top with drainCauses := s.top.drainCauses ++ [cause] } }
  match s.top.st with
  | .ready => disarm (add (s.goTo .drain cause))
  | .running => disarm (add (s.goTo .drain cause))
  | .drain => add s
  | _ => s

/-! ### Fabric queues (R178, R209) -/

/-- Descriptors posted and not started: the doorbell's count less those started. A queue that no context holds has none. -/
def State.fqWaiting (s : State) (b q : Nat) : Nat :=
  let f := s.fqueue b q
  let d := s.ctr (256 * b + f.doorbell.toNat) - BitVec.ofNat 32 f.started
  if !f.granted || d.getLsbD 31 then 0 else d.toNat

/-- No descriptor is in flight or waiting. -/
def State.fqIdle (s : State) (b q : Nat) : Bool := (s.fqueue b q).flight.isEmpty && s.fqWaiting b q = 0

/-- A descriptor in flight meets an abort: it completes ABORTED at its cursor once its issued accesses have ended. -/
def FabDesc.abort (d : FabDesc) : FabDesc :=
  if d.done || d.verdict.isSome then d else { d with verdict := some (3, 0), done := d.missing = 0 }

/-- Clear EN with the given DRAIN; or turn a drain into an abort (R178, R179). -/
def State.fqOff (s : State) (b q : Nat) (drain : Bool) : State :=
  let f := s.fqueue b q
  if f.en || (f.draining && !drain) then
    let idle := s.fqIdle b q
    s.setFqueue b q { f with
      limit := if f.en then some (f.started + s.fqWaiting b q) else f.limit
      en := false, drain := drain, draining := drain && !idle, aborting := !drain && !idle
      flight := if drain then f.flight else f.flight.map FabDesc.abort }
  else s

/-- Set EN: it stays 0 while the queue drains or aborts (R179). -/
def State.fqOn (s : State) (b q : Nat) : State :=
  let f := s.fqueue b q
  if f.en || f.draining || f.aborting then s else s.setFqueue b q { f with en := true, drain := false, limit := none }

/-- A queue whose last work after an EN clear has completed is DISABLED. -/
def State.fqRest (s : State) (b q : Nat) : State :=
  let f := s.fqueue b q
  if (f.draining || f.aborting) && s.fqIdle b q then s.setFqueue b q { f with draining := false, aborting := false } else s

end Sys2Proof.Machine
end

