-- ==== Sys2Proof/Machine/Cadence.lean ====
section
/-!
DEFINITION. Starting the tiles of a context (R63, R255), and the cadences: period starts, deadlines, expiry, disarming (R261–R275).
-/

namespace Sys2Proof.Machine

/-! ### Writing a context's memory -/

/-- Physical address of a virtual address that a context's pinned pages hold (R148). -/
def State.ctxPhys (s : State) (c va : Nat) : Option Nat :=
  ((s.ctx c).pages.find? fun p => decide (p.1 = alignDown va 65536)).map fun p => p.2 + va % 65536

/-- Firmware writes a 64-bit word of a context. -/
def State.fwWord (s : State) (c va v : Nat) : State :=
  match s.ctxPhys c va with
  | some pa => s.poke pa (toLe 8 v)
  | none => s

/-! ### Starting tiles (R63, R161, R255) -/

/-- Virtual address of the answer slot of a tile (R161). -/
def answerSlot (t : Nat) : Nat := 0x00FF_FFFF_FFFC_0000 + boltOf t * 0x10000 + t % 256 * 0x80

/-- Image groups of a context with their numbers. -/
def Ctx.numbered (x : Ctx) : List (Nat × Group) := x.groups.zipIdx.map fun p => (p.2, p.1)

/-- Tiles of a placed group. -/
def Group.tiles (g : Group) : List Nat := (List.range 16).map fun k => 16 * g.phys + k

/-- The placement record of a group (Table 10-14). -/
def placementRecord (x : Ctx) (c gi : Nat) (g : Group) : List Byte :=
  let at_ (l : List Nat) : Nat := l.getD g.bolt 0
  toLe 1 g.bolt ++ toLe 1 g.phys ++ toLe 1 gi ++ toLe 1 c ++ toLe 1 (at_ x.movBase) ++ toLe 1 (at_ x.movCount)
    ++ toLe 1 (at_ x.fqBase) ++ toLe 1 (at_ x.fqCount) ++ toLe 2 (at_ x.ctrBase) ++ toLe 2 (at_ x.ctrCount)
    ++ List.replicate 36 0

/-- What firmware loads into a tile in RESET before it starts: the SILT_INIT sections of its group, TCTX, TVEC, TSCRATCH, and the
placement record in its answer slot. -/
def State.prepareTile (s : State) (c gi : Nat) (g : Group) (t : Nat) : State :=
  let x := s.ctx c
  let s := s.onTile t fun y =>
    let y := (x.siltInits.filter fun q => decide (q.1 = gi)).foldl (fun (y : Tile) q => y.siltWrite q.2.1 q.2.2) y
    { y with sys := { y.sys with
      tctx := BitVec.ofNat 64 (s.ctxAsid c * 16 + c), tvec := g.tvec &&& ~~~ 0xFFF, tscratch := BitVec.ofNat 64 (answerSlot t) } }
  match Tab.look none x.answer g.bolt with
  | none => s
  | some a => s.poke (a + t % 256 * 0x80 + 0x50) (placementRecord x c gi g)

/-- Prepare and start a tile (R63). -/
def State.launch (s : State) (c gi : Nat) (g : Group) (t : Nat) : State := (s.prepareTile c gi g t).startTile t

/-! ### What belongs to a cadence -/

/-- The declaration of a cadence by the context that its CAD_CTRL names. -/
def State.decl (s : State) (k : Nat) : Option CadDecl :=
  (s.ctx (s.cad k).ctx.toNat).cads.find? fun d => decide (d.number = k)

/-- Its member groups, with their image numbers. -/
def State.cadGroups (s : State) (k : Nat) : List (Nat × Group) :=
  match s.decl k with
  | some d => (s.ctx (s.cad k).ctx.toNat).numbered.filter fun p => d.groups.getLsbD p.1
  | none => []

/-- Its member tiles. -/
def State.cadTiles (s : State) (k : Nat) : List Nat := (s.cadGroups k).flatMap fun p => p.2.tiles

/-- Its fabric queues: those of its context with CAD = 1 that name it. -/
def State.cadQueues (s : State) (k : Nat) : List (Nat × Nat) :=
  let c := (s.cad k).ctx
  ((List.range 64).map fun i => (i / 16, i % 16)).filter fun p =>
    let f := s.fqueue p.1 p.2
    f.granted && decide (f.ctx = c) && f.cad && decide (f.cadence.toNat = k)

/-- Its movers: those its masks name, above the context's base, and the movers bound to its queues (R262). -/
def State.cadMovers (s : State) (k : Nat) : List (Nat × Nat) :=
  match s.decl k with
  | some d =>
    let x := s.ctx (s.cad k).ctx.toNat
    let named := (List.range 4).flatMap fun b =>
      ((List.range 32).filter fun m => (d.movers.getD b 0).getLsbD m).map fun m => (b, x.movBase.getD b 0 + m)
    let bound := (s.cadQueues k).map fun p => (p.1, (s.fqueue p.1 p.2).mover.toNat)
    named ++ bound.filter fun p => !named.contains p
  | none => []

/-- Global time of the start and the deadline of its current period (R265). -/
def State.periodStartGt (s : State) (k : Nat) (d : CadDecl) : Nat := (s.cad k).startGt.toNat + (s.cad k).period * d.period
def State.deadlineGt (s : State) (k : Nat) (d : CadDecl) : Nat := s.periodStartGt k d + d.deadline

/-- A period runs: ACTIVE, or DRAINING toward its deadline (R274). -/
def Cad.runs (c : Cad) : Bool := decide (c.st = .active) || decide (c.st = .draining)

/-- `cad.done` of a tile is performed: its first of the period counts, before the deadline tt (R267). -/
def State.cadDone (s : State) (t : Nat) : State :=
  match s.cads.find? fun p => p.2.runs && (s.cadTiles p.1).contains t with
  | some (k, c) =>
    match s.decl k with
    | some d =>
      if s.clk.gt.toNat < s.deadlineGt k d ∧ c.done.contains t = false then
        s.setCad k { c with done := c.done ++ [t], lastDone := s.gtLow }
      else s
    | none => s
  | none => s

/-! ### Period records (R272) -/

/-- RESULT of the record of period `n` (Table 11-3). -/
def State.periodResult (s : State) (k n : Nat) : List W64 :=
  let c := s.cad k
  let gs := s.cadGroups k
  let bits := gs.foldl (fun a p => if p.2.tiles.all fun t => c.done.contains t then a + 2 ^ p.1 else a) 0
  let epoch := match s.decl k with | some d => if d.bufs = [] then 0 else c.epoch.toNat | none => 0
  [BitVec.ofNat 64 k, BitVec.ofNat 64 n, BitVec.ofNat 64 bits,
    BitVec.ofNat 64 (c.late % 2 ^ 32 * 2 ^ 32 + c.aborted % 65536 * 65536 + c.done.length % 65536),
    BitVec.ofNat 64 (epoch * 2 ^ 32 + c.lastDone.toNat)]

/-- Allocate a period's handle, with HOST_TAG and INTR of the arm; with no slot free the record is lost. -/
def State.periodHandle (s : State) (k : Nat) : State :=
  let c := s.cad k
  let a := match c.armSlot with | some n => s.slotOf n | none => {}
  match s.freeSlot with
  | some n => (s.allocSlot n 0x0D a.tag a.intr .period k).setCad k { c with periodSlot := some n }
  | none => s.setCad k { c with lost := c.lost + 1 }

/-- Complete the record of period `n`: through the handle it has, or through one allocated now where it is an expired period's record
that REPORT asks for. -/
def State.recordPeriod (s : State) (k n status detail : Nat) : State :=
  match s.decl k with
  | none => s
  | some d =>
    let s := if (s.cad k).periodSlot = none ∧ d.report = 1 ∧ status ≠ 0 then s.periodHandle k else s
    let s := s.completeOpt (s.cad k).periodSlot status detail (s.periodResult k n)
    s.setCad k { s.cad k with periodSlot := none }

/-! ### Starts, deadlines, expiry -/

/-- The cadence becomes DISARMED: its arm handle completes, then that of its disarm (R274). -/
def State.disarmed (s : State) (k status : Nat) : State :=
  let c := s.cad k
  let s := s.setCad k { c with en := false, st := .disarmed, armSlot := none, disarmSlots := [], armStatus := none
                               skipped := false }
  let (st, d) := c.armStatus.getD (status, 0)
  forAll c.disarmSlots (s.completeOpt c.armSlot st d []) fun s n => s.complete n 0 0 []

/-- Counters that the cadence clears at each period's end, on every bolt where its context holds counters (R268). -/
def State.clearCounters (s : State) (k : Nat) : State :=
  match s.decl k with
  | none => s
  | some d =>
    let x := s.ctx (s.cad k).ctx.toNat
    forAll (List.range 4) s fun s b =>
      forAll ((List.range d.ctrCount).filter fun i => decide (d.ctrFirst + i < x.ctrCount.getD b 0)) s fun s i =>
        s.setCtr (256 * b + x.ctrBase.getD b 0 + d.ctrFirst + i) 0

/-- The period closes and expires with a DETAIL (R268, R269): tiles are reset, the cadence's movers and queues aborted. -/
def State.expire (s : State) (k detail cause : Nat) : State :=
  let c := s.cad k
  let s := s.setCad k { c with st := .expiring, period := c.period + 1, closed := c.period, detail := detail, expired := c.expired + 1 }
  let s := forAll (s.cadTiles k) s fun s t => s.resetTile t
  let s := forAll (s.cadMovers k) s fun s p => s.moverOff p.1 p.2 false cause
  forAll (s.cadQueues k) s fun s p => s.fqOff p.1 p.2 false

/-- Whether every member tile stands ready in RESET (R265). -/
def State.membersReady (s : State) (k : Nat) : Bool :=
  (s.cadTiles k).all fun t => let x := s.tile t; decide (x.st = .reset) && !x.resetting && !x.restoring

/-- What reached a tile since its reset is cleared, so that it stands as R61 leaves it: pending interrupts and store errors (R265, R273). -/
def State.cleanTile (s : State) (t : Nat) : State :=
  s.onTile t fun x => { x with storeErrs := [], sys := { x.sys with tip := 0 } }

/-- The start tick of a period (R265, R271): the period word, the member tiles, the handle. A period whose cleanup is not finished does
not start. -/
def State.periodStart (s : State) (k : Nat) : State :=
  let c := s.cad k
  match s.decl k with
  | none => s
  | some d =>
    let due := c.en && !c.skipped && (decide (c.st = .waiting) || decide (c.st = .gap) || decide (c.st = .expiring))
      && decide (s.periodStartGt k d ≤ s.clk.gt.toNat)
    if !due then s
    else if decide (c.st ≠ .expiring) && s.membersReady k then
      let s := s.fwWord c.ctx.toNat d.periodVa.toNat c.period
      let s := s.setCad k { c with st := .active, done := [], lastDone := 0, late := 0, aborted := 0, detail := 0 }
      let s := forAll (s.cadTiles k) s fun s t => s.cleanTile t
      let s := forAll (s.cadGroups k) s fun s p => forAll p.2.tiles s fun s t => s.launch c.ctx.toNat p.1 p.2 t
      if d.report = 0 then s.periodHandle k else s
    else
      let s := s.setCad k { c with skipped := true, expired := c.expired + 1 }
      if d.report = 2 then s
      else
        -- the record of the skipped period has no done tiles and no descriptors
        let held := (s.cad k).periodSlot
        let s := s.setCad k { s.cad k with periodSlot := none }
        let s := s.periodHandle k
        let n := (s.cad k).periodSlot
        let s := s.completeOpt n 4 3 [BitVec.ofNat 64 k, BitVec.ofNat 64 c.period, 0, 0,
          BitVec.ofNat 64 (if d.bufs = [] then 0 else c.epoch.toNat * 2 ^ 32)]
        s.setCad k { s.cad k with periodSlot := held }

/-- Every mover and queue of the cadence is IDLE, with nothing queued (R267). -/
def State.cadIdle (s : State) (k : Nat) : Bool :=
  ((s.cadMovers k).all fun p => let m := s.mover p.1 p.2; decide (m.st = .idle) && m.queue.isEmpty && m.run.isNone)
    && (s.cadQueues k).all fun p => s.fqIdle p.1 p.2

/-- The deadline tick (R267–R269). -/
def State.deadline (s : State) (k : Nat) : State :=
  let c := s.cad k
  match s.decl k with
  | none => s
  | some d =>
    if s.clk.gt.toNat < s.deadlineGt k d then s
    else if c.runs then
      let tiles := s.cadTiles k
      let complete := tiles.all (fun t => c.done.contains t) && s.cadIdle k && decide (c.armStatus = none)
      if complete then
        let s := s.setCad k { c with st := .gap, period := c.period + 1 }
        let s := forAll tiles s fun s t => s.resetTile t
        let s := (s.clearCounters k).recordPeriod k c.period 0 0
        if c.en then s else s.disarmed k 3
      else s.expire k 0 1
    else if c.skipped then s.setCad k { c with period := c.period + 1, skipped := false }
    else s

/-- Every store already issued by a member tile and every access of the cadence's movers and queues has ended, and the tiles are reset
(Table 11-2). -/
def State.cleanupDone (s : State) (k : Nat) : Bool :=
  ((s.cadTiles k).all fun t =>
      let x := s.tile t
      x.far.isEmpty && x.releases.isEmpty && !x.resetting && (decide (x.st = .reset) || decide (x.st = .retired)))
    && ((s.cadMovers k).all fun p => let m := s.mover p.1 p.2; m.run.isNone && m.queue.isEmpty)
    && (s.cadQueues k).all fun p => s.fqIdle p.1 p.2

/-- The end of an expiry sequence (R269): epoch words, counters, EN, the period record, and what was waiting for it. -/
def State.expiryCleanup (s : State) (k : Nat) : State :=
  let c := s.cad k
  match s.decl k with
  | none => s
  | some d =>
    if c.st = .expiring ∧ s.cleanupDone k then
      let s := s.setCad k { c with epoch := c.epoch + 1, st := .gap }
      let s := forAll d.bufs s fun s q => s.fwWord c.ctx.toNat q.2.2.toNat (c.epoch + 1).toNat
      let s := s.clearCounters k
      let s := forAll (s.cadQueues k) s fun s p => (s.fqRest p.1 p.2).fqOn p.1 p.2
      let s := forAll (s.cadMovers k) s fun s p => s.moverOn p.1 p.2
      let s := s.recordPeriod k c.closed 4 c.detail
      if c.en then s else s.disarmed k (if c.drain then 3 else 2)
    else s

/-- A period whose deadline tt has come ends by its deadline before a disarm can close it (Table 11-4). -/
def State.deadlineFirst (s : State) (k : Nat) : State := if (s.cad k).runs then s.deadline k else s

/-- Clear EN of a cadence (R274): DRAIN = 1 lets the running period end at its deadline, DRAIN = 0 closes it at once with a DETAIL. -/
def State.cadOff (s : State) (k : Nat) (drain : Bool) (detail cause : Nat) : State :=
  let s := if drain then s else s.deadlineFirst k
  let c := s.cad k
  if c.en || (decide (c.st = .draining) && !drain) || (decide (c.st = .expiring) && !drain && decide (c.armStatus ≠ none)) then
    let c' := { c with en := false, drain := drain }
    match c.st with
    | .disarmed => s.setCad k c'
    | .waiting => (s.setCad k c').disarmed k (if drain then 3 else 2)
    | .gap => (s.setCad k c').disarmed k (if drain then 3 else 2)
    | .expiring => s.setCad k { c' with armStatus := some (if drain then 3 else 2, 0) }
    | _ =>
      if drain then s.setCad k { c' with st := .draining }
      else (s.setCad k { c' with armStatus := some (2, 0) }).expire k detail cause
  else s

/-- A member tile is retired (Table 11-4): the running period expires at its deadline and the arm handle completes FAULT. -/
def State.cadRetired (s : State) (k : Nat) : State :=
  let c := s.cad k
  let c' := { c with en := false, drain := false, armStatus := some (1, 0) }
  match c.st with
  | .disarmed => s
  | .waiting => (s.setCad k c').disarmed k 1
  | .gap => (s.setCad k c').disarmed k 1
  | _ => s.setCad k c'

/-- Cadences armed, or still ending, that a context holds. -/
def State.cadsOf (s : State) (c : Nat) : List Nat :=
  (s.cads.filter fun p => decide (p.2.st ≠ .disarmed) && decide (p.2.ctx.toNat = c)).map (·.1)

/-- Disarm every cadence with DRAIN = 1, as the entry to DRAIN does (R274). -/
def State.drainCadences (s : State) : State := forAll (List.range 64) s fun s k => s.cadOff k true 1 1

end Sys2Proof.Machine
end

