-- ==== Sys2Proof/Machine/Contexts.lean ====
section
/-!
DEFINITION. The life of a context (R243, R255–R260): its end, its reset, its stop and unload, its save and restore; what a retirement does
to it (R146, R377); and the check that finishes whatever waited (`settle`).
-/

namespace Sys2Proof.Machine

/-! ### What a context holds -/

def Ctx.tiles (x : Ctx) : List Nat := x.groups.flatMap Group.tiles

/-- A group belongs to a declared cadence, so START does not start it (R263). -/
def Ctx.memberGroup (x : Ctx) (gi : Nat) : Bool := x.cads.any fun d => d.groups.getLsbD gi

/-- Groups that START starts. -/
def Ctx.startGroups (x : Ctx) : List (Nat × Group) := x.numbered.filter fun p => !x.memberGroup p.1

def runOf (base count : List Nat) (b : Nat) : List Nat := (List.range (count.getD b 0)).map fun k => base.getD b 0 + k

/-- Its movers and fabric queues, as bolt and number (R248). -/
def Ctx.movers (x : Ctx) : List (Nat × Nat) :=
  (List.range 4).flatMap fun b => (runOf x.movBase x.movCount b).map fun m => (b, m)
def Ctx.queues (x : Ctx) : List (Nat × Nat) :=
  (List.range 4).flatMap fun b => (runOf x.fqBase x.fqCount b).map fun q => (b, q)

/-- A context is started (Table 1-5): RUNNING, or SAVED with the rest of its run to come. -/
def Ctx.started (x : Ctx) : Bool := decide (x.st = .running) || decide (x.st = .saved)

/-! ### Freeing memory and translations -/

/-- The page holds bytes of the module's own stores. -/
def ownPage (pa : Nat) : Bool := match targetOf pa with | .hbm _ => true | .loam _ => true | _ => false

/-- Fill a freed 64 KiB page with zeros (R243). -/
def State.zeroPage (s : State) (pa : Nat) : State :=
  if ownPage pa then
    let out (k : Nat) : Bool := decide (k < pa) || decide (pa + 65536 ≤ k)
    { s with
      mem := { s.mem with phys := s.mem.phys.filter fun p => out p.1, bad := s.mem.bad.filter fun p => out p.1 }
      cmd := { s.cmd with hostHeld := s.cmd.hostHeld.filter fun p => out (p.1 * 128) } }
  else s

/-- Invalidate an ASID in every TLB and walk cache (R154, R166). -/
def State.dropAsid (s : State) (asid : BitVec 12) : State :=
  { s with mmu := { s.mmu with
    tlbs := Tab.mapAll [] (fun _ (l : List TlbEntry) => l.filter fun e => decide (e.asid ≠ asid)) s.mmu.tlbs
    wcache := Tab.mapAll [] (fun _ (l : List (BitVec 12 × Nat × Nat × Nat)) => l.filter fun e => decide (e.1 ≠ asid))
      s.mmu.wcache } }

/-- Pages that a context holds: mapped, pool, filled and answer pages. -/
def State.ctxPages (s : State) (c : Nat) : List Nat :=
  let x := s.ctx c
  x.pages.map (·.2) ++ x.pool.map (·.2) ++ (s.mmu.filled.filter fun f => decide (f.ctx = c)).map (·.page)
    ++ (s.mmu.fills.filter fun f => decide (f.ctx = c)).map (·.page) ++ x.answer.filterMap (·.2)

/-- Withdraw the grants of a context's movers, queues, counters, tables and exports (R256). -/
def State.dropGrants (s : State) (c : Nat) : State :=
  let x := s.ctx c
  let s := forAll x.movers s fun s p =>
    s.setMover p.1 p.2 { s.mover p.1 p.2 with granted := false, ctx := 0, suspend := false }
  let s := forAll x.movers s fun s p => s.moverOn p.1 p.2
  let s := forAll x.queues s fun s p => s.setFqueue p.1 p.2 {}
  let s := forAll x.tables s fun s t => forAll (List.range 4) s fun s b => s.setTable b t none
  let pages := s.ctxPages c
  { s with
    eng := { s.eng with ctrGrant := s.eng.ctrGrant.filter fun p => decide (p.2 ≠ some c) }
    gz := { s.gz with
      exports := s.gz.exports.filter fun e => decide (e.ctx ≠ c)
      exportMap := s.gz.exportMap.filter fun p => !pages.contains (p.1 * 65536) } }

/-- Unload a context (R243): invalidate its ASID, free and zero its pages, and give back everything it holds. -/
def State.unload (s : State) (c : Nat) : State :=
  let asid := BitVec.ofNat 12 (s.ctxAsid c)
  let s := s.dropWork fun w => match w with
    | .load k => decide (k = c)
    | .fill k _ => decide (k = c)
    | _ => false
  let pages := s.ctxPages c
  let s := ((forAll pages s fun s p => s.zeroPage p).dropGrants c).dropAsid asid
  let mine (r : FaultRecord) : Bool := decide (r.ctx = c)
  let s := { s with mmu := { s.mmu with
    ctx := Tab.put 0 s.mmu.ctx c 0
    root := (List.range 4).foldl (fun r b => Tab.put 0 r (16 * b + c) 0) s.mmu.root
    held := Tab.mapAll [] (fun _ (l : List FaultRecord) => l.filter fun r => !mine r) s.mmu.held
    walks := Tab.mapAll [] (fun _ (l : List Walk) => l.filter fun w => decide (w.ctx ≠ c)) s.mmu.walks
    fills := s.mmu.fills.filter fun f => decide (f.ctx ≠ c)
    filled := s.mmu.filled.filter fun f => decide (f.ctx ≠ c) } }
  s.setCtx c {}

/-! ### The end of a run -/

/-- READY once no context is started and no cadence is armed (Table 1-7, CAUSE 5). -/
def State.maybeReady (s : State) : State :=
  if s.top.st = .running ∧ s.ctxs.all (fun p => !p.2.started) ∧ s.cads.all (fun p => decide (p.2.st = .disarmed)) then
    s.goTo .ready 5
  else s

/-- READY becomes RUNNING with the first START or CADENCE_ARM (Table 1-7, CAUSE 4). -/
def State.nowRunning (s : State) : State := if s.top.st = .ready then s.goTo .running 4 else s

/-- Tiles of groups that START starts. -/
def Ctx.startTiles (x : Ctx) : List Nat := x.startGroups.flatMap fun p => p.2.tiles

/-- Firmware's own movers still copy or fill for a context: a command on it, or a page, that came before (R166, R230). -/
def State.fwBusy (s : State) (c : Nat) : Bool :=
  s.eng.mov.any fun p => (p.2.queue ++ (p.2.run.map (·.entry)).toList).any fun e => decide (e.ctx = c) && match e.work with
    | .command _ => true
    | .fill _ _ => true
    | _ => false

/-- Every tile of the context rests, and its movers, queues and cadences have nothing left (R230, R243). -/
def State.ctxQuiet (s : State) (c : Nat) : Bool :=
  let x := s.ctx c
  (x.released || x.tiles.all fun t =>
      let y := s.tile t; !y.resetting && (decide (y.st = .reset) || decide (y.st = .retired)))
    && (x.movers.all fun p => let m := s.mover p.1 p.2; m.run.isNone && m.queue.isEmpty)
    && (x.queues.all fun p => s.fqIdle p.1 p.2)
    && (s.cadsOf c).isEmpty && !s.fwBusy c

/-- Reset the tiles of a context and abort its movers and queues with a CAUSE (R182, R283). A suspended mover meets the clear as its SUSPEND
clears. -/
def State.resetCtx (s : State) (c cause : Nat) : State :=
  let x := s.ctx c
  let s := if x.released then s else forAll x.tiles s fun s t => s.resetTile t
  let s := forAll x.movers s fun s p => (s.moverOff p.1 p.2 false cause).moverResume p.1 p.2
  forAll x.queues s fun s p => s.fqOff p.1 p.2 false

/-- Begin a stop (R243): cadences close with DETAIL 2, tiles are reset, movers aborted with CAUSE 2. -/
def State.beginStop (s : State) (c : Nat) : State :=
  let s := s.setCtx c { s.ctx c with stopping := true, stopDue := false }
  let s := forAll (s.cadsOf c) s fun s k => s.cadOff k false 2 2
  s.resetCtx c 2

/-- The stop is complete: START completes ABORTED with the CAUSE of its movers in DETAIL (log entry 187), the context unloads, STOP completes OK
(R233, R243). -/
def State.finishStop (s : State) (c : Nat) : State :=
  let x := s.ctx c
  let s := s.completeOpt x.startSlot 2 2 []
  (s.unload c).completeOpt x.stopSlot 0 0 []

/-- A context reset begins (R146, R163, R377): CAUSE 3. A refusal disarms the context's cadences at once; a retirement has dealt with them
already. -/
def State.beginEnding (s : State) (c : Nat) : State :=
  let x := s.ctx c
  let s := s.setCtx c { x with ending := x.due, due := none }
  let s := forAll (s.cadsOf c) s fun s k => if (s.cad k).armStatus = none then s.cadOff k false 2 3 else s
  s.resetCtx c 3

/-- The context reset is complete: START completes FAULT with the record, the context is LOADED, and EN is set again (R182). -/
def State.finishEnding (s : State) (c : Nat) (result : List W64) : State :=
  let x := s.ctx c
  let s := s.setCtx c { x with st := .loaded, ending := none, refusal := none, startSlot := none }
  let s := forAll x.movers s fun s p => s.moverOn p.1 p.2
  let s := forAll x.queues s fun s p => (s.fqRest p.1 p.2).fqOn p.1 p.2
  s.completeOpt x.startSlot 1 0 result

/-- Every tile that START started is HALTED (R230): START completes OK. -/
def State.runEnded (s : State) (c : Nat) : Bool :=
  let x := s.ctx c
  x.startTiles.all fun t => decide ((s.tile t).st = .halted)

/-- A context with no run of its own and no armed cadence is LOADED again (R243, R274). -/
def State.endRun' (s : State) (c : Nat) : State :=
  let x := s.ctx c
  let s := if x.startSlot.isSome && s.runEnded c then
      (s.setCtx c { x with startSlot := none }).completeOpt x.startSlot 0 0 [] else s
  let x := s.ctx c
  if x.startSlot.isNone && (s.cadsOf c).isEmpty then s.setCtx c { x with st := .loaded } else s

/-! ### Save and restore (R257–R260) -/

/-- A save region of the context on a bolt, if its plan declares one (R259). -/
def Ctx.saveRegion (x : Ctx) (b : Nat) : Option Region := x.regions.find? fun r => decide (r.kind = 6) && decide (r.bolt = b)

/-- It declares one on each bolt where it has groups. -/
def Ctx.releases (x : Ctx) : Bool := x.groups ≠ [] && x.groups.all fun g => (x.saveRegion g.bolt).isSome

/-- Where the area of each tile lies in its bolt's save region: tile, virtual address; groups in image order, 16 tiles each. -/
def Ctx.savedAreas (x : Ctx) : List (Nat × Nat) :=
  (List.range 4).flatMap fun b =>
    match x.saveRegion b with
    | some r => (((x.groups.filter fun g => decide (g.bolt = b)).flatMap Group.tiles).zipIdx).map fun p => (p.1, r.va + p.2 * areaBytes)
    | none => []

/-- Copy a tile's area between the reserve and the save region, 4 KiB at a time. -/
def State.copyArea (s : State) (c t va : Nat) (out : Bool) : State :=
  match s.saveArea t with
  | none => s
  | some a =>
    forAll (List.range (areaBytes / 4096)) s fun s j =>
      match s.ctxPhys c (va + 4096 * j) with
      | none => s
      | some pa =>
        let (src, dst) := if out then (a + 4096 * j, pa) else (pa, a + 4096 * j)
        let (_, l, s) := s.readFlags src 4096 30 (.data [])
        let s := (s.writeFlags dst l (.data [])).2
        if j = 0 then { s with mem := { s.mem with cuts := Tab.put none s.mem.cuts dst (Tab.look none s.mem.cuts src) } } else s

/-- The save has nothing left to wait for: every tile that ran is STOPPED, movers are suspended or at rest, queues have drained. -/
def State.saveDone (s : State) (c : Nat) : Bool :=
  let x := s.ctx c
  (x.saved.all fun t => decide ((s.tile t).st = .stopped))
    && (x.movers.all fun p =>
      let m := s.mover p.1 p.2; decide (m.st = .suspended) || decide (m.st = .paused) || decide (m.st = .disabled))
    && x.queues.all fun p => s.fqIdle p.1 p.2

/-- The time since a slot's acceptance in tt, 32 bits (R239). -/
def State.duration (s : State) (n : Nat) : W64 := (s.gtLow - (s.slotOf n).gtAccept).setWidth 64

/-- The save is complete (R257 steps 3 and 4, R259). -/
def State.finishSave (s : State) (c n : Nat) : State :=
  let x := s.ctx c
  let s := forAll (x.savedAreas.filter fun p => x.saved.contains p.1) s fun s p => s.copyArea c p.1 p.2 true
  let s := forAll x.queues s fun s p => s.fqRest p.1 p.2
  let s := if x.releases then forAll x.tiles s fun s t => s.resetTile t else s
  let s := s.setCtx c { s.ctx c with st := .saved, saveSlot := none, released := x.releases }
  s.complete n (if (s.slotOf n).cancelled then 2 else 0) 0 [s.duration n]

/-- Every saved tile runs again: SUSPEND is cleared and EN set on the queues (R258). -/
def State.finishRestore (s : State) (c n : Nat) : State :=
  let x := s.ctx c
  let s := forAll x.movers s fun s p => s.moverResume p.1 p.2
  let s := forAll x.queues s fun s p => s.fqOn p.1 p.2
  let s := s.setCtx c { s.ctx c with st := .running, saveSlot := none, saved := [] }
  s.complete n 0 0 [s.duration n]

/-! ### What waits to finish -/

/-- Finish what waits on one context, if nothing it waits for is left. -/
def State.checkCtx (s : State) (c : Nat) : State :=
  let x := s.ctx c
  match x.saveSlot with
  | some n =>
    if (s.slotOf n).op = .save then (if s.saveDone c then s.finishSave c n else s)
    else if x.saved.all fun t => decide ((s.tile t).st = .running) && !(s.tile t).restoring then s.finishRestore c n
    else s
  | none =>
    if x.stopping then (if s.ctxQuiet c then s.finishStop c else s)
    else match x.ending with
      | some r => if s.ctxQuiet c then s.finishEnding c r else s
      | none =>
        if x.stopDue then s.beginStop c
        else if x.st = .running then
          if x.due.isSome then s.beginEnding c else s.endRun' c
        else s

/-- Finish what waits on every context; then the module may be READY. -/
def State.checkAll (s : State) : State :=
  (forAll (List.range 32) s fun s k => s.checkCtx (k % 16)).maybeReady

/-! ### Retirements under a context -/

/-- A context that has a page on the stack. -/
def State.hasPageOn (s : State) (c n : Nat) : Bool :=
  (s.ctxPages c).any fun p => decide (targetOf p = .hbm n)

/-- What a new row of the retirement list does to contexts and cadences: a stack ends every started context with a page on it, and the loss of
a reserve is fatal (R146); a tile ends the started context that holds it, or is reset where none does (R377). -/
def State.onRetired (s : State) (r : Retired) : State :=
  if r.kind = 3 then
    let s := forAll (List.range 16) s fun s c =>
      if (s.ctx c).started && s.hasPageOn c r.id && (s.ctx c).due.isNone then
        s.setCtx c { s.ctx c with due := some [0, 0, 0, BitVec.ofNat 64 (r.id * stackBytes)] }
      else s
    let lower := (List.range (r.id % 6)).any fun k => s.stackUp (r.id / 6 * 6 + k)
    if lower then s else s.fatal 5 (BitVec.ofNat 32 r.id) 0x40 [BitVec.ofNat 32 (r.id / 6)]
  else if r.kind = 2 then
    let s := forAll (List.range 64) s fun s k => if (s.cadTiles k).contains r.id then s.cadRetired k else s
    match (List.range 16).find? fun c => (s.ctx c).tiles.contains r.id && !(s.ctx c).released with
    | some c =>
      let x := s.ctx c
      if x.started && x.due.isNone then s.setCtx c { x with due := some [] } else s
    | none => if (s.tile r.id).resetting then s else s.resetTile r.id
  else s

/-- After a command: what its retirements bring about. Where nothing was retired the state is as the command left it. -/
def settle (before after : State) : State :=
  match after.err.retired.drop before.err.retired.length with
  | [] => after
  | l => (l.foldl State.onRetired after).checkAll

/-- After a command of a tile: its retirements, and the end of a run where the tile has become HALTED (R230). -/
def settleTile (t : Nat) (before after : State) : State :=
  let s := settle before after
  if (s.tile t).st = .halted ∧ (before.tile t).st ≠ .halted then s.checkAll else s

end Sys2Proof.Machine
end

