-- ==== Sys2Proof/Machine/Issue.lean ====
section
/-!
DEFINITION. What every syllable command does (R32): its bundle reaches the tile's boundary.
-/

namespace Sys2Proof.Machine

/-- The bundle of a syllable command reaches its tile's boundary; then what a retirement or a halt brings about. -/
def State.syllable (s : State) (i : Issue) (kind op : Nat) (f : BitVec 48) : State :=
  settleTile i.tile s (s.issue i.tile (bundleOf i (Sys2Proof.Machine.syllable kind op i.guard f)) i.stopAt)

end Sys2Proof.Machine
end

