-- ==== Sys2Proof/Machine/MatrixFamily.lean ====
section
/-!
DEFINITION. The matrix instructions (Table 3-11), the units of an engine (R114) and the streaming operand (R116–R118).
-/

namespace Sys2Proof.Machine

/-! ### The streaming operand -/

/-- A range of bytes cut at 64 KiB boundaries. -/
def pageCuts : Nat → Nat → Nat → List (Nat × Nat)
  | 0, _, _ => []
  | fuel + 1, va, n =>
    if n = 0 then []
    else
      let k := min n (65536 - va % 65536)
      (va, k) :: pageCuts fuel (va + k) (n - k)

/-- The next block an engine fetches: the one after those it has, at most four ahead of the unit in progress (R116). -/
def Engine.nextBlock (e : Engine) : Nat := e.blocks.foldl (fun m b => max m (b.index + 1)) e.units

/-- Fetch the pieces of a block: all of it, or none where a piece is lost; or the state in which a piece could not be translated. -/
def State.streamPieces (s : State) (t n u : Nat) (x : Answer) :
    List (Nat × Nat) → Option (List Byte) → Except State (Option (List Byte) × State)
  | [], acc => .ok (acc, s)
  | (va, k) :: rest, acc =>
    let y := s.tile t
    let who : Requester := .engine t n
    match s.translate who y.ctxNo y.asid va .stream false with
    | .miss => .error (s.queueWalk { who := who, ctx := y.ctxNo, va := BitVec.ofNat 64 va, acc := .stream, sup := false })
    | .fault f =>
      let at_ : W64 := BitVec.ofNat 64 (alignDown va 64)
      let s := (s.touch who y.asid va).holdRecord who y.ctxNo .stream at_ f 0
      let e := y.engine n
      .error (s.setTile t ((y.setEngine n { e with ahead := some (u, at_, trapCode f.kind) }).engineBoundary n))
    | .hit pa =>
      let (g, s) := (s.touch who y.asid va).readAt pa k x (4096 + 4 * t + n)
      let s := match targetEvent pa with | some ev => s.onTile t fun z => z.count ev k | none => s
      match g with
      | .data l => s.streamPieces t n u x rest (acc.map (· ++ l))
      | .wait => .error s
      | g => (s.reportGot g 0 t).streamPieces t n u x rest none

/-- The next block of an engine's streaming operand arrives, is lost, or meets a fault that stops the engine at the boundary before its
unit (R116–R118). -/
def State.streamArrival (s : State) (t n : Nat) (x : Answer) : State :=
  let y := s.tile t
  let e := y.engine n
  let u := e.nextBlock
  if e.running && e.valid && xSTR e.msyl && decide (e.stage = 0) && e.ahead.isNone && !y.stopping && decide (u < mKB e.mopa)
      && decide (u ≤ e.units + 4) && decide (s.top.st ≠ .faulted) then
    let size := blockBytes (xFB e.msyl)
    match s.streamPieces t n u x (pageCuts 3 (mBVa e.mopb + u * size) size) (some []) with
    | .error s => s
    | .ok (l, s) =>
      s.onTile t fun y => y.setEngine n { y.engine n with blocks := (y.engine n).blocks ++ [{ index := u, bytes := l }] }
  else s

/-! ### The commands -/

/-- `mmac` (R87). -/
def execMmac (i : Issue) (f : BitVec 48) (s : State) : Out := .next (s.syllable i 6 (0x01) f)
/-- `mout` (R109). -/
def execMout (i : Issue) (f : BitVec 48) (s : State) : Out := .next (s.syllable i 6 (0x02) f)
/-- `mzero` (R88). -/
def execMzero (i : Issue) (f : BitVec 48) (s : State) : Out := .next (s.syllable i 6 (0x10) f)
/-- `mrd` (R88). -/
def execMrd (i : Issue) (f : BitVec 48) (s : State) : Out := .next (s.syllable i 6 (0x11) f)
/-- `mwr` (R88). -/
def execMwr (i : Issue) (f : BitVec 48) (s : State) : Out := .next (s.syllable i 6 (0x12) f)
/-- `mst` (R88). -/
def execMst (i : Issue) (f : BitVec 48) (s : State) : Out := .next (s.syllable i 6 (0x13) f)
/-- `mld` (R88). -/
def execMld (i : Issue) (f : BitVec 48) (s : State) : Out := .next (s.syllable i 6 (0x14) f)
/-- `mwait` (R88). -/
def execMwait (i : Issue) (f : BitVec 48) (s : State) : Out := .next (s.syllable i 6 (0x20) f)
/-- `mresume` (R55). -/
def execMresume (i : Issue) (f : BitVec 48) (s : State) : Out := .next (s.syllable i 6 (0x21) f)
/-- `mabort` (R55). -/
def execMabort (i : Issue) (f : BitVec 48) (s : State) : Out := .next (s.syllable i 6 (0x22) f)
/-- A unit of an engine completes (R114). -/
def execMatrixUnitComplete (t : Fin 1024) (e : Fin 4) (s : State) : Out := .next (settle s (s.matrixUnit t e))
/-- A block of a streaming operand arrives (R116). -/
def execStreamBlockArrival (t : Fin 1024) (e : Fin 4) (x : Answer) (s : State) : Out := .next (settle s (s.streamArrival t e x))

end Sys2Proof.Machine
end

