-- ==== Sys2Proof/Machine/StreamFamily.lean ====
section
/-!
DEFINITION. The stream and sync instructions (Table 3-12), their releases (R92), the timer (R46), trap entry between bundles (R49, R50),
and the actions of TILE_CTRL with their ends (R57–R63, R365, R366).
-/

namespace Sys2Proof.Machine

/-! ### Releases (R92–R95) -/

/-- A release of the tile takes place once every far access before it has ended (R92, R138). -/
def State.performRelease (s : State) (t n : Nat) : State :=
  let x := s.tile t
  match x.releases[n]? with
  | none => s
  | some r =>
    if x.far.any fun f => decide (f.id < r.before) then s
    else
      let s := s.setTile t { x with releases := x.releases.eraseIdx n }
      match r.what with
      | .barArv ctr inc => s.bumpCtr ctr inc
      | .cadDone => s.cadDone t
      | .mvq m e va =>
        let b := boltOf t
        let v := s.mover b m
        s.setMover b m { v with queue := v.queue.map fun q => if q.num = e then { q with released := true, va := va } else q }

/-! ### Trap entry between bundles -/

/-- Take an interrupt if one is to be taken (R49). -/
def State.interruptOr (s : State) (t : Nat) (otherwise : State) : State :=
  match interruptTrap s.clk.gt (s.tile t) with
  | some k => s.takeInterrupt t k
  | none => otherwise

/-- FETCH_FAULT at the program counter with a SUBCODE (R40, R410). -/
def State.fetchFaultTrap (s : State) (t : Nat) (sub : BitVec 8) : State :=
  let x := s.tile t
  s.trapEntry t { interrupt := false, code := 1, sub := sub, engine := 0, slot := 0, epc := x.pc, val := x.pc }

/-- What the boundary before the next bundle comes to where the fetch translation decides it: a fault, or a walk to be made. -/
def State.fetchTranslate (s : State) (t : Nat) (hit : Nat → State → State) : State :=
  let x := s.tile t
  if x.fetchFault.isSome then s.fetchFaultTrap t 0
  else match s.translate (.fetch t) x.ctxNo x.asid x.pc.toNat .fetch x.supervisor with
    | .hit pa => hit pa (s.touch (.fetch t) x.asid x.pc.toNat)
    | .fault f => ((s.touch (.fetch t) x.asid x.pc.toNat).holdRecord (.fetch t) x.ctxNo .fetch x.pc f 0).fetchFaultTrap t 0
    | .miss =>
      s.interruptOr t (s.queueWalk { who := .fetch t, ctx := x.ctxNo, va := x.pc, acc := .fetch, sup := x.supervisor })

/-- An uncorrectable error in code goes to the collector as one of the store that holds it (R410). -/
def State.codeLost (s : State) (t pa : Nat) : State :=
  match targetOf pa with
  | .hbm _ => s.reportMem (.hbm pa) 0 t
  | .loam _ => s.reportMem (.loam pa) 0 t
  | .silt u off => s.reportMem (.silt u off) 0 t
  | .window m off => s.reportGot (if s.ownWindow m then .ecc (.hbm off) else .remoteEcc pa) 0 t
  | .host _ => s.reportGot (.remoteEcc pa) 0 t
  | _ => s

/-- The trap that is due at the boundary is taken; no bundle executes but one of `sys` or `brk`, which ends in its trap (R49, R50, R410). At
the element boundary of a long instruction only an interrupt is (R54). -/
def State.trapNow (s : State) (t : Nat) (f : Fetch) : State :=
  let x := s.tile t
  if !x.issues || decide (s.top.st = .faulted) then s
  else if x.longStop then s.interruptOr t s
  else match engineTrap x with
    | some k => s.trapEntry t k
    | none =>
      match f with
      | .bundle ws => s.boundary t ws none false
      | .none => if x.held s.clk.gt t then s.interruptOr t s else s.fetchTranslate t fun _ s => s.interruptOr t s
      | .uncorrectable =>
        if x.held s.clk.gt t then s else s.fetchTranslate t fun pa s => (s.codeLost t pa).fetchFaultTrap t 0x20

/-- TGT has reached TTIMER: TIP.TIMER reads one, and a `wfi` that waits for it ends (R46, R71). -/
def State.timerMatch (s : State) (t : Nat) : State :=
  let x := s.tile t
  if x.sys.ttimer ≤ s.clk.gt ∧ x.hold = .wfi ∧ tipNow s.clk.gt x &&& x.sys.tie ≠ 0 then s.setTile t { x with hold := .none }
  else s

/-! ### Secure registers (R358) -/

/-- A write to a secure register: on a non-secure path it has no effect and is counted. -/
def State.secured (s : State) (p : Path) (f : State → State) : State :=
  s.via p fun s =>
  if pathSecure p then f s
  else { s with clm := { s.clm with secureDenied := s.clm.secureDenied + 1 } }

/-- A write to a claimed output: beyond R358, only the cluster whose claim is the higher drives it; any other write has no effect and is
counted (R349). -/
def State.claimed (s : State) (p : Path) (f : State → State) : State :=
  s.secured p fun s =>
    if s.mayDrive p then f s
    else { s with clm := { s.clm with outputRefused := s.clm.outputRefused + 1 } }

/-! ### The commands -/

/-- `mvq` (R93). -/
def execMvq (i : Issue) (f : BitVec 48) (s : State) : Out := .next (s.syllable i 7 (0x01) f)
/-- `bar.arv` (R90). -/
def execBarArv (i : Issue) (f : BitVec 48) (s : State) : Out := .next (s.syllable i 7 (0x10) f)
/-- `bar.wt` (R94). -/
def execBarWt (i : Issue) (f : BitVec 48) (s : State) : Out := .next (s.syllable i 7 (0x11) f)
/-- `bar.arm` (R94). -/
def execBarArm (i : Issue) (f : BitVec 48) (s : State) : Out := .next (s.syllable i 7 (0x12) f)
/-- `bar.rd` (R90). -/
def execBarRd (i : Issue) (f : BitVec 48) (s : State) : Out := .next (s.syllable i 7 (0x13) f)
/-- `cad.done` (R95). -/
def execCadDone (i : Issue) (f : BitVec 48) (s : State) : Out := .next (s.syllable i 7 (0x20) f)
/-- A release takes place (R92). -/
def execReleasePerformed (t : Fin 1024) (n : Nat) (s : State) : Out := .next (s.performRelease t n)
/-- The tile timer matches (R46). -/
def execTimerMatch (t : Fin 1024) (s : State) : Out := .next (s.timerMatch t)
/-- A trap is taken at a bundle boundary (R50). -/
def execTrapEntry (t : Fin 1024) (fetch : Fetch) (s : State) : Out := .next (settleTile t s (s.trapNow t fetch))
/-- TILE_CTRL.STOP (R57). -/
def execTileStop (t : Fin 1024) (p : Path) (s : State) : Out := .next (s.secured p fun s => s.stopTile t)
/-- The save sequencer writes the save area (R58). -/
def execSaveSequence (t : Fin 1024) (s : State) : Out := .next (settle s (s.saveTile t))
/-- The save ends (R57). -/
def execSaveComplete (t : Fin 1024) (s : State) : Out := .next ((s.endSave t).checkAll)
/-- TILE_CTRL.START (R63). -/
def execTileStart (t : Fin 1024) (p : Path) (s : State) : Out := .next (s.secured p fun s => s.startTile t)
/-- TILE_CTRL.RESET (R61). -/
def execTileReset (t : Fin 1024) (p : Path) (s : State) : Out := .next (s.secured p fun s => s.resetTile t)
/-- A tile reset ends (R61, R377). -/
def execTileResetDone (t : Fin 1024) (s : State) : Out := .next ((s.endReset t).checkAll)
/-- TILE_CTRL.RESTORE (R59). -/
def execTileRestore (t : Fin 1024) (p : Path) (s : State) : Out := .next (s.secured p fun s => s.restoreTile t)
/-- A restore ends (R59). -/
def execRestoreComplete (t : Fin 1024) (s : State) : Out := .next ((settle s (s.endRestore t)).checkAll)
/-- TILE_CTRL.SOFT (R162). -/
def execTileSoft (t : Fin 1024) (p : Path) (s : State) : Out := .next (s.secured p fun s => s.softTile t)
/-- TILE_CTRL.RETIRE (R60). -/
def execTileRetire (t : Fin 1024) (p : Path) (s : State) : Out := .next (s.secured p fun s => s.retireNow t)

end Sys2Proof.Machine
end

