-- ==== Sys2Proof/Machine/Tables.lean ====
section
/-!
DEFINITION. The page tables that firmware keeps of a context (R148–R150): their places in each bolt's reserve, their entries from
firmware's mapping record, and the repair of an entry (Table 6-13). Where in the reserve a table stands, and that every leaf is of
64 KiB, are DESIGN CHOICES (log entry 26).
-/

namespace Sys2Proof.Machine

/-- Distinct prefixes of the mapped pages at a level, in the order of the mapping record. -/
def Ctx.prefixes (x : Ctx) (level : Nat) : List Nat := (x.map.map fun p => p.1 / 2 ^ levelShift level).eraseDups

/-- Offset in the reserve of the table of a level that covers an address: L0, then the L1, L2, L3 and L4 tables. -/
def Ctx.tableOff (x : Ctx) (level va : Nat) : Nat :=
  if level = 0 then x.tabBase
  else
    let before := 1 + ((List.range (level - 1)).map fun k => (x.prefixes k).length).foldl (· + ·) 0
    let i := (x.prefixes (level - 1)).findIdx fun p => decide (p = va / 2 ^ levelShift (level - 1))
    x.tabBase + 4096 * before + (if level = 4 then 256 else 4096) * i

/-- Bytes of all its tables, in whole 4 KiB. -/
def Ctx.tableBytes (x : Ctx) : Nat :=
  4096 * (1 + (x.prefixes 0).length + (x.prefixes 1).length + (x.prefixes 2).length) + ((x.prefixes 3).length * 256 + 4095) / 4096 * 4096

/-- Every entry of the copy in a reserve that starts at `base`: offset in the reserve, word. -/
def Ctx.entries (x : Ctx) (base : Nat) : List (Nat × W64) :=
  let pointer (off : Nat) : W64 := BitVec.ofNat 64 (base + off + 1)
  [(x.tabBase + 8 * 256, pointer subtreeAt)]
    ++ ((List.range 4).flatMap fun k => (x.prefixes k).map fun p =>
      let va := p * 2 ^ levelShift k
      (x.tableOff k va + 8 * levelIndex k va, pointer (x.tableOff (k + 1) va)))
    ++ x.map.map fun p => (x.tableOff 4 p.1 + 8 * levelIndex 4 p.1, p.2)

/-- Make a range of the module's stores read as zero, with no mark. -/
def State.wipe (s : State) (a n : Nat) : State :=
  let out (k : Nat) : Bool := decide (k < a) || decide (a + n ≤ k)
  { s with mem := { s.mem with phys := s.mem.phys.filter fun p => out p.1, bad := s.mem.bad.filter fun p => out p.1 } }

/-- Write the four copies of a context's tables and its four roots (R148, Table 6-2). -/
def State.writeTables (s : State) (c : Nat) : State :=
  let x := s.ctx c
  forAll (List.range 4) s fun s b =>
    match s.reserve b with
    | none => s
    | some r =>
      let s := forAll (x.entries r) (s.wipe (r + x.tabBase) x.tableBytes) fun s p => s.poke (r + p.1) (toLe 8 p.2.toNat)
      { s with mmu := { s.mmu with root := Tab.put 0 s.mmu.root (16 * b + c) (BitVec.ofNat 32 ((r + x.tabBase) / 4096)) } }

/-- Change the leaf of a page in the record and in the four copies. -/
def State.setLeaf (s : State) (c va : Nat) (e : W64) : State :=
  let x := s.ctx c
  let x := { x with map := x.map.map fun p => if p.1 = va then (va, e) else p }
  forAll (List.range 4) (s.setCtx c x) fun s b =>
    match s.reserve b with
    | some r => s.poke (r + x.tableOff 4 va + 8 * levelIndex 4 va) (toLe 8 e.toNat)
    | none => s

/-- The copy that a repair of an entry takes: that of the lowest other bolt that holds it whole, 4 for firmware's own record (Table
16-3). -/
def State.repairCopy (s : State) (b off : Nat) : Nat :=
  (((List.range 4).filter fun k => k ≠ b).find? fun k =>
    match s.reserve k with
    | some q => match s.readEntry (q + off) with | .ok _ => true | .error _ => false
    | none => false).getD 4

/-- What the entry at an offset of bolt `b`'s reserve should be: another bolt's copy of it, a pointer moved to this reserve, or firmware's
own record where every copy is bad (Table 6-13). -/
def State.goodEntry (s : State) (c b r off : Nat) : W64 :=
  let other := match s.reserve (s.repairCopy b off) with
    | some q => match s.readEntry (q + off) with
      | .ok e => some (if pteV e && !pteLeaf e then e - BitVec.ofNat 64 q + BitVec.ofNat 64 r else e)
      | .error _ => none
    | none => none
  other.getD (if subtreeAt ≤ off then subtreeEntry (r + subtreeAt) (off - subtreeAt)
    else (((s.ctx c).entries r).find? fun p => decide (p.1 = off)).map (·.2) |>.getD 0)

/-- Rewrite the sector that holds a bad entry, and report it. -/
def State.repairEntry (s : State) (c b paddr : Nat) : State :=
  match s.reserve b with
  | none => s
  | some r =>
    let off := alignDown (paddr - r) 32
    let l := (List.range 4).flatMap fun k => toLe 8 (s.goodEntry c b r (off + 8 * k)).toNat
    (s.poke (r + off) l).report 6 (BitVec.ofNat 32 b) 5 none (data64 paddr ++ [BitVec.ofNat 32 (s.repairCopy b (paddr - r))])

end Sys2Proof.Machine
end

