-- ==== Sys2Proof/Machine/TranslationFamily.lean ====
section
/-!
DEFINITION. Walks, fault records, firmware's answers to them, demand fills and invalidations (R151–R166).
-/

namespace Sys2Proof.Machine

/-! ### Walks (R151–R154) -/

/-- The ASID that tags a requester's TLB entries (R149). -/
def State.whoAsid (s : State) (w : Walk) : Nat :=
  match w.who with
  | .fetch t => (s.tile t).asid
  | .slot3 t => (s.tile t).asid
  | .engine t _ => (s.tile t).asid
  | _ => s.ctxAsid w.ctx

/-- The block of an engine's streaming operand that a walk is for, while the engine still waits for it: none once the engine has stopped, or
runs another instruction (R117). -/
def State.walkBlock (s : State) (w : Walk) (t e : Nat) : Option Nat :=
  let x := s.tile t
  let g := x.engine e
  let u := (w.va.toNat - mBVa g.mopb) / blockBytes (xFB g.msyl)
  if g.running && xSTR g.msyl && decide (g.stage = 0) && g.ahead.isNone && decide (w.ctx = x.ctxNo)
      && decide (mBVa g.mopb ≤ w.va.toNat) && decide (g.units ≤ u) && decide (u < mKB g.mopa) then some u else none

/-- A walk has found a fault: the requester keeps its record and stops where Table 6-11 says. -/
def State.walkFaults (s : State) (w : Walk) (f : WalkFault) : State :=
  let hold (va : W64) : State := s.holdRecord w.who w.ctx w.acc va f 0
  match w.who with
  | .fetch t => (hold w.va).onTile t fun x => if x.pc = w.va then { x with fetchFault := some w.va } else x
  | .slot3 t => (hold w.va).onTile t fun x => { x with walkFault := some (trapCode f.kind, w.va) }
  | .engine t e =>
    let va : W64 := BitVec.ofNat 64 (alignDown w.va.toNat 64)
    match s.walkBlock w t e with
    | some u => (hold va).onTile t fun x =>
        (x.setEngine e { x.engine e with ahead := some (u, va, trapCode f.kind) }).engineBoundary e
    | none => s
  | .mover b m => (hold w.va).pauseMover b m
  | .expander x _ m => (hold w.va).pauseMover (x / 6) m

/-- The n-th walk of a bolt's queue ends (R151): its leaf is checked and installed, or its fault is kept. It reads the tables as they stand
now, which discards what was read before an invalidation (R156). -/
def State.walkComplete (s : State) (b n : Nat) : State :=
  let q := Tab.look [] s.mmu.walks b
  match q[n]? with
  | none => s
  | some w =>
    let s := { s with mmu := { s.mmu with walks := Tab.put [] s.mmu.walks b (q.eraseIdx n) } }
    let (res, ptrs) := s.walk b w.ctx w.va.toNat
    let s := (s.touchPointer b w.ctx w.va.toNat).cachePointers b (s.ctxAsid w.ctx) ptrs
    match res with
    | .error f =>
      let s := match (if f.kind = 3 then s.readEntry f.paddr else .ok 0) with
        | .error e => s.reportMem e 0 0
        | .ok _ => s
      s.walkFaults w f
    | .ok (leaf, level, a) =>
      match s.leafCheck w.ctx leaf w.acc w.sup with
      | some k => s.walkFaults w ⟨k, level, false, leaf, a⟩
      | none =>
        let bits := leafBits level
        s.installLeaf w.who {
          asid := BitVec.ofNat 12 (s.whoAsid w), va := alignDown w.va.toNat (2 ^ bits), bits := bits, pte := leaf }

/-! ### Fault records (R158, R159) -/

/-- An engine posts its record once it has stopped on the fault; a fault on a block that it never reached leaves none (R117). -/
def State.recordDue (s : State) (r : FaultRecord) : Bool :=
  match r.who with
  | .engine t e => ((s.tile t).engine e).faulted
  | _ => true
def State.recordMoot (s : State) (r : FaultRecord) : Bool :=
  match r.who with
  | .engine t e => let g := (s.tile t).engine e; !g.faulted && g.ahead.isNone
  | _ => false

/-- The SEQ on which a mover paused (R413). -/
def State.noteSeq (s : State) (r : FaultRecord) (seq : BitVec 8) : State :=
  let note (b m : Nat) : State :=
    let v := s.mover b m
    if v.st = .paused then s.setMover b m { v with faultSeq := some seq } else s
  match r.who with
  | .mover b m => note b m
  | .expander x _ m => note (x / 6) m
  | _ => s

/-- The n-th record kept by a requester of the bolt is written to the ring, then PUT advances (R159). -/
def State.postRecord (s : State) (b n : Nat) : State :=
  let held := Tab.look [] s.mmu.held b
  match held[n]? with
  | none => s
  | some r =>
    let posted := Tab.look [] s.mmu.posted b
    let drop (s : State) : State := { s with mmu := { s.mmu with held := Tab.put [] s.mmu.held b (held.eraseIdx n) } }
    if s.recordMoot r then drop s
    else if !s.recordDue r || (posted.any fun q => decide (q.who.unit = r.who.unit))
        || ((held.take n).any fun q => decide (q.who.unit = r.who.unit)) then s
    else
      let seq := Tab.look 0 s.mmu.fqSeq b
      let put := Tab.look 0 s.mmu.fqPut b
      let r := { r with gtLow := s.gtLow, seq := seq }
      let s := drop s
      let s := match s.reserve b with
        | some a => s.poke (a + 0x6400_0000 + 32 * put.toNat) (words64 r.words)
        | none => s
      let s := { s with mmu := { s.mmu with
        posted := Tab.put [] s.mmu.posted b (posted ++ [r])
        fqSeq := Tab.put 0 s.mmu.fqSeq b (seq + 1)
        fqPut := Tab.put 0 s.mmu.fqPut b (put + 1) } }
      s.noteSeq r seq

/-- GET moves to an index: the records before it are consumed (Table 6-10). -/
def State.moveGet (s : State) (b : Nat) (get : BitVec 11) : State :=
  let old := Tab.look 0 s.mmu.fqGet b
  let n := (get - old).toNat
  let gone := (List.range n).map fun k => old + BitVec.ofNat 11 k
  { s with mmu := { s.mmu with
    fqGet := Tab.put 0 s.mmu.fqGet b get
    posted := Tab.put [] s.mmu.posted b ((Tab.look [] s.mmu.posted b).drop n)
    answered := Tab.put [] s.mmu.answered b ((Tab.look [] s.mmu.answered b).filter fun i => !gone.contains i) } }

/-- Consume the records at the front that firmware has dealt with. -/
def State.consume (s : State) (b : Nat) : State :=
  let done := Tab.look [] s.mmu.answered b
  let n := ((Tab.look [] s.mmu.posted b).zipIdx.takeWhile fun p => done.contains (s.ringIndex b p.2)).length
  s.moveGet b (s.ringIndex b n)

/-! ### Demand fills (R165) -/

/-- The demand-filled region of a context that holds an address. -/
def Ctx.demandRegion (x : Ctx) (va : Nat) : Option Region :=
  x.regions.find? fun r => decide (r.kind = 3) && decide (r.va ≤ va) && decide (va < r.va + (r.size + 65535) / 65536 * 65536)

/-- The page holds its leaf. -/
def Ctx.present (x : Ctx) (page : Nat) : Bool := x.map.any fun p => decide (p.1 = page) && pteV p.2

/-- A leaf for a 64 KiB page with RIGHTS of Table 10-7. -/
def leafOf (pa : Nat) (rights : BitVec 4) : W64 := BitVec.ofNat 64 (pa + rights.toNat * 4 + 3)

/-- Remove the cached leaves of an ASID that overlap a span, and the pointers whose range overlaps it (R155). -/
def State.dropSpan (s : State) (asid : BitVec 12) (va n : Nat) : State :=
  let meets (a k : Nat) : Bool := decide (a < va + n) && decide (va < a + k)
  { s with mmu := { s.mmu with
    tlbs := Tab.mapAll [] (fun _ (l : List TlbEntry) =>
      l.filter fun e => !(decide (e.asid = asid) && meets e.va (2 ^ e.bits))) s.mmu.tlbs
    wcache := Tab.mapAll [] (fun _ (l : List (BitVec 12 × Nat × Nat × Nat)) =>
      l.filter fun e => !(decide (e.1 = asid) && meets e.2.2.1 (2 ^ levelShift e.2.1))) s.mmu.wcache } }

/-- A tile's access to a physical page is outstanding. -/
def State.pageBusy (s : State) (pa : Nat) : Bool :=
  s.tiles.any fun p => p.2.far.any fun f => decide (f.pa / 65536 = pa / 65536)

/-- Evict a filled page: unmap it and invalidate it. -/
def State.evict (s : State) (f : Fill) : State :=
  let s := (s.setLeaf f.ctx f.va 0).dropSpan (BitVec.ofNat 12 (s.ctxAsid f.ctx)) f.va 65536
  { s with mmu := { s.mmu with filled := s.mmu.filled.filter fun g => decide (g ≠ f) } }

/-- The physical descriptors that fill a page from its host memory, and copy one back (R165). -/
def Fill.fillPiece (f : Fill) : FwPiece := { words := physWords 1 (hostBase + f.host) f.page 65536, before := 0 }
def Fill.backPiece (f : Fill) : FwPiece := { words := physWords 1 f.page (hostBase + f.host) 65536, before := 0 }

/-- A copy back to the host memory of a page is still to be done: the page is under eviction. -/
def State.copyingBack (s : State) (host : Nat) : Bool :=
  s.mmu.fills.any fun f => f.left.any fun p => decide (dWord p.words 2 0 57 = hostBase + host)

/-- Note a fill, new or under way, and put its descriptors on mv31 of the bolt of its page; where that has no entry free they wait. -/
def State.queueFill (s : State) (f : Fill) : State :=
  let b := f.page / (6 * stackBytes)
  let room := decide ((s.mover b 31).depth < 16)
  let others := s.mmu.fills.filter fun g => !(decide (g.ctx = f.ctx) && decide (g.va = f.va))
  let s := { s with mmu := { s.mmu with fills := others ++ [{ f with busy := room }] } }
  if room then s.queueWork b 31 f.ctx (.fill f.ctx f.va) f.left false false else s

/-- A free pool page of the region, not retired. -/
def State.poolPage (s : State) (c : Nat) (r : Region) : Option Nat :=
  ((s.ctx c).pool.find? fun p => decide (p.1 = r.va) && !Tab.look false s.mem.badPages p.2).map (·.2)

/-- Take a pool page out of the pool. -/
def State.takePool (s : State) (c page : Nat) : State :=
  s.setCtx c { s.ctx c with pool := (s.ctx c).pool.filter fun p => decide (p.2 ≠ page) }

/-- Start the fill of a page, unless it is under way or the page is under eviction. With no free page the one filled earliest is evicted, and
copied back first where the region is writable; where none can be, the fill waits. -/
def State.startFill (s : State) (c page : Nat) (r : Region) : State :=
  let host := r.host + (page - r.va)
  if s.mmu.fills.any (fun f => decide (f.ctx = c) && decide (f.va = page)) || s.copyingBack host then s
  else
    let fill (p : Nat) (back : List FwPiece) (s : State) : State :=
      let f : Fill := { ctx := c, va := page, host := host, page := p }
      s.queueFill { f with left := back ++ [f.fillPiece] }
    match s.poolPage c r with
    | some p => fill p [] (s.takePool c p)
    | none =>
      let writable := r.rights.getLsbD 1
      match s.mmu.filled.find? fun f => decide (f.ctx = c) && decide (r.va ≤ f.va) && decide (f.va < r.va + (r.size + 65535) / 65536 * 65536) with
      | none => s
      | some f => if s.pageBusy f.page then s else fill f.page (if writable then [f.backPiece] else []) (s.evict f)

/-! ### Answers (R161–R164) -/

/-- Tile and answer entry of a tile's or engine's record. -/
def Requester.entry : Requester → Option (Nat × Nat)
  | .fetch t => some (t, 0)
  | .slot3 t => some (t, 0)
  | .engine t e => some (t, 1 + e)
  | _ => none

/-- Bolt and mover of a mover's or expander's record. -/
def Requester.engineOf : Requester → Option (Nat × Nat)
  | .mover b m => some (b, m)
  | .expander x _ m => some (x / 6, m)
  | _ => none

/-- Firmware has dealt with a record. -/
def State.markDone (s : State) (b : Nat) (i : BitVec 11) : State :=
  { s with mmu := { s.mmu with answered := Tab.put [] s.mmu.answered b (Tab.look [] s.mmu.answered b ++ [i]) } }

/-- SOFT of a tile of a context: in the tile, in its save area, or in its copy in the save region (R162). -/
def State.softFor (s : State) (c t : Nat) : State :=
  let x := s.ctx c
  if x.released then
    match x.savedAreas.find? fun p => decide (p.1 = t) with
    | some p =>
      match s.ctxPhys c (p.2 + 0xC2440) with
      | some pa => match s.physRead pa 1 with
        | .ok l => s.poke pa [l.getD 0 0 ||| 2]
        | .error _ => s
      | none => s
    | none => s
  else s.softTile t

/-- Write an answer and set SOFT; none while the entry before is not consumed. An answer whose page is not mapped is dropped (DEDUCED). -/
def State.answer (s : State) (r : FaultRecord) (t k verdict : Nat) : Option State :=
  match Tab.look none (s.ctx r.ctx).answer (boltOf t) with
  | none => some s
  | some page =>
    let a := page + t % 256 * 0x80 + 16 * k
    let waiting := match s.physRead a 16 with | .ok l => (l.getD 0 0).getLsbD 0 | .error _ => false
    if waiting then none
    else
      let s := s.poke a (toLe 8 (r.seq.toNat * 65536 + verdict * 256 + 1) ++ toLe 8 (r.va.toNat % 2 ^ 57))
      let s := { s with mem := { s.mem with bad := s.mem.bad.filter fun p => decide (a + 16 ≤ p.1) || decide (p.1 + 32 ≤ a) } }
      some (s.softFor r.ctx t)

/-- The first refusal of a context starts its 100 µs (R163). -/
def State.refuse (s : State) (r : FaultRecord) : State :=
  let x := s.ctx r.ctx
  if x.refusal.isSome then s else s.setCtx r.ctx { x with refusal := some (r, s.clk.gt) }

/-- ABANDON, also where the mover paused on an access of a fabric queue bound to it: the queue's first unfinished descriptor completes
FAULT at its cursor (R209, R413). -/
def State.abandon (s : State) (b m : Nat) : State :=
  let v := s.mover b m
  if v.st = .paused ∧ v.run.isNone then
    let s := s.setMover b m { v with st := if v.en then .idle else .disabled }
    match (List.range 16).find? fun q => let f := s.fqueue b q; f.granted && decide (f.mover.toNat = m) && !f.flight.isEmpty with
    | some q =>
      let f := s.fqueue b q
      let i := f.flight.findIdx fun d => !d.done
      s.setFqueue b q { f with flight := f.flight.mapIdx fun k d =>
        if k = 0 ∧ d.done = true then { d with verdict := some (4, 0), noWrite := true }
        else if k = i ∧ (f.flight.head?.map (·.done)) ≠ some true then { d with verdict := some (4, 0), done := d.missing = 0 } else d }
    | none => s
  else s.moverAbandon b m

/-- The context's end has been decided, and its 100 µs run. -/
def Ctx.refused (x : Ctx) : Bool := x.refusal.isSome || x.due.isSome || x.ending.isSome

/-- What firmware does with a record (Table 6-13). A page that is there and whose entry was malformed has the entry rewritten (log entry
177). -/
inductive Action where | repair | ready | fill (r : Region) | refuse
  deriving DecidableEq, Repr

def State.actionFor (s : State) (r : FaultRecord) : Action :=
  let x := s.ctx r.ctx
  let page := alignDown r.va.toNat 65536
  if r.kind = 3 then .repair
  else if r.kind ≠ 0 then .refuse
  else match x.demandRegion r.va.toNat with
    | some g => if !x.present page then .fill g else if r.malformed then .repair else .ready
    | none => .refuse

/-- Deal with one posted record of a bolt. -/
def State.deal (s : State) (b : Nat) (i : BitVec 11) (r : FaultRecord) : State :=
  let c := r.ctx
  let x := s.ctx c
  let done (s : State) : State := s.markDone b i
  let page := alignDown r.va.toNat 65536
  if x.st = .unloaded ∨ x.st = .loading then done s
  else match r.who.entry, r.who.engineOf with
  | some (t, k), _ =>
    let reply (s : State) (verdict : Nat) : Option State := (s.answer r t k verdict).map done
    if !s.ctxHasTile c t then done s
    else if x.refused then (reply s 3).getD s
    else match s.actionFor r with
      | .repair => (reply (s.repairEntry c b r.paddr.toNat) 1).getD s
      | .ready => (reply s 1).getD s
      | .fill g => s.startFill c page g
      | .refuse => ((reply s 2).map fun s => s.refuse r).getD s
  | none, some (bm, m) =>
    let v := s.mover bm m
    if r.kind = 4 ∨ v.st ≠ .paused ∨ v.faultSeq ≠ some r.seq then done s
    else if x.st = .saved ∨ x.saveSlot.isSome ∨ x.refused then s
    else match s.actionFor r with
      | .repair => done ((s.repairEntry c b r.paddr.toNat).moverRestart bm m)
      | .ready => done (s.moverRestart bm m)
      | .fill g => s.startFill c page g
      | .refuse => (done (s.abandon bm m)).refuse r
  | none, none => done s

/-- Firmware runs and serves contexts in these states. -/
def ModState.serves : ModState → Bool
  | .ready => true
  | .running => true
  | .drain => true
  | _ => false

/-- One scan of the fault queues (R159, R162). -/
def State.scanFaults (s : State) : State :=
  if s.top.st.serves then
    forAll (List.range 4) s fun s b =>
      let l := (Tab.look [] s.mmu.posted b).zipIdx.map fun p => (s.ringIndex b p.2, p.1)
      (forAll (l.filter fun p => !(Tab.look [] s.mmu.answered b).contains p.1) s fun s p => s.deal b p.1 p.2).consume b
  else s

/-- 100 µs in tt. -/
def refusalTt : Nat := 15625

/-- The stop that a refusal brings 100 µs later (R163): it carries the first refused record. -/
def State.refusalStop (s : State) (c : Nat) : State :=
  let x := s.ctx c
  match x.refusal with
  | some (r, g) =>
    if refusalTt ≤ (s.clk.gt - g).toNat ∧ x.due.isNone ∧ x.ending.isNone then
      (s.setCtx c { x with due := some r.words }).checkAll
    else s
  | none => s

/-- Firmware sees to the n-th fill. One whose descriptors have all run ends: the leaf is written to the four copies and every waiting requester is
answered or restarted (R165). A page retired meanwhile is replaced first, and filled again (R166); a descriptor that failed, with its Bursen
link or a peer, is run again. -/
def State.fillComplete (s : State) (n : Nat) : State :=
  match s.mmu.fills[n]? with
  | none => s
  | some f =>
    match (s.ctx f.ctx).demandRegion f.va with
    | none => s
    | some g =>
      if f.busy || !s.top.st.serves then s
      else if Tab.look false s.mem.badPages f.page then
        match s.poolPage f.ctx g with
        | none => s
        | some p =>
          let back := f.left.filter fun q => decide (hostBase ≤ dWord q.words 2 0 57)
          (s.takePool f.ctx p).queueFill { f with page := p, left := back ++ [({ f with page := p } : Fill).fillPiece] }
      else if f.left ≠ [] then s.queueFill f
      else
        let s := { s with mmu := { s.mmu with fills := s.mmu.fills.eraseIdx n, filled := s.mmu.filled ++ [f] } }
        (s.setLeaf f.ctx f.va (leafOf f.page g.rights)).scanFaults

/-! ### Invalidation (R155) -/

/-- The entries that an MMU_INV_CTRL value names: ASID, start and bytes of the span; all of them where none. -/
def invSpan (ctrl va : W32) : Option (BitVec 12 × Option (Nat × Nat)) :=
  let v := ctrl.toNat
  match fld v 29 2 with
  | 1 => some (BitVec.ofNat 12 v, none)
  | 2 =>
    let n := 2 ^ fld v 12 5 * 65536
    some (BitVec.ofNat 12 v, some (alignDown (fld v 20 9 * 2 ^ 48 + va.toNat * 65536) n, n))
  | _ => none

/-- Bits of MMU_INV_CTRL that a write reaches. -/
def invMask : W32 := 0x7FF1FFFF

/-- Remove what matches. -/
def State.invalidate (s : State) (ctrl : W32) : State :=
  match invSpan ctrl s.mmu.invVa with
  | none => { s with mmu := { s.mmu with tlbs := [], wcache := [] } }
  | some (a, none) => s.dropAsid a
  | some (a, some (va, n)) => s.dropSpan a va n

/-- Outstanding accesses of tiles that were translated through a matching entry: by their address, or by a leaf that the invalidation
removes. A mover's access is performed within its command and never outstanding between two. -/
def State.invUsers (s : State) (ctrl : W32) : List (Nat × Nat) :=
  s.tiles.flatMap fun p =>
    -- a leaf of the tile's data TLB that goes with the span, although it covers more
    let wide (a : BitVec 12) (va n v : Nat) : Bool := (Tab.look [] s.mmu.tlbs (1024 + p.1)).any fun e =>
      decide (e.asid = a) && decide (e.va < va + n) && decide (va < e.va + 2 ^ e.bits) && decide (e.va ≤ v) && decide (v < e.va + 2 ^ e.bits)
    (p.2.far.filter fun f => match invSpan ctrl s.mmu.invVa with
      | none => true
      | some (a, none) => decide (p.2.asid = a.toNat)
      | some (a, some (va, n)) => decide (p.2.asid = a.toNat)
        && ((decide (va ≤ f.va.toNat) && decide (f.va.toNat < va + n)) || wide a va n f.va.toNat)).map fun f => (p.1, f.id)

/-- A write of MMU_INV_CTRL (Table 6-6): GO starts an invalidation; ignored while one runs. A reserved SCOPE or SPAN leaves open whether
anything is removed (R14): a free value decides. -/
def State.invWrite (s : State) (v : W32) : State :=
  if s.mmu.invCtrl.getLsbD 31 then s
  else
    let s' := { s with mmu := { s.mmu with invCtrl := v &&& invMask } }
    if !v.getLsbD 31 then s'
    else
      let reserved := fld v.toNat 29 2 = 3 ∨ (fld v.toNat 29 2 = 2 ∧ 26 ≤ fld v.toNat 12 5)
      let s' := { s' with mmu := { s'.mmu with invCtrl := v &&& (invMask ||| 0x80000000), invWait := s.invUsers v } }
      if reserved then
        let (b, s') := s'.takeFree
        if b.getLsbD 0 then s'.invalidate v else s'
      else s'.invalidate v

/-- GO clears once every access through a removed entry has ended. -/
def State.invDone (s : State) : State :=
  if s.mmu.invWait.all fun p => !(s.tile p.1).far.any fun f => decide (f.id = p.2) then
    { s with mmu := { s.mmu with invCtrl := s.mmu.invCtrl &&& 0x7FFFFFFF, invWait := [] } }
  else s

/-! ### The commands -/

/-- A page walk finishes (R151). -/
def execWalkComplete (b : Fin 4) (n : Nat) (s : State) : Out := .next (settle s (s.walkComplete b n))
/-- A held fault record is posted (R159). -/
def execFaultRecordPost (b : Fin 4) (n : Nat) (s : State) : Out := .next (s.postRecord b n)
/-- A write of MMU_FQ_GETb (R159). -/
def execMmuFqGetWrite (b : Fin 4) (v : W32) (p : Path) (s : State) : Out :=
  .next (s.secured p fun s => s.moveGet b (v.setWidth 11))
/-- Firmware scans the fault queues (R159, R162). -/
def execFaultQueueScan (s : State) : Out := .next ((settle s s.scanFaults).checkAll)
/-- The stop 100 µs after a refusal (R163). -/
def execContextRefusalStop (c : Fin 16) (s : State) : Out := .next (s.refusalStop c)
/-- The copy of a demand fill ends (R165). -/
def execDemandFillComplete (n : Nat) (s : State) : Out := .next ((settle s (s.fillComplete n)).checkAll)
/-- MMU_INV_CTRL.GO (R155). -/
def execMmuInvalidate (v : W32) (p : Path) (s : State) : Out := .next (s.secured p fun s => s.invWrite v)
/-- An invalidation ends (R155). -/
def execInvalidationComplete (s : State) : Out := .next s.invDone

end Sys2Proof.Machine
end

