-- ==== Sys2Proof/Machine/Image.lean ====
section
/-!
DEFINITION. Program images (R244–R246, R261, R262): the header, the section table and the plan sections, and every check on them. A
parse answers the plan, or the DETAIL of Table 10-11 that refuses the image.
-/

namespace Sys2Proof.Machine

/-! ### Reading fields -/

/-- `n` bytes at an offset, little-endian. -/
def leAt (l : List Byte) (off n : Nat) : Nat := ofLe ((l.drop off).take n)

/-- Every byte of a range is zero. -/
def zeroAt (l : List Byte) (off n : Nat) : Bool := ((l.drop off).take n).all fun b => decide (b = 0)

/-- Cut bytes into entries of a size. -/
def entriesOf (size : Nat) (l : List Byte) : List (List Byte) :=
  (List.range (l.length / size)).map fun i => (l.drop (size * i)).take size

/-- Pages of 64 KiB that hold a number of bytes (R247). -/
def pagesOf (n : Nat) : Nat := (n + 65535) / 65536

/-- No two of the ranges share an element. -/
def disjoint : List (Nat × Nat) → Bool
  | [] => true
  | (a, n) :: r => (r.all fun q => decide (a + n ≤ q.1) || decide (q.1 + q.2 ≤ a)) && disjoint r

/-- No value stands twice. -/
def distinctNat : List Nat → Bool
  | [] => true
  | a :: r => !r.contains a && distinctNat r

/-- What an image asks for, as its plan sections state it. -/
structure Plan where
  signed : Bool
  /-- EXPANDERS of the summary. -/
  expanders : Nat
  sects : List ImageSection
  /-- Groups; their physical numbers are not placed yet. -/
  groups : List Group
  regions : List Region
  priv : Nat
  cads : List CadDecl
  queues : List PlanQueue
  exports : List Export
  ports : Nat
  peers : Nat
  deriving DecidableEq, Repr

/-! ### The header and the section table -/

/-- Bytes before the trailer. -/
def bodyEnd (l : List Byte) : Nat := if leAt l 6 2 % 2 = 1 then l.length - 128 else l.length

/-- The header is as Table 10-2 has it, the zero fields of its demand summary (Table 10-3) included; LENGTH is the command's, and the section
table lies in the image. -/
def headerGood (l : List Byte) (length : Nat) : Bool :=
  let n := leAt l 0x10 4
  decide (leAt l 0 4 = 0x474D4952) && decide (leAt l 4 2 = 1) && decide (leAt l 6 2 < 2) && decide (leAt l 8 8 = length)
    && decide (length % 64 = 0) && decide (256 ≤ length) && decide (1 ≤ n) && decide (n ≤ 1024)
    && zeroAt l 0x14 12 && zeroAt l 0x3B 1 && zeroAt l 0x48 184 && decide (256 + 32 * n ≤ bodyEnd l)

/-- Bits of ARG that a type reserves are zero (Table 10-5). -/
def argGood (typ arg : Nat) : Bool :=
  match typ with
  | 6 => fld arg 49 7 = 0
  | 7 => arg < 64
  | 8 => fld arg 19 37 = 0 && fld arg 62 2 = 0
  | _ => arg = 0

/-- An entry of the section table. -/
def sectionOf (e : List Byte) : ImageSection := { typ := leAt e 0 2, off := leAt e 8 8, size := leAt e 16 8, arg := leAt e 24 8 }

/-- Its own checks (R245, DETAIL 2). -/
def sectionGood (stop : Nat) (e : List Byte) : Bool :=
  let x := sectionOf e
  decide (1 ≤ x.typ) && decide (x.typ ≤ 8) && zeroAt e 2 6 && decide (x.off % 64 = 0) && decide (x.off + x.size ≤ stop)
    && argGood x.typ x.arg

/-- The bytes of a section. -/
def ImageSection.body (x : ImageSection) (l : List Byte) : List Byte := (l.drop x.off).take x.size

/-- The sections, or DETAIL 1 or 2. -/
def parseSections (l : List Byte) (length : Nat) : Except Nat (List ImageSection) :=
  if !headerGood l length then .error 1
  else
    let n := leAt l 0x10 4
    let table := entriesOf 32 ((l.drop 256).take (32 * n))
    let sects := table.map sectionOf
    let used := (0, 256 + 32 * n) :: (sects.filter fun x => x.size ≠ 0).map fun x => (x.off, x.size)
    if (table.all fun e => sectionGood (bodyEnd l) e) && disjoint used then .ok sects else .error 2

/-! ### Plan sections (DETAIL 3) -/

/-- A group entry (Table 10-6). -/
def groupOf (e : List Byte) : Option Group :=
  let w0 := leAt e 0 8
  let w3 := leAt e 0x18 8
  let g : Group := {
    bolt := fld w0 0 8, phys := 0, siltKib := fld w0 8 10, entry := BitVec.ofNat 64 (leAt e 8 8)
    tvec := BitVec.ofNat 64 (leAt e 16 8), movers := fld w3 0 5, counters := fld w3 8 8 }
  if g.bolt < 4 ∧ 1 ≤ g.siltKib ∧ g.siltKib ≤ 512 ∧ w0 / 2 ^ 18 = 0 ∧ fld w3 5 3 = 0 ∧ w3 / 2 ^ 16 = 0 ∧ g.movers ≤ 30
      ∧ g.counters ≤ 248 then some g else none

/-- First virtual address of the answer range, and the end of the Global Window subtree (R149, R161). -/
def answerBase : Nat := 0x00FFFFFFFFFC0000
def windowEnd : Nat := 0x0101000000000000

/-- A region entry (Table 10-7): its own rules, those of its kind, and those of R259 for a save region. -/
def regionOf (groups : List Group) (priv : Nat) (e : List Byte) : Option Region :=
  let w2 := leAt e 0x10 8
  let r : Region := {
    va := leAt e 0 8, size := leAt e 8 8, kind := fld w2 0 4, rights := BitVec.ofNat 4 (fld w2 4 4), bolt := fld w2 8 4
    stack := fld w2 12 3, host := leAt e 0x18 8, pool := leAt e 0x20 4 }
  let stop := r.va + 65536 * pagesOf r.size
  let own := (groups.filter fun g => decide (g.bolt = r.bolt)).length
  let shape := decide (r.va % 65536 = 0) && decide (r.size ≠ 0) && decide (stop ≤ 2 ^ 57) && decide (r.kind ≤ 6)
    && decide (w2 / 2 ^ 15 = 0) && zeroAt e 0x24 4 && zeroAt e 0x28 8
    && (decide (stop ≤ answerBase) || decide (windowEnd ≤ r.va))
  let kindOk := match r.kind with
    | 1 => decide (r.bolt < 4) && decide (r.stack < 6)
    | 3 => decide (r.bolt < 4) && decide (r.host % 65536 = 0) && decide (r.host + 65536 * pagesOf r.size ≤ 2 ^ 42)
    | 4 => bitOf priv 2 && decide (r.size ≤ 2 ^ 36)
    | 5 => bitOf priv 1 && decide (r.host % 65536 = 0) && decide (r.host + 65536 * pagesOf r.size ≤ 2 ^ 42)
    | 6 => decide (r.bolt < 4) && decide (r.size = 195 * 65536 * own)
    | _ => decide (r.bolt < 4)
  if shape && kindOk then some r else none

/-- The range lies in one region that `ok` accepts. -/
def inRegion (regions : List Region) (ok : Region → Bool) (va n : Nat) : Bool :=
  regions.any fun r => ok r && decide (r.va ≤ va) && decide (va + n ≤ r.va + r.size)

/-- An export entry (Table 10-8): it lies in a pinned region, that is one that is not demand-filled (R164, R207). -/
def exportOf (regions : List Region) (e : List Byte) : Option Export :=
  let w0 := leAt e 0 8
  let w3 := leAt e 0x18 8
  let x : Export := {
    ctx := 0, num := fld w0 0 8, rights := BitVec.ofNat 2 (fld w0 8 2), va := leAt e 8 8, size := leAt e 16 8
    ctrFirst := fld w3 0 16, ctrCount := fld w3 16 16, ctrBolt := fld w3 32 2 }
  if w0 / 2 ^ 10 = 0 ∧ w3 / 2 ^ 34 = 0 ∧ x.size ≠ 0 ∧ inRegion regions (fun r => decide (r.kind ≠ 3)) x.va x.size then some x else none

/-- A queue entry (Table 10-8), within the ranges of GZ_FQ_CTRL. -/
def queueOf (e : List Byte) : Option PlanQueue :=
  let w := leAt e 0 8
  let q : PlanQueue := {
    bolt := fld w 0 2, mover := fld w 4 6, size := fld w 10 4, doorbell := fld w 14 10, cad := bitOf w 24, cadence := fld w 25 6 }
  if fld w 2 2 = 0 ∧ w / 2 ^ 31 = 0 ∧ zeroAt e 8 8 ∧ q.mover ≤ 29 ∧ 4 ≤ q.size ∧ q.size ≤ 12 then some q else none

/-- Every entry, or none where one is bad. -/
def allSome {α : Type} : List (Option α) → Option (List α)
  | [] => some []
  | some a :: r => (allSome r).map (a :: ·)
  | none :: _ => none

/-- The fabric plan. -/
def fabricOf (regions : List Region) (l : List Byte) : Option (List Export × List PlanQueue × Nat × Nat) :=
  let ne := leAt l 0 2
  let nq := leAt l 2 1
  if 16 ≤ l.length ∧ ne ≤ 256 ∧ nq ≤ 64 ∧ leAt l 3 1 = 0 ∧ l.length = 16 + 32 * ne + 16 * nq then
    match allSome ((entriesOf 32 ((l.drop 16).take (32 * ne))).map (exportOf regions)),
      allSome ((entriesOf 16 (l.drop (16 + 32 * ne))).map queueOf) with
    | some xs, some qs => if distinctNat (xs.map (·.num)) then some (xs, qs, leAt l 4 4, leAt l 8 8) else none
    | _, _ => none
  else none

/-- The place of a one bit above every other, plus one; zero for zero. -/
def bitLength (n : Nat) : Nat := ((List.range 64).filter fun k => bitOf n k).foldl (fun m k => max m (k + 1)) 0

/-- Movers and counters that groups, queues and exports of a bolt name: code 7 and code 9 without what the cadences add. -/
def baseMovers (groups : List Group) (queues : List PlanQueue) (b : Nat) : Nat :=
  (queues.filter fun q => decide (q.bolt = b)).foldl (fun m q => max m (q.mover + 1))
    ((groups.filter fun g => decide (g.bolt = b)).foldl (fun m g => max m g.movers) 0)
def baseCounters (groups : List Group) (queues : List PlanQueue) (exports : List Export) (b : Nat) : Nat :=
  (exports.filter fun x => decide (x.ctrBolt = b) && decide (x.ctrCount ≠ 0)).foldl (fun m x => max m (x.ctrFirst + x.ctrCount))
    ((queues.filter fun q => decide (q.bolt = b)).foldl (fun m q => max m (q.doorbell + 1))
      ((groups.filter fun g => decide (g.bolt = b)).foldl (fun m g => max m g.counters) 0))

/-- A cadence declaration within the ranges of Table 11-1. -/
def cadenceOf (ngroups : Nat) (e : List Byte) : Option CadDecl :=
  let w0 := leAt e 0 8
  let w1 := leAt e 8 8
  let nbuf := fld w0 8 3
  let w5 := leAt e 0x28 8
  let d : CadDecl := {
    number := fld w0 0 6, report := fld w0 6 2, period := fld w1 0 32, deadline := fld w1 32 32
    groups := BitVec.ofNat 64 (leAt e 0x10 8)
    movers := (List.range 4).map fun b => BitVec.ofNat 32 (leAt e (0x18 + 4 * b) 4)
    ctrFirst := fld w5 0 16, ctrCount := fld w5 16 16, periodVa := BitVec.ofNat 64 (leAt e 0x30 8)
    bufs := (List.range nbuf).map fun j =>
      (BitVec.ofNat 64 (leAt e (0x40 + 24 * j) 8), leAt e (0x48 + 24 * j) 8, BitVec.ofNat 64 (leAt e (0x50 + 24 * j) 8)) }
  if d.report ≠ 3 ∧ nbuf ≤ 4 ∧ w0 / 2 ^ 11 = 0 ∧ 1563 ≤ d.period ∧ 1 ≤ d.deadline ∧ d.deadline + 320 ≤ d.period ∧ d.groups ≠ 0
      ∧ bitLength d.groups.toNat ≤ ngroups ∧ d.ctrCount ≤ 248 ∧ w5 / 2 ^ 32 = 0 ∧ d.periodVa.toNat % 8 = 0 ∧ zeroAt e 0x38 8
      ∧ zeroAt e (0x40 + 24 * nbuf) (96 - 24 * nbuf) ∧ (d.bufs.all fun q => decide (q.2.1 ≠ 0) && decide (q.2.2.toNat % 8 = 0))
  then some d else none

/-- Words and buffers of a declaration, as ranges. -/
def CadDecl.spans (d : CadDecl) : List (Nat × Nat) :=
  (d.periodVa.toNat, 8) :: d.bufs.flatMap fun q => [(q.1.toNat, q.2.1), (q.2.2.toNat, 8)]

/-- Movers and counters of a declaration lie within the image's demand, which counts what the cadences name (R262, Table 10-10): what remains is
that no demand goes beyond the movers and counters that images may have. -/
def CadDecl.within (d : CadDecl) : Bool :=
  (d.movers.all fun m => decide (bitLength m.toNat ≤ 30)) && (decide (d.ctrCount = 0) || decide (d.ctrFirst + d.ctrCount ≤ 248))

/-- The CADENCES section (R261, R262). -/
def cadencesOf (groups : List Group) (regions : List Region) (l : List Byte) : Option (List CadDecl) :=
  let n := leAt l 0 1
  if 1 ≤ n ∧ n ≤ 64 ∧ zeroAt l 1 15 ∧ l.length = 16 + 160 * n then
    match allSome ((entriesOf 160 (l.drop 16)).map (cadenceOf groups.length)) with
    | none => none
    | some ds =>
      let spans := ds.flatMap CadDecl.spans
      let pinned (r : Region) : Bool := decide (r.kind ≤ 2) && r.rights.getLsbD 1
      let members := ds.flatMap fun d => (List.range 64).filter fun i => d.groups.getLsbD i
      if distinctNat (ds.map (·.number)) && distinctNat members && ds.all CadDecl.within
          && (spans.all fun q => inRegion regions pinned q.1 q.2) && disjoint spans then some ds else none
  else none

/-! ### Data sections -/

/-- A PLACE, TABLE or SILT_INIT section breaks none of R245's rules (DETAIL 3). -/
def dataGood (groups : List Group) (regions : List Region) (l : List Byte) (x : ImageSection) : Bool :=
  match x.typ with
  | 6 => match regions[fld x.arg 56 8]? with
    | some r => decide (fld x.arg 0 48 + x.size ≤ r.size) && (!bitOf x.arg 48 || decide (r.kind = 1))
    | none => false
  | 7 => decide (x.size = 16448) && (parseTable (x.body l)).isSome
  | 8 => match groups[fld x.arg 56 6]? with
    | some g => decide (fld x.arg 0 19 + x.size ≤ 1024 * g.siltKib)
    | none => false
  | _ => true

/-- Sections of a type. -/
def ofType (sects : List ImageSection) (t : Nat) : List ImageSection := sects.filter fun x => decide (x.typ = t)

/-- The body of the one section of a type; nothing where the image has none. -/
def bodyOf (sects : List ImageSection) (l : List Byte) (t : Nat) : Option (List Byte) := ((ofType sects t).head?).map fun x => x.body l

/-- The plan of an image, or the DETAIL that refuses it (Table 10-11). -/
def parseImage (l : List Byte) (length : Nat) : Except Nat Plan :=
  match parseSections l length with
  | .error d => .error d
  | .ok sects =>
    let count (t : Nat) : Nat := (ofType sects t).length
    let gb := (bodyOf sects l 1).getD []
    let mb := (bodyOf sects l 2).getD []
    let pb := (bodyOf sects l 4).getD []
    let priv := leAt pb 0 8
    if count 1 ≠ 1 ∨ count 2 ≠ 1 ∨ count 4 ≠ 1 ∨ 1 < count 3 ∨ 1 < count 5 then .error 3
    else if gb.length % 32 ≠ 0 ∨ gb = [] ∨ 2048 < gb.length ∨ mb.length % 48 ≠ 0 ∨ pb.length ≠ 8 ∨ fld priv 3 13 ≠ 0
        ∨ priv / 2 ^ 34 ≠ 0 then .error 3
    else
      match allSome ((entriesOf 32 gb).map groupOf) with
      | none => .error 3
      | some groups =>
        match allSome ((entriesOf 48 mb).map (regionOf groups priv)) with
        | none => .error 3
        | some regions =>
          let fabric := match bodyOf sects l 3 with
            | some b => fabricOf regions b
            | none => some ([], [], 0, 0)
          match fabric with
          | none => .error 3
          | some (exports, queues, ports, peers) =>
            let cads := match bodyOf sects l 5 with
              | some b => cadencesOf groups regions b
              | none => some []
            match cads with
            | none => .error 3
            | some cads =>
              let spans := regions.map fun r => (r.va, 65536 * pagesOf r.size)
              let saves := (regions.filter fun r => decide (r.kind = 6)).map (·.bolt)
              let tables := (ofType sects 7).map fun x => x.arg
              if disjoint spans && decide ((regions.filter fun r => decide (r.kind = 4)).length ≤ 1) && distinctNat saves
                  && distinctNat tables && sects.all (dataGood groups regions l) then
                .ok {
                  signed := bitOf (leAt l 6 2) 0, expanders := leAt l 0x38 3, sects := sects, groups := groups, regions := regions
                  priv := priv, cads := cads, queues := queues, exports := exports, ports := ports, peers := peers }
              else .error 3

end Sys2Proof.Machine
end

