-- ==== Sys2Proof/Machine/Fit.lean ====
section
/-!
DEFINITION. The fit (R242, R247, R248, R252–R254): what is free, what a plan demands, the shortfall record, and the placement.
-/

namespace Sys2Proof.Machine

/-! ### What is held -/

/-- Contexts that hold resources. -/
def State.holders (s : State) : List Ctx := (s.ctxs.map (·.2)).filter fun x => decide (x.st ≠ .unloaded)

/-- A group is available (R242): its tiles are healthy and no context holds it. -/
def State.groupHealthy (s : State) (g : Nat) : Bool :=
  (List.range 16).all fun k => let x := s.tile (16 * g + k); decide (x.st ≠ .retired) && !x.retireDue
def State.groupFree (s : State) (g : Nat) : Bool :=
  s.groupHealthy g && s.holders.all fun x => x.released || x.groups.all fun q => decide (q.phys ≠ g)
def State.freeGroups (s : State) (b : Nat) : List Nat := ((List.range 16).map fun k => 16 * b + k).filter s.groupFree

/-- Pages that no image may have: held ones and retired ones. -/
def State.usedPages (s : State) : List Nat :=
  let held := (List.range 16).flatMap s.ctxPages
  held ++ ((s.mem.badPages.map (·.1)).filter fun p => !held.contains p)

/-- The range of a stack that pages may come from: below the reserve where it stands there (R130). -/
def State.stackRange (s : State) (n : Nat) : Nat × Nat :=
  (n * stackBytes, if s.reserveStack (n / 6) = some n then 0x11_8000_0000 else stackBytes)
/-- That of a bolt's Loam slice, less the Bursen cache (R131). -/
def loamRange (b : Nat) : Nat × Nat := (loamBase + b * 0x8000_0000, if b = 0 then 0x7C00_0000 else 0x8000_0000)

/-- Free pages of a range. -/
def freeIn (used : List Nat) (r : Nat × Nat) : Nat :=
  r.2 / 65536 - (used.filter fun p => decide (r.1 ≤ p) && decide (p < r.1 + r.2)).length
def State.freeStack (s : State) (used : List Nat) (n : Nat) : Nat := if s.stackUp n then freeIn used (s.stackRange n) else 0

/-- Stacks of a bolt that are up. -/
def State.boltStacks (s : State) (b : Nat) : List Nat := ((List.range 6).map fun k => 6 * b + k).filter s.stackUp

/-- Free numbers of a bolt's movers, counters and queues: those in no context's run (R248). -/
def State.freeMovers (s : State) (b : Nat) : List Bool :=
  (List.range 30).map fun m => s.holders.all fun x => !(runOf x.movBase x.movCount b).contains m
def State.freeCounters (s : State) (b : Nat) : List Bool :=
  (List.range 248).map fun m => s.holders.all fun x => !(runOf x.ctrBase x.ctrCount b).contains m
def State.freeQueues (s : State) (b : Nat) : List Bool :=
  (List.range 16).map fun m => s.holders.all fun x => !(runOf x.fqBase x.fqCount b).contains m

/-- The longest run of free numbers. -/
def longestRun (l : List Bool) : Nat :=
  (l.foldl (fun (a : Nat × Nat) f => if f then (a.1 + 1, max a.2 (a.1 + 1)) else (0, a.2)) (0, 0)).2
/-- The lowest base of a run of `n` free numbers. -/
def firstRun (l : List Bool) (n : Nat) : Nat :=
  ((List.range l.length).find? fun b => (List.range n).all fun k => l.getD (b + k) false).getD 0

/-- A mask of the numbers that a test accepts. -/
def maskOf (n : Nat) (f : Nat → Bool) : Nat := (List.range n).foldl (fun a k => if f k then a + 2 ^ k else a) 0

/-- GiB of a stack of which no page is used. -/
def State.freeGib (s : State) (used : List Nat) (n : Nat) : List Bool :=
  let r := s.stackRange n
  (List.range (r.2 / 2 ^ 30)).map fun j =>
    used.all fun p => !(decide (r.1 + j * 2 ^ 30 ≤ p) && decide (p < r.1 + (j + 1) * 2 ^ 30))

/-- GiB of the largest host-visible range that a stack could give (code 15). -/
def State.gibIn (s : State) (used : List Nat) (n : Nat) : Nat := if s.stackUp n then longestRun (s.freeGib used n) else 0

/-! ### Availability and demand (R247, Table 10-10) -/

/-- One line of a fit: CODE, SCOPE_KIND (0 module, 1 bolt, 2 stack), SCOPE, DEMAND, AVAIL, UNIT (Table 10-12). -/
structure Need where
  code : Nat
  kind : Nat
  scope : Nat
  demand : Nat
  avail : Nat
  unit : Nat
  deriving DecidableEq, Repr

/-- Availability of a code and scope. -/
def State.available (s : State) (used : List Nat) (code scope : Nat) : Nat :=
  match code with
  | 1 => (s.freeGroups scope).length
  | 2 => 512
  | 3 => freeIn used (loamRange scope)
  | 4 => ((s.boltStacks scope).map (s.freeStack used)).foldl (· + ·) 0
  | 5 => s.freeStack used scope
  | 6 => b2n (s.stackUp scope)
  | 7 => longestRun (s.freeMovers scope)
  | 8 => maskOf 64 fun t => s.holders.all fun x => !x.tables.contains t
  | 9 => longestRun (s.freeCounters scope)
  | 10 => longestRun (s.freeQueues scope)
  | 11 => maskOf 64 fun k => s.holders.all fun x => x.cads.all fun d => decide (d.number ≠ k)
  | 12 => maskOf 32 fun p => decide ((s.port p).st = .up)
  | 13 => if s.gz.joined then s.gz.members.toNat else 0
  | 14 => 256 - (s.holders.foldl (fun n x => n + (match x.load with | some l => l.exports.length | none => 0)) s.gz.exports.length)
  | _ =>
    if s.holders.any fun x => x.regions.any fun r => decide (r.kind = 4) then 0
    else ((List.range 24).map (s.gibIn used)).foldl max 0

/-- Pages of the regions of some kinds on a bolt. -/
def Plan.pagesOn (p : Plan) (b : Nat) (f : Region → Nat) : Nat :=
  ((p.regions.filter fun r => decide (r.bolt = b)).map f).foldl (· + ·) 0

/-- Movers and counters of a bolt, the cadences' included. -/
def Plan.moversOn (p : Plan) (b : Nat) : Nat :=
  p.cads.foldl (fun m d => max m (bitLength (d.movers.getD b 0).toNat)) (baseMovers p.groups p.queues b)
def Plan.countersOn (p : Plan) (b : Nat) : Nat :=
  let n := baseCounters p.groups p.queues p.exports b
  if n = 0 then 0
  else p.cads.foldl (fun m d => if d.ctrCount = 0 then m else max m (d.ctrFirst + d.ctrCount)) n

/-- A coded PLACE section lies on a stack, or the summary names its expander (code 6). -/
def Plan.wantsExpander (p : Plan) (n : Nat) : Bool :=
  bitOf p.expanders n || (ofType p.sects 6).any fun x => bitOf x.arg 48 && (match p.regions[fld x.arg 56 8]? with
    | some r => decide (6 * r.bolt + r.stack = n)
    | none => false)

/-- Demand of a plan for a code and scope. -/
def Plan.demand (p : Plan) (code scope : Nat) : Nat :=
  match code with
  | 1 => (p.groups.filter fun g => decide (g.bolt = scope)).length
  | 2 => p.groups.foldl (fun m g => max m g.siltKib) 0
  | 3 => p.pagesOn scope fun r => if r.kind = 2 then pagesOf r.size else 0
  | 4 => p.pagesOn scope (fun r => match r.kind with | 0 | 1 | 6 => pagesOf r.size | 3 => r.pool | _ => 0)
      + b2n (p.groups.any fun g => decide (g.bolt = scope))
  | 5 => p.pagesOn (scope / 6) fun r => if r.kind = 1 ∧ r.stack = scope % 6 then pagesOf r.size else 0
  | 6 => b2n (p.wantsExpander scope)
  | 7 => p.moversOn scope
  | 8 => maskOf 64 fun t => (ofType p.sects 7).any fun x => decide (x.arg = t)
  | 9 => p.countersOn scope
  | 10 => (p.queues.filter fun q => decide (q.bolt = scope)).length
  | 11 => maskOf 64 fun k => p.cads.any fun d => decide (d.number = k)
  | 12 => p.ports
  | 13 => p.peers
  | 14 => p.exports.length
  | _ => ((p.regions.filter fun r => decide (r.kind = 4)).map fun r => (r.size + 2 ^ 30 - 1) / 2 ^ 30).foldl max 0

/-- Every code and scope, in order, with kind and unit: code, SCOPE_KIND, scope, UNIT. -/
def fitScopes : List (Nat × Nat × Nat × Nat) :=
  let bolts (c u : Nat) : List (Nat × Nat × Nat × Nat) := (List.range 4).map fun b => (c, 1, b, u)
  let perStack (c u : Nat) : List (Nat × Nat × Nat × Nat) := (List.range 24).map fun n => (c, 2, n, u)
  bolts 1 0 ++ [(2, 0, 0, 2)] ++ bolts 3 1 ++ bolts 4 1 ++ perStack 5 1 ++ perStack 6 0 ++ bolts 7 0 ++ [(8, 0, 0, 4)] ++ bolts 9 0
    ++ bolts 10 0 ++ [(11, 0, 0, 4), (12, 0, 0, 4), (13, 0, 0, 4), (14, 0, 0, 0), (15, 0, 0, 3)]

/-- The demands of a plan in that order. -/
def Plan.demands (p : Plan) : List Nat := fitScopes.map fun q => p.demand q.1 q.2.2.1

/-- The lines of a fit for demands in that order. -/
def State.needs (s : State) (demands : List Nat) : List Need :=
  let used := s.usedPages
  fitScopes.zipIdx.map fun q =>
    { code := q.1.1, kind := q.1.2.1, scope := q.1.2.2.1, demand := demands.getD q.2 0
      avail := s.available used q.1.1 q.1.2.2.1, unit := q.1.2.2.2 }

/-- A mask is covered bit by bit, a number by one at least as large (R248). -/
def Need.covered (n : Need) : Bool := if n.unit = 4 then n.demand &&& n.avail = n.demand else n.demand ≤ n.avail

/-- The lines that are short. -/
def State.shortOf (s : State) (demands : List Nat) : List Need := (s.needs demands).filter fun n => !n.covered

/-! ### The shortfall record (R253, R254) -/

/-- An entry (Table 10-12). -/
def Need.bytes (n : Need) : List Byte :=
  toLe 8 (n.code + n.kind * 2 ^ 16 + n.scope * 2 ^ 24) ++ toLe 8 n.demand ++ toLe 8 n.avail ++ toLe 8 n.unit

/-- A record of at most 127 entries (Table 10-12). -/
def State.shortfall (s : State) (l : List Need) : List Byte :=
  toLe 4 (min l.length 127 + b2n (127 < l.length) * 2 ^ 16) ++ toLe 4 s.gtLow.toNat ++ toLe 4 s.top.hbmUp.toNat
    ++ toLe 4 s.top.pages.toNat ++ List.replicate 16 0 ++ (l.take 127).flatMap Need.bytes

/-- Write a record to its buffer, where the command names one. -/
def State.writeShortfall (s : State) (a : Nat) (l : List Need) : State :=
  if a = 0 then s else s.hostWrite a (s.shortfall l)

/-! ### The exchange check (R234, R252) -/

/-- Module totals of a code: the sum over its scopes, or the count of free numbers. -/
def State.totalOf (s : State) (used : List Nat) (code : Nat) : Nat :=
  let overAll (n : Nat) := ((List.range n).map fun b => s.available used code b).foldl (· + ·) 0
  match code with
  | 3 | 4 | 7 | 9 | 10 => overAll 4
  | 6 => maskOf 24 s.stackUp
  | 8 | 11 => ((List.range 64).filter fun k => bitOf (s.available used code 0) k).length
  | _ => s.available used code 0

/-- The first short code of a demand summary; none where it is covered. -/
def State.summaryShort (s : State) (d : List Byte) : Option Nat :=
  let used := s.usedPages
  let le (code off n : Nat) : Bool := leAt d off n ≤ s.totalOf used code
  let mask (code off n : Nat) : Bool := leAt d off n &&& s.totalOf used code = leAt d off n
  let checks : List (Nat × Bool) := [
    (1, (List.range 4).all fun b => decide (leAt d (8 + b) 1 ≤ (s.freeGroups b).length)),
    (2, le 2 0xC 2), (3, le 3 4 4), (4, le 4 0 4), (6, mask 6 0x18 4), (7, le 7 0xE 2), (8, le 8 0x16 1), (9, le 9 0x10 2),
    (10, le 10 0x14 1), (11, le 11 0x15 1), (12, mask 12 0x1C 4), (13, mask 13 0x20 8), (14, le 14 0x12 2), (15, le 15 0x17 1)]
  (checks.find? fun c => !c.2).map (·.1)

/-! ### Placement (R248) -/

/-- The lowest page from `a` on that is not used, below `stop`. -/
def nextFree (used : List Nat) (stop : Nat) : Nat → Nat → Option Nat
  | 0, _ => none
  | k + 1, a => if stop ≤ a then none else if used.contains a then nextFree used stop k (a + 65536) else some a

/-- Pages still to be given out: those used, and the next candidate of each range by its first address. -/
structure Taker where
  used : List Nat
  at_ : Tab Nat
  deriving DecidableEq, Repr

/-- Take the lowest free page of a range. -/
def Taker.take (t : Taker) (r : Nat × Nat) : Option (Nat × Taker) :=
  let from_ := max r.1 (Tab.look 0 t.at_ r.1)
  (nextFree t.used (r.1 + r.2) (t.used.length + 1) from_).map fun a => (a, { t with at_ := Tab.put 0 t.at_ r.1 (a + 65536) })

/-- Take a page from the first of the ranges that has one; answer how many ranges stand before and with it. -/
def Taker.takeAny (t : Taker) : List (Nat × Nat) → Nat → Option (Nat × Nat × Taker)
  | [], _ => none
  | r :: q, k => match t.take r with
    | some (a, t) => some (a, k + 1, t)
    | none => t.takeAny q (k + 1)

/-- Take `n` pages, rotated through the ranges from position `i` on (R124); a range with none left is passed over. -/
def Taker.rotate (t : Taker) (rs : List (Nat × Nat)) : Nat → Nat → Option (List Nat × Taker)
  | 0, _ => some ([], t)
  | n + 1, i =>
    match t.takeAny (rs.drop (i % rs.length) ++ rs.take (i % rs.length)) 0 with
    | none => none
    | some (a, k, t) => (Taker.rotate t rs n (i + k)).map fun q => (a :: q.1, q.2)

/-- The ranges that the pages of a region come from (Table 10-7); none for host memory and host-visible HBM. -/
def State.rangesOf (s : State) (r : Region) : List (Nat × Nat) :=
  match r.kind with
  | 1 => if s.stackUp (6 * r.bolt + r.stack) then [s.stackRange (6 * r.bolt + r.stack)] else []
  | 2 => [loamRange r.bolt]
  | 4 => []
  | 5 => []
  | _ => (s.boltStacks r.bolt).map s.stackRange

/-- Where a host-visible region may go (R133): the lowest range that is long enough of each stack that has one, the lowest stack first. -/
def State.hostRanges (s : State) (used : List Nat) (gib : Nat) : List Nat :=
  if gib = 0 then [0]
  else ((List.range 24).filter fun n => decide (gib ≤ s.gibIn used n)).map fun n =>
    n * stackBytes + firstRun (s.freeGib used n) gib * 2 ^ 30

/-- Pages of the regions in turn: those in `todo`, with what has been placed by region number. -/
def State.placeRegions (s : State) : List (Nat × Region) → Taker → Option (List (Nat × List Nat) × Taker)
  | [], t => some ([], t)
  | (i, r) :: q, t =>
    match t.rotate (s.rangesOf r) (if r.kind = 3 then r.pool else pagesOf r.size) 0 with
    | none => none
    | some (l, t) => (s.placeRegions q t).map fun p => ((i, l) :: p.1, p.2)

/-- Number the groups on their bolts: the lowest available ones, in image order. -/
def State.placeGroups (s : State) (gs : List Group) : List Group :=
  gs.zipIdx.map fun p =>
    let before := ((gs.take p.2).filter fun g => decide (g.bolt = p.1.bolt)).length
    { p.1 with phys := (s.freeGroups p.1.bolt).getD before 0 }

/-- Pages for the regions and answer pages of a plan once its host-visible region stands at an address: by region number, and by bolt. -/
def State.placePages (s : State) (p : Plan) (hostPages : List Nat) : Option (List (Nat × List Nat) × List (Nat × Nat)) :=
  let numbered := p.regions.zipIdx.map fun q => (q.2, q.1)
  let own (q : Nat × Region) : Bool := decide (q.2.kind ≠ 4) && decide (q.2.kind ≠ 5)
  let todo := (numbered.filter fun q => decide (q.2.kind = 1)) ++ numbered.filter fun q => own q && decide (q.2.kind ≠ 1)
  match s.placeRegions todo { used := s.usedPages ++ hostPages, at_ := [] } with
  | none => none
  | some (placed, t) =>
    let bolts := (List.range 4).filter fun b => p.groups.any fun g => decide (g.bolt = b)
    let ans := bolts.foldl (fun (a : Option (List (Nat × Nat) × Taker)) b =>
      match a with
      | none => none
      | some (l, t) => (t.takeAny ((s.boltStacks b).map s.stackRange) 0).map fun q => (l ++ [(b, q.1)], q.2.2)) (some ([], t))
    ans.map fun a => (placed, a.1)

/-- The context as a plan's placement leaves it: the host-visible region in the first range that leaves room for all the rest; none where no
range does (log entry 32). -/
def State.place (s : State) (p : Plan) : Option Ctx :=
  let numbered := p.regions.zipIdx.map fun q => (q.2, q.1)
  let gib := p.demand 15 0
  let pagesAt (a : Nat) : List Nat := (List.range (gib * 16384)).map fun k => a + 65536 * k
  match (s.hostRanges s.usedPages gib).findSome? fun a => (s.placePages p (pagesAt a)).map fun r => (pagesAt a, r) with
  | none => none
  | some (hostPages, placed, ans) =>
    let pagesFor (q : Nat × Region) : List Nat :=
      match q.2.kind with
      | 4 => hostPages.take (pagesOf q.2.size)
      | 5 => (List.range (pagesOf q.2.size)).map fun k => hostBase + q.2.host + 65536 * k
      | _ => ((placed.find? fun e => decide (e.1 = q.1)).map (·.2)).getD []
    let counts (f : Nat → Nat) : List Nat := (List.range 4).map f
    let bases (free : Nat → List Bool) (f : Nat → Nat) : List Nat :=
      (List.range 4).map fun b => if f b = 0 then 0 else firstRun (free b) (f b)
    let fq (b : Nat) : Nat := p.demand 10 b
    some {
      st := .loading
      groups := s.placeGroups p.groups
      regions := p.regions
      cads := p.cads
      movBase := bases s.freeMovers p.moversOn, movCount := counts p.moversOn
      fqBase := bases s.freeQueues fq, fqCount := counts fq
      ctrBase := bases s.freeCounters p.countersOn, ctrCount := counts p.countersOn
      tables := (ofType p.sects 7).map (·.arg)
      pages := (numbered.filter fun q => decide (q.2.kind ≠ 3)).flatMap fun q =>
        (pagesFor q).zipIdx.map fun e => (q.2.va + 65536 * e.2, e.1)
      pool := (numbered.filter fun q => decide (q.2.kind = 3)).flatMap fun q => (pagesFor q).map fun a => (q.2.va, a)
      answer := ans.foldl (fun m q => Tab.put none m q.1 (some q.2)) [] }

end Sys2Proof.Machine
end

