-- ==== Sys2Proof/Machine/Load.lean ====
section
/-!
DEFINITION. Loading an image (R246, R249–R251, R256, R382, R383): its first two steps at the command, and the rest once its copying has
ended.
-/

namespace Sys2Proof.Machine

/-! ### Keys, digests, host bytes -/

/-- A number as 32 bytes, most significant first (R379). -/
def digestBytes (d : BitVec 256) : List Byte := (toLe 32 d.toNat).reverse
/-- The number that bytes spell, most significant first. -/
def ofBe (l : List Byte) : Nat := ofLe l.reverse

/-- A signer identity of Table 16-11, as ASCII. -/
def identity (s : String) : List Byte := s.toList.map fun c => BitVec.ofNat 8 c.toNat

/-- The key of a slot, x ‖ y (Table 16-15). -/
def Policy.key (p : Policy) (k : Nat) : List Byte := (List.range 16).flatMap fun i => toLe 4 (Tab.look 0 p.keys (16 * k + i)).toNat

/-- The policy as it stands (R382). -/
def State.policy (s : State) : Policy :=
  { requireSigned := s.trust.requireSigned, keyValid := s.trust.keyValid, unsignedPriv := s.trust.unsignedPriv
    keys := s.trust.keys, keyPriv := s.trust.keyPriv }

/-- Firmware reads host memory, through the cache as every requester does (R221); none where the link is not UP or the host refuses
(R222, R224). -/
def State.fwRead (s : State) (a n : Nat) (refused : Bool) : Option (List Byte) × State :=
  if s.linkUp && !refused then
    let r := s.hostRead a n
    (some r.1, r.2)
  else (none, s)

/-! ### The policy (R246, R383) -/

/-- The image digest: of what comes before the trailer (R246). -/
def imageDigest (l : List Byte) (signed : Bool) : BitVec 256 := Config.sm3 (if signed then l.take (l.length - 128) else l)

/-- The slot whose key signed the image, where the signature is valid. -/
def Policy.signer (p : Policy) (l : List Byte) (digest : BitVec 256) : Option Nat :=
  let t := l.drop (l.length - 128)
  if !zeroAt t 96 32 then none
  else (List.range 4).find? fun k =>
    p.keyValid.getLsbD k && decide (digestBytes (Config.sm3 (p.key k)) = t.take 32)
      && Config.sm2Verify (BitVec.ofNat 512 (ofBe (p.key k))) (identity "CERHEBY-IMG") digest
        (BitVec.ofNat 512 (ofBe ((t.drop 32).take 64)))

/-- CSR blocks that hold no secure register: TOP, CLK, TIME, BRS, CMD (R357). -/
def openBlocks : List Nat := [0, 1, 2, 11, 12]

/-- Table 16-13: the DETAIL of DENIED, or the slot recorded. -/
def Policy.verdict (p : Policy) (l : List Byte) (signed : Bool) (priv : Nat) (digest : BitVec 256) : Except Nat Nat :=
  let granted (mask : BitVec 3) (slot : Nat) : Except Nat Nat :=
    if ((List.range 3).all fun i => !bitOf priv i || mask.getLsbD i)
        && (List.range 18).all fun j => !bitOf priv (16 + j) || openBlocks.contains j then .ok slot else .error 3
  if signed then
    match p.signer l digest with
    | some k => granted (Tab.look 0 p.keyPriv k) k
    | none => .error 2
  else if p.requireSigned then .error 1
  else granted p.unsignedPriv 0

/-! ### The copy (step 3) -/

/-- The region of a virtual address. -/
def Ctx.regionAt (x : Ctx) (va : Nat) : Option Region :=
  x.regions.find? fun r => decide (r.va ≤ va) && decide (va < r.va + 65536 * pagesOf r.size)

/-- Where a byte of a region goes: into its page, or into its host memory where the region is backed by that. -/
def State.placeAt (s : State) (c va : Nat) : Option Nat :=
  match (s.ctx c).regionAt va with
  | some r => if r.kind = 3 then some (hostBase + r.host + (va - r.va)) else s.ctxPhys c va
  | none => none

/-- Physical descriptors that copy a PLACE section of an image, one for each stretch within a page of image and region. -/
def State.placeCut (s : State) (c va from_ : Nat) : Nat → Nat → Nat → List FwPiece
  | 0, _, _ => []
  | fuel + 1, pos, left =>
    if left = 0 then []
    else
      let n := min left (min (65536 - (va + pos) % 65536) (65536 - (from_ + pos) % 65536))
      let rest := s.placeCut c va from_ fuel (pos + n) (left - n)
      match s.placeAt c (va + pos) with
      | some to_ => ⟨physWords 1 (hostBase + from_ + pos) to_ n, pos⟩ :: rest
      | none => rest

/-- Every PLACE section. -/
def State.placePieces (s : State) (c : Nat) (j : Load) : List FwPiece :=
  (ofType j.sects 6).flatMap fun x => match (s.ctx c).regions[fld x.arg 56 8]? with
    | some r => s.placeCut c (r.va + fld x.arg 0 48) (j.image + x.off) (2 * (x.size / 65536) + 4) 0 x.size
    | none => []

/-- A TABLE_LOAD for every TABLE section. -/
def Load.tablePieces (j : Load) : List FwPiece :=
  (ofType j.sects 7).map fun x => ⟨physWords 6 (hostBase + j.image + x.off) 0 16448 |>.modifyHead (· + BitVec.ofNat 64 (x.arg % 64 * 2 ^ 42)), 0⟩

/-- Every other element, from the first on. -/
def alternate {α : Type} : List α → List α
  | [] => []
  | [a] => [a]
  | a :: _ :: r => a :: alternate r

/-- The chains of descriptors of a load: the PLACE sections by turns on mv30 and mv31 of bolt 0, the tables on mv30 of every bolt (R187, R249;
log entry 30). -/
def State.loadChains (s : State) (c : Nat) (j : Load) : List ((Nat × Nat) × List FwPiece) :=
  let l := s.placePieces c j
  let t := j.tablePieces
  ([((0, 30), alternate l ++ t), ((0, 31), alternate (l.drop 1)), ((1, 30), t), ((2, 30), t), ((3, 30), t)] :
    List ((Nat × Nat) × List FwPiece)).filter fun q => !q.2.isEmpty

/-- Put the copying of a load on the firmware movers; it has ended at once where there is nothing to copy. -/
def State.queueCopies (s : State) (c : Nat) (j : Load) : State :=
  let chains := s.loadChains c j
  let s := s.setCtx c { s.ctx c with
    load := some { j with left := chains.length, worst := 1, copied := if chains = [] then some 1 else none } }
  forAll chains s fun s q => s.queueWork q.1.1 q.1.2 c (.load c) q.2 false false

/-- A firmware mover that loads need has no entry free. -/
def State.loadFull (s : State) : Bool :=
  ([(0, 30), (0, 31), (1, 30), (2, 30), (3, 30)] : List (Nat × Nat)).any fun q => decide (16 ≤ (s.mover q.1 q.2).depth)

/-! ### The first two steps -/

/-- Read an image and check it; a read that fails is DETAIL 4 (Table 10-11, R224). -/
def State.readImage (s : State) (image length : Nat) (refused : Bool) : Except Nat Plan × State :=
  match s.fwRead image length refused with
  | (none, s) => (.error 4, s)
  | (some l, s) => (parseImage l length, s)

/-- Steps 1 and 2 of R249 for the slot that accepted the load: the image is read and checked, and all it demands is held; then its copying is
queued. Every other outcome leaves the context UNLOADED. -/
def State.beginLoad (s : State) (n c image length shortfall : Nat) (refused : Bool) : State :=
  match s.readImage image length refused with
  | (.error d, s) => s.complete n 1 d []
  | (.ok p, s) =>
    let short := s.shortOf p.demands
    match short with
    | q :: _ => (s.writeShortfall shortfall short).complete n 7 q.code []
    | [] =>
      match s.place p with
      | none => s.complete n 7 4 []
      | some x =>
        (s.setCtx c x).queueCopies c {
          slot := n, image := image, length := length, shortfall := shortfall, signed := p.signed, sects := p.sects
          queues := p.queues, exports := p.exports, priv := p.priv, policy := s.policy, demands := p.demands }

/-- FIT_CHECK: step 2 alone, holding nothing (R251). -/
def State.fitCheck (s : State) (n image length shortfall : Nat) (refused : Bool) : State :=
  match s.readImage image length refused with
  | (.error d, s) => s.complete n 1 d []
  | (.ok p, s) =>
    let short := s.shortOf p.demands
    let s := if short = [] then s else s.writeShortfall shortfall short
    let code := match short with | q :: _ => q.code | [] => 0
    s.complete n (if short = [] then 0 else 7) code [BitVec.ofNat 64 short.length]

/-! ### Retirements during a load (R250) -/

/-- A page that the load holds has retired: a free page of the same bolt, or stack, takes its place. Answers the code and the scope that are
short. A page of the host-visible region is replaced by one of its stack, next to which the others stay (log entry 178). -/
def State.replacePage (s : State) (c : Nat) (va pa : Nat) : Except (Nat × Nat) State :=
  let x := s.ctx c
  let r := x.regionAt va
  let stack := match targetOf pa with | .hbm n => n | _ => 0
  let ranges := match r with
    | some r => if r.kind = 4 then [s.stackRange stack] else s.rangesOf r
    | none => match targetOf pa with | .hbm n => (s.boltStacks (n / 6)).map s.stackRange | _ => []
  let taker : Taker := { used := s.usedPages, at_ := [] }
  match taker.takeAny ranges 0 with
  | some (a, _, _) => .ok (s.setCtx c { x with
      pages := x.pages.map fun p => if p.2 = pa then (p.1, a) else p
      pool := x.pool.map fun p => if p.2 = pa then (p.1, a) else p
      answer := Tab.mapAll none (fun _ q => if q = some pa then some a else q) x.answer })
  | none => .error (match r with
    | some r => if r.kind = 1 then (5, stack) else if r.kind = 2 then (3, r.bolt) else if r.kind = 4 then (15, 0) else (4, stack / 6)
    | none => (4, stack / 6))

/-- Pages held by the load, with the address that says which region they serve. -/
def Ctx.placedPages (x : Ctx) : List (Nat × Nat) := x.pages ++ x.pool ++ x.answer.filterMap fun q => q.2.map fun a => (answerBase + q.1 * 65536, a)

/-- Put a page in the place of every one that has retired since the fit. -/
def State.replaceRetired (s : State) (c : Nat) : Except (Nat × Nat) State :=
  ((s.ctx c).placedPages.filter fun p => Tab.look false s.mem.badPages p.2).foldl (fun (a : Except (Nat × Nat) State) p =>
    match a with
    | .ok s => s.replacePage c p.1 p.2
    | .error e => .error e) (.ok s)

/-! ### Grants and tables (step 5) -/

/-- Insert a run of leaves by its first address. -/
def insertRun (x : Nat × List (Nat × W64)) : List (Nat × List (Nat × W64)) → List (Nat × List (Nat × W64))
  | [] => [x]
  | y :: r => if x.1 ≤ y.1 then x :: y :: r else y :: insertRun x r

/-- Firmware's mapping record of a loaded context (R148, R161, R164): its regions, its answer pages, the CSR pages granted (R126) and the
Silt windows of its own tiles, except where a region lies (log entry 26). -/
def Ctx.mapping (x : Ctx) : List (Nat × W64) :=
  let region (r : Region) : Nat × List (Nat × W64) :=
    (r.va, if r.kind = 3 then (List.range (pagesOf r.size)).map fun k => (r.va + 65536 * k, 0)
      else (x.pages.filter fun p => decide (r.va ≤ p.1) && decide (p.1 < r.va + 65536 * pagesOf r.size)).map fun p =>
        (p.1, leafOf p.2 r.rights))
  let free (a : Nat) : Bool := (x.regionAt a).isNone
  let answers := x.answer.filterMap fun q => q.2.map fun a => (answerBase + q.1 * 65536, [(answerBase + q.1 * 65536, leafOf a 3)])
  let csr := (((List.range 18).filter fun j => x.csrBlocks.getLsbD j).map fun j => csrBase + j * 0x1000000).filter free
  let silt := (x.groups.flatMap fun g => (List.range 128).map fun k => siltBase + g.phys * 0x800000 + 65536 * k).filter free
  let runs := x.regions.map region ++ answers ++ csr.map (fun a => (a, [(a, leafOf a 9)])) ++ silt.map fun a => (a, [(a, leafOf a 11)])
  ((runs.foldl (fun l r => insertRun r l) []).map (·.2)).flatten

/-- Where a context's tables go in every reserve: the lowest place that no other context's tables overlap (log entry 26). -/
def State.tableBase (s : State) (c : Nat) (x : Ctx) : Nat :=
  let others := (s.ctxs.filter fun p => decide (p.1 ≠ c) && decide (p.2.map ≠ [])).map fun p => (p.2.tabBase, p.2.tableBytes)
  let n := x.tableBytes
  let clear (a : Nat) : Bool := others.all fun o => decide (a + n ≤ o.1) || decide (o.1 + o.2 ≤ a)
  let places := 0x10000000 :: others.map fun o => o.1 + o.2
  (places.filter clear).foldl min ((places.foldl max 0))

/-- The leaves and tables of a context, and its MMU_CTX (R148, R149). -/
def State.mapContext (s : State) (c : Nat) : State :=
  let x := s.ctx c
  let x := { x with map := x.mapping }
  let x := { x with tabBase := s.tableBase c x }
  let s := (s.setCtx c x).writeTables c
  { s with mmu := { s.mmu with
    ctx := Tab.put 0 s.mmu.ctx c (reg (2 ^ 31 + b2n (x.priv.getLsbD 0) * 2 ^ 30 + c)) } }

/-- The exports of a loaded context, with their physical counters, and the export map (R207). -/
def State.addExports (s : State) (c : Nat) (l : List Export) : State :=
  let x := s.ctx c
  let l := l.map fun (e : Export) => { e with ctx := c, ctrFirst := x.ctrBase.getD e.ctrBolt 0 + e.ctrFirst }
  let pages := l.flatMap fun e =>
    (x.pages.filter fun p => decide (p.1 < e.va + e.size) && decide (e.va < p.1 + 65536)).map fun p => (p.2 / 65536, e.rights)
  { s with gz := { s.gz with
    exports := s.gz.exports ++ l
    exportMap := pages.foldl (fun m p => Tab.put 0 m p.1 (Tab.look 0 m p.1 ||| p.2)) s.gz.exportMap } }

/-- The grants of a loaded context (R256): movers, counters, which start from zero, fabric queues, which are enabled (R415), and
cadences. -/
def State.grant (s : State) (c : Nat) (j : Load) : State :=
  let x := s.ctx c
  let s := forAll x.movers s fun s p => s.setMover p.1 p.2 { s.mover p.1 p.2 with granted := true, ctx := BitVec.ofNat 4 c }
  let s := forAll (List.range 4) s fun s b => forAll (runOf x.ctrBase x.ctrCount b) s fun s k =>
    let s := s.setCtr (256 * b + k) 0
    { s with eng := { s.eng with ctrGrant := Tab.put none s.eng.ctrGrant (256 * b + k) (some c) } }
  let s := forAll (List.range 4) s fun s b =>
    forAll ((j.queues.filter fun q => decide (q.bolt = b)).zipIdx) s fun s q =>
      let i := 16 * b + (x.fqBase.getD b 0 + q.2)
      let s := { s with gz := { s.gz with collIn := Tab.put [] s.gz.collIn i [] } }
      s.setFqueue b (x.fqBase.getD b 0 + q.2) {
        en := true, granted := true, ctx := BitVec.ofNat 4 c, size := BitVec.ofNat 4 q.1.size
        mover := BitVec.ofNat 5 (x.movBase.getD b 0 + q.1.mover)
        doorbell := BitVec.ofNat 8 (x.ctrBase.getD b 0 + q.1.doorbell), cad := q.1.cad, cadence := BitVec.ofNat 6 q.1.cadence }
  let s := forAll x.cads s fun s d => s.setCad d.number { s.cad d.number with ctx := BitVec.ofNat 4 c }
  s.addExports c j.exports

/-! ### The end of a load -/

/-- A load ends with an outcome other than OK: everything held is released (R249). -/
def State.failLoad (s : State) (c : Nat) (j : Load) (status detail : Nat) (result : List W64) : State :=
  (s.unload c).complete j.slot status detail result

/-- Words of a record that carry the digest (Table 9-7). -/
def digestWords (d : BitVec 256) : List W64 := wordsOf 4 (digestBytes d)

/-- The outcome of a copying that did not end OK: a lost host read, or a descriptor turned away or failed (Table 10-11). -/
def copyOutcome (status : Nat) : Nat × Nat := if status = 5 ∨ status = 7 then (1, 4) else (commandStatus status, 0)

/-- Steps 3 to 5 of R249, once the copying has ended with a descriptor status. A page that retired meanwhile is replaced, and the sections are
copied again (R250). -/
def State.finishLoad (s : State) (c : Nat) (j : Load) (status : Nat) : State :=
  let x := s.ctx c
  let lost := x.placedPages.any fun p => match targetOf p.2 with | .hbm n => !s.stackUp n | _ => false
  let (l, s) := s.fwRead j.image j.length false
  let image := l.getD []
  let digest := imageDigest image j.signed
  let res := if l.isSome then digestWords digest else []
  -- the record has the resource that ran short, with what is free now
  let short (scopes : List (Nat × Nat)) : State :=
    let need := (s.needs j.demands).filter fun n => scopes.contains (n.code, n.scope)
    (s.writeShortfall j.shortfall need).failLoad c j 7 ((scopes.head?.map (·.1)).getD 0) res
  let unhealthy := (x.groups.filter fun g => !s.groupHealthy g.phys).map fun g => (1, g.bolt)
  if lost then s.failLoad c j 1 5 res
  else if status ≠ 1 then s.failLoad c j (copyOutcome status).1 (copyOutcome status).2 []
  else if l.isNone then s.failLoad c j 1 4 []
  else if unhealthy ≠ [] then short unhealthy
  else match s.replaceRetired c with
    | .error q => short [q]
    | .ok s' =>
      if s'.ctx c ≠ x then s'.queueCopies c j
      else match j.policy.verdict image j.signed j.priv digest with
        | .error d => s.failLoad c j 9 d res
        | .ok slot =>
          let s := s.setCtx c { x with
            st := .loaded, load := none, digest := digest, signed := j.signed, keySlot := BitVec.ofNat 2 slot
            siltInits := (ofType j.sects 8).map fun y => (fld y.arg 56 6, fld y.arg 0 19, y.body image)
            priv := BitVec.ofNat 3 j.priv, csrBlocks := BitVec.ofNat 18 (fld j.priv 16 18), loadGt := s.gtLow }
          ((s.grant c j).mapContext c).complete j.slot 0 0 res

/-- Finish every load whose copying has ended, and drop one whose handle a transition has completed. -/
def State.finishLoads (s : State) : State :=
  forAll (List.range 16) s fun s c =>
    match (s.ctx c).load with
    | none => s
    | some j =>
      if (s.slotOf j.slot).st ≠ .outstanding then s.unload c
      else match j.copied with
        | some st => s.finishLoad c j st
        | none => s

end Sys2Proof.Machine
end

