-- ==== Sys2Proof/Machine/MoverFamily.lean ====
section
/-!
DEFINITION. The commands of movers and expanders (R167–R189): descriptors, accesses, completions, and turning both on and off.
-/

namespace Sys2Proof.Machine

/-- A command of a mover: what it retires is settled, and whatever waited for the mover's work goes on, a load among it (R249). -/
def moved (before after : State) : Out := .next (settle before after).finishLoads.checkAll

/-- COPY (R167). -/
def execCopy (b : Fin 4) (m : Fin 32) (s : State) : Out := moved s (s.startDescriptor b m 1)
/-- FILL (R167). -/
def execFill (b : Fin 4) (m : Fin 32) (s : State) : Out := moved s (s.startDescriptor b m 2)
/-- GATHER (R171). -/
def execGather (b : Fin 4) (m : Fin 32) (s : State) : Out := moved s (s.startDescriptor b m 3)
/-- SCATTER (R171). -/
def execScatter (b : Fin 4) (m : Fin 32) (s : State) : Out := moved s (s.startDescriptor b m 4)
/-- EXPAND (R183). -/
def execExpand (b : Fin 4) (m : Fin 32) (s : State) : Out := moved s (s.startDescriptor b m 5)
/-- TABLE_LOAD (R186). -/
def execTableLoad (b : Fin 4) (m : Fin 32) (s : State) : Out := moved s (s.startDescriptor b m 6)
/-- A response to one access (R177). -/
def execMoverAccessResponse (b : Fin 4) (m : Fin 32) (x : Answer) (s : State) : Out := moved s (s.moverResponse b m x)
/-- A descriptor completes (R175). -/
def execDescriptorComplete (b : Fin 4) (m : Fin 32) (s : State) : Out := moved s (s.descriptorComplete b m)
/-- A mover reaches a safe point (R178, R181). -/
def execMoverSafePoint (b : Fin 4) (m : Fin 32) (s : State) : Out := moved s (s.moverSafePoint b m)
/-- MOV_CTRL.EN is cleared (R178). CAUSE is 0 (Table 7-1). -/
def execMoverEnClear (b : Fin 4) (m : Fin 32) (drain : Bool) (p : Path) (s : State) : Out :=
  moved s (s.secured p fun s => s.moverOff b m drain 0)
/-- MOV_CTRL.EN is set (R179); not in FAULTED (R415). -/
def execMoverEnSet (b : Fin 4) (m : Fin 32) (p : Path) (s : State) : Out :=
  moved s (s.secured p fun s => if s.top.st = .faulted then s else s.moverOn b m)
/-- MOV_CTRL.SUSPEND is set (R181). -/
def execMoverSuspend (b : Fin 4) (m : Fin 32) (p : Path) (s : State) : Out :=
  moved s (s.secured p fun s => s.moverHold b m)
/-- MOV_CTRL.SUSPEND is cleared (R181). -/
def execMoverUnsuspend (b : Fin 4) (m : Fin 32) (p : Path) (s : State) : Out :=
  moved s (s.secured p fun s => s.moverResume b m)
/-- MOV_CTRL.RESTART (R413). -/
def execMoverRestart (b : Fin 4) (m : Fin 32) (p : Path) (s : State) : Out :=
  moved s (s.secured p fun s => s.moverRestart b m)
/-- MOV_CTRL.ABANDON (R413). -/
def execMoverAbandon (b : Fin 4) (m : Fin 32) (p : Path) (s : State) : Out :=
  moved s (s.secured p fun s => s.abandon b m)
/-- A read of MOV_CUR_LO latches CURSOR_HI (Table 7-9). -/
def execMovCurLoRead (b : Fin 4) (m : Fin 32) (s : State) : Out :=
  .next (s.readEffect 8 (0x200 * b.val + 16 * m.val + 8) 2)
/-- The expander's next block of a descriptor (R183, R188). -/
def execExpanderBlockDone (x : Fin 24) (m : Fin 32) (s : State) : Out := moved s (s.expanderBlock x m)
/-- EXP_CTRL.EN is cleared (R178). -/
def execExpanderEnClear (x : Fin 24) (drain : Bool) (p : Path) (s : State) : Out :=
  moved s (s.secured p fun s => s.expanderOff x drain)
/-- EXP_CTRL.EN is set (R179); not in FAULTED (R415). -/
def execExpanderEnSet (x : Fin 24) (p : Path) (s : State) : Out := 
  moved s (s.secured p fun s => if s.top.st = .faulted then s else s.expanderOn x)

end Sys2Proof.Machine
end

