-- ==== Sys2Proof/Machine/Links.lean ====
section
/-!
DEFINITION. Gauze ports (R191–R201): frames received, failure and training of a link, turning a port off; the route table (R198), and what
becomes of the packets of a route that is lost (R199, R201).
-/

namespace Sys2Proof.Machine

/-! ### Requests that end without a response -/

/-- Change the descriptor of a fabric queue that carries a number. -/
def State.onDesc (s : State) (b q n : Nat) (f : FabDesc → FabDesc) : State :=
  let k := s.fqueue b q
  s.setFqueue b q { k with flight := k.flight.map fun d => if d.num = n then f d else d }

/-- One request of a descriptor ends with a status: the first one that is not 0 decides, and the cursor falls back to the lowest byte not
known performed (R160, R211). -/
def FabDesc.reqEnded (d : FabDesc) (status off : Nat) : FabDesc :=
  let d := { d with missing := d.missing - 1 }
  let d := if status = 0 then d
    else { d with verdict := some (d.verdict.getD (status, 0)), cursor := min d.cursor off }
  if d.verdict.isSome then { d with done := d.missing = 0 } else d

/-- A request ends without a response: a far access as for a lost peer (R206), a descriptor with a status. -/
def State.failTxn (s : State) (t : Txn) (status : Nat) : State :=
  let s := { s with gz := { s.gz with txns := s.gz.txns.filter fun u => decide (u.num ≠ t.num) } }
  match t.who with
  | .far k id =>
    match (s.tile k).far.find? fun f => decide (f.id = id) with
    | some f => s.endFar k f (.lost (some t.peer.toNat))
    | none => s
  | .desc b q n off => s.onDesc b q n fun d => d.reqEnded status off
  | .none => s

/-! ### Routes (R198, R199) -/

/-- Ports of this module that carry packets, with the member at the far end. -/
def State.links (s : State) : List (Nat × Nat) :=
  (s.upPorts.filter fun p => s.isMember (s.port p).peerMember.toNat).map fun p => (p, (s.port p).peerMember.toNat)

/-- Links from a neighbour's side to a member, this module's own link included: one to three, none beyond (R198). -/
def State.distance (s : State) (n dst : Nat) : Option Nat :=
  let next (k : Nat) : List Nat := (Config.neighbours k).filter fun j => s.isMember j
  if n = dst then some 1
  else if (next n).contains dst then some 2
  else if (next n).any fun k => (next k).contains dst then some 3
  else none

/-- Links of the shortest path to a member, by this module's wiring: one to three, none beyond (R198). -/
def State.linksTo (s : State) (dst : Nat) : Option Nat :=
  [1, 2, 3].find? fun d => s.links.any fun p => decide (s.distance p.2 dst = some d)

/-- The ports of the shortest paths to a member, lower numbers first. -/
def State.portsTo (s : State) (dst : Nat) : List Nat :=
  match s.linksTo dst with
  | some d => (s.links.filter fun p => decide (s.distance p.2 dst = some d)).map (·.1)
  | none => []

/-- The route table: the 16 flows of each member spread over its ports; 0xFE for the module itself (Table 9-13). -/
def State.newRoutes (s : State) : Tab Byte :=
  ((List.range 64).filter fun m => s.isMember m).foldl (fun r m =>
    let l := if m = s.gz.me.toNat then [0xFE] else s.portsTo m
    (List.range 16).foldl (fun r f => Tab.put 0xFF r (16 * m + f) (BitVec.ofNat 8 (l.getD (f % l.length) 0xFF))) r) []

/-- Send again what waits for a route. -/
def State.flushWaiting (s : State) : State :=
  forAll s.gz.sent { s with gz := { s.gz with sent := [] } } fun s k => s.sendPacket k

/-- A packet on its new route, past the freeze of its flow: it was sent on the old one (R199). -/
def State.resend (s : State) (k : Packet) : State :=
  let s := { s with gz := { s.gz with txns := s.gz.txns.map fun (t : Txn) => if decide (t.num = k.txn) && decide (k.cls = 0) then { t with old := false } else t } }
  let r := s.routeOf k.dst k.flow
  if r < 32 ∧ (s.port r).carries = true then s.queueOn r k
  else { s with gz := { s.gz with sent := s.gz.sent ++ [k] } }

/-- Load new routes. Flows whose route changed freeze behind the requests they sent on the old one; the packets `back` of a lost link are
sent again first. A member that no route reaches any more is cut off from now on (R206). -/
def State.reroute (s : State) (back : List Packet) : State :=
  let new := if s.gz.joined then s.newRoutes else []
  let changed (t : Txn) : Bool :=
    let i := 16 * t.peer.toNat + t.flow.toNat
    decide (Tab.look 0xFF s.gz.routes i ≠ Tab.look 0xFF new i) && decide (Tab.look 0xFF s.gz.routes i ≠ 0xFF)
      && !s.gz.sent.any fun k => decide (k.txn = t.num) && decide (k.cls = 0)
  let cut (m : Nat) : Bool := s.isMember m && decide (m ≠ s.gz.me.toNat) && (s.portsTo m).isEmpty
  let s := { s with gz := { s.gz with
    routes := new
    cutSince := (List.range 64).foldl (fun l m =>
      Tab.put none l m (if cut m then some ((Tab.look none s.gz.cutSince m).getD s.clk.gt) else none)) []
    txns := s.gz.txns.map fun (t : Txn) => if changed t then { t with old := true } else t } }
  (forAll back s fun s k => s.resend k).flushWaiting

/-! ### Ports -/

/-- What a port still holds: packets of frames not acknowledged, then packets waiting. -/
def Port.holds (p : Port) : List Packet := (p.unacked.flatMap (·.packets)) ++ p.txq

/-- A port whose link starts afresh: sequence numbers, credits and buffers as at training. -/
def Port.fresh (p : Port) (st : PortState) : Port :=
  { p with
    st := st, txSeq := 0, rxSeq := 0, unacked := [], txq := [], replays := 0, creditsUsed := [], partBytes := []
    ackDue := false, nakDue := false, rxBuf := [], creditsDue := [], lanes := 0 }

/-- A port whose link stays while the module is reset: what it held for others is gone, its receiver's buffer is free, and the departure it has
to tell its peers still goes out (R206). -/
def Port.cleared (p : Port) : Port :=
  { p with
    txq := p.txq.filter fun k => decide (k.typ = 0x30), partBytes := [], rxBuf := []
    creditsDue := p.rxBuf.foldl (fun t k => Tab.put 0 t (packetVc k) (Tab.look 0 t (packetVc k) + packetCells k)) p.creditsDue }

/-- A draining port with nothing left is DISABLED (R201). -/
def Port.rest (p : Port) : Port := if decide (p.st = .draining) && p.unacked.isEmpty && p.txq.isEmpty then p.fresh .disabled else p

/-- The frame's bits with its CRC (Table 8-2). -/
def frameGood (r : RxFrame) : Bool :=
  r.fecOk && decide (r.bytes.length = 640)
    && decide ((crc32Bits ((List.range 20).map (bitOf r.lcw.toNat) ++ bitsLsb (r.bytes.take 636))).toNat = ofLe (r.bytes.drop 636))

/-- The packet whose header and payload are at the front of a byte string (Table 8-6); none for a padding cell. -/
def packetOf (l : List Byte) : Packet :=
  let w (k : Nat) : Nat := ofLe ((l.drop (8 * k)).take 8)
  { typ := BitVec.ofNat 8 (w 0 / 2 ^ 56), cls := BitVec.ofNat 2 (w 0 / 2 ^ 54), hop := BitVec.ofNat 2 (w 0 / 2 ^ 52)
    dst := BitVec.ofNat 6 (w 0 / 2 ^ 46), src := BitVec.ofNat 6 (w 0 / 2 ^ 40), flow := BitVec.ofNat 4 (w 0 / 2 ^ 36)
    len := fld (w 0) 27 9, epoch := BitVec.ofNat 16 (w 0), addr := BitVec.ofNat 64 (w 1)
    tagged := bitOf (w 2) 63, cadence := BitVec.ofNat 6 (w 2 / 2 ^ 57), period := BitVec.ofNat 9 (w 2 / 2 ^ 48)
    txn := BitVec.ofNat 32 (w 2), ctr := BitVec.ofNat 10 (w 3 / 2 ^ 48), inc := BitVec.ofNat 16 (w 3 / 2 ^ 32)
    rstatus := BitVec.ofNat 8 (w 3 / 2 ^ 24), aop := BitVec.ofNat 4 (w 3 / 2 ^ 16), seq := BitVec.ofNat 16 (w 3)
    payload := (l.drop 32).take (fld (w 0) 27 9) }

/-- Payload bytes that follow the header of a packet: a load or get carries none, whatever its LEN. -/
def carriedBytes (k : Packet) : Nat := if k.typ = 1 ∨ k.typ = 5 then 0 else min k.len 256

/-- Cut whole packets off a byte string; a cell whose TYPE is 0 pads the frame. -/
def cutPackets : Nat → List Byte → List Packet × List Byte
  | 0, l => ([], l)
  | fuel + 1, l =>
    if l.length < 16 then ([], l)
    else if (l.getD 7 0) = 0 then cutPackets fuel (l.drop 16)
    else
      let k := packetOf l
      let n := 32 + (carriedBytes k + 15) / 16 * 16
      if l.length < n then ([], l)
      else
        let (r, rest) := cutPackets fuel (l.drop n)
        ({ k with payload := k.payload.take (carriedBytes k) } :: r, rest)

/-- Acknowledge frames up to a number, if it is among those kept. -/
def Port.acked (p : Port) (seq : BitVec 12) : Port :=
  if p.unacked.any fun f => decide (f.seq = seq) then
    { p with unacked := (p.unacked.dropWhile fun f => decide (f.seq ≠ seq)).drop 1, replays := 0 }
  else p

/-- The link header of a good frame (Table 8-3): a NAK has what it does not acknowledge sent again. -/
def Port.header (p : Port) (l : List Byte) : Port :=
  let h := ofLe (l.take 2)
  let p := if bitOf h 3 || bitOf h 2 then p.acked (BitVec.ofNat 12 (h / 16)) else p
  let p := if bitOf h 2 && p.unacked ≠ [] then p.replay else p
  (List.range 4).foldl (fun (p : Port) i =>
    let c := ofLe ((l.drop (2 + 2 * i)).take 2)
    if c / 4096 < 12 then
      { p with creditsUsed := Tab.put 0 p.creditsUsed (c / 4096) (Tab.look 0 p.creditsUsed (c / 4096) - c % 4096) }
    else p) p

/-- A packet is of class control: MEMBER, TIME_SYNC, PACE (Table 8-7). -/
def isControl (k : Packet) : Bool := decide (0x30 ≤ k.typ.toNat) && decide (k.typ.toNat ≤ 0x32)

/-- Packets that reached this module go to its receiver, others on to the next module with HOP one higher (R198). A module that joins takes
its MEMBER packets before it is a member. What goes neither way leaves the buffer. -/
def State.takePacket (s : State) (k : Packet) : State :=
  if decide (k.dst = s.gz.me) && (s.gz.joined || (s.gz.joining.isSome && isControl k)) then
    { s with gz := { s.gz with arrived := s.gz.arrived ++ [k] } }
  else if s.gz.joined && decide (k.dst ≠ s.gz.me) && decide (k.hop.toNat < 2) then s.sendPacket { k with hop := k.hop + 1 }
  else s.freed k

/-- A packet has been dealt with, and leaves the receiver. -/
def State.dropArrived (s : State) (k : Packet) : State :=
  ({ s with gz := { s.gz with arrived := s.gz.arrived.erase k } } : State).freed k

/-- The packet of a control message has been dealt with: the oldest of its type, from its sender where the message names one. -/
def State.dropControl (s : State) (typ : BitVec 8) (src : Option Nat) : State :=
  match s.gz.arrived.find? fun k => decide (k.typ = typ) && (match src with | some m => decide (k.src.toNat = m) | none => true) with
  | some k => s.dropArrived k
  | none => s

/-- Report source of a port: 7 with its number, 8 for port B. -/
def State.portReport (s : State) (p typ : Nat) (data : List W32) : State :=
  if p = 32 then s.report 8 0 typ none data else s.report 7 (BitVec.ofNat 32 p) typ none data

/-- A frame is discarded, and a NAK sent (R195): for one out of sequence only where none has been sent since the expected SEQ last arrived
(log entry 182). -/
def State.nak (s : State) (n : Nat) (p : Port) (always : Bool) : State :=
  let p := if p.nakDue && !always then p else p.idle true
  s.setPort n { p with nakDue := true }

/-- What the port owes the far end after a frame: the data frames that its header released, and an ACK, by an idle frame where no data frame
has carried it (R195). -/
def State.afterFrame (s : State) (n : Nat) (p : Port) : State :=
  let s := s.pumpPort n p
  let p := s.port n
  s.setPort n (if p.ackDue then p.idle false else p).rest

/-- A frame arrives (R193–R195): a bad one, or one out of sequence, is discarded and NAKed; of a good one the header is taken, then the
cells, whose packets stand in the receiver's buffer until they are dealt with (R194). -/
def State.receive (s : State) (n : Nat) (r : RxFrame) : State :=
  let p := s.port n
  if !s.portCarries n then s
  else if !r.fecOk then (s.nak n { p with uncorrected := p.uncorrected + 1 } true).portReport n 9 [1]
  else
    let typ := fld r.lcw.toNat 18 2
    let seq : BitVec 12 := BitVec.ofNat 12 (fld r.lcw.toNat 6 12)
    if 2 ≤ typ then s
    else if !frameGood r then s.nak n p true
    else if seq ≠ p.rxSeq then s.nak n p false
    else
      let p := { p.header r.bytes with nakDue := false }
      if typ = 1 then s.afterFrame n p
      else
        let c := if n = 32 then ([], []) else cutPackets 80 (p.partBytes ++ (r.bytes.drop 12).take 624)
        let s := s.afterFrame n { p with rxSeq := p.rxSeq + 1, ackDue := true, partBytes := c.2, rxBuf := p.rxBuf ++ c.1 }
        forAll c.1 s fun s k => s.takePacket k

/-- Eight failures within 10 s (R405). -/
def tenSeconds : Nat := 1562500000

/-- A port enters FAILED, which is logged with reason 2. -/
def State.portFailed (s : State) (n : Nat) (p : Port) : State :=
  (s.setPort n { p with st := .failed }).portReport n 0x24 [2]

/-- 100 µs in tt (R196). -/
def hundredMicros : Nat := 15625

/-- The oldest frame has been replayed 16 times, or has stood unacknowledged for 100 µs (R196). -/
def Port.failing (p : Port) (now : W64) : Bool :=
  decide (16 ≤ p.replays) || (match p.unacked with | f :: _ => decide (hundredMicros ≤ (now - f.sentAt).toNat) | [] => false)

/-- A link failure is counted in GZ_PORT_STAT (R196), which has no field of that name: which of its two counts takes it is left open, and is
free (log entry 183). -/
def State.countFailure (s : State) (p : Port) : Port × State :=
  let (v, s) := s.takeFree
  (if v.getLsbD 0 then { p with retries := p.retries + 1 } else { p with uncorrected := p.uncorrected + 1 }, s)

/-- The link of a port fails (R196, R405): it retrains, or enters FAILED; the packets it held are sent again over other routes. The
report's reason is left open, and is free. -/
def State.linkFails (s : State) (n : Nat) : State :=
  let p := s.port n
  if p.carries && p.failing s.clk.gt then
    let back := p.holds
    let times := (p.failTimes.filter fun g => decide ((s.clk.gt - g).toNat < tenSeconds)) ++ [s.clk.gt]
    let (p, s) := s.countFailure p
    let q := { p.fresh .training with failTimes := times, peerValid := false }
    let q := if p.st = .draining then { q with st := .disabled } else q
    let (v, s) := s.takeFree
    let s := (s.setPort n q).portReport n 0x24 [v.setWidth 32]
    let s := if 8 ≤ times.length ∧ q.st = .training then s.portFailed n q else s
    s.reroute back
  else s

/-- The far end that board wiring of N modules gives a port of a member: member position and port (R202); none for an uplink. -/
def boardPeer (n i g : Nat) : Option (Nat × Nat) :=
  let k := g % 8
  if k + 1 < n then
    let j := (i + 1 + k) % n
    some (j, g / 8 * 8 + (i + 2 * n - j - 1) % n)
  else none

/-- What training found breaks the board rule, with positions by member index (R202; log entry 27). -/
def State.miswired (s : State) (g : Nat) (peer : BitVec 6) (pp : BitVec 5) : Bool :=
  let n := if Config.boardOfEight then 8 else 4
  match boardPeer n (s.gz.me.toNat % n) g with
  | some (j, k) => decide (peer.toNat % n ≠ j) || decide (pp.toNat ≠ k)
  | none => false

/-- A trained port is UP; wiring that breaks the board rule is reported (R202). -/
def State.portUp (s : State) (n : Nat) (p : Port) : State :=
  let s := s.setPort n { p with st := .up }
  if s.miswired n p.peerMember p.peerPort then s.portReport n 0x25 [p.peerMember.setWidth 32, p.peerPort.setWidth 32] else s

/-- Training ends (R196). A far end of another domain leaves the port in TRAINING. -/
def State.trained (s : State) (n : Nat) (r : Training) : State :=
  let p := s.port n
  if p.st = .training then
    match r with
    | .failed =>
      let p := { p with fails := p.fails + 1 }
      if 3 ≤ p.fails then s.portFailed n p else (s.setPort n p).portReport n 0x24 [1]
    | .up domain peer pp =>
      let p := { p with peerValid := true, peerMember := peer, peerPort := pp, peerDomain := domain, fails := 0 }
      if domain ≠ s.gz.domain then s.setPort n p else (s.portUp n p).reroute []
  else s

/-- A collective's packet names its queue in FLOW, and its bolt and descriptor in TXN (R199; log entry 184). -/
def collTxn (b num : Nat) : W32 := BitVec.ofNat 32 (4 * num + b)

/-- A packet ends, and with it the operation of this module that carried it (R201). -/
def State.endPacket (s : State) (k : Packet) (status : Nat) : State :=
  if k.hop ≠ 0 then s.freed { k with hop := k.hop - 1 }
  else if k.cls = 2 then
    let b := k.txn.toNat % 4
    let f := s.fqueue b k.flow.toNat
    let end_ (d : FabDesc) : FabDesc :=
      if decide (collTxn b d.num = k.txn) && !d.done then { d with verdict := some (d.verdict.getD (status, 0)), done := true } else d
    s.setFqueue b k.flow.toNat { f with flight := f.flight.map end_ }
  else match s.gz.txns.find? fun t => decide (t.num = k.txn) && decide (k.cls = 0) with
    | some t => s.failTxn t status
    | none => s

/-- Packets of a port turned off that no other route takes end with their operations (R201): those whose route led by it. -/
def State.endUnrouted (s : State) (old : Tab Byte) (n status : Nat) : State :=
  let lost (k : Packet) : Bool :=
    decide (32 ≤ s.routeOf k.dst k.flow) && decide ((Tab.look 0xFF old (16 * k.dst.toNat + k.flow.toNat)).toNat = n)
  let gone := s.gz.sent.filter lost
  forAll gone { s with gz := { s.gz with sent := s.gz.sent.filter fun k => !lost k } } fun s k => s.endPacket k status

/-- Clear EN of a port (R201, R179). -/
def State.portOff (s : State) (n : Nat) (drain : Bool) : State :=
  let p := s.port n
  if p.en || (decide (p.st = .draining) && !drain) then
    let p := { p with en := false, drain := drain }
    if p.carries then
      if drain then ((s.setPort n { p with st := .draining }.rest).reroute []).endUnrouted s.gz.routes n 2
      else ((s.setPort n (p.fresh .disabled)).reroute p.holds).endUnrouted s.gz.routes n 3
    else s.setPort n (p.fresh .disabled)
  else s

/-- Set EN of a port: it trains (R196); EN stays 0 while it drains (R179). -/
def State.portOn (s : State) (n : Nat) (timing : Bool) : State :=
  let p := s.port n
  if p.en then s.setPort n { p with timing := timing }
  else if p.st = .draining ∨ p.st = .aborting then s.setPort n { p with timing := timing }
  else s.setPort n { p.fresh .training with en := true, drain := false, timing := timing, fails := 0 }

/-- RETRAIN: FAILED is left for TRAINING; ignored otherwise (Table 8-4). -/
def State.retrain (s : State) (n : Nat) : State :=
  let p := s.port n
  if p.st = .failed then s.setPort n { p.fresh .training with fails := 0, failTimes := [] } else s

end Sys2Proof.Machine
end

