-- ==== Sys2Proof/Machine/Domain.lean ====
section
/-!
DEFINITION. The domain (R203–R206) and its clock (R217, R218, R280): joining, epochs, lost members, leaving, timing ports and global time.
-/

namespace Sys2Proof.Machine

/-! ### Membership -/

/-- This module's index as MEMBER packets carry it. -/
def State.self (s : State) : Fin 64 := Fin.ofNat 64 s.gz.me.toNat

def bit64 (m : Nat) : W64 := BitVec.ofNat 64 (2 ^ m)

/-- A descriptor meets the loss of a member (R211, R215): a collective over a ring with it stops at once; another that names it ends when its
last request has. -/
def FabDesc.peerLost (m : Nat) (d : FabDesc) : FabDesc :=
  let w0 := (wordAt d.words 0).toNat
  let op := fld w0 58 6
  if d.done || d.verdict.isSome then d
  else if 16 ≤ op then (if d.ring.contains m then { d with verdict := some (5, 0), done := true } else d)
  else if (op ≤ 4 ∧ fld w0 46 6 = m) ∨ (op = 5 ∧ (wordAt d.words 7).getLsbD m ∧ d.issued = false) then
    { d with verdict := some (5, 0), done := d.missing = 0 }
  else d

/-- What the loss of a member does once the epoch without it is adopted (R206): its outstanding requests end, and it is reported. -/
def State.memberGone (s : State) (m : Nat) : State :=
  let s := forAll (s.gz.txns.filter fun t => decide (t.peer.toNat = m)) s fun s t => s.failTxn t 5
  let lost (k : Packet) : Bool := decide (k.dst.toNat = m) && decide (k.cls ≠ 3)
  let gone := s.gz.sent.filter lost ++ (List.range 32).flatMap fun n => (s.port n).txq.filter lost
  let s := { s with gz := { s.gz with
    sent := s.gz.sent.filter fun k => !lost k
    fq := Tab.mapAll {} (fun _ (f : FabQueue) => { f with flight := f.flight.map (FabDesc.peerLost m) }) s.gz.fq
    ports := Tab.mapAll {} (fun _ (p : Port) => { p with txq := p.txq.filter fun k => !lost k }) s.gz.ports } }
  let s := forAll (gone.filter fun k => decide (k.hop ≠ 0)) s fun s k => s.freed { k with hop := k.hop - 1 }
  s.report 7 0xFF 0x26 none [BitVec.ofNat 32 m, s.gz.epoch]

/-- The module is no member any more (R205): exports and routes are gone, ports stay trained. -/
def State.leaveDone (s : State) : State :=
  let slot := s.gz.leaving
  let s := { s with
    gz := { s.gz with
      joined := false, coord := false, members := 0, routes := [], exports := [], exportMap := [], leaving := none, selfLeave := false
      leaveSent := false, suspects := 0, arrived := [], sent := [], collIn := [], cutSince := [] }
    clk := { s.clk with inSync := false, root := false, depth := 0 } }
  s.completeOpt slot 0 0 [s.gz.epoch.setWidth 64]

/-- The join has come to step 5 (R204). -/
def State.joinDone (s : State) : State :=
  match s.gz.joining with
  | some n =>
    if s.gz.joined && !s.gz.gtLoadDue then
      { s with gz := { s.gz with joining := none, joinAsked := false } }.complete n 0 0 [s.gz.members, s.gz.epoch.setWidth 64]
    else s
  | none => s

/-- The first port of the timing list that is UP and leads toward the time root, by a shortest path; the list is taken in port order (log entry
28). -/
def State.timingPort (s : State) (but : Option Nat) : Option Nat :=
  (s.portsTo (Config.timeRoot s.gz.domain).toNat).find? fun p => (s.port p).timing && decide (but ≠ some p)

/-- The root PLL changes its source by a hitless switch (R277). -/
def State.useSource (s : State) (src : BitVec 2) (port : Nat) : State :=
  { s with clk := { s.clk with
    source := src, timingPort := if src = 1 then BitVec.ofNat 5 port else 0
    switches := if s.clk.source = src then s.clk.switches else s.clk.switches + 1 } }

/-- Firmware builds the timing tree (R217): the time root locks to its own crystal, any other member to its timing port, as many links from the
root as its shortest path has; with no such port it holds over. -/
def State.timingTree (s : State) : State :=
  if s.clk.root then ({ s with clk := { s.clk with depth := 0 } } : State).useSource 0 0
  else
    let s := { s with clk := { s.clk with depth := BitVec.ofNat 2 ((s.linksTo (Config.timeRoot s.gz.domain).toNat).getD 0) } }
    match s.timingPort none with
    | some p => s.useSource 1 p
    | none => s.useSource 2 0

/-- A new member takes part in the domain's time (R204 step 4, R217): the time root is in sync, any other has GT to load. -/
def State.syntonize (s : State) : State :=
  if s.gz.joinRoot then { s with clk := { s.clk with root := true, inSync := true } }
  else { s with gz := { s.gz with gtLoadDue := true } }

/-- Adopt an epoch (R203, R206). -/
def State.adopt (s : State) (epoch : W32) (members : W64) : State :=
  let me := s.gz.me.toNat
  let was := s.gz.members
  let wasIn := s.gz.joined
  let inn := members.getLsbD me
  let low := (lowestOf members).getD 0
  let s := { s with gz := { s.gz with
    epoch := epoch, members := members, suspects := s.gz.suspects &&& members
    joined := inn, coordinator := BitVec.ofNat 6 low, coord := inn && decide (low = me)
    heard := (List.range 64).foldl (fun h m =>
      if members.getLsbD m && !was.getLsbD m then Tab.put 0 h m s.clk.gt else h) s.gz.heard } }
  let s := forAll ((List.range 64).filter fun m => was.getLsbD m && !members.getLsbD m && decide (m ≠ me)) s fun s m => s.memberGone m
  if !inn then (if wasIn then s.leaveDone else s)
  else
    let s := s.reroute []
    if wasIn then s.timingTree else s.syntonize.timingTree.joinDone

/-- The coordinator issues the next epoch (R203). -/
def State.issueEpoch (s : State) (members : W64) : State :=
  let e := s.gz.epoch + 1
  (s.tell (.epoch s.self e members)).adopt e members

/-- A loss is noted: the live member with the lowest index issues the epoch without those lost, any other tells it (R203, R206). -/
def State.noteLoss (s : State) (m : Nat) : State :=
  if !s.isMember m || decide (m = s.gz.me.toNat) then s
  else
    let s := { s with gz := { s.gz with suspects := s.gz.suspects ||| bit64 m } }
    let live := s.gz.members &&& ~~~ s.gz.suspects
    if lowestOf live = some s.gz.me.toNat then s.issueEpoch live
    else s.tell (.loss s.self (Fin.ofNat 64 m))

/-- A route of at most three links reaches the member (R198), as this module's wiring stands. -/
def State.reaches (s : State) (m : Nat) : Bool :=
  let s := { s with gz := { s.gz with members := s.gz.members ||| bit64 m } }
  s.portsTo m ≠ []

/-- Module states in which the module takes part in its domain. -/
def ModState.live : ModState → Bool
  | .ready => true
  | .running => true
  | .drain => true
  | _ => false

/-- The member that sends a MEMBER packet. -/
def senderOf : MemberMsg → Nat
  | .heartbeat m => m.val
  | .epoch m _ _ => m.val
  | .admission m => m.val
  | .leave m => m.val
  | .loss m _ => m.val
  | .departing m => m.val

/-- The index that the join in progress asks for is taken (R204): the handle completes DENIED. -/
def State.joinDenied (s : State) : State :=
  match s.gz.joining with
  | some n => { s with gz := { s.gz with joining := none, joinAsked := false } }.complete n 9 0 []
  | none => s

/-- What shows a module that joins that its index is taken (R204): a message from a member of that index, or an epoch with it in its mask before
admission has been asked for (log entry 185). -/
def State.indexTaken (s : State) (k : MemberMsg) : Bool :=
  s.gz.joining.isSome && !s.gz.joined && (decide (senderOf k = s.gz.me.toNat)
    || (match k with | .epoch _ _ mask => !s.gz.joinAsked && mask.getLsbD s.gz.me.toNat | _ => false))

/-- An epoch is taken from a member of the membership it replaces, or, by a module that joins, from a member of the new one that admits it
(R203, R204, R206). -/
def State.takesEpoch (s : State) (src : Nat) (e : W32) (mask : W64) : Bool :=
  decide (s.gz.epoch < e) && (if s.gz.joined then s.isMember src
    else s.gz.joining.isSome && s.gz.joinAsked && mask.getLsbD s.gz.me.toNat && mask.getLsbD src)

/-- A MEMBER packet arrives (R203–R206). -/
def State.member (s : State) (k : MemberMsg) : State :=
  let s := s.dropControl 0x30 (some (senderOf k))
  if !s.top.st.live then s
  else if s.indexTaken k then s.joinDenied
  else match k with
  | .heartbeat src =>
    if s.isMember src.val then { s with gz := { s.gz with heard := Tab.put 0 s.gz.heard src.val s.clk.gt } } else s
  | .epoch src e mask => if s.takesEpoch src.val e mask then s.adopt e mask else s
  | .admission src =>
    if s.gz.joined && s.gz.coord && !s.isMember src.val && s.reaches src.val then s.issueEpoch (s.gz.members ||| bit64 src.val) else s
  | .leave src =>
    if s.gz.joined && s.gz.coord && s.isMember src.val then s.issueEpoch (s.gz.members &&& ~~~ (bit64 src.val)) else s
  | .loss src lost => if s.isMember src.val && s.gz.coord then s.noteLoss lost.val else s
  | .departing src => if s.gz.joined then s.noteLoss src.val else s

/-- 1 ms in tt. -/
def milliTt : Nat := 156250

/-- No heartbeat from a member for 1 ms, or no route to it for 1 ms (R206). -/
def State.peerTimeout (s : State) (m : Nat) : State :=
  let silent := decide (milliTt ≤ (s.clk.gt - Tab.look 0 s.gz.heard m).toNat)
  let cut := match Tab.look none s.gz.cutSince m with | some g => decide (milliTt ≤ (s.clk.gt - g).toNat) | none => false
  if s.top.st.live && s.gz.joined && (silent || cut) then s.noteLoss m else s

/-! ### Joining (R204) -/

/-- Every enabled port has trained or failed to. -/
def State.trainedAll (s : State) : Bool :=
  (List.range 32).all fun p => !(s.port p).en || decide ((s.port p).st ≠ .training) || (s.port p).peerValid

/-- A port leads to another module of the domain named. -/
def State.someoneThere (s : State) : Bool := s.upPorts ≠ []

/-- A neighbour in the domain has the index that the join asks for. -/
def State.neighbourHas (s : State) : Bool := s.upPorts.any fun p => decide ((s.port p).peerMember = s.gz.me)

/-- Steps 1 and 2 of a join: once the ports have trained, ask for admission, or with the time-root bit and nobody reachable become coordinator
with epoch 1. An index that a neighbour has is taken. -/
def State.tryJoin (s : State) : State :=
  if s.gz.joining.isSome && !s.gz.joined && !s.gz.joinAsked && s.trainedAll then
    if s.neighbourHas then s.joinDenied
    else if s.someoneThere then { s with gz := { s.gz with joinAsked := true } }.tell (.admission s.self)
    else if s.gz.joinRoot then s.adopt 1 (bit64 s.gz.me.toNat)
    else s
  else s

/-- Ports that have trained stand by the domain now joined: UP where the far end belongs to it, in TRAINING else (Table 8-5). -/
def State.portsOfDomain (s : State) : State :=
  forAll (List.range 32) s fun s n =>
    let p := s.port n
    if !p.peerValid then s
    else if decide (p.st = .training) && decide (p.peerDomain = s.gz.domain) then s.portUp n p
    else if decide (p.st = .up) && decide (p.peerDomain ≠ s.gz.domain) then s.setPort n { p.fresh .training with peerValid := true }
    else s

/-- A join begins: firmware writes the domain and the index; ports whose far end belongs to the domain are UP now. -/
def State.beginJoin (s : State) (slot : Nat) (domain : W32) (me : BitVec 6) (root : Bool) (expected : W64) : State :=
  { s with gz := { s.gz with
    domain := domain, me := me, joining := some slot, joinRoot := root, joinAsked := false, gtLoadDue := false, epoch := 0, members := 0
    suspects := 0, expected := expected } }.portsOfDomain.tryJoin

/-- Ten seconds without the end of steps 1–4: FAULT. -/
def State.joinTimeout (s : State) : State :=
  match s.gz.joining with
  | some n =>
    if tenSeconds ≤ (s.gtLow - (s.slotOf n).gtAccept).toNat then
      let s := if s.gz.joined then s.tell (.leave s.self) else s
      let s := { s with gz := { s.gz with
        joining := none, joinAsked := false, joined := false, coord := false, members := 0, routes := [], gtLoadDue := false } }
      s.complete n 1 0 []
    else s
  | none => s

/-! ### Leaving (R205, R217) -/

/-- Every fabric queue has drained: the notice goes to the coordinator, which may be this module. -/
def State.tryLeave (s : State) : State :=
  if (s.gz.leaving.isSome || s.gz.selfLeave) && s.gz.joined && !s.gz.leaveSent
      && (List.range 64).all (fun i => s.fqIdle (i / 16) (i % 16)) then
    let s := { s with gz := { s.gz with leaveSent := true } }
    if s.gz.coord then s.issueEpoch (s.gz.members &&& ~~~ (bit64 s.gz.me.toNat))
    else s.tell (.leave s.self)
  else s

/-- A leave begins: every fabric queue drains. -/
def State.beginLeave (s : State) (slot : Option Nat) : State :=
  let s := { s with gz := { s.gz with leaving := slot, selfLeave := slot.isNone } }
  (forAll (List.range 64) s fun s i => s.fqOff (i / 16) (i % 16) true).tryLeave

/-! ### Clock and global time (R217, R218, R280) -/

/-- The timing port is lost: the next of the list, or holdover. -/
def State.timingLost (s : State) : State :=
  if s.clk.source = 1 then
    match s.timingPort (some s.clk.timingPort.toNat) with
    | some p => s.useSource 1 p
    | none => s.useSource 2 0
  else s

/-- In holdover beyond ±40 ns: out of sync, and the member leaves. -/
def State.outOfSync (s : State) : State :=
  if s.clk.source = 2 ∧ s.gz.joined then
    ({ s with clk := { s.clk with inSync := false } } : State).beginLeave none
  else s

/-- GT is loaded once in a join (R218, R280): cadences are disarmed first, and the step is logged. -/
def State.loadGt (s : State) (gt : W64) : State :=
  let s := forAll (List.range 64) s fun s k => s.cadOff k false 1 1
  let old := s.clk.gt
  let s := { s with
    clk := { s.clk with gt := gt, loads := s.clk.loads + 1, lastCorrection := gt, inSync := true }
    gz := { s.gz with
      gtLoadDue := false
      heard := (List.range 64).foldl (fun h m => if s.gz.members.getLsbD m then Tab.put 0 h m gt else h) s.gz.heard
      cutSince := Tab.mapAll none (fun _ (g : Option W64) => g.map fun _ => gt) s.gz.cutSince } }
  s.report 0xC 0 8 none (data64 old.toNat ++ data64 gt.toNat)

/-- An exchange with the parent ends: the parent's time less this module's, in units of 100 ps (R218). -/
def syncOffset (k : TimeStamps) : Int := ((k.t2 - k.t1) + (k.t3 - k.t4)) / 2

def State.timeSync (s : State) (k : TimeStamps) : State :=
  let s := s.dropControl 0x31 none
  if !s.gz.joined || s.clk.root then s
  else if s.gz.gtLoadDue then
    ({ (s.loadGt k.parentGt) with clk := { (s.loadGt k.parentGt).clk with offset := 0 } } : State).joinDone
  else
    let d := syncOffset k
    { s with clk := { s.clk with offset := BitVec.ofInt 16 d, inSync := decide (d.natAbs ≤ 40) } }

/-- One tt is added or withheld, at most once every 64 tt (R218). -/
def State.correctGt (s : State) (add : Bool) : State :=
  if s.gz.joined && !s.clk.root && decide (64 ≤ (s.clk.gt - s.clk.lastCorrection).toNat) then
    if add then { s with clk := { s.clk with gt := s.clk.gt + 1, lastCorrection := s.clk.gt + 1 } }
    else { s with clk := { s.clk with withhold := true, lastCorrection := s.clk.gt } }
  else s

/-- An exchange is started on a link of the timing tree: a TIME_SYNC packet with this module's time (R218; log entry 181). -/
def State.startSync (s : State) (p : Nat) : State :=
  if s.gz.joined && decide ((s.port p).st = .up) then
    let l := (Config.syncPayload s.clk.gt).take 256
    let s := s.queueOn p { s.packet 0x31 3 (s.port p).peerMember with len := l.length, payload := l }
    { s with clk := { s.clk with syncs := Tab.put 0 s.clk.syncs p s.clk.gt } }
  else s

end Sys2Proof.Machine
end

