-- ==== Sys2Proof/Machine/Exchange.lean ====
section
/-!
DEFINITION. The command aperture (R27, R225–R229, R236): the checks of an exchange in their order, its response, and the slot it takes.
-/

namespace Sys2Proof.Machine

/-! ### The line -/

/-- The parameter word at offset 0x10 + 8k. -/
def parWord (x : Exchange) (k : Nat) : Nat := (x.par.getD k 0).toNat
/-- A field of it. -/
def parFld (x : Exchange) (k lo n : Nat) : Nat := fld (parWord x k) lo n
/-- The parameters as bytes: 112 of them. -/
def parBytes (x : Exchange) : List Byte := (List.range 14).flatMap fun k => toLe 8 (parWord x k)
/-- INTR (Table 9-3). -/
def wantsIntr (x : Exchange) : Bool := x.flags.getLsbD 8

/-- Every bit that the command does not define is zero: `masks` gives the bits of each parameter word that it defines (R227). -/
def fieldsClear (x : Exchange) (masks : List Nat) : Bool :=
  decide (x.flags &&& ~~~ 0x100 = 0) && decide (x.par.length ≤ 14)
    && (List.range 14).all fun k => decide (parWord x k ||| masks.getD k 0 = masks.getD k 0)

/-- Masks of Table 9-7. -/
def hostMask : Nat := 2 ^ 48 - 1
def wordMask : Nat := 2 ^ 64 - 1
def lowMask : Nat := 2 ^ 32 - 1
def imageMasks : List Nat := [hostMask, wordMask, 0xF, hostMask] ++ List.replicate 6 wordMask

/-! ### Responses (R228) -/

/-- Send a response, whose STATE and GT_LOW are those of the state in which the exchange is evaluated. -/
def State.replyWith (s at_ : State) (r : Response) : State :=
  { s with cmd := { s.cmd with resp := some { r with state := BitVec.ofNat 3 at_.top.st.code, gtLow := at_.gtLow } } }

/-- A refusal: no effect but the response. -/
def State.turnAway (s : State) (result detail : Nat) (info : Nat := 0) : State :=
  s.replyWith s { detail := BitVec.ofNat 16 detail, result := BitVec.ofNat 8 result, info := BitVec.ofNat 16 info }

/-- An immediate result. -/
def State.immediate (s at_ : State) (info : Nat) : State := s.replyWith at_ { immediate := true, info := BitVec.ofNat 16 info }

/-! ### The first three checks (R27, R229) -/

/-- Opcodes that DRAIN accepts, and FAULTED (Table 1-8). -/
def drainAccepts : List Nat := [0x01, 0x07, 0x08, 0x06, 0x15, 0x0F, 0x11, 0x14, 0x16]
def faultedAccepts : List Nat := [0x01, 0x07, 0x08, 0x0F, 0x14, 0x16]

/-- Some junction stands at or above 100 °C (R27). -/
def State.tooHot (s : State) : Bool := s.gvn.junction.any fun p => decide (1000 ≤ p.2)

/-- OPCODEs of Table 9-5; the others are reserved. -/
def opcodeReserved (op : Nat) : Bool := decide (op = 0) || decide (0x16 < op)

/-- The OPCODE that a line carries: the row's, or the reserved one put in its place. -/
def lineOpcode (op : Nat) (x : Exchange) : Nat :=
  match x.opcode with
  | some k => if opcodeReserved k.toNat then k.toNat else op
  | none => op

/-- The state accepts the opcode (R27). -/
def State.accepts (s : State) (op : Nat) : Bool :=
  match s.top.st with
  | .ready => true
  | .running => true
  | .drain => drainAccepts.contains op
  | .faulted => faultedAccepts.contains op && !(decide (op = 0x16) && decide (s.top.cause = 0xB) && s.tooHot)
  | _ => false

/-- Module state and completion area, OPCODE, reserved fields, secure attribute: the RESULT and DETAIL of the first that fails. -/
def State.barred (s : State) (row : Nat) (x : Exchange) (masks : List Nat) (secureOnly : Bool) : Option (Nat × Nat) :=
  let op := lineOpcode row x
  if !s.accepts op then some (4, 1)
  else if !s.cmd.areaValid ∧ op ≠ 1 ∧ op ≠ 0x16 then some (4, 2)
  else if opcodeReserved op then some (2, 1)
  else if !fieldsClear x masks then some (2, 2)
  else if secureOnly && !x.secure then some (2, 4)
  else none

/-- No exchange is answered in OFF, and none arrives while the Bursen link is not UP (Table 1-5, R224). -/
def State.deaf (s : State) : Bool := decide (s.top.st = .off) || !s.linkUp

/-! ### Commands -/

/-- An immediate command: `act` answers its state and response by itself, once the first three checks have passed. While no cluster takes
lines, and once the claim watchdog has acted, every exchange is answered BUSY, DETAIL 2 (R226, R352, R355). -/
def State.immediateCommand (s : State) (op : Nat) (x : Exchange) (masks : List Nat) (secureOnly : Bool) (act : State → State) : State :=
  if s.deaf then s
  else if s.top.st.firmware && !s.fwRuns then s.turnAway 1 2
  else match s.barred op x masks secureOnly with
    | some (r, d) => s.turnAway r d
    | none => act s

/-- A command with a handle: its parameter values are checked, then a slot is taken, then the synchronous fit is made; `act` begins the
work with the slot's number. -/
def State.handleCommand (s : State) (op : Nat) (x : Exchange) (masks : List Nat) (secureOnly : Bool) (what : Op) (arg : Nat)
    (values : State → Option (Nat × Nat)) (fit : State → Option Nat) (act : State → Nat → State) : State :=
  if s.deaf then s
  else if s.top.st.firmware && !s.fwRuns then s.turnAway 1 2
  else match s.barred op x masks secureOnly with
    | some (r, d) => s.turnAway r d
    | none => match values s with
      | some (r, d) => s.turnAway r d
      | none => match s.freeSlot with
        | none => s.turnAway 1 1
        | some n => match fit s with
          | some code => s.turnAway 3 code
          | none =>
            let s1 := s.allocSlot n op x.tag (wantsIntr x) what arg
            (act s1 n).replyWith s { handle := BitVec.ofNat 32 ((s1.slotOf n).handle n) }

/-- No synchronous fit. -/
def noFit (_ : State) : Option Nat := none

/-- A condition on the values, with the DETAIL of its failure. -/
def unless_ (ok : Bool) (detail : Nat) : Option (Nat × Nat) := if ok then none else some (2, detail)

/-- APERTURE_TIMEOUT: the line is answered BUSY, DETAIL 2, with no effect (R226). -/
def State.apertureTimeout (s : State) : State := if s.deaf then s else s.turnAway 1 2

end Sys2Proof.Machine
end

