-- ==== Sys2Proof/Machine/ContextCommands.lean ====
section
/-!
DEFINITION. The commands of contexts, cadences, handles and domains (R230–R237, R243, R249–R264, R274).
-/

namespace Sys2Proof.Machine

/-! ### The state a command needs -/

/-- LOADED, RUNNING or SAVED, with no stop under way (R231; log entry 34). -/
def State.ctxUsable (s : State) (c : Nat) : Bool :=
  let x := s.ctx c
  decide (x.st ≠ .unloaded) && decide (x.st ≠ .loading) && !x.stopping && !x.stopDue
/-- With no save, restore or context reset under way either. -/
def State.ctxIdle (s : State) (c : Nat) : Bool :=
  let x := s.ctx c
  s.ctxUsable c && x.saveSlot.isNone && x.ending.isNone && x.due.isNone

/-- Settle what a command leads to at once. -/
def commanded (s : State) : Out := .next s.checkAll

/-! ### SETUP_COMPLETION, RETIRE (R235, R237) -/

/-- SETUP_COMPLETION: AREA, VECTOR and INT_EN for every later record. -/
def State.setupCompletion (s : State) (x : Exchange) : State :=
  s.immediateCommand 1 x [hostMask, 0x1FFFF] false fun s =>
    if parWord x 0 % 4096 ≠ 0 then s.turnAway 2 3
    else if s.slotsIn .outstanding ≠ 0 ∨ s.slotsIn .complete ≠ 0 then s.turnAway 2 11
    else
      let s' := { s with cmd := { s.cmd with
        areaValid := true, areaSecure := x.secure, area := parWord x 0
        vector := BitVec.ofNat 16 (parFld x 1 0 16), intEn := parFld x 1 16 1 = 1, areaRefused := x.refused
        heldRecords := [] } }
      s'.immediate s 0

/-- What is wrong with a handle: stale, or retired and not yet reused. -/
def State.handleWrong (s : State) (h : Nat) : Option Nat :=
  let x := s.slotOf (h % 4096)
  if x.gen.toNat ≠ h / 4096 % 2 ^ 20 then some 5
  else if x.st = .free then some 7
  else none

/-- The handles of a RETIRE. -/
def retireHandle (x : Exchange) (i : Nat) : Nat := parFld x (1 + i / 2) (32 * (i % 2)) 32

/-- Retire handles in order; answer how many were, and the DETAIL of the one that failed. -/
def State.retireEach (s : State) : List Nat → Nat → State × Nat × Option Nat
  | [], k => (s, k, none)
  | h :: r, k =>
    match s.handleWrong h with
    | some d => (s, k, some d)
    | none =>
      let n := h % 4096
      let v := s.slotOf n
      if v.st = .outstanding then (s, k, some 6)
      else (s.setSlot n { v with st := .free }).retireEach r (k + 1)

/-- RETIRE. -/
def State.retireHandles (s : State) (x : Exchange) : State :=
  s.immediateCommand 8 x (0x1F :: List.replicate 12 wordMask) false fun s =>
    let n := parFld x 0 0 5
    if ((List.range 24).filter fun i => decide (n ≤ i)).any fun i => retireHandle x i ≠ 0 then s.turnAway 2 2
    else if n = 0 ∨ 24 < n then s.turnAway 2 3
    else
      match s.retireEach ((List.range n).map (retireHandle x)) 0 with
      | (s', k, none) => s'.immediate s k
      | (s', k, some d) => s'.replyWith s { result := 2, detail := BitVec.ofNat 16 d, info := BitVec.ofNat 16 k }

/-! ### LOAD_IMAGE, FIT_CHECK (R234, R249, R251) -/

def summaryOf (x : Exchange) : List Byte := (List.range 6).flatMap fun k => toLe 8 (parWord x (4 + k))

def State.loadImage (s : State) (x : Exchange) : State :=
  let c := parFld x 2 0 4
  s.handleCommand 2 x imageMasks false .load c (fun s =>
      if (s.ctx c).st ≠ .unloaded then some (2, 9) else if s.loadFull then some (1, 3) else none)
    (fun s => s.summaryShort (summaryOf x)) fun s n => s.beginLoad n c (parWord x 0) (parWord x 1) (parWord x 3) x.refused

def State.fitCheckCommand (s : State) (x : Exchange) : State :=
  s.handleCommand 3 x imageMasks false .fit 0 (fun _ => none) (fun s => s.summaryShort (summaryOf x))
    fun s n => s.fitCheck n (parWord x 0) (parWord x 1) (parWord x 3) x.refused

/-! ### START, STOP (R243, R255, R263) -/

/-- START: every tile of the groups that no cadence has. A tile that is not in RESET is reset first; a context with a retired tile ends at
once (R377). -/
def State.startContext (s : State) (n c : Nat) : State :=
  let x := s.ctx c
  let s := (s.setCtx c { x with st := .running, startSlot := some n }).nowRunning
  let s := forAll (s.ctx c).startGroups s fun s p => forAll p.2.tiles s fun s t =>
    let y := s.tile t
    if y.st = .retired then s
    else if y.st = .reset ∧ y.resetting = false then s.launch c p.1 p.2 t
    else ((s.resetTile t).endReset t).launch c p.1 p.2 t
  if x.tiles.any fun t => decide ((s.tile t).st = .retired) then s.setCtx c { s.ctx c with due := some [] } else s

def State.startCommand (s : State) (x : Exchange) : State :=
  let c := parFld x 0 0 4
  let ok (s : State) : Bool :=
    s.ctxIdle c && (s.ctx c).startSlot.isNone && (decide ((s.ctx c).st = .loaded) || decide ((s.ctx c).st = .running))
  s.handleCommand 4 x [0xF] false .start c (fun s => unless_ (ok s) 9) noFit fun s n => s.startContext n c

/-- STOP takes its turn after a save, a restore or a context reset (R230, R260). -/
def State.stopContext (s : State) (c : Nat) : State :=
  let x := s.ctx c
  if x.stopping || x.stopDue then s
  else if x.saveSlot.isSome || x.ending.isSome then s.setCtx c { x with stopDue := true } else s.beginStop c

def State.stopCommand (s : State) (x : Exchange) : State :=
  let c := parFld x 0 0 4
  s.handleCommand 5 x [0xF] false .stop c (fun s => unless_ (s.ctxUsable c) 9) noFit fun s n =>
    (s.setCtx c { s.ctx c with stopSlot := some n }).stopContext c

/-! ### MEM_COPY, MEM_FILL (R232) -/

/-- Where a page of a context lies that the context's movers may read or write. -/
def State.fwPage (s : State) (c va : Nat) (acc : Access) : Option Nat :=
  match (s.walk 0 c va).1 with
  | .ok (leaf, level, _) => if (s.leafCheck c leaf acc false).isNone then some (ptePa leaf + va % 2 ^ leafBits level) else none
  | .error _ => none

/-- A 64-bit pattern as the byte at an offset finds it (R172). -/
def turned (v n : Nat) : Nat := ofLe ((List.range 8).map fun k => BitVec.ofNat 8 (fld v (8 * ((n + k) % 8)) 8))

/-- The physical descriptors of a copy or fill of `left` bytes from byte `pos` on, one for each stretch within a page of source and
destination; none where an address does not translate (R232). -/
def State.fwCut (s : State) (c op src dst : Nat) : Nat → Nat → Nat → Option (List FwPiece)
  | 0, _, _ => some []
  | fuel + 1, pos, left =>
    if left = 0 then some []
    else
      let room (a : Nat) : Nat := 65536 - (a + pos) % 65536
      let n := min left (if op = 1 then min (room src) (room dst) else room dst)
      let from_ := if op = 1 then (if src + pos < 2 ^ 57 then s.fwPage c (src + pos) .moverSrc else none) else some (turned src pos)
      let to_ := if dst + pos < 2 ^ 57 then s.fwPage c (dst + pos) .moverDst else none
      match from_, to_ with
      | some a, some b => (s.fwCut c op src dst fuel (pos + n) (left - n)).map fun l => ⟨physWords op a b n, pos⟩ :: l
      | _, _ => none

/-- Bytes of a copy's source are among those of its destination. -/
def fwOverlap (l : List FwPiece) : Bool :=
  l.any fun p => l.any fun q =>
    let a := dWord p.words 1 0 57
    let b := dWord q.words 2 0 57
    decide (a < b + dLen0 q.words) && decide (b < a + dLen0 p.words)

/-- The firmware mover of copies and fills, mv31 of bolt 0 (log entry 33), has no entry free. -/
def State.fwFull (s : State) : Bool := 16 ≤ (s.mover 0 31).depth

/-- Queue the descriptors of a copy or fill; a page that does not translate ends the command FAULT with cursor 0. -/
def State.fwWork (s : State) (slot c op src dst n : Nat) : State :=
  match s.fwCut c op src dst (2 * (n / 65536) + 4) 0 n with
  | some l => s.queueWork 0 31 c (.command slot) l (decide (op = 1) && fwOverlap l) false
  | none => s.complete slot 1 0 [0, 4]

def fwValues (c n : Nat) (s : State) : Option (Nat × Nat) :=
  if n = 0 then some (2, 3)
  else if !s.ctxUsable c then some (2, 9)
  else if s.fwFull then some (1, 3)
  else none

def State.memCopy (s : State) (x : Exchange) : State :=
  let c := parFld x 0 0 4
  s.handleCommand 9 x [0xF, wordMask, wordMask, hostMask] false .memCopy c (fwValues c (parWord x 3)) noFit
    fun s n => s.fwWork n c 1 (parWord x 1) (parWord x 2) (parWord x 3)

def State.memFill (s : State) (x : Exchange) : State :=
  let c := parFld x 0 0 4
  s.handleCommand 0xA x [0xF, 0, wordMask, hostMask, wordMask] false .memFill c (fwValues c (parWord x 3)) noFit
    fun s n => s.fwWork n c 2 (parWord x 4) (parWord x 2) (parWord x 3)

/-! ### SAVE_CONTEXT, RESTORE_CONTEXT (R257–R259) -/

def State.saveContext (s : State) (n c : Nat) : State :=
  let x := s.ctx c
  let running := x.tiles.filter fun t => let y := s.tile t; decide (y.st = .running) && !y.resetting
  let s := s.setCtx c { x with saveSlot := some n, saved := running }
  let s := forAll x.movers s fun s p => s.moverHold p.1 p.2
  let s := forAll x.queues s fun s p => s.fqOff p.1 p.2 true
  forAll running s fun s t => s.stopTile t

def State.saveCommand (s : State) (x : Exchange) : State :=
  let c := parFld x 0 0 4
  let ok (s : State) : Bool := s.ctxIdle c && decide ((s.ctx c).st = .running) && (s.cadsOf c).isEmpty
  s.handleCommand 0xB x [0xF] false .save c (fun s => unless_ (ok s) 9) noFit fun s n => s.saveContext n c

/-- A group of the context cannot be restored: another context holds it, or a tile of it is retired. -/
def State.groupLost (s : State) (c g : Nat) : Bool :=
  !s.groupHealthy g || (s.ctxs.any fun p =>
    decide (p.1 ≠ c) && decide (p.2.st ≠ .unloaded) && !p.2.released && p.2.groups.any fun q => decide (q.phys = g))

def State.restoreContext (s : State) (n c : Nat) : State :=
  let x := s.ctx c
  match x.groups.find? fun g => s.groupLost c g.phys with
  -- code 1, with the bolt as its scope, as a shortfall entry begins (Table 10-12; log entry 179)
  | some g => s.complete n 7 1 [BitVec.ofNat 64 (1 + 2 ^ 16 + g.phys / 16 * 2 ^ 24)]
  | none =>
    let s := if x.released then
        forAll (x.savedAreas.filter fun p => x.saved.contains p.1) s fun s p => s.copyArea c p.1 p.2 false
      else s
    let s := s.setCtx c { s.ctx c with saveSlot := some n, released := false }
    forAll x.saved s fun s t => (s.endReset t).restoreTile t

def State.restoreCommand (s : State) (x : Exchange) : State :=
  let c := parFld x 0 0 4
  let ok (s : State) : Bool := s.ctxUsable c && decide ((s.ctx c).st = .saved) && (s.ctx c).saveSlot.isNone
  s.handleCommand 0xC x [0xF] false .restore c (fun s => unless_ (ok s) 9) noFit fun s n => s.restoreContext n c

/-! ### CADENCE_ARM, CADENCE_DISARM (R264, R274) -/

/-- The LOADED or RUNNING context that declares a cadence. -/
def State.declarer (s : State) (k : Nat) : Option Nat :=
  (List.range 16).find? fun c =>
    s.ctxIdle c && (decide ((s.ctx c).st = .loaded) || decide ((s.ctx c).st = .running))
      && (s.ctx c).cads.any fun d => decide (d.number = k)

def State.armCadence (s : State) (n k c : Nat) (start : W64) : State :=
  let y := s.cad k
  let s := s.setCad k { y with
    en := true, drain := false, ctx := BitVec.ofNat 4 c, st := .waiting, period := 0, startGt := start, armSlot := some n
    disarmSlots := [], periodSlot := none, done := [], lastDone := 0, epoch := 0, discards := 0, closed := 0, late := 0, aborted := 0, detail := 0
    skipped := false, armStatus := none }
  let s := match s.decl k with
    | some d => forAll d.bufs s fun s q => s.fwWord c q.2.2.toNat 0
    | none => s
  (s.setCtx c { s.ctx c with st := .running }).nowRunning

def State.armCommand (s : State) (x : Exchange) : State :=
  let k := parFld x 0 0 6
  let values (s : State) : Option (Nat × Nat) :=
    if (s.declarer k).isNone ∨ (s.cad k).st ≠ .disarmed then some (2, 9)
    else if parWord x 1 < s.clk.gt.toNat + 15625 then some (2, 3)
    else none
  s.handleCommand 0xD x [0x3F, wordMask] false .arm k values noFit fun s n =>
    match s.declarer k with
    | some c => s.armCadence n k c (BitVec.ofNat 64 (parWord x 1))
    | none => s

/-- CADENCE_DISARM performs the write of R274, and waits until the cadence reads DISARMED. -/
def State.disarmCommand (s : State) (x : Exchange) : State :=
  let k := parFld x 0 0 6
  s.handleCommand 0xE x [0x13F] false .disarm k (fun s => unless_ (decide ((s.cad k).st ≠ .disarmed)) 9) noFit fun s n =>
    let y := s.cad k
    (s.setCad k { y with disarmSlots := y.disarmSlots ++ [n] }).cadOff k (parFld x 0 8 1 = 1) 1 1

/-! ### DOMAIN_JOIN, DOMAIN_LEAVE (R204, R205) -/

def State.joinCommand (s : State) (x : Exchange) : State :=
  s.handleCommand 0x10 x [lowMask, 0x13F, wordMask] false .join 0 (fun _ => none) noFit fun s n =>
    if s.gz.joined ∨ s.gz.joining.isSome then s.complete n 9 0 []
    else s.beginJoin n (BitVec.ofNat 32 (parFld x 0 0 32)) (BitVec.ofNat 6 (parFld x 1 0 6)) (parFld x 1 8 1 = 1)
      (BitVec.ofNat 64 (parWord x 2))

def State.leaveCommand (s : State) (x : Exchange) : State :=
  s.handleCommand 0x11 x [] false .leave 0 (fun _ => none) noFit fun s n =>
    if !s.gz.joined ∨ s.gz.leaving.isSome then s.complete n 9 0 []
    else s.beginLeave (some n)

/-! ### CANCEL (R233) -/

/-- Cancel the copy or fill of a slot: what waits is gone, what runs stops at its cursor. -/
def State.cancelWork (s : State) (n : Nat) : State :=
  let mine (e : MovEntry) : Bool := decide (e.work = .command n)
  let v := s.mover 0 31
  let s := s.setMover 0 31 { v with queue := v.queue.filter fun e => !mine e }
  match v.run with
  | some r => if !mine r.entry then s.complete n 2 0 [BitVec.ofNat 64 (s.slotOf n).cursor, 3]
    else if r.done then s else s.endRun 0 31 { r.unread with entry := { r.entry with more := [] } } 3 0
  | none => s.complete n 2 0 [BitVec.ofNat 64 (s.slotOf n).cursor, 3]

/-- Cancel the load of a slot: its copying stops and the context is left unloaded. -/
def State.cancelLoad (s : State) (n c : Nat) : State := (s.unload c).complete n 2 0 []

/-- Cancel a report that waits: none of it is written (R233). -/
def State.cancelReport (s : State) (n : Nat) : State :=
  { s with cmd := { s.cmd with reports := s.cmd.reports.filter fun r => decide (r.slot ≠ n) } }.complete n 2 0 [0]

/-- Begin the cancellation of an outstanding handle; none where its command cannot be cancelled. -/
def State.cancelSlot (s : State) (n : Nat) : Option State :=
  let v := s.slotOf n
  match v.op with
  | .start => some (s.stopContext v.arg)
  | .load => some (s.cancelLoad n v.arg)
  | .memCopy => some (s.cancelWork n)
  | .memFill => some (s.cancelWork n)
  | .query => some (s.cancelReport n)
  | .attest => some (s.cancelReport n)
  | .arm => some (s.cadOff v.arg false 2 2)
  | .save => some (s.setSlot n { v with cancelled := true })
  | _ => none

/-- Commands that can be cancelled. -/
def Op.cancellable : Op → Bool
  | .start | .load | .memCopy | .memFill | .query | .attest | .arm | .save => true
  | _ => false

def State.cancelCommand (s : State) (x : Exchange) : State :=
  s.immediateCommand 6 x [lowMask] false fun s =>
    let h := parWord x 0
    let n := h % 4096
    match s.handleWrong h with
    | some d => s.turnAway 2 d
    | none =>
      if !(s.slotOf n).op.cancellable then s.turnAway 2 8
      else if (s.slotOf n).st = .complete then s.immediate s 1
      else match s.cancelSlot n with
        | some s' => s'.immediate s 0
        | none => s.immediate s 0

/-! ### The commands -/

/-- APERTURE_TIMEOUT (R226). -/
def execApertureTimeout (_ : Exchange) (s : State) : Out := .next s.apertureTimeout
/-- SETUP_COMPLETION (R235). -/
def execSetupCompletion (x : Exchange) (s : State) : Out := .next (s.setupCompletion x)
/-- RETIRE (R237). -/
def execRetire (x : Exchange) (s : State) : Out := .next (s.retireHandles x)
/-- LOAD_IMAGE (R249). -/
def execLoadImage (x : Exchange) (s : State) : Out := commanded (s.loadImage x).finishLoads
/-- FIT_CHECK (R251). -/
def execFitCheck (x : Exchange) (s : State) : Out := .next (s.fitCheckCommand x)
/-- START (R255). -/
def execStart (x : Exchange) (s : State) : Out := commanded (s.startCommand x)
/-- STOP (R243). -/
def execStop (x : Exchange) (s : State) : Out := commanded (s.stopCommand x)
/-- CANCEL (R233). -/
def execCancel (x : Exchange) (s : State) : Out := commanded (s.cancelCommand x)
/-- MEM_COPY (R232). -/
def execMemCopy (x : Exchange) (s : State) : Out := .next (s.memCopy x)
/-- MEM_FILL (R232). -/
def execMemFill (x : Exchange) (s : State) : Out := .next (s.memFill x)
/-- SAVE_CONTEXT (R257). -/
def execSaveContext (x : Exchange) (s : State) : Out := commanded (s.saveCommand x)
/-- RESTORE_CONTEXT (R258). -/
def execRestoreContext (x : Exchange) (s : State) : Out := commanded (s.restoreCommand x)
/-- CADENCE_ARM (R264). -/
def execCadenceArm (x : Exchange) (s : State) : Out := .next (s.armCommand x)
/-- CADENCE_DISARM (R274). -/
def execCadenceDisarm (x : Exchange) (s : State) : Out := commanded (s.disarmCommand x)
/-- DOMAIN_JOIN (R204). -/
def execDomainJoin (x : Exchange) (s : State) : Out := .next (s.joinCommand x)
/-- DOMAIN_LEAVE (R205). -/
def execDomainLeave (x : Exchange) (s : State) : Out := commanded (s.leaveCommand x)

/-! ### Cadence events (R265–R275) -/

/-- PERIOD_START (R265). -/
def execPeriodStart (k : Fin 64) (s : State) : Out := .next (s.periodStart k)
/-- DEADLINE (R268). -/
def execDeadline (k : Fin 64) (s : State) : Out := commanded (s.deadline k)
/-- EXPIRY_CLEANUP_COMPLETE (R269). -/
def execExpiryCleanupComplete (k : Fin 64) (s : State) : Out := commanded (s.expiryCleanup k)
/-- CADENCE_EN_CLEAR (R274): CAD_CTRL is secure. -/
def execCadenceEnClear (k : Fin 64) (drain : Bool) (p : Path) (s : State) : Out :=
  commanded (s.secured p fun s => s.cadOff k drain 1 1)

end Sys2Proof.Machine
end

