-- ==== Sys2Proof/Machine/Fabric.lean ====
section
/-!
DEFINITION. The fabric engines (R207–R216): requests served for peers, fabric descriptors and the packets they send, collectives.
-/

namespace Sys2Proof.Machine

/-! ### Serving a request (R200, R206–R208, R216) -/

/-- The request is taken: its source is a member and its epoch is at most one below this module's (R206). -/
def State.current (s : State) (k : Packet) : Bool :=
  s.isMember k.src.toNat && (let d := (s.gz.epoch.setWidth 16 - k.epoch).toNat; decide (d ≤ 1) || decide (0x8000 ≤ d))

/-- A tag is of the present period of its cadence or the next (R216); a joining member takes none before it has loaded GT (R218). -/
def State.tagOk (s : State) (k : Packet) : Bool :=
  !k.tagged || !s.gz.gtLoadDue && decide ((k.period.toNat + 512 - (s.cad k.cadence.toNat).period % 512) % 512 ≤ 1)

/-- A tagged request is discarded and counted (R216); one of the period that has closed and expires counts in its record (Table 11-3). -/
def State.discard (s : State) (k : Packet) : State :=
  let c := s.cad k.cadence.toNat
  let late := decide (c.st = .expiring) && decide (k.period.toNat = c.closed % 512)
  s.setCad k.cadence.toNat { c with discards := c.discards + 1, late := c.late + b2n late }

/-- Index of a source and flow. -/
def dupIndex (k : Packet) : Nat := 16 * k.src.toNat + k.flow.toNat

/-- The recorded response to a request that has been performed before (R200). -/
def State.recorded (s : State) (k : Packet) : Option Packet :=
  ((Tab.look [] s.gz.dups (dupIndex k)).find? fun p => decide (p.1 = k.seq)).map (·.2)

/-- Record what has been performed, with its response: the last 256 of a source and flow are kept (R200). -/
def State.recordDone (s : State) (k r : Packet) : State :=
  let l := Tab.look [] s.gz.dups (dupIndex k)
  { s with gz := { s.gz with dups := Tab.put [] s.gz.dups (dupIndex k) ((l ++ [(k.seq, r)]).drop (l.length + 1 - 256)) } }

/-- The response to a request (Table 8-6). One that has been performed is recorded with it; one that was refused, failed or expired has not
been. -/
def State.respond (s : State) (k : Packet) (status : Nat) (payload : List Byte) : State :=
  let r := { s.packet 0x10 1 k.src with
    flow := k.flow, txn := k.txn, rstatus := BitVec.ofNat 8 status, len := payload.length, payload := payload }
  ((if status = 0 then s.recordDone k r else s).dropArrived k).sendPacket r

/-- Physical address of a mapped virtual address of a context. -/
def State.mapPhys (s : State) (c va : Nat) : Option Nat :=
  ((s.ctx c).map.find? fun p => decide (p.1 = alignDown va 65536) && pteV p.2).map fun p => ptePa p.2 + va % 65536

/-- The physical number, on its bolt, of the counter that a request names by its image-relative number: the exporter adds the CTR_BASE of the
bolt (Table 10-8). -/
def State.exportCtr (s : State) (e : Export) (k : Packet) : Nat := (s.ctx e.ctx).ctrBase.getD e.ctrBolt 0 + k.ctr.toNat % 256

/-- The export that an export request names, where it allows the access: rights, range, counter (R207, Table 8-14). -/
def State.exportFor (s : State) (k : Packet) (n : Nat) (right : BitVec 2) : Option (Export × Nat) :=
  let off := fld k.addr.toNat 0 48
  (s.gz.exports.find? fun e => decide (e.num = fld k.addr.toNat 56 8)).bind fun e =>
    let n' := s.exportCtr e k
    let ctrOk := decide (k.inc = 0)
      || (decide (k.ctr.toNat / 256 = e.ctrBolt) && decide (e.ctrFirst ≤ n') && decide (n' < e.ctrFirst + e.ctrCount))
    if e.rights &&& right = right ∧ off + n ≤ e.size ∧ ctrOk = true then some (e, e.va + off) else none

/-- Places of a request's bytes: physical address and length of each piece; none where it is refused. -/
def State.placesOf (s : State) (k : Packet) (n : Nat) (right : BitVec 2) : Option (List (Nat × Nat)) :=
  if k.typ.toNat ≤ 3 then
    let off := fld k.addr.toNat 0 48
    if s.exportRight off n right then some [(off, n)] else none
  else
    match s.exportFor k n right with
    | some (e, va) => (pageCuts 3 va n).mapM fun p => (s.mapPhys e.ctx p.1).map fun pa => (pa, p.2)
    | none => none

/-- Read the pieces; a failure decides. -/
def State.readPieces (s : State) : List (Nat × Nat) → Got × State
  | [] => (.data [], s)
  | (pa, n) :: rest =>
    match s.readAt pa n (.data []) with
    | (.data l, s) => match s.readPieces rest with
      | (.data r, s) => (.data (l ++ r), s)
      | g => g
    | g => g

/-- Write the pieces; nothing is written where a piece must wait for the host. -/
def State.writePieces (s : State) : List (Nat × Nat) → List Byte → Got × State
  | [], _ => (.data [], s)
  | (pa, n) :: rest, l =>
    match s.writeAt pa (l.take n) (.data []) with
    | (.data _, s) => s.writePieces rest (l.drop n)
    | g => g

/-- RSTATUS of what an access came to. -/
def Got.rstatus : Got → Nat
  | .data _ => 0
  | _ => 2

/-- The requests a module performs for its peers (Table 8-7). -/
inductive Serve where | load | store | atomic | notify
  deriving DecidableEq, Repr

/-- A request of a peer is performed or refused and answered; one that finds bytes in the host's cache waits in the receiver (R133, R197,
R200). -/
def State.perform (s : State) (k : Packet) (what : Serve) : State :=
  let wait (s : State) : State :=
    if s.gz.arrived.contains k then s else { s with gz := { s.gz with arrived := s.gz.arrived ++ [k] } }
  let note (s : State) : State :=
    match s.gz.exports.find? fun e => decide (e.num = fld k.addr.toNat 56 8) with
    | some e => if k.inc ≠ 0 ∧ 4 ≤ k.typ.toNat then s.bumpCtr (256 * e.ctrBolt + s.exportCtr e k) k.inc.toNat else s
    | none => s
  match what with
  | .load =>
    match s.placesOf k k.len 1 with
    | none => s.respond k 1 []
    | some l => match s.readPieces l with
      | (.data bs, s) => s.respond k 0 bs
      | (.wait, s) => wait s
      | (g, s) => (s.reportGot g 7 0xFF).respond k g.rstatus []
  | .store =>
    match s.placesOf k k.payload.length 2 with
    | none => s.respond k 1 []
    | some l => match s.writePieces l k.payload with
      | (.data _, s) => (note s).respond k 0 []
      | (.wait, s) => wait s
      | (g, s) => (s.reportGot g 7 0xFF).respond k g.rstatus []
  | .atomic =>
    match s.placesOf k 8 3 with
    | some [(pa, _)] =>
      if 5 < k.aop.toNat then s.respond k 1 []
      else match s.atomicAt pa k.aop.toNat (BitVec.ofNat 64 (ofLe (k.payload.take 8))) (BitVec.ofNat 64 (ofLe (k.payload.drop 8))) (.data []) with
        | (.data bs, s) => (note s).respond k 0 bs
        | (.wait, s) => wait s
        | (g, s) => (s.reportGot g 7 0xFF).respond k g.rstatus []
    | _ => s.respond k 1 []
  | .notify =>
    match s.exportFor k 0 0 with
    | some _ => (note s).respond k 0 []
    | none => s.respond k 1 []

/-- An earlier request of the source to bytes of the same line still waits in the receiver: the two are performed in the order sent (R140,
R199). -/
def State.behind (s : State) (k : Packet) : Bool :=
  (s.gz.arrived.takeWhile fun j => decide (j ≠ k)).any fun j =>
    decide (j.cls = 0) && decide (j.src = k.src) && decide (j.flow = k.flow) && decide (j.addr.toNat / 256 = k.addr.toNat / 256)
      && decide ((j.typ.toNat ≤ 3) ↔ (k.typ.toNat ≤ 3))

/-- A request arrives: on its way elsewhere it is forwarded; of no member, or too old, it is discarded; of another period it is answered
expired; a duplicate is answered from its record, a load read again. -/
def State.serve (s : State) (k : Packet) (what : Serve) : State :=
  if !s.top.st.live || !s.gz.joined then s.dropArrived k
  else if k.dst ≠ s.gz.me then s.takePacket k
  else if !s.current k then s.dropArrived k
  else if s.behind k then
    if s.gz.arrived.contains k then s else { s with gz := { s.gz with arrived := s.gz.arrived ++ [k] } }
  else if !s.tagOk k then
    (s.discard k).respond k 3 []
  else match what, s.recorded k with
    | .load, _ => s.perform k .load
    | _, some r => (s.dropArrived k).sendPacket { r with txn := k.txn, epoch := s.gz.epoch.setWidth 16 }
    | w, none => s.perform k w

/-! ### Fabric descriptors (Table 8-12) -/

def fOp (ws : List W64) : Nat := dWord ws 0 58 6
def fDtype (ws : List W64) : Nat := dWord ws 0 53 3
def fSat (ws : List W64) : Bool := dWord ws 0 52 1 = 1
def fPeer (ws : List W64) : Nat := dWord ws 0 46 6
def fExport (ws : List W64) : Nat := dWord ws 0 38 8
def fAop (ws : List W64) : Nat := dWord ws 0 34 4
def fLocal (ws : List W64) : Nat := dWord ws 1 0 57
def fRemote (ws : List W64) : Nat := (wordAt ws 2).toNat
def fLen (ws : List W64) : Nat := (wordAt ws 3).toNat
def fNoteCtr (ws : List W64) : Nat := dWord ws 4 16 10
def fNoteInc (ws : List W64) : Nat := dWord ws 4 0 16
/-- A collective. -/
def fColl (ws : List W64) : Bool := 16 ≤ fOp ws

/-- The words of a fabric descriptor with its signal bits where a mover descriptor has them (R210). -/
def moverWords (ws : List W64) : List W64 :=
  setAt ws 0 (BitVec.ofNat 64 (dWord ws 0 57 1 * 2 ^ 58 + dWord ws 0 56 1 * 2 ^ 57))

/-- The DETAIL with which a fabric descriptor is refused (Table 7-4, as it applies), none where it passes. -/
def State.checkFabric (s : State) (c : Nat) (ws : List W64) : Option Nat :=
  let op := fOp ws
  let nz (i lo n : Nat) := decide (dWord ws i lo n ≠ 0)
  let mw := moverWords ws
  let known := [1, 2, 3, 4, 5, 16, 17, 18].contains op
  if !known || nz 0 0 34 || (fColl ws && decide (4 ≤ fDtype ws)) || (decide (op = 3) && decide (5 < fAop ws)) || nz 4 26 38
      || nz 8 29 3 || nz 9 26 38 || nz 10 0 64 || nz 11 0 64 || nz 12 0 64 then some 8
  else if ((op = 1 ∨ op = 2) ∧ (fLen ws = 0 ∨ 2 ^ 48 ≤ fLen ws))
      ∨ (fColl ws = true ∧ (fLen ws < 32 ∨ 2 ^ 32 < fLen ws ∨ (2 ≤ fDtype ws ∧ fLen ws % 32 ≠ 0))) then some 9
  else if dWord ws 15 0 8 ≠ 0 then some 10
  else if s.flagOutside c mw || s.ctrOutside c mw then some 11
  else if (dSigFlag mw && decide (dFlagOff mw % 8 ≠ 0)) || (decide (op = 3) && (nz 1 0 3 || nz 2 0 3)) then some 13
  else none

/-! ### Local accesses of a queue, by its bound mover (R209) -/

/-- The entry whose context its translations use. -/
def fabEntry (f : FabQueue) (va : Nat) : MovEntry :=
  { num := 0, released := true, va := BitVec.ofNat 64 va, ctx := f.ctx.toNat, tile := 0, words := none }

/-- The bound mover is not stopped on a fault. -/
def State.moverFree (s : State) (b : Nat) (f : FabQueue) : Bool := decide ((s.mover b f.mover.toNat).st ≠ .paused)

/-- What local accesses come to. -/
inductive Fab where
  | bytes (l : List (Option Byte)) (s : State)
  | lost (peer : Option Nat) (s : State)
  | failed (s : State)
  | stop (s : State)
  deriving DecidableEq, Repr

/-- What a target outside the module answers to these accesses: free values, since no answer comes with the command. -/
def State.outsideData (s : State) (n : Nat) : Answer × State :=
  let (l, s) := s.freeBytes n
  (.data l, s)

/-- Translate a run of pieces. -/
def State.fabXlat (s : State) (b : Nat) (f : FabQueue) (acc : Access) : List (Nat × Nat) → Except State (List (Nat × Nat) × State)
  | [] => .ok ([], s)
  | (va, n) :: rest =>
    let m := f.mover.toNat
    match s.moverXlat b m (.mover b m) (fabEntry f va) (va % 2 ^ 57) acc with
    | .stop s => .error s
    | .hit pa s => match s.fabXlat b f acc rest with
      | .ok (l, s) => .ok ((pa, n) :: l, s)
      | .error s => .error s

/-- Pages of a range. -/
def rangeCuts (va n : Nat) : List (Nat × Nat) := pageCuts (n / 65536 + 2) va n

/-- A local access meets a lost peer or the lost link: the bound mover's fault record of a peer, and the report (R158, R209). -/
def State.fabLost (s : State) (b : Nat) (f : FabQueue) (acc : Access) (va pa : Nat) (peer : Option Nat) : State :=
  let m := f.mover.toNat
  let s := s.reportGot (.lost peer) 2 (32 * b + m)
  match peer with
  | some k => s.holdRecord (.mover b m) f.ctx.toNat acc (BitVec.ofNat 64 va) ⟨4, 7, false, 0, pa⟩ k
  | none => s

/-- Read a range of the context's memory. -/
def State.fabRead (s : State) (b : Nat) (f : FabQueue) (va n : Nat) : Fab :=
  match s.fabXlat b f .moverSrc (rangeCuts va n) with
  | .error s => .stop s
  | .ok (l, s) => (l.foldl (fun (r : Fab × Nat) p => (match r.1 with
    | .bytes acc s =>
      let (x, s) : Answer × State := match targetOf p.1 with
        | .window k _ => if s.ownWindow k then (.data [], s) else s.outsideData p.2
        | _ => (.data [], s)
      match s.readFlags p.1 p.2 (32 * b + f.mover.toNat) x with
      | (.data _, q, s) => .bytes (acc ++ q) s
      | (.lost k, _, s) => .lost k (s.fabLost b f .moverSrc r.2 p.1 k)
      | (_, _, s) => .stop s
    | r => r, r.2 + p.2)) (.bytes [] s, va)).1

/-- Write a range of the context's memory; it stops before the first byte where the host must give up a line. A failed write fails the whole
(R177). -/
def State.fabWrite (s : State) (b : Nat) (f : FabQueue) (va : Nat) (l : List Byte) : Fab :=
  match s.fabXlat b f .moverDst (rangeCuts va l.length) with
  | .error s => .stop s
  | .ok (ps, s) =>
    let held := ps.any fun p => decide (s.hostCopies p.1 p.2 ≠ [])
    if held then .stop (forAll ps s fun s p => s.snoop p.1 p.2)
    else (ps.foldl (fun (r : Fab × Nat) p => (match r.1 with
      | .bytes _ s =>
        match s.writeAt p.1 ((l.drop r.2).take p.2) (.data []) with
        | (.data _, s) => .bytes [] s
        | (.lost k, s) => .lost k (s.fabLost b f .moverDst (va + r.2) p.1 k)
        | (g, s) => .failed (s.reportGot g 2 (32 * b + f.mover.toNat))
      | r => r, r.2 + p.2)) (.bytes [] s, 0)).1

/-! ### Starting a descriptor (R209, R178) -/

/-- The queue's next descriptor is read and checked, and is in flight. One that the queue will not run has its status at once. -/
def State.fabStart (s : State) (b q : Nat) : State :=
  let f := s.fqueue b q
  if !f.granted || decide (64 ≤ f.flight.length) || decide (s.fqWaiting b q = 0) || !s.moverFree b f || !s.top.st.live then s
  else
    let va := f.base.toNat * 128 + f.started % 2 ^ f.size.toNat * 128
    let m := f.mover.toNat
    match s.moverXlat b m (.mover b m) (fabEntry f va) va .descriptor with
    | .stop s => s
    | .hit pa s =>
      let (_, l, s) := s.readFlags pa 128 (32 * b + m) (.data [])
      let words := (List.range 16).map fun k => let w := (l.drop (8 * k)).take 8
        if w.any (·.isNone) then none else some (BitVec.ofNat 64 (ofLe (w.map fun x => x.getD 0)))
      let ws := words.map fun w => w.getD 0
      let lost := (List.range 14).filter fun k => (words.getD k none).isNone
      let late := !f.en && (match f.limit with | some n => decide (n ≤ f.started) | none => true)
      let verdict : Option (Nat × Nat) :=
        if late then some (if f.drain then 2 else 3, 0)
        else if lost ≠ [] then some (9, 14)
        else if f.aborting then some (3, 0)
        else match s.checkFabric f.ctx.toNat ws with
          | some d => some (9, d)
          | none => if fOp ws ≤ 4 ∧ s.isMember (fPeer ws) = false then some (5, 0) else none
      let d : FabDesc := {
        num := f.started, va := BitVec.ofNat 64 va, words := ws, lost := lost, verdict := verdict, done := verdict.isSome }
      s.setFqueue b q { s.fqueue b q with started := f.started + 1, flight := (s.fqueue b q).flight ++ [d] }

/-! ### Requests of a descriptor (R210, R211) -/

/-- Tag a packet of a queue with its cadence's period (R216). -/
def State.fabTag (s : State) (f : FabQueue) (k : Packet) : Packet :=
  if f.cad then { k with tagged := true, cadence := f.cadence, period := BitVec.ofNat 9 (s.cad f.cadence.toNat).period } else k

/-- The descriptor still issues. -/
def FabDesc.issues (d : FabDesc) : Bool := !d.done && d.verdict.isNone

/-- Address of an export request. -/
def exportAddr (e off : Nat) : W64 := BitVec.ofNat 64 (e * 2 ^ 56 + off % 2 ^ 48)

/-- A descriptor whose requests have all been issued and answered is done. -/
def FabDesc.rest (d : FabDesc) : FabDesc :=
  if d.issued && decide (d.missing = 0) && !d.done then { d with done := true } else d

/-- Issue one request of a descriptor: count it and send it. -/
def State.fabRequest (s : State) (b q : Nat) (d : FabDesc) (k : Packet) (off : Nat) : State :=
  let s := s.onDesc b q d.num fun _ => { d with missing := d.missing + 1 }
  s.request (s.fabTag (s.fqueue b q) k) (.desc b q d.num off)

/-- Bytes of the next piece of a PUT or GET: to the next 256-byte line at the peer, and within a local page. -/
def FabDesc.piece (d : FabDesc) : Nat :=
  let ws := d.words
  min (fLen ws - d.cursor) (min (256 - (fRemote ws + d.cursor) % 256) (65536 - (fLocal ws + d.cursor) % 65536))

/-- The notification of a PUT, once its data is performed: a NOTIFY of its own (R197, R210). -/
def State.fabNote (s : State) (b q : Nat) (d : FabDesc) : State :=
  let ws := d.words
  let k := { s.packet 7 0 (BitVec.ofNat 6 (fPeer ws)) with
    addr := exportAddr (fExport ws) 0, flow := flowOf (exportAddr (fExport ws) 0).toNat, ctr := BitVec.ofNat 10 (fNoteCtr ws)
    inc := BitVec.ofNat 16 (fNoteInc ws) }
  s.fabRequest b q { d with noted := true, issued := true } k 0

/-- A PUT goes on: its next piece, or its notification. -/
def State.fabPut (s : State) (b q : Nat) (d : FabDesc) : State :=
  let ws := d.words
  let f := s.fqueue b q
  if d.cursor < fLen ws then
    let n := d.piece
    match s.fabRead b f (fLocal ws + d.cursor) n with
    | .stop s => s
    | .failed s => s.onDesc b q d.num fun d => { d with verdict := some (8, 0), done := d.missing = 0 }
    | .lost _ s => s.onDesc b q d.num fun d => { d with verdict := some (5, 0), done := d.missing = 0 }
    | .bytes l s =>
      let lost := l.findIdx? (·.isNone)
      let (free, s) := if lost.isSome then s.freeBytes n else ([], s)
      let data := l.mapIdx fun i x => x.getD (free.getD i 0)
      let addr := exportAddr (fExport ws) (fRemote ws + d.cursor)
      let k := { s.packet 4 0 (BitVec.ofNat 6 (fPeer ws)) with addr := addr, flow := flowOf addr.toNat, len := n, payload := data }
      let d' := { d with
        cursor := d.cursor + n
        poisoned := match d.poisoned, lost with | some p, _ => some p | none, some i => some (d.cursor + i) | none, none => none
        issued := decide (d.cursor + n = fLen ws) && decide (fNoteInc ws = 0) }
      s.fabRequest b q d' k d.cursor
  else if d.missing = 0 ∧ d.noted = false ∧ d.issued = false then s.fabNote b q d
  else s

/-- A GET goes on: the request for its next piece. -/
def State.fabGet (s : State) (b q : Nat) (d : FabDesc) : State :=
  let ws := d.words
  if d.cursor < fLen ws then
    let n := d.piece
    let addr := exportAddr (fExport ws) (fRemote ws + d.cursor)
    let k := { s.packet 5 0 (BitVec.ofNat 6 (fPeer ws)) with addr := addr, flow := flowOf addr.toNat, len := n }
    s.fabRequest b q { d with cursor := d.cursor + n, issued := decide (d.cursor + n = fLen ws) } k d.cursor
  else s

/-- An ATOMIC sends its one request, with its notification. -/
def State.fabAtomic (s : State) (b q : Nat) (d : FabDesc) : State :=
  let ws := d.words
  if d.issued then s
  else
    let addr := exportAddr (fExport ws) (fRemote ws)
    let k := { s.packet 6 0 (BitVec.ofNat 6 (fPeer ws)) with
      addr := addr, flow := flowOf addr.toNat, len := 16, aop := BitVec.ofNat 4 (fAop ws)
      payload := toLe 8 (wordAt ws 5).toNat ++ toLe 8 (wordAt ws 6).toNat
      ctr := BitVec.ofNat 10 (fNoteCtr ws), inc := BitVec.ofNat 16 (fNoteInc ws) }
    s.fabRequest b q { d with issued := true } k 0

/-- NOTIFY, or BARRIER to every member of the mask, once every earlier descriptor of the queue has completed. -/
def State.fabNotify (s : State) (b q : Nat) (d : FabDesc) (members : List Nat) : State :=
  let ws := d.words
  if d.issued || decide (((s.fqueue b q).flight.head?.map (·.num)) ≠ some d.num) then s
  else if members.any fun m => !s.isMember m then
    s.onDesc b q d.num fun d => { d with verdict := some (5, 0), done := d.missing = 0 }
  else
    let s := s.onDesc b q d.num fun d => { d with issued := true }
    let s := forAll members s fun s m =>
      match (s.fqueue b q).flight.find? fun e => decide (e.num = d.num) with
      | some d =>
        let k := { s.packet 7 0 (BitVec.ofNat 6 m) with
          addr := exportAddr (fExport ws) 0, flow := flowOf (exportAddr (fExport ws) 0).toNat, ctr := BitVec.ofNat 10 (fNoteCtr ws)
          inc := BitVec.ofNat 16 (fNoteInc ws) }
        s.fabRequest b q d k 0
      | none => s
    s.onDesc b q d.num FabDesc.rest

/-- A request of a descriptor has its response: data of a GET and the old value of an ATOMIC are written by the bound mover. None where that
cannot be done yet. -/
def State.descResponse (s : State) (b q n off : Nat) (k : Packet) : State × Bool :=
  match (s.fqueue b q).flight.find? fun d => decide (d.num = n) with
  | none => (s, true)
  | some d =>
    let ws := d.words
    let end_ (s : State) (status : Nat) : State := s.onDesc b q n fun d => (d.reqEnded status off).rest
    let f := s.fqueue b q
    match k.rstatus.toNat with
    | 0 =>
      if fOp ws = 2 ∨ fOp ws = 3 then
        if !s.moverFree b f then (s, false)
        else match s.fabWrite b f (fLocal ws + (if fOp ws = 2 then off else 0)) k.payload with
          | .stop s => (s, false)
          | .lost _ s => (end_ s 5, true)
          | .failed s => (end_ s 8, true)
          | .bytes _ s => (end_ s 0, true)
      else (end_ s 0, true)
    | 1 => (end_ s 0x0A, true)
    | 2 => (end_ s 8, true)
    | _ => (end_ s 0x0B, true)

/-- A RESPONSE arrives (R197): it ends the request that carries its transaction number. -/
def State.response (s : State) (k : Packet) : State :=
  if !s.gz.joined || !s.top.st.live then s.dropArrived k
  else if k.dst ≠ s.gz.me then s.takePacket k
  else if !s.current k then s.dropArrived k
  else match s.gz.txns.find? fun t => decide (t.num = k.txn) && decide (t.peer = k.src) with
    | none => s.dropArrived k
    | some t =>
      let end_ (s : State) : State :=
        ({ s with gz := { s.gz with txns := s.gz.txns.filter fun u => decide (u.num ≠ t.num) } }.dropArrived k).flushWaiting
      match t.who with
      | .none => end_ s
      | .far n id =>
        match (s.tile n).far.find? fun f => decide (f.id = id) with
        | some f =>
          let x : Answer := match k.rstatus.toNat with | 0 => .data k.payload | 1 => .refused | 2 => .dataError | _ => .expired
          end_ (s.endFar n f (s.peerGot f.pa k.src.toNat f.size x))
        | none => end_ s
      | .desc b q n off =>
        match s.descResponse b q n off k with
        | (s, true) => end_ s
        | (s, false) => if s.gz.arrived.contains k then s else { s with gz := { s.gz with arrived := s.gz.arrived ++ [k] } }

/-! ### Collectives (R212–R215) -/

/-- Bytes of a count of elements of a data type; an FP8 block is its 32 elements, then its scale (log entry 29). -/
def collBytes (dtype n : Nat) : Nat := match dtype with | 0 => 4 * n | 1 => 2 * n | _ => n / 32 * 33

/-- First element and element after the last of a chunk (R212). -/
def chunkRange (len n c : Nat) : Nat × Nat :=
  let q := 32 * ((len + 32 * n - 1) / (32 * n))
  (min (c * q) len, min ((c + 1) * q) len)

/-- Strings of `n` bytes of a list. -/
def pieces (n : Nat) : Nat → List Byte → List (List Byte)
  | 0, _ => []
  | fuel + 1, l => if l = [] then [] else l.take n :: pieces n fuel (l.drop n)

/-- x ⊕ y of one element (R214). -/
def addElem (f : Fmt) (n : Nat) (x y : List Byte) : List Byte :=
  toLe n (roundTo f .even false (FpNum.add false (decodeNum f (ofLe x)) (decodeNum f (ofLe y))).1).1

/-- x ⊕ y of one FP8 block: decoded exactly, summed exactly, encoded again by the row-scale rule (R110, R214). -/
def addBlock (dtype : Nat) (sat : Bool) (x y : List Byte) : List Byte :=
  let ofmt := if dtype = 2 then 3 else 4
  let f := outFmt ofmt
  let vals (l : List Byte) : List FpNum :=
    match e8m0 (l.getD 32 0).toNat with
    | some k => (l.take 32).map fun c => (decodeNum f c.toNat).scaleBy k
    | none => List.replicate 32 .nan
  let sums := List.zipWith (fun a b => (FpNum.add false a b).1) (vals x) (vals y)
  let (scale, ys) := rowScale ofmt sat sums
  if scale = 255 then List.replicate 32 0 ++ [255]
  else (ys.map fun v => BitVec.ofNat 8 (roundTo f .even sat (v.scaleBy (127 - (scale : Int)))).1) ++ [BitVec.ofNat 8 scale]

/-- received ⊕ own over a chunk. -/
def collAdd (dtype : Nat) (sat : Bool) (x y : List Byte) : List Byte :=
  match dtype with
  | 0 => (List.zipWith (addElem fmtF32 4) (pieces 4 x.length x) (pieces 4 y.length y)).flatten
  | 1 => (List.zipWith (addElem fmtBf16 2) (pieces 2 x.length x) (pieces 2 y.length y)).flatten
  | _ => (List.zipWith (addBlock dtype sat) (pieces 33 x.length x) (pieces 33 y.length y)).flatten

/-- Elements in one packet of collective data: as many whole blocks of 32 as 256 bytes hold. -/
def collPacketElems (dtype : Nat) : Nat := match dtype with | 0 => 64 | 1 => 128 | _ => 224

/-- What step `t` of a collective is: whether it belongs to the all-gather, its number in the phase, whether it is the last reduction. -/
def collPhase (op n t : Nat) : Bool × Nat × Bool :=
  if op = 18 then (true, t, false) else if t + 1 < n then (false, t, t + 2 = n) else (true, t + 1 - n, false)

/-- Steps in all. -/
def collSteps (op n : Nat) : Nat := if op = 16 then 2 * (n - 1) else n - 1

/-- Chunk sent and chunk received at a step by the member at position `p` (R213). -/
def collChunks (gather : Bool) (n p k : Nat) : Nat × Nat :=
  if gather then ((p + n - k % n) % n, (p + 2 * n - k % n - 1) % n) else ((p + 2 * n - k % n - 1) % n, (p + 2 * n - k % n - 2) % n)

/-- A collective ends early: what it has received goes with it (R213). -/
def State.collFails (s : State) (b q : Nat) (d : FabDesc) (status detail : Nat) : State :=
  let s := s.onDesc b q d.num fun d => { d with verdict := some (status, detail), done := true }
  { s with gz := { s.gz with collIn := Tab.put [] s.gz.collIn (16 * b + q) [] } }

/-- Put a chunk's bytes at their place in the output and mark it final. -/
def State.collStore (s : State) (b q : Nat) (d : FabDesc) (c : Nat) (l : List Byte) : Except State State :=
  let ws := d.words
  let n := d.ring.length
  let (from_, _) := chunkRange (fLen ws) n c
  match s.fabWrite b (s.fqueue b q) (fRemote ws + collBytes (fDtype ws) from_) l with
  | .stop s => .error s
  | .failed s => .error (s.collFails b q d 8 0)
  | .lost _ s => .error (s.collFails b q d 5 0)
  | .bytes _ s => .ok s

/-- Read a chunk of the input: its bytes, lost ones free, and the first lost byte. -/
def State.collInput (s : State) (b q : Nat) (d : FabDesc) (c : Nat) : Except State (List Byte × Option Nat × State) :=
  let ws := d.words
  let (from_, to_) := chunkRange (fLen ws) d.ring.length c
  let at_ := collBytes (fDtype ws) from_
  let n := collBytes (fDtype ws) to_ - at_
  match s.fabRead b (s.fqueue b q) (fLocal ws + at_) n with
  | .stop s => .error s
  | .failed s => .error (s.collFails b q d 8 0)
  | .lost _ s => .error (s.collFails b q d 5 0)
  | .bytes l s =>
    let lost := l.findIdx? (·.isNone)
    let (free, s) := if lost.isSome then s.freeBytes n else ([], s)
    .ok (l.mapIdx (fun i x => x.getD (free.getD i 0)), lost.map (· + at_), s)

/-- Send a chunk to the next member of the ring, in packets (R199: the flow is the queue's number). -/
def State.collSend (s : State) (b q : Nat) (d : FabDesc) (c next : Nat) (l : List Byte) : State :=
  let ws := d.words
  let e := collPacketElems (fDtype ws)
  let (from_, _) := chunkRange (fLen ws) d.ring.length c
  let f := s.fqueue b q
  forAll ((pieces (collBytes (fDtype ws) e) l.length l).zipIdx) s fun s p =>
    let k := { s.packet 0x20 2 (BitVec.ofNat 6 next) with
      addr := BitVec.ofNat 64 (from_ + p.2 * e), flow := BitVec.ofNat 4 q, len := p.1.length, payload := p.1 }
    let i := 16 * k.dst.toNat + k.flow.toNat
    let seq := Tab.look 0 s.gz.e2e i
    let s := { s with gz := { s.gz with e2e := Tab.put 0 s.gz.e2e i (seq + 1) } }
    s.sendPacket (s.fabTag f { k with seq := seq, txn := collTxn b d.num })

/-- The slices of a chunk that the member before this one in the ring sent in the phase, one for each packet of elements from the first, and
the slices left; none where one has not arrived (R213). -/
def collTake (l : List CollPiece) (src c : Nat) (gather : Bool) (elems : List Nat) : Option (List Byte × List CollPiece) :=
  elems.foldl (fun r e => r.bind fun (r : List Byte × List CollPiece) =>
    (r.2.find? fun p =>
      decide (p.src = src) && decide (p.chunk = c) && decide (p.gather = gather) && decide (p.elem = e)).map fun p =>
        (r.1 ++ p.bytes, r.2.erase p)) (some ([], l))

/-- The ring list of a collective (R210): members up to 0xFF; none unless it has 2–64 distinct members with this one among them. -/
def ringOf (l : List Byte) (me : Nat) : Option (List Nat) :=
  let r := (l.takeWhile fun x => x ≠ 0xFF).map (·.toNat)
  if 2 ≤ r.length ∧ r.all (· < 64) = true ∧ r.eraseDups.length = r.length ∧ r.contains me = true then some r else none

/-- Read the ring list first. A bad one completes BAD_DESCRIPTOR, DETAIL 9 (log entry 29); one with a member that is lost PEER_LOST. -/
def State.collRing (s : State) (b q : Nat) (d : FabDesc) : State :=
  let end_ (s : State) (v : Nat × Nat) : State := s.collFails b q d v.1 v.2
  match s.fabRead b (s.fqueue b q) (wordAt d.words 7).toNat 64 with
  | .stop s => s
  | .failed s => end_ s (8, 0)
  | .lost _ s => end_ s (5, 0)
  | .bytes l s =>
    if l.any (·.isNone) then end_ s (9, 14)
    else match ringOf (wholeBytes l) s.gz.me.toNat with
      | none => end_ s (9, 9)
      | some r => if r.any fun m => !s.isMember m then end_ s (5, 0) else s.onDesc b q d.num fun d => { d with ring := r }

/-- The sending half of a step. -/
def State.collOut (s : State) (b q : Nat) (d : FabDesc) : Except State (State × FabDesc) :=
  let ws := d.words
  let n := d.ring.length
  let p := d.ring.findIdx fun m => decide (m = s.gz.me.toNat)
  let next := d.ring.getD ((p + 1) % n) 0
  let (gather, k, _) := collPhase (fOp ws) n d.step
  let (c, _) := collChunks gather n p k
  if d.step < d.sent then .ok (s, d)
  else if d.step = 0 then
    match s.collInput b q d c with
    | .error s => .error s
    | .ok (l, lost, s) =>
      let d := { d with sent := 1, poisoned := d.poisoned.or lost }
      let r := if gather then s.collStore b q d c l else .ok s
      match r with
      | .error s => .error s
      | .ok s =>
        let d := if gather then { d with chunks := d.chunks ||| bit64 c, cursor := d.cursor + l.length } else d
        .ok (s.collSend b q d c next l, d)
  else .ok (s.collSend b q d c next d.acc, { d with sent := d.step + 1 })

/-- The receiving half of a step: reduce, or store as final. -/
def State.collIn (s : State) (b q : Nat) (d : FabDesc) : Except State (State × FabDesc) :=
  let ws := d.words
  let n := d.ring.length
  let p := d.ring.findIdx fun m => decide (m = s.gz.me.toNat)
  let (gather, k, last) := collPhase (fOp ws) n d.step
  let (_, c) := collChunks gather n p k
  let (from_, to_) := chunkRange (fLen ws) n c
  let e := collPacketElems (fDtype ws)
  let elems := (List.range ((to_ - from_ + e - 1) / e)).map fun i => from_ + i * e
  match collTake (Tab.look [] s.gz.collIn (16 * b + q)) (d.ring.getD ((p + n - 1) % n) 0) c gather elems with
  | none => .ok (s, d)
  | some (l, rest) =>
    let took (s : State) : State := { s with gz := { s.gz with collIn := Tab.put [] s.gz.collIn (16 * b + q) rest } }
    let final (s : State) (d : FabDesc) (l : List Byte) : Except State (State × FabDesc) :=
      match s.collStore b q d c l with
      | .error s => .error s
      | .ok s => .ok (took s, { d with step := d.step + 1, acc := l, chunks := d.chunks ||| bit64 c, cursor := d.cursor + l.length })
    if gather then final s d l
    else match s.collInput b q d c with
      | .error s => .error s
      | .ok (own, lost, s) =>
        let sum := collAdd (fDtype ws) (fSat ws) l own
        let d := { d with poisoned := d.poisoned.or lost }
        if last then final s d sum else .ok (took s, { d with step := d.step + 1, acc := sum })

/-- A collective goes on by the step it stands at. -/
def State.collStep (s : State) (b q : Nat) (d : FabDesc) : State :=
  if d.ring = [] then s.collRing b q d
  else match s.collOut b q d with
    | .error s => s
    | .ok (s, d) =>
      let s := s.onDesc b q d.num fun _ => d
      match s.collIn b q d with
      | .error s => s
      | .ok (s, d) =>
        let d := if collSteps (fOp d.words) d.ring.length ≤ d.step then { d with done := true } else d
        s.onDesc b q d.num fun _ => d

/-- The n-th descriptor in flight goes on, if it has the operation the command names. -/
def State.fabGo (s : State) (b q n op : Nat) : State :=
  let f := s.fqueue b q
  match f.flight[n]? with
  | none => s
  | some d =>
    if !d.issues || decide (fOp d.words ≠ op) || !s.moverFree b f || !s.gz.joined || !s.top.st.live then s
    else match op with
      | 1 => s.fabPut b q d
      | 2 => s.fabGet b q d
      | 3 => s.fabAtomic b q d
      | 4 => s.fabNotify b q d [fPeer d.words]
      | 5 => s.fabNotify b q d ((List.range 64).filter fun m => (wordAt d.words 7).getLsbD m)
      | _ => s.collStep b q d

/-- A slice of collective data arrives (R213, R216): it waits for its step, and the queue's running collective goes on. -/
def State.collArrives (s : State) (k : Packet) (x : CollSlice) : State :=
  if !s.gz.joined || !s.top.st.live then s.dropArrived k
  else if k.dst ≠ s.gz.me then s.takePacket k
  else if !s.current k || (s.recorded k).isSome then s.dropArrived k
  else if !s.tagOk k then
    s.dropArrived k
  else
    let i := 16 * x.bolt.val + x.queue.val
    let piece : CollPiece := { src := k.src.toNat, chunk := x.chunk, gather := x.gather, elem := fld k.addr.toNat 0 32, bytes := k.payload }
    let s := (s.recordDone k k).dropArrived k
    let s := { s with gz := { s.gz with collIn := Tab.put [] s.gz.collIn i (Tab.look [] s.gz.collIn i ++ [piece]) } }
    let f := s.fqueue x.bolt.val x.queue.val
    match f.flight.find? fun d => d.issues && fColl d.words with
    | some d => if s.moverFree x.bolt.val f then s.collStep x.bolt.val x.queue.val d else s
    | none => s

/-! ### Completion (R209–R211, R215) -/

/-- STATUS and DETAIL. -/
def fabStatus (f : FabQueue) (d : FabDesc) : Nat × Nat :=
  match d.verdict with
  | some v => v
  | none => if d.poisoned.isSome then (7, 0) else if !f.en && f.drain then (2, 0) else (1, 0)

/-- The queue's first descriptor, its work done, completes: CHUNK_FINAL and the status words by the bound mover, then its signals. -/
def State.fabComplete (s : State) (b q : Nat) : State :=
  let f := s.fqueue b q
  match f.flight with
  | [] => s
  | d :: rest =>
    if !d.done || !s.moverFree b f then s
    else
      let (status, detail) := fabStatus f d
      let cursor := if status = 7 then d.poisoned.getD d.cursor else d.cursor
      let m := f.mover.toNat
      let cause := if status = 3 && f.cad && decide ((s.cad f.cadence.toNat).st = .expiring) then 1 else
        if (s.ctx f.ctx.toNat).stopping then 2 else if (s.ctx f.ctx.toNat).ending.isSome then 3 else 0
      let words := (if fColl d.words then [(d.va.toNat + 0x68, toLe 8 d.chunks.toNat)] else [])
        ++ [(d.va.toNat + 0x70, statusWords s.gtLow cause (if status = 4 then ((s.mover b m).faultSeq.getD 0).toNat else 0) status detail cursor)]
      let r := words.foldl (fun r p => match r with
        | .bytes _ s => s.fabWrite b f p.1 p.2
        | r => r) (Fab.bytes [] s)
      let go (s : State) : State :=
        let run : Running := { entry := fabEntry f d.va.toNat, words := moverWords d.words, lost := d.lost }
        let s := s.setFqueue b q { s.fqueue b q with flight := rest }
        let s := s.signals b m run status
        let s := if fColl d.words && d.verdict.isSome then
            { s with gz := { s.gz with collIn := Tab.put [] s.gz.collIn (16 * b + q) [] } }
          else s
        let s := if (status = 3 ∨ status = 0x0B) ∧ f.cad = true ∧ (s.cad f.cadence.toNat).st = .expiring then
            let c := s.cad f.cadence.toNat
            s.setCad f.cadence.toNat { c with aborted := c.aborted + 1 }
          else s
        (s.fqRest b q).tryLeave
      if d.noWrite then go s
      else match r with
      | .stop s => s
      | .failed s => go s
      | .lost _ s => go s
      | .bytes _ s => go s

end Sys2Proof.Machine
end

