-- ==== Sys2Proof/Machine/Bursen.lean ====
section
/-!
DEFINITION. The Bursen link and its lines (R219–R224).
-/

namespace Sys2Proof.Machine

/-- The page of a context's host-visible region that holds a module address (R133, R220). -/
def State.hostVisible (s : State) (pa : Nat) : Bool :=
  s.ctxs.any fun p => p.2.regions.any fun r =>
    decide (r.kind = 4) && p.2.pages.any fun q =>
      decide (q.2 = alignDown pa 65536) && decide (r.va ≤ q.1) && decide (q.1 < r.va + (r.size + 65535) / 65536 * 65536)

/-- The host reads a line: of its region it keeps a copy, shared or owned; of CSR space it reads registers, with the attribute of the transaction;
no other module memory answers it (R220, R222, R223). -/
def State.hostReads (s : State) (line : Nat) (own secure : Bool) : State :=
  let a := line * lineBytes
  let got (s : State) (l : List Byte) : State := { s with cmd := { s.cmd with readData := l } }
  if !s.linkUp then s
  else match targetOf a with
    | .csr off =>
      let (l, s) := (List.range 32).foldl (fun (r : List Byte × State) k =>
        let (v, s) := r.2.csrRead (off + 4 * k) (if secure then .bursenSecure else .bursen) 2
        (r.1 ++ toLe 4 v.toNat, s)) ([], s)
      got s l
    | .hbm _ =>
      if s.hostVisible a then
        match s.physRead a lineBytes with
        | .ok l =>
          let held := match Tab.look none s.cmd.hostHeld line with | some o => o || own | none => own
          got { s with cmd := { s.cmd with hostHeld := Tab.put none s.cmd.hostHeld line (some held) } } l
        | .error e => got (s.reportMem e 8 0) []
      else s
    | _ => s

/-- The module reads a host line into its cache (R221). -/
def State.moduleReads (s : State) (line : Nat) (own : Bool) : State :=
  if s.linkUp && decide (line < hostBase / lineBytes) then (s.takeLine line own).2 else s

/-- The host withdraws the module's copy of a host line: a dirty one is written back first (R220). -/
def State.withdrawn (s : State) (line : Nat) : State :=
  if !s.linkUp then s
  else match Tab.look none s.cmd.cache line with
    | some h =>
      let s := s.writeBack line h
      { s with cmd := { s.cmd with cache := Tab.put none s.cmd.cache line none } }
    | none => s

/-- A line of module memory is the host's no longer. -/
def State.hostGives (s : State) (line : Nat) : State :=
  { s with cmd := { s.cmd with
    snoops := s.cmd.snoops.filter fun k => decide (k ≠ line), hostHeld := Tab.put none s.cmd.hostHeld line none } }

/-- The host answers an INVALIDATE of a line it held (R220). -/
def State.hostAnswers (s : State) (line : Nat) : State :=
  if s.linkUp && s.cmd.snoops.contains line then s.hostGives line else s

/-- An INVALIDATE unanswered for 10 µs: the line is lost to the host, and the module goes on (R220). -/
def State.snoopLost (s : State) (line : Nat) : State :=
  if s.cmd.snoops.contains line then
    let s := s.hostGives line
    { s with cmd := { s.cmd with snoopTimeouts := s.cmd.snoopTimeouts + 1 } }.report 8 0 0x17 none (data64 (line * lineBytes))
  else s

/-- The link leaves UP (R224): every host line goes, dirty ones with their data, whose count is logged. It retrains (R219). -/
def State.linkLost (s : State) : State :=
  if s.linkUp then
    let dirty := (s.cmd.cache.filter fun p => p.2.any (·.dirty)).length
    let s := { s with cmd := { s.cmd with link := .training, cache := [] } }
    let s := s.setPort 32 ((s.port 32).fresh .disabled)
    s.report 8 0 0x27 none [0, 0, BitVec.ofNat 32 dirty]
  else s

/-- The Bursen link fails by the rule of R196 (R219), and its failure is counted in one of the two counts of BRS_LINK_STAT (log entry 183). -/
def State.linkFailsB (s : State) : State :=
  if s.linkUp && s.cmd.portB.failing s.clk.gt then
    let (p, s) := s.countFailure s.cmd.portB
    { s with cmd := { s.cmd with portB := p } }.linkLost
  else s

/-- The link is UP: held records are written in their order, each with its message (R224). In OFF, and without CTLA, which feeds port B (R20), it
stays down. -/
def State.linkRaised (s : State) : State :=
  if s.linkUp || decide (s.top.st = .off) || !s.top.ctlA then s
  else
    let l := s.cmd.heldRecords
    let s := s.setPort 32 { (s.port 32).fresh .disabled with fails := 0 }
    let s := { s with cmd := { s.cmd with link := .up } }
    if s.cmd.areaRefused then s else forAll l { s with cmd := { s.cmd with heldRecords := [] } } fun s n => s.deliver n

/-- Training of port B ends (R196, R219): three failures in a row put it in FAILED. -/
def State.linkTrained (s : State) (r : Training) : State :=
  if !s.top.ctlA then s
  else match r with
  | .up _ _ _ => if s.cmd.link = .failed then s else s.linkRaised
  | .failed =>
    if s.linkUp || decide (s.cmd.link = .failed) then s
    else
      let p := s.port 32
      let s := s.setPort 32 { p with fails := p.fails + 1 }
      if 3 ≤ p.fails + 1 then { s with cmd := { s.cmd with link := .failed } } else { s with cmd := { s.cmd with link := .training } }

end Sys2Proof.Machine
end

