-- ==== Sys2Proof/Machine/Rails.lean ====
section
/-!
DEFINITION. The thirteen rails (R293–R301): the voltage table, the command link with its frames, the controllers, the power blocks, and the
forcing of Floor (R315).
-/

namespace Sys2Proof.Machine

/-! ### The voltage table (R293, R299, R300) -/

/-- Phases of a rail (Table 13-1). -/
def railPhases (r : Nat) : Nat := if r < 4 then 32 else if r < 8 then 8 else if r < 10 then 12 else if r = 10 then 16 else 4

/-- The lowest permitted code of a CORE or LOAM rail in a row (0 Run, 1 Floor) at its bolt's band; the fused target of the others. -/
def State.railCell (s : State) (r row : Nat) : BitVec 9 :=
  if r < 8 then Config.voltageTable (r % 4) (r / 4) row (Tab.look 0 s.gvn.band (r % 4)) else Config.fixedTarget r

/-- The row is Floor while GOV_ALERT.FLOOR = 1 (R300). -/
def State.railRow (s : State) : Nat := b2n s.pow.floor

/-! ### Frames (R296) -/

/-- A frame from its bits [31:6], with its CRC. -/
def railFrame (n : Nat) : W32 :=
  let f : W32 := BitVec.ofNat 32 (n * 64)
  f + BitVec.ofNat 32 (crc6 f)

def railTyp (f : W32) : Nat := fld f.toNat 28 4
def railSeq (f : W32) : BitVec 4 := BitVec.ofNat 4 (f.toNat / 2 ^ 24)
def railTarget (f : W32) : BitVec 9 := BitVec.ofNat 9 (f.toNat / 2 ^ 15)
def railActive (f : W32) : Nat := fld f.toNat 6 6
def railGood (f : W32) : Bool := decide (crc6 f = f.toNat % 64)

/-- Bits [31:6] of a frame of a type and number. -/
def railHead (typ : Nat) (seq : BitVec 4) : Nat := typ * 2 ^ 22 + seq.toNat * 2 ^ 18

/-- Enter a frame, sent or received, in the log of the last 64, newest first (R364). -/
def State.railLog (s : State) (r : Nat) (f : W32) : State :=
  let x := s.rail r
  s.setRail r { x with log := ((f, s.gtLow) :: x.log).take 64 }

/-- The power block sends a new command, numbered modulo 16 (R297). -/
def State.railSend (s : State) (r : Nat) (body : BitVec 4 → Nat) : State :=
  let x := s.rail r
  let f := railFrame (body x.seq)
  (s.setRail r { x with seq := x.seq + 1, sent := x.sent ++ [(x.seq, f, 1)] }).railLog r f

/-- Send SET_TARGET: for CORE and LOAM a code below the cell of the present row and band is raised to it and the raise reported (R300). -/
def State.sendTarget (s : State) (r : Nat) (code : BitVec 9) (slew : BitVec 3) : State :=
  let low := s.railCell r s.railRow
  let raised := decide (r < 8) && decide (code < low)
  let code' := if raised then low else code
  let s := if raised then
      (s.setRail r { s.rail r with raises := (s.rail r).raises + 1 }).report 9 (BitVec.ofNat 32 r) 7 none [code.setWidth 32, code'.setWidth 32]
    else s
  s.railSend r fun q => railHead 1 q + code'.toNat * 2 ^ 9 + slew.toNat * 2 ^ 6

def State.sendShed (s : State) (r : Nat) (active : BitVec 6) : State := s.railSend r fun q => railHead 2 q + active.toNat
def State.sendUnshed (s : State) (r : Nat) : State := s.railSend r fun q => railHead 3 q

/-- The target the rail stands at or is being sent to. -/
def State.railAim (s : State) (r : Nat) : BitVec 9 :=
  match (s.rail r).sent.reverse.find? fun c => decide (railTyp c.2.1 = 1) with
  | some c => railTarget c.2.1
  | none => (s.rail r).targetNow

/-- A rail in regulation, whether some of its phases are shed or not, with no transition of it under way (R298). -/
def Rail.still (x : Rail) : Bool :=
  (decide (x.st = .regulating) || decide (x.st = .shed)) && x.settling.isNone && x.sent.isEmpty

/-- The rail stands at or above a code with its TRANSITION_DONE received (R300). -/
def State.railAt (s : State) (r : Nat) (code : BitVec 9) : Bool := (s.rail r).still && decide (code ≤ (s.rail r).targetNow)

/-! ### Floor (R315) -/

/-- Force Floor, once the source has been latched: every governor limits at once, the divider moves to ÷16, and firmware logs the source and
lowers every CORE and LOAM rail to its Floor row. While Floor holds, a further source is only latched. -/
def State.forceFloor (s : State) : State :=
  if s.pow.floor then s
  else
    let s := { s with pow := { s.pow with floor := true, floorCount := s.pow.floorCount + 1 } }
    if s.fwRuns then
      let s := s.report 0xD 0 0x29 none [s.govReg 0x20]
      forAll (List.range 8) s fun s r =>
        if (s.rail r).st = .off then s else s.sendTarget r (s.railCell r 1) (s.rail r).slew
    else s

/-- An alert line asserts: its rail is latched in SOURCE (Table 13-15). -/
def State.railAlert (s : State) (r : Nat) : State :=
  ({ s with pow := { s.pow with source := s.pow.source ||| BitVec.ofNat 13 (2 ^ r) } } : State).forceFloor

/-- FW_FORCE is set for a reason: 0 a write, 1 an HBM temperature, 2 the held reserve, 3 a withdrawal. -/
def State.setForce (s : State) (why : Nat) : State :=
  let s := { s with
    pow := { s.pow with fwForce := true, firmware := true }
    gvn := { s.gvn with forcedBy := if s.gvn.forcedBy.contains why then s.gvn.forcedBy else s.gvn.forcedBy ++ [why] } }
  s.forceFloor

/-- A reason is gone; FW_FORCE is cleared with the last. -/
def State.dropForce (s : State) (why : Nat) : State :=
  let l := s.gvn.forcedBy.filter fun k => decide (k ≠ why)
  if s.gvn.forcedBy.contains why then
    { s with gvn := { s.gvn with forcedBy := l }, pow := { s.pow with fwForce := l ≠ [] } }
  else s

/-! ### The controllers (R294–R298) -/

/-- A controller puts a frame on its line to the power block. -/
def Rail.answer (x : Rail) (n : Nat) : Rail := { x with back := x.back ++ [railFrame n] }

/-- A frame that the controller does not apply (R297): its CRC fails, its TYPE is reserved or its TARGET lies above 280. -/
def railRefused (f : W32) : Bool :=
  !railGood f || decide (railTyp f = 0) || decide (3 < railTyp f) || (decide (railTyp f = 1) && decide (280 < (railTarget f).toNat))

/-- A controller receives a frame. -/
def Rail.controller (x : Rail) (f : W32) : Rail :=
  let q := railSeq f
  if railRefused f then x.answer (railHead 0xD (if railGood f then q else 0))
  else match railTyp f with
    | 1 =>
      let y := x.answer (railHead 8 q)
      let y := match x.moving with
        | some m => y.answer (railHead 0xA m.1)
        | none => y
      { y with moving := some (q, railTarget f) }
    | 2 =>
      -- a cancel still on its way to the power block is in progress
      if x.back.any fun g => decide (railTyp g = 0xC) then x.answer (railHead 0xC q)
      else { x.answer (railHead 8 q) with shedSeq := some q }
    | _ => { x.answer (railHead 8 q) with shedSeq := none }

/-- The output has settled: TRANSITION_DONE (R298). -/
def Rail.settle (x : Rail) : Rail :=
  match x.moving with
  | some (q, code) => { x.answer (railHead 9 q + code.toNat * 2 ^ 9) with moving := none, settled := code }
  | none => x

/-- A load step: every phase switches again, and the controller reports SHED_CANCELLED (R295). -/
def Rail.loadStep (x : Rail) : Rail := { x.answer (railHead 0xC (x.shedSeq.getD 0)) with shedSeq := none }

/-- A phase beyond 45 A: the alert line asserts and the ALERT frame starts (R294, Table 13-15). -/
def State.overcurrent (s : State) (r : Nat) : State :=
  (s.setRail r { (s.rail r).answer (0xE * 2 ^ 22 + 1 * 2 ^ 20) with alert := true }).railAlert r

/-! ### The power blocks (R296–R301) -/

/-- Take the command with a number out of those that wait for their answer; the oldest where the number could not be read. -/
def Rail.answered (x : Rail) (q : BitVec 4) : Option (BitVec 4 × W32 × Nat) :=
  x.sent.find? fun c => decide (c.1 = q)

def Rail.drop (x : Rail) (q : BitVec 4) : Rail := { x with sent := x.sent.filter fun c => decide (c.1 ≠ q) }

/-- The last answer (Table 13-4). -/
def Rail.noteLast (x : Rail) (code : BitVec 3) (q : BitVec 4) : Rail := { x with last := code, lastSeq := q }

/-- The self-clearing bit of a command's type is cleared once ACK or NAK returns. -/
def Rail.clearBit (x : Rail) (typ : Nat) : Rail :=
  match typ with
  | 1 => { x with go := false }
  | 2 => { x with shedBit := false }
  | _ => { x with unshedBit := false }

/-- ACK of a command. A SHED outside 1 to the rail's phases leaves a free number of them. -/
def State.railAck (s : State) (r : Nat) (f : W32) : State :=
  let x := s.rail r
  let q := railSeq f
  let y := x.noteLast 1 q
  match x.answered q with
  | none => s.setRail r y
  | some (_, c, _) =>
    let y := (y.drop q).clearBit (railTyp c)
    match railTyp c with
    | 1 => s.setRail r { y with
        st := if x.st = .shed then .shed else .slewing, targetNow := railTarget c, settling := some q
        phases := if x.st = .shed then x.phases else railPhases r }
    | 2 =>
      let n := railActive c
      if 1 ≤ n ∧ n ≤ railPhases r then s.setRail r { y with st := .shed, phases := n }
      else
        let (v, s) := s.takeFree
        s.setRail r { y with st := .shed, phases := 1 + v.toNat % railPhases r }
    | _ => s.setRail r { y with st := if x.settling.isSome then .slewing else .regulating, phases := railPhases r }

/-- TRANSITION_DONE of the SET_TARGET last acknowledged; one of an earlier SET_TARGET is only noted. -/
def State.railDone (s : State) (r : Nat) (f : W32) : State :=
  let x := (s.rail r).noteLast 2 (railSeq f)
  s.setRail r (if x.settling = some (railSeq f) then
      { x with targetNow := railTarget f, settling := none, st := if x.st = .slewing then .regulating else x.st }
    else x)

/-- A command has failed three times (R297): LINK_DOWN, and in BOOT a rail that has not come to its target is fatal (R290). -/
def State.railLinkDown (s : State) (r : Nat) (q : BitVec 4) (c : W32) : State :=
  let x := (s.rail r).clearBit (railTyp c)
  let s := (s.setRail r { x with st := .linkDown, sent := [], nakWait := none }).report 9 (BitVec.ofNat 32 r) 0x28 none [q.setWidth 32]
  if s.top.st = .boot ∧ railTyp c = 1 then s.fatal 9 (BitVec.ofNat 32 r) 0x46 [(railTarget c).setWidth 32] else s

/-- The command to resend: the NAKed one that waits, else the oldest without an answer. -/
def Rail.overdue (x : Rail) : Option (BitVec 4 × W32 × Nat) :=
  match x.nakWait.bind x.answered with
  | some c => some c
  | none => x.sent.head?

/-- Resend a command, or give up after its third send. -/
def State.railResend (s : State) (r : Nat) : State :=
  let x := s.rail r
  match x.overdue with
  | none => s
  | some (q, f, n) =>
    if 3 ≤ n then s.railLinkDown r q f
    else (s.setRail r { x with sent := x.sent.map fun c => if c.1 = q then (q, f, n + 1) else c, nakWait := none }).railLog r f

/-- The command that a NAK concerns: that of its SEQ, and the oldest where the controller could not read one and answered zero. -/
def Rail.naked (x : Rail) (q : BitVec 4) : Option (BitVec 4 × W32 × Nat) :=
  match x.answered q with
  | some c => some c
  | none => if q = 0 then x.sent.head? else none

/-- NAK: the command is sent again after 256 tt; the third time its link is down. -/
def State.railNak (s : State) (r : Nat) (f : W32) : State :=
  let x := (s.rail r).noteLast 4 (railSeq f)
  match x.naked (railSeq f) with
  | none => s.setRail r x
  | some (q, c, n) =>
    let s := s.setRail r { x.clearBit (railTyp c) with nakWait := some q }
    if 3 ≤ n then s.railLinkDown r q c else s

/-- SHED_CANCELLED: every phase switches again. -/
def State.railUnshed (s : State) (r : Nat) (f : W32) : State :=
  let x := (s.rail r).noteLast 5 (railSeq f)
  let x := match x.answered (railSeq f) with
    | some (_, c, _) => if railTyp c = 2 then (x.drop (railSeq f)).clearBit 2 else x
    | none => x
  s.setRail r { x with
    phases := if x.st = .off then 0 else railPhases r
    st := if x.st = .shed then (if x.settling.isSome then .slewing else .regulating) else x.st }

/-- The number *k* of the window that ended last: the greatest with 1,562.5 × *k* at or before GT. -/
def State.windowNow (s : State) : Nat := 2 * s.clk.gt.toNat / 3125

/-- TELEMETRY of the last window in the units of Table 13-5, rounded down (log entry 10). -/
def State.railTelemetry (s : State) (r : Nat) (f : W32) : State :=
  let x := s.rail r
  let v := fld f.toNat 6 20
  match fld f.toNat 26 2 with
  | 0 => s.setRail r { x with vout := min 65535 (v * 5 / 2) }
  | 1 => s.setRail r { x with iout := min 65535 (v / 10) }
  | 2 =>
    let s' := s.setRail r { x with pout := v * 10, window := BitVec.ofNat 8 s.windowNow }
    { s' with pow := { s'.pow with railEnergy := s'.pow.railEnergy + (v * 10 : Nat) / 100 } }
  | _ => s

/-- ALERT: its cause is shown and its source latched (R315). A rail fault takes the rail out of regulation; in BOOT the rail then does not
reach its target (R290). -/
def State.railAlerted (s : State) (r : Nat) (f : W32) : State :=
  let x := s.rail r
  let cause := fld f.toNat 26 2
  let s := (s.setRail r { x with alert := true, alertCause := BitVec.ofNat 2 cause, st := if cause = 3 then .fault else x.st }).railAlert r
  if cause = 3 ∧ s.top.st = .boot then s.fatal 9 (BitVec.ofNat 32 r) 0x46 [(s.railAim r).setWidth 32] else s

/-- The power block receives a frame: one with a bad CRC is dropped. -/
def State.railReceive (s : State) (r : Nat) (f : W32) (typ : Nat) (act : State → State) : State :=
  let x := s.rail r
  let s := (s.setRail r { x with back := if x.back.head? = some f then x.back.drop 1 else x.back }).railLog r f
  if railGood f && decide (railTyp f = typ) then act s else s

/-! ### Registers -/

/-- A write of RAIL_TGT (Table 13-3). A SLEW code that the table reserves leaves the field as it was (R15; log entry 165). SET_TARGET goes
first; SHED and UNSHED together send neither. -/
def State.railTgtWrite (s : State) (r : Nat) (v : W32) : State :=
  let n := v.toNat
  let slew := fld n 26 3
  let slew : BitVec 3 := if slew ≤ 4 then BitVec.ofNat 3 slew else (s.rail r).slew
  let go := bitOf n 31
  let shed := bitOf n 30 && !bitOf n 29
  let unshed := bitOf n 29 && !bitOf n 30
  let x := s.rail r
  let x := { x with
    target := BitVec.ofNat 9 n, active := BitVec.ofNat 6 (n / 2 ^ 20), slew := slew
    go := x.go || go, shedBit := x.shedBit || shed, unshedBit := x.unshedBit || unshed }
  let s := s.setRail r x
  let s := if go then s.sendTarget r x.target x.slew else s
  let s := if shed then s.sendShed r x.active else s
  if unshed then s.sendUnshed r else s

/-! ### The commands -/

/-- A frame reaches a rail's controller. One whose CRC fails or whose TYPE is reserved is answered NAK whichever command it was meant for; a
frame of another command's TYPE is that command's to give. -/
def State.toController (s : State) (r : Nat) (f : W32) (typ : Nat) : State :=
  let t := railTyp f
  if railGood f && decide (t ≠ typ) && decide (1 ≤ t) && decide (t ≤ 3) then s else s.setRail r ((s.rail r).controller f)

/-- A controller receives SET_TARGET (R298). -/
def execSetTarget (r : Fin 13) (frame : W32) (s : State) : Out := .next (s.toController r frame 1)
/-- A controller receives SHED (R295). -/
def execShed (r : Fin 13) (frame : W32) (s : State) : Out := .next (s.toController r frame 2)
/-- A controller receives UNSHED (R295). -/
def execUnshed (r : Fin 13) (frame : W32) (s : State) : Out := .next (s.toController r frame 3)
/-- The output has stayed within ±2.5 mV of its target for 1 µs (R298). -/
def execTargetSettled (r : Fin 13) (s : State) : Out := .next (s.setRail r (s.rail r).settle)
/-- A load step (R295). -/
def execLoadStep (r : Fin 13) (s : State) : Out := .next (s.setRail r (s.rail r).loadStep)
/-- A phase exceeds 45 A in two consecutive cycles (R294). -/
def execPhaseOvercurrent (r : Fin 13) (s : State) : Out := .next (s.overcurrent r)
/-- The power block receives ACK (R297). -/
def execAck (r : Fin 13) (frame : W32) (s : State) : Out := .next (s.railReceive r frame 8 fun s => s.railAck r frame)
/-- The power block receives SUPERSEDED (R298). -/
def execSuperseded (r : Fin 13) (frame : W32) (s : State) : Out :=
  .next (s.railReceive r frame 0xA fun s => s.setRail r ((s.rail r).noteLast 3 (railSeq frame)))
/-- The power block receives TELEMETRY (R301). -/
def execTelemetry (r : Fin 13) (frame : W32) (s : State) : Out := .next (s.railReceive r frame 0xB fun s => s.railTelemetry r frame)
/-- The power block receives SHED_CANCELLED (R295). -/
def execShedCancelled (r : Fin 13) (frame : W32) (s : State) : Out := .next (s.railReceive r frame 0xC fun s => s.railUnshed r frame)
/-- The power block receives NAK (R297). -/
def execNak (r : Fin 13) (frame : W32) (s : State) : Out := .next (s.railReceive r frame 0xD fun s => s.railNak r frame)
/-- The power block receives ALERT (R315). -/
def execAlert (r : Fin 13) (frame : W32) (s : State) : Out := .next (s.railReceive r frame 0xE fun s => s.railAlerted r frame)
/-- A command has had no answer for 2 µs, or its wait after a NAK is over (R297). -/
def execRailResendTimeout (r : Fin 13) (s : State) : Out := .next (s.railResend r)
/-- A write of RAIL_TGT with GO = 1 (R300). -/
def execRailTgtGo (r : Fin 13) (v : W32) (p : Path) (s : State) : Out :=
  .next (s.claimed p fun s => s.railTgtWrite r (v ||| 0x80000000))
/-- A write of RAIL_TGT with SHED = 1 (R295). -/
def execRailTgtShed (r : Fin 13) (v : W32) (p : Path) (s : State) : Out :=
  .next (s.claimed p fun s => s.railTgtWrite r (v ||| 0x40000000))
/-- A write of RAIL_TGT with UNSHED = 1 (R295). -/
def execRailTgtUnshed (r : Fin 13) (v : W32) (p : Path) (s : State) : Out :=
  .next (s.claimed p fun s => s.railTgtWrite r (v ||| 0x20000000))
/-- A read of RAIL_VI latches RAIL_P (R301). -/
def execRailViRead (r : Fin 13) (s : State) : Out := .next (s.csrRead (0x4000000 + 16 * r.val + 8) .bursenSecure 2).2

end Sys2Proof.Machine
end

