-- ==== Sys2Proof/Machine/Reset.lean ====
section
/-!
DEFINITION. Power, resets and boot (R20, R25–R28, R277, R283–R292, R415), the firmware image (R285–R288), drains (R25), the sense pin (R388)
and a withdrawal (R404).
-/

namespace Sys2Proof.Machine

/-! ### Power and cold reset -/

/-- What outlives the loss of power: the host and its memory, the pack with its monitors, the pins, and the commands still to come. -/
def State.coldBase (s : State) (st : ModState) : State :=
  { State.reset with
    pending := s.pending
    free := s.free
    top := { State.reset.top with st := st, pinOpen := s.top.pinOpen }
    mem := { State.reset.mem with host := s.mem.host }
    cmd := { State.reset.cmd with msgs := s.cmd.msgs, resp := s.cmd.resp }
    res := { State.reset.res with monitors := s.res.monitors, interlock := s.res.interlock } }

/-- OFF: every rail is down and nothing but the pack and the host keeps its contents. The cause is not recorded (Table 1-7). -/
def State.powerOff (s : State) : State :=
  let s' := s.coldBase .off
  { s' with
    top := { s'.top with ctlA := false, ctlB := false, busLost := s.top.busLost }
    pow := { s'.pow with rails := s'.pow.rails.map fun x => { x with st := .off, phases := 0, targetNow := 0 } } }

/-- 50 V present and the control rails in regulation: the cold reset into HELD (Table 1-7, R284). -/
def State.coldReset (s : State) : State := if s.top.st = .off then s.coldBase .held else s

/-- A control rail is lost (R20): its cluster stops, and with CTLA the optical engine of port B; with both, the module is OFF. -/
def State.controlLost (s : State) (b : Bool) : State :=
  if s.top.st = .off then s
  else
    let r := if b then 12 else 11
    let s := s.setRail r { s.rail r with st := .off, phases := 0 }
    let s := { s with
      top := { s.top with ctlA := s.top.ctlA && b, ctlB := s.top.ctlB && !b }
      clm := { s.clm with deadA := s.clm.deadA || !b, deadB := s.clm.deadB || b } }
    if !s.top.ctlA && !s.top.ctlB then s.powerOff
    else if b then s
    else
      let s := s.linkLost
      { s with cmd := { s.cmd with link := .down } }

/-! ### The root PLL (R277, R279) -/

/-- The root PLL locks: GT runs. -/
def State.pllLock (s : State) : State :=
  if s.top.st = .off then s else { s with clk := { s.clk with locked := true } }

/-- The root PLL loses lock with no source left: a fatal-class error. -/
def State.pllUnlock (s : State) : State :=
  if s.clk.locked then
    let s := { s with clk := { s.clk with locked := false, unlocks := s.clk.unlocks + 1 } }
    s.fatal 0xC 0 0x41 [s.clkStat]
  else s

/-! ### Boot (R289–R291, R415) -/

/-- The manager starts an enumeration: ENUM goes out from E0 and from E1 with a hop count of 0 (R327). -/
def State.startEnum (s : State) : State :=
  let f : W64 := BitVec.ofNat 64 (6 * 2 ^ 60 + 0xF * 2 ^ 56)
  let f := f + BitVec.ofNat 64 (crc8 f)
  { s with
    rfw := { s.rfw with wire := s.rfw.wire ++ [f, f] }
    res := { s.res with monitors := Tab.mapAll {} (fun _ (m : Monitor) => { m with seen0 := false, seen1 := false }) s.res.monitors } }

/-- The ring's state has changed: enumeration runs 1 s later (R327). -/
def State.ringChanged (s : State) : State := { s with res := { s.res with enumDue := some (s.res.enumDue.getD s.clk.gt) } }

/-- Expanders of stacks that are up are enabled (R415), and the movers that images may be granted. -/
def State.enableEngines (s : State) : State :=
  let s := forAll (List.range 24) s fun s x =>
    if s.stackUp x then (s.setExpander x { s.expander x with st := .disabled, en := false }).expanderOn x
    else s.setExpander x { s.expander x with st := .unavailable, en := false, drain := false }
  forAll (List.range 120) s fun s k => s.moverOn (k / 30) (k % 30)

/-- What follows HBM training, or takes its place where the training results are kept: a bolt without a stack has no reserve, which is
fatal (R290); else the reserves are built on the lowest healthy stacks (R130), LOADABLE_PAGES is loaded and the ring is enumerated. -/
def State.afterTraining (s : State) : State :=
  let s := { s with top := { s.top with reserveAt := (List.range 4).map s.lowestStack } }
  match (List.range 4).find? fun b => (s.reserveStack b).isNone with
  | some b => s.fatal 0xD 0 0x44 [BitVec.ofNat 32 b]
  | none =>
    let s := s.enableEngines
    ({ s with top := { s.top with bootStep := 4, hbmOff := false, pages := BitVec.ofNat 32 s.loadable } } : State).startEnum

/-- BOOT begins: rails are sent to the voltage table, mv30 and mv31 are enabled, and the energy coefficients are the fused ones (R318). -/
def State.beginBoot (s : State) : State :=
  let s := { s with top := { s.top with
    bootGt := s.clk.gt, bootStep := 0, tested := false, railsOff := false, drainCauses := [], withdrawn := false } }
  let s := forAll (List.range 11) s fun s r => s.sendTarget r (s.railCell r s.railRow) (s.rail r).slew
  let s := forAll (List.range 4) s fun s b => (s.moverOn b 30).moverOn b 31
  { s with gvn := { s.gvn with coeff := [] } }

/-- Every rail stands at the target it was sent to. -/
def State.railsUp (s : State) : Bool := (List.range 11).all fun r => (s.rail r).still

/-- The last rail of BOOT stands at its target: the built-in tests follow, and what comes after HBM training where HBM need not be trained
(R291). -/
def State.bootRails (s : State) : State :=
  if s.top.st = .boot ∧ s.top.bootStep = 0 ∧ s.railsUp = true then
    let s := { s with top := { s.top with bootStep := 1 } }
    if s.top.hbmOff then s else s.afterTraining
  else s

/-- The ring's part of BOOT moves on (Table 12-11): from the enumeration to the first sweep, and once that has been used, or enumeration found
no whole path to every monitor (R290, Table 14-4), to the Gauze ports: EN is set on each that is not UP, one in FAILED among them. -/
def State.bootRing (s : State) (enumerated : Bool) : State :=
  let s := if s.top.st = .boot ∧ s.top.bootStep = 4 ∧ enumerated = true then { s with top := { s.top with bootStep := 5 } } else s
  let ready := !s.res.first || decide (s.res.ring = .partialRing) || decide (s.res.ring = .down)
  if s.top.st = .boot ∧ s.top.bootStep = 5 ∧ ready = true then
    let s := { s with top := { s.top with bootStep := 6 } }
    forAll (List.range 32) s fun s p =>
      if (s.port p).st = .up then s else (s.setPort p { s.port p with en := false, st := .disabled }).portOn p (s.port p).timing
  else s

/-- Tiles and Loam pages that failed their built-in tests are retired, and Loam rows that did take their spares (R143, R290, R377). -/
def State.builtInTests (s : State) (tiles : List Nat) (x : LoamTests) : State :=
  let loam (a : Nat) : Bool := match targetOf a with | .loam _ => true | _ => false
  let s := forAll (tiles.filter fun t => decide (t < 1024)) s fun s t =>
    let s := s.retireTile t 2
    s.setTile t { s.tile t with st := .retired, retireDue := false, resetting := false }
  let s := forAll (x.rows.filter loam) s fun s a => s.repairRow a
  let s := forAll (x.pages.filter loam) s fun s a => s.retirePage a 2
  { s with top := { s.top with tested := true } }

/-- The stacks that training found fit: neither failed in it nor retired since cold reset. -/
def State.trainedStacks (s : State) (bad : List (Nat × Bool)) : BitVec 24 :=
  BitVec.ofNat 24 ((List.range 24).foldl (fun a n =>
    a + b2n (!(bad.any fun p => decide (p.1 = n)) && !s.mem.badStacks.getLsbD n) * 2 ^ n) 0)

/-- HBM training ends, after the built-in tests: stacks that failed it, with their reasons (0 failed training, 1 repair exceeded), are
unavailable (R144, R290). A later full training decides anew for a stack that failed an earlier one (log entry 166). -/
def State.hbmTrained (s : State) (x : BootTests) : State :=
  if s.top.st = .boot ∧ s.top.bootStep = 1 ∧ s.top.hbmOff = true then
    let bad := x.failedStacks.filter fun p => decide (p.1 < 24)
    let s := s.builtInTests x.tiles x.loam
    let s := { s with top := { s.top with hbmUp := s.trainedStacks bad, bootStep := 2 } }
    let s := forAll bad s fun s p => s.report 5 (BitVec.ofNat 32 p.1) 0x23 none [BitVec.ofNat 32 (b2n p.2)]
    s.afterTraining
  else s

/-- The tray bus is absent and the state of reserve at the held reserve (R25, CAUSE 8). -/
def State.reserveLow (s : State) : Bool := s.top.busLost && decide (s.res.rep ≤ heldReserve)

/-- Drain triggers that still hold when the module has become READY take effect at once (R26, R388). -/
def State.heldTriggers (s : State) : State :=
  let s := if s.top.pinOpen then s.addDrain 7 State.drainCadences else s
  if s.reserveLow then (s.setForce 2).addDrain 8 State.drainCadences else s

/-- Boot steps complete: READY (Table 1-7, CAUSE 3). Where HBM was not trained, the built-in tests' results are taken here. -/
def State.bootDone (s : State) (tiles : List Nat) (x : LoamTests) : State :=
  if s.top.st = .boot ∧ s.top.bootStep = 6 ∧ s.railsUp = true then
    ((if s.top.tested then s else s.builtInTests tiles x).goTo .ready 3).heldTriggers
  else s

/-- BOOT has lasted 10 s (R290). -/
def State.bootLate (s : State) : State :=
  if s.top.st = .boot ∧ tenSeconds ≤ (s.clk.gt - s.top.bootGt).toNat then
    s.fatal 0xD 0 0x43 [BitVec.ofNat 32 s.top.bootStep]
  else s

/-! ### Module reset (R28, R283, R284, R291) -/

/-- Bytes of the error log's region in the reserves of bolts 0 and 3, which a module reset keeps. -/
def State.inErrorLog (s : State) (a : Nat) : Bool :=
  [0, 3].any fun b => match s.reserve b with
    | some r => decide (r + 0x6000_0000 ≤ a) && decide (a < r + 0x6400_0000)
    | none => false

/-- What a module reset clears and keeps (Table 12-7). A learning cycle under way counts as disqualified (Table 12-13). The cache of host lines lies in Loam, so a dirty line is written back first. -/
def State.moduleCleared (s : State) : State :=
  let host := s.cmd.cache.foldl (fun m (p : Nat × Option HostLine) => match p.2 with
    | some h => if h.dirty then Tab.writeN 0 m (p.1 * 128) h.data else m
    | none => m) s.mem.host
  { s with
    tiles := ((List.range 1024).map fun t =>
      let x := s.tile t
      (t, ({ st := if decide (x.st = .retired) || x.retireDue then .retired else .reset
             sys := { cycleZero := s.clk.tileCycles }, events := x.events } : Tile))).filter fun p => decide (p.2 ≠ {})
    mem := { s.mem with phys := s.mem.phys.filter fun p => s.inErrorLog p.1, bad := [], host := host }
    mmu := {}
    eng := { s.eng with
      mov := Tab.mapAll {} (fun _ (v : Mover) => { lastStatus := v.lastStatus, completed := v.completed, nextNum := v.nextNum }) s.eng.mov
      exp := Tab.mapAll {} (fun _ (v : Expander) => { st := v.st, errors := v.errors, blocks := v.blocks }) s.eng.exp
      tables := [], ctrGrant := [] }
    gz := {
      ports := Tab.mapAll {} (fun _ (p : Port) => p.cleared) s.gz.ports, memberSent := s.gz.memberSent, paceSent := s.gz.paceSent }
    clk := { s.clk with inSync := false, root := false, depth := 0 }
    cmd := { s.cmd with
      cache := [], hostHeld := [], snoops := [], areaValid := false, areaSecure := false, area := 0, vector := 0, intEn := false
      slots := Tab.mapAll {} (fun _ (x : Slot) => { gen := x.gen }) s.cmd.slots, heldRecords := [], areaRefused := false, unsaved := [], reports := [] }
    ctxs := [], cads := []
    gvn := { s.gvn with envSlots := [], received := [], sentLevel := [], stepDone := true }
    res := { s.res with
      learnDq := s.res.learnDq + BitVec.ofNat 8 (b2n (s.rfw.learn.isSome || (s.rfw.auto.isSome && !s.rfw.autoDq)))
      first := true, sample := none, sample2 := none, splitMons := [], readback := [], restSince := none, restLearn := none
      anchor := none }
    rfw := { s.rfw with req := none, todo := [], block := [], learn := none, auto := none, autoDq := false } }

def ModState.resettable : ModState → Bool
  | .boot | .ready | .running | .drain | .faulted => true
  | _ => false

/-- The module reset: handles complete RESET_LOST, the reset proceeds, and BOOT begins with CAUSE 0xC. Peers are told (R206). Firmware whose
SRAM copy no longer matches its digest is fatal. -/
def State.moduleReset (s : State) (requester : Nat) : State :=
  if s.top.st.resettable && !s.clm.watchdog then
    let s := ((s.announce.completeAll 6 0xC).goTo .boot 0xC).moduleCleared
    let s := s.report 0xD 0 0xA none [0xC, BitVec.ofNat 32 requester]
    if s.trust.sramBad then s.fatal 0xB (BitVec.ofNat 32 (b2n s.activeB)) 0x42 []
    else s.beginBoot
  else s

/-- RESET_MODULE: answered first, and needs no completion area (Table 9-5). -/
def State.resetCommand (s : State) (x : Exchange) : State :=
  s.immediateCommand 0x16 x [] true fun s => (s.moduleReset 0).immediate s 0

/-! ### The firmware image (R285–R288) -/

/-- The first bytes of the staging window. -/
def State.staged (s : State) (n : Nat) : List Byte := Tab.readN 0 s.trust.window 0 n

/-- GO: verification starts, on clusters that the root PLL clocks (Table 12-11). Ignored outside HELD, without the secure attribute, and while it
runs. -/
def State.verify (s : State) (length : BitVec 22) : State :=
  if s.top.st = .held ∧ s.clk.locked = true ∧ s.trust.result ≠ 1 then
    { s with trust := { s.trust with go := true, length := length, result := 1, reason := 0, attempts := s.trust.attempts + 1 } }
  else s

/-- The firmware digest: SM3 of bytes 0 to LENGTH − 129. -/
def firmwareDigest (l : List Byte) : BitVec 256 := Config.sm3 (l.take (l.length - 128))

/-- REASON of the first check that fails (R287): header, LENGTH, key, signature. -/
def headerBad (l : List Byte) (n : Nat) : Bool :=
  let w (o k : Nat) : Nat := ofLe ((l.drop o).take k)
  decide (w 0 4 ≠ 0x41434C46) || decide (w 4 2 ≠ 1) || decide (w 6 2 ≠ 0) || decide (w 0x18 232 ≠ 0)
    || decide (w 0x10 8 < 0x100) || decide (n < w 0x10 8 + 129)

def State.imageFault (s : State) (n : Nat) : Option (BitVec 8) :=
  let l := s.staged n
  let key := (l.drop (n - 128)).take 64
  if headerBad l n then some 1
  else if ofLe ((l.drop 8).take 4) ≠ n ∨ n % 64 ≠ 0 ∨ 3145728 < n ∨ n < 384 then some 2
  else if Config.sm3 key ≠ Config.firmwareKeyHash then some 3
  else if !Config.sm2Verify (BitVec.ofNat 512 (ofBe key)) (identity "CERHEBY-FW") (firmwareDigest l)
      (BitVec.ofNat 512 (ofBe (l.drop (n - 64)))) then some 4
  else none

/-- Verification ends: `a`, `b` say whether each cluster passed its boot ROM self-test, `agree` whether two that did found equal digests. With
neither cluster fit nothing accepts the image, and the REASON is free. An ACCEPTED image starts BOOT under the first claim. -/
def State.verified (s : State) (a b agree : Bool) : State :=
  if s.top.st = .held ∧ s.trust.result = 1 then
    let n := s.trust.length.toNat
    let (u, s) : W64 × State := if a || b then (0, s) else s.takeFree
    let fault : Option (BitVec 8) :=
      if !a && !b then some (u.setWidth 8)
      else match s.imageFault n with
        | some k => some k
        | none => if a && b && !agree then some 5 else none
    match fault with
    | some k =>
      ({ s with trust := { s.trust with go := false, result := 3, reason := k, window := [] } } : State).goTo .held 1
    | none =>
      let l := s.staged n
      let s := { s with
        trust := { s.trust with
          go := false, result := 2, reason := 0, version := BitVec.ofNat 32 (ofLe ((l.drop 12).take 4)), digest := firmwareDigest l }
        clm := { s.clm with
          claimA := if a then 1 else 0, claimB := if a then 0 else 1, deadA := s.clm.deadA || !a, deadB := s.clm.deadB || !b
          switches := s.clm.switches + BitVec.ofNat 8 (b2n (!a)) }
        gvn := { s.gvn with pinSet := ((s.pow.pin : Int) + s.pow.conv : Int) / 10 } }
      let s := (s.goTo .boot 2).beginBoot
      let selfTest (s : State) (k : Nat) (ok : Bool) : State :=
        if ok then s else s.report 0xB (BitVec.ofNat 32 k) 0x31 none [Config.selfTestCode k]
      selfTest (selfTest s 0 a) 1 b
  else s

/-! ### Drains (R25) -/

/-- Every outstanding handle except those of DRAIN commands has completed. -/
def State.drainDone (s : State) : Bool := s.outstanding.all fun n => decide ((s.slotOf n).op = .drain)

/-- Drain complete and every cause gone: READY (Table 1-7, CAUSE 9). -/
def State.leaveDrain (s : State) : State :=
  if s.top.st = .drain ∧ s.drainDone = true ∧ (s.top.drainCauses.filter fun c => decide (c ≠ 6)) = [] then
    let s := s.goTo .ready 9
    { s with top := { s.top with drainCauses := [] } }
  else s

/-- The drain is complete: DRAIN handles complete OK. -/
def State.drainEnds (s : State) : State :=
  if s.top.st = .drain ∧ s.drainDone = true then
    (forAll s.outstanding s fun s n => s.complete n 0 0 []).leaveDrain
  else s

/-- A drain cause is gone. Where the drain is complete, its DRAIN handles complete with it. -/
def State.dropCause (s : State) (c : Nat) : State :=
  ({ s with top := { s.top with drainCauses := s.top.drainCauses.filter fun k => decide (k ≠ c) } } : State).drainEnds

def State.drainCommand (s : State) (x : Exchange) : State :=
  s.handleCommand 0x15 x [] false .drain 0 (fun _ => none) noFit fun s _ => s.addDrain 6 State.drainCadences

/-! ### The sense pin (R388) and a withdrawal (R404) -/

def State.pinOpens (s : State) : State :=
  let s := if s.top.pinOpen then s else { s with top := { s.top with pinOpen := true, pinGt := s.clk.gt } }
  s.addDrain 7 State.drainCadences

def State.pinCloses (s : State) : State :=
  ({ s with top := { s.top with pinOpen := false, withdrawn := false } } : State).dropCause 7

/-- GT since a moment is at least a number of tt. -/
def State.since (s : State) (g : W64) (n : Nat) : Bool := decide (n ≤ (s.clk.gt - g).toNat)

/-- End the work of a handle that a withdrawal has completed. -/
def State.abandonWork (s : State) (n : Nat) (v : Slot) : State :=
  match v.op with
  | .load => s.cancelLoad n v.arg
  | .memCopy => s.cancelWork n
  | .memFill => s.cancelWork n
  | .join => { s with gz := { s.gz with joining := none, joinAsked := false } }
  | .leave => { s with gz := { s.gz with leaving := none } }
  | .learn => { s with rfw := { s.rfw with learn := none } }
  | .envelope => { s with gvn := { s.gvn with envSlots := s.gvn.envSlots.filter fun k => decide (k ≠ n) } }
  | _ => s

/-- Pin open and bus absent together for 100 ms: Floor, every context ends as by CANCEL, cadences are disarmed with DRAIN = 0, and every other
handle but those of DRAIN completes ABORTED, DETAIL 7. -/
def State.withdraw (s : State) : State :=
  if s.top.pinOpen && s.top.busLost && !s.top.withdrawn && s.since s.top.pinGt 15625000 && s.since s.top.busGt 15625000
      && s.top.st.firmware then
    let s := ({ s with top := { s.top with withdrawn := true } } : State).setForce 3
    let s := forAll (List.range 16) s fun s c => if (s.ctx c).started then s.stopContext c else s
    let s := forAll (List.range 64) s fun s k => s.cadOff k false 2 2
    let s := forAll s.outstanding s fun s n =>
      let v := s.slotOf n
      if v.op = .start ∨ v.op = .arm ∨ v.op = .period ∨ v.op = .drain then s else (s.complete n 2 7 []).abandonWork n v
    s.checkAll
  else s

/-- CONV_EN is cleared (R390): the node collapses where the bus is absent, and the module is OFF. -/
def State.convShutOff (s : State) : State :=
  let out := s.top.pinOpen && s.drainDone && s.since s.top.pinGt secondTt
  if s.top.busLost && s.since s.top.busGt secondTt && (out || decide (s.top.st = .faulted)) && s.top.st.firmware then s.powerOff else s

/-! ### The commands -/

/-- 50 V is present and the control rails regulate (R25). -/
def execPowerApplied (s : State) : Out := .next s.coldReset
/-- The 50 V node is lost without reservoir support, or both control rails are (R25). -/
def execPowerLoss (s : State) : Out := .next s.powerOff
/-- One control rail is lost (R20). -/
def execControlRailLoss (b : Bool) (s : State) : Out := .next (s.controlLost b)
/-- The root PLL locks (R279). -/
def execRootPllLock (s : State) : Out := .next s.pllLock
/-- The root PLL loses lock with no source left (R277). -/
def execPllLockLoss (s : State) : Out := .next s.pllUnlock
/-- A read of TIME_GT_LO over Bursen latches the high word for its requester (R282, log entry 164). -/
def execTimeGtLoRead (s : State) : Out := .next (s.via .bursen fun s => (s.csrRead 0x2000000 .bursen (pathWho .bursen)).2)
/-- TRUST_FW_CTRL.GO (R287). -/
def execFwVerify (length : BitVec 22) (p : Path) (s : State) : Out := .next (s.secured p fun s => s.verify length)
/-- Verification ends (R288). -/
def execFwVerifyDone (selfA selfB agree : Bool) (s : State) : Out := .next (s.verified selfA selfB agree)
/-- HBM training ends (R144). -/
def execHbmTrainingComplete (failed : BootTests) (s : State) : Out := .next (s.hbmTrained failed)
/-- Boot steps end (R289). -/
def execBootComplete (failedTiles : List Nat) (failedPages : LoamTests) (s : State) : Out :=
  .next (s.bootDone failedTiles failedPages)
/-- The power block receives TRANSITION_DONE (R298). -/
def execTransitionDone (r : Fin 13) (frame : W32) (s : State) : Out :=
  .next ((s.railReceive r frame 9 fun s => s.railDone r frame).bootRails)
/-- BOOT is not complete after 10 s (R290). -/
def execBootTimeout (s : State) : Out := .next s.bootLate
/-- RESET_MODULE (R28). -/
def execResetModule (x : Exchange) (s : State) : Out := .next (s.resetCommand x)
/-- A module reset from the service port (R283). -/
def execServicePortModuleReset (s : State) : Out := .next (s.via .service fun s => s.moduleReset 1)
/-- DRAIN (R25). -/
def execDrain (x : Exchange) (s : State) : Out := .next (s.drainCommand x)
/-- The drain is complete (R25). -/
def execDrainComplete (s : State) : Out := .next s.drainEnds
/-- The sense pin opens (R388). -/
def execFirstBreakOpen (s : State) : Out := .next s.pinOpens
/-- The sense pin closes (R25). -/
def execFirstBreakClose (s : State) : Out := .next s.pinCloses
/-- A withdrawal (R404). -/
def execWithdrawn (s : State) : Out := .next s.withdraw
/-- The converter is turned off out of the tray, or in FAULTED (R390). -/
def execConverterShutoffTimer (s : State) : Out := .next s.convShutOff

end Sys2Proof.Machine
end

