-- ==== Sys2Proof/Machine/Converter.lean ====
section
/-!
DEFINITION. The reservoir converter (R322, R323), the tray bus (R310, R389), the pack interlock (R391), and the end of a learning cycle that a
disqualifier brings (R338).
-/

namespace Sys2Proof.Machine

/-- Cells and monitors of the pack (R321). -/
def cellCount : Nat := match Config.variant with | .full => 24 | .light => 12
def monitorCount : Nat := match Config.variant with | .full => 4 | .light => 2

/-! ### Disqualifiers (R338, R339) -/

/-- RESULT of a learning handle: code, swing in mC, lowest and highest capacitance, GT_LOW at *A* and *B* (R339). -/
def learnResult (code : Nat) (swing : Nat) (lo hi : Nat) (a b : W64) : List W64 :=
  [BitVec.ofNat 64 code, BitVec.ofNat 64 swing, BitVec.ofNat 64 (hi % 65536 * 65536 + lo % 65536),
    BitVec.ofNat 64 (b.toNat % 2 ^ 32 * 2 ^ 32 + a.toNat % 2 ^ 32)]

/-- A condition of Table 14-6 between *A* and *B* disqualifies the cycle. A commanded one completes ABORTED with the code. -/
def State.disqualify (s : State) (code : Nat) : State :=
  match s.rfw.learn with
  | some l =>
    match l.atA with
    | some a =>
      let s := { s with rfw := { s.rfw with learn := none }, res := { s.res with learnDq := s.res.learnDq + 1 } }
      s.completeOpt l.slot 2 code (learnResult code 0 0 0 a.gt 0)
    | none => s
  | none =>
    if s.rfw.auto.isSome && !s.rfw.autoDq then
      { s with rfw := { s.rfw with autoDq := true }, res := { s.res with learnDq := s.res.learnDq + 1 } }
    else s

/-! ### Modes and limits (R322, R323) -/

/-- Limits in force, W: none where firmware has stopped that direction, half where a cell is at 55 °C. -/
def Reservoir.chgNow (r : Reservoir) : Nat := if r.zHigh then 0 else if r.hot then r.chgLim / 2 else r.chgLim
def Reservoir.disNow (r : Reservoir) : Nat := if r.zLow then 0 else if r.hot then r.disLim / 2 else r.disLim

/-- The module's consumption in the last window, 0.1 W (R306). -/
def State.load (s : State) : Int := s.pow.pin + s.pow.conv

/-- TRACK is held at a limit: what the converter would have to supply or take lies beyond it, or the stack carries 160 A. -/
def State.limited (s : State) : Bool :=
  let want := s.load - 10 * s.res.pinTarget
  decide (10 * (s.res.disNow : Int) < want) || decide (10 * (s.res.chgNow : Int) < -want)
    || (match s.res.last with | some x => decide (160000 ≤ (x.milliamps.getD 0 0).natAbs) | none => false)

/-- The mode that the present conditions give; NODE lasts until it is left by itself. -/
def State.modeNow (s : State) : ConvMode :=
  if !s.res.convEn || !s.res.interlock then .off
  else if decide (s.res.mode = .node) || s.top.busLost then .node
  else if s.res.chgStop || s.res.disStop then .stop
  else if s.limited then .limit
  else .track

/-- Enter a mode. A change to or from LIMIT, STOP, NODE or OFF disqualifies a learning cycle (Table 14-6, code 5). -/
def State.enterMode (s : State) (m : ConvMode) : State :=
  if m = s.res.mode then s else ({ s with res := { s.res with mode := m } } : State).disqualify 5

/-- The converter can hold the module 50 V node without the tray bus. -/
def State.canHold (s : State) : Bool := s.res.convEn && s.res.interlock && !s.res.disStop && !s.res.zLow

/-- Bring the mode up to date; a node that nothing holds collapses, and the module is OFF (R25, R323). -/
def State.convUpdate (s : State) : State :=
  if s.top.st = .off then s
  else if s.top.busLost && !s.canHold then s.powerOff
  else s.enterMode s.modeNow

/-- Set or clear CONV_EN. -/
def State.setConv (s : State) (on : Bool) : State := ({ s with res := { s.res with convEn := on } } : State).convUpdate

/-- The stack voltage crosses a hardware limit (Table 14-2). -/
def State.stackAt (s : State) (mv : Nat) : State :=
  let n := cellCount
  let r := s.res
  ({ s with res := { r with
    chgStop := if n * 3780 ≤ mv then true else if mv ≤ n * 3740 then false else r.chgStop
    disStop := if mv ≤ n * 2200 then true else if n * 2250 ≤ mv then false else r.disStop } } : State).convUpdate

/-! ### The tray bus (R310, R322, R389) -/

/-- The bus leaves 44–56 V, or the input stage opens: p_in is 0, and the converter holds the node or the module is OFF. -/
def State.busDown (s : State) : State :=
  if s.top.busLost || decide (s.top.st = .off) then s
  else ({ s with
    top := { s.top with busLost := true, busGt := s.clk.gt }
    gvn := { s.gvn with pinSet := 0 }
    res := { s.res with pinTarget := 0 } } : State).convUpdate

/-- The bus is back in range: p_in restarts from the measured input power, and the held-reserve cause is gone. -/
def State.busBack (s : State) : State :=
  if s.top.busLost then
    ({ s with
      top := { s.top with busLost := false, busGt := s.clk.gt }
      gvn := { s.gvn with pinSet := (s.pow.pin : Int) / 10 } } : State).dropCause 8
  else s

/-- In range for 1 s: firmware clears the FW_FORCE that the held reserve set. -/
def State.busStable (s : State) : State :=
  if !s.top.busLost && s.since s.top.busGt secondTt then s.dropForce 2 else s

/-- Above 45 V for 1 ms: the converter leaves NODE. -/
def State.leaveNode (s : State) : State :=
  if !s.top.busLost && decide (s.res.mode = .node) && s.since s.top.busGt milliTt then
    (({ s with res := { s.res with mode := .track } } : State).disqualify 5).convUpdate
  else s

/-- The state of reserve reaches the held reserve without the bus: Floor, and DRAIN with CAUSE 8 (R310). -/
def State.reserveReached (s : State) : State :=
  if s.reserveLow && s.top.st.firmware then (s.setForce 2).addDrain 8 State.drainCadences else s

/-! ### The pack (R391) -/

/-- A free value as a rational from 0 to below 65,536. -/
def freeRat (v : W64) : Rat := (v.toNat : Rat) / (2 ^ 48 : Nat)

/-- The estimator's values are undefined: v_b and v_r of every cell, and both states of reserve, are free values (log entry 191). -/
def State.estimatorLost (s : State) : State :=
  let s := forAll (List.range cellCount) s fun s i =>
    let (v, s) := s.takeFree
    let (w, s) := s.takeFree
    s.setCell i { s.cell i with vb := freeRat v, vr := freeRat w }
  let (v, s) := s.takeFree
  let (w, s) := s.takeFree
  { s with res := { s.res with raw := freeRat v, rep := freeRat w, sorPct := v.toNat % 256 } }

/-- The interlock opens: the converter stops in hardware. With 50 V present RING reads DOWN, CONV_EN is cleared, and the estimator is undefined;
without, the node collapses. -/
def State.interlockOpens (s : State) : State :=
  let s := { s with res := { s.res with interlock := false } }
  if s.top.busLost || decide (s.top.st = .off) then s.convUpdate
  else (({ s with res := { s.res with ring := .down } } : State).setConv false).estimatorLost

/-- It closes on a seated pack: enumeration follows as on any change of ring state (R327). -/
def State.interlockCloses (s : State) : State :=
  let s := { s with res := { s.res with interlock := true } }
  if s.top.st.firmware then s.ringChanged else s

/-! ### The commands -/

/-- The tray bus falls below 44 V (R310). -/
def execBusUndervoltage (s : State) : Out := .next s.busDown
/-- The tray bus rises above 56 V (R389). -/
def execBusOvervoltage (s : State) : Out := .next s.busDown
/-- 115 A for 100 µs opens the input stage (R389). -/
def execInputOvercurrent (s : State) : Out := .next s.busDown
/-- The bus returns to range (R310). -/
def execBusReturn (s : State) : Out := .next s.busBack
/-- The bus has been in range for 1 s (R310). -/
def execBusStableTimer (s : State) : Out := .next s.busStable
/-- The bus has been above 45 V for 1 ms (R322). -/
def execNodeExit (s : State) : Out := .next s.leaveNode
/-- The state of reserve reaches the held reserve (R310). -/
def execHeldReserveBoundary (s : State) : Out := .next s.reserveReached
/-- The stack voltage crosses a hardware limit (R323). -/
def execStackLimit (millivolts : Nat) (s : State) : Out := .next (s.stackAt millivolts)
/-- The pack interlock opens (R391). -/
def execPackInterlockOpen (s : State) : Out := .next s.interlockOpens
/-- The pack interlock closes (R391). -/
def execPackInterlockClose (s : State) : Out := .next s.interlockCloses

end Sys2Proof.Machine
end

