-- ==== Sys2Proof/Machine/Ring.lean ====
section
/-!
DEFINITION. The monitor ring (R324–R331): its frames, what a monitor does with them, the manager's requests, sweeps and enumeration, and the
records in the monitors' non-volatile memory (R340–R344).
-/

namespace Sys2Proof.Machine

/-! ### Frames (R325) -/

/-- A ring frame with its CRC. -/
def ringFrame (typ hops addr data tag : Nat) : W64 :=
  let f : W64 := BitVec.ofNat 64 (typ * 2 ^ 60 + hops % 16 * 2 ^ 56 + addr % 256 * 2 ^ 48 + data % 2 ^ 32 * 65536 + tag % 256 * 256)
  f + BitVec.ofNat 64 (crc8 f)

def rTyp (f : W64) : Nat := wf f 60 4
def rHops (f : W64) : Nat := wf f 56 4
def rAddr (f : W64) : Nat := wf f 48 8
def rData (f : W64) : Nat := wf f 16 32
def rTag (f : W64) : Nat := wf f 8 8
def ringGood (f : W64) : Bool := decide (crc8 f = f.toNat % 256)

/-- Put frames on the ring. -/
def State.ringSend (s : State) (l : List W64) : State := { s with rfw := { s.rfw with wire := s.rfw.wire ++ l } }

/-! ### A monitor's registers (Table 14-15) -/

/-- The word address and its successor. -/
def Monitor.nextWord (m : Monitor) : Monitor := { m with nvAddr := m.nvAddr + 1 }

/-- Read a register; an offset that none occupies reads zero. -/
def Monitor.readReg (m : Monitor) (a : Nat) : Nat × Monitor :=
  if a = 0 then (m.corner.toNat * 2 ^ 30 + m.bleed.toNat, m)
  else if a = 4 then (b2n m.paused * 2 ^ 31 + b2n m.nvBusy * 2 ^ 30 + m.naks.toNat * 65536 + m.tag.toNat * 256, m)
  else if 0x10 ≤ a ∧ a < 0x28 ∧ a % 4 = 0 then ((Tab.look 0 m.volts ((a - 0x10) / 4)).toNat, m)
  else if 0x28 ≤ a ∧ a < 0x30 ∧ a % 4 = 0 then ((Tab.look 0 m.temps ((a - 0x28) / 4)).toNat, m)
  else if a = 0x40 then (m.nvAddr.toNat * 4, m)
  else if a = 0x44 then ((Tab.look 0 m.nv m.nvAddr.toNat).toNat, m.nextWord)
  else (0, m)

/-- Write a register. A word is committed at once; words of the identity page are not written. -/
def Monitor.writeReg (m : Monitor) (a v : Nat) : Monitor :=
  if a = 0 then { m with corner := BitVec.ofNat 2 (v / 2 ^ 30), bleed := BitVec.ofNat 6 v }
  else if a = 4 then { m with naks := BitVec.ofNat 8 (v / 65536) }
  else if a = 0x40 then { m with nvAddr := BitVec.ofNat 9 (v / 4) }
  else if a = 0x44 then
    (if m.nvAddr.toNat < 16 then m else { m with nv := Tab.put 0 m.nv m.nvAddr.toNat (BitVec.ofNat 32 v) }).nextWord
  else m

/-! ### What a monitor does with a frame (R324–R328) -/

/-- The reserved TYPEs of Table 14-3. -/
def ringUnknown (f : W64) : Bool := decide (rTyp f = 0) || decide (10 < rTyp f)

/-- A reserved field of a request: a reserved TYPE, or bits that its type leaves unused. -/
def ringReserved (f : W64) : Bool := ringUnknown f || match rTyp f with
  | 1 => decide (rData f ≠ 0)
  | 2 => false
  | 3 => decide (rAddr f ≠ 0) || decide (2 ^ 20 ≤ rData f)
  | 6 => decide (rAddr f ≠ 0) || decide (16 ≤ rData f)
  | _ => decide (rAddr f ≠ 0) || decide (rData f ≠ 0)

/-- What stands wrong in a frame's CRC byte; zero in a good frame. -/
def crcError (f : W64) : Nat := crc8 f ^^^ f.toNat % 256

/-- A frame forwarded with changed fields: its CRC changes with them, so that an error it came with stays in it (log entry 190). -/
def reframe (f g : W64) : W64 := BitVec.ofNat 64 (g.toNat / 256 * 256 + (crc8 g ^^^ crcError f))

/-- A monitor receives a request of a type: with HOPS neither 0 nor 0xF it forwards it, one hop fewer. A broadcast goes on too, as `onward` makes
it. A bad CRC or a reserved field, a reserved TYPE among them, is answered NAK. A frame of another type is another command's. -/
def State.atMonitor (s : State) (m : Nat) (f : W64) (typ : Nat) (onward : Monitor → W64) (act : Monitor → Monitor × List W64) : State :=
  let x := { s.monitor m with clocked := true }
  if ringGood f && decide (rTyp f ≠ typ) && !ringUnknown f then s
  else if rHops f ≠ 0 ∧ rHops f ≠ 15 then s.ringSend [reframe f (ringFrame (rTyp f) (rHops f - 1) (rAddr f) (rData f) (rTag f))]
  else
    let s := if rHops f = 15 then s.ringSend [reframe f (onward x)] else s
    if !ringGood f || ringReserved f then
      (s.setMonitor m { x with naks := x.naks + 1 }).ringSend [ringFrame 0xA 0 (rAddr f) 0 (rTag f)]
    else
      let (y, l) := act x
      (s.setMonitor m y).ringSend l

/-- READ: a REPLY with the register's value. -/
def State.monRead (s : State) (m : Nat) (f : W64) : State :=
  s.atMonitor m f 1 (fun _ => f) fun x =>
    let (v, y) := x.readReg (rAddr f)
    (y, [ringFrame 8 0 (rAddr f) v (rTag f)])

/-- WRITE: an ACK. -/
def State.monWrite (s : State) (m : Nat) (f : W64) : State :=
  s.atMonitor m f 2 (fun _ => f) fun x => (x.writeReg (rAddr f) (rData f), [ringFrame 9 0 (rAddr f) 0 (rTag f)])

/-- Two 16-bit values, the first in the low half. -/
def pairOf (a b : BitVec 16) : Nat := b.toNat * 65536 + a.toNat

/-- READBLOCK: four REPLY frames. -/
def State.monBlock (s : State) (m : Nat) (f : W64) : State :=
  s.atMonitor m f 7 (fun _ => f) fun x =>
    let v (k : Nat) := Tab.look 0 x.volts k
    let t (k : Nat) := Tab.look 0 x.temps k
    (x, [pairOf (v 0) (v 1), pairOf (v 2) (v 3), pairOf (v 4) (v 5), pairOf (t 0) (t 1)].map fun d =>
      ringFrame 8 0 (rAddr f) d (rTag f))

/-- PAUSE and RESUME. -/
def State.monPause (s : State) (m : Nat) (f : W64) : State :=
  s.atMonitor m f 4 (fun _ => f) fun x => ({ x with paused := true }, [])
def State.monResume (s : State) (m : Nat) (f : W64) : State :=
  s.atMonitor m f 5 (fun _ => f) fun x => ({ x with paused := false }, [])

/-- Forward delay of a monitor, 4 µs, in the 10 ns units of WAIT (R325). -/
def forwardDelay : Nat := 400

/-- SAMPLE: WAIT goes on reduced by the forward delay, and the cells are converted once per TAG. `volts` and `temps` are what stands at the
inputs, in 100 µV and 0.1 °C. -/
def State.monSample (s : State) (m : Nat) (f : W64) (volts : List Nat) (temps : List Int) : State :=
  s.atMonitor m f 3 (fun _ => ringFrame 3 (rHops f) 0 (rData f - forwardDelay) (rTag f)) fun x =>
    if x.sampled = some (BitVec.ofNat 8 (rTag f)) then (x, [])
    else
      ({ x with
        sampled := some (BitVec.ofNat 8 (rTag f)), tag := BitVec.ofNat 8 (rTag f)
        volts := Tab.writeN 0 [] 0 (((volts ++ List.replicate 6 0).take 6).map fun v => BitVec.ofNat 16 v)
        temps := Tab.writeN 0 [] 0 (((temps ++ List.replicate 2 0).take 2).map fun t => BitVec.ofInt 16 t) }, [])

/-- ENUM: the hop index from that end, the count one higher onward. -/
def State.monEnum (s : State) (m : Nat) (f : W64) (fromE1 : Bool) : State :=
  s.atMonitor m f 6 (fun _ => ringFrame 6 (rHops f) 0 ((rData f + 1) % 16) (rTag f)) fun x =>
    (if fromE1 then { x with hop1 := rData f, seen1 := true, clocked := true, reachable := true }
     else { x with hop0 := rData f, seen0 := true, clocked := true, reachable := true }, [])

/-! ### The manager's requests (R326) -/

/-- HOPS of a request to a monitor from an end: its place from that end. -/
def hopsTo (m : Nat) (fromE1 : Bool) : Nat := if fromE1 then monitorCount - 1 - m else m

/-- The end from which a monitor is asked first: E1 where E0 does not reach it. -/
def State.endFor (s : State) (m : Nat) : Bool := !(s.monitor m).from0

/-- Frame of a request to a monitor. -/
def State.ringRequest (s : State) (m typ addr data : Nat) : Nat × W64 :=
  (m, ringFrame typ (hopsTo m (s.endFor m)) addr data s.res.tag.toNat)

/-- Send the next request that waits. -/
def State.ringNext (s : State) : State :=
  match s.rfw.req with
  | some _ => s
  | none =>
    match s.rfw.todo with
    | [] => s
    | (m, f) :: l => ({ s with rfw := { s.rfw with req := some (f, m, 1), todo := l, block := [] } } : State).ringSend [f]

/-- Queue requests. -/
def State.ask (s : State) (l : List (Nat × W64)) : State :=
  ({ s with rfw := { s.rfw with todo := s.rfw.todo ++ l } } : State).ringNext

/-- The request in hand is done. -/
def State.ringDone (s : State) : State := ({ s with rfw := { s.rfw with req := none, block := [] } } : State).ringNext

/-- A whole block has come: voltages and temperatures of a monitor. -/
def State.takeBlock (s : State) (m : Nat) (l : List W32) : State :=
  let h (k : Nat) : Nat := fld (l.getD (k / 2) 0).toNat (16 * (k % 2)) 16
  let s := { s with
    rfw := { s.rfw with
      gotV := (List.range 6).foldl (fun t k => Tab.put none t (6 * m + k) (some (h k))) s.rfw.gotV
      gotT := (List.range 2).foldl (fun t k => Tab.put none t (2 * m + k) (some (sx 16 (h (6 + k))))) s.rfw.gotT }
    res := { s.res with readback := s.res.readback.filter fun k => decide (k ≠ m) } }
  s.ringDone

/-- A REPLY arrives. One with a bad CRC or another TAG is no answer. -/
def State.ringReply (s : State) (f : W64) : State :=
  match s.rfw.req with
  | none => s
  | some (q, m, _) =>
    if !ringGood f || decide (rTyp f ≠ 8) || decide (rTag f ≠ rTag q) then s
    else if rTyp q = 7 then
      let l := s.rfw.block ++ [BitVec.ofNat 32 (rData f)]
      if l.length < 4 then { s with rfw := { s.rfw with block := l } } else s.takeBlock m l
    else if rTyp q = 1 then s.ringDone
    else s

/-- An ACK arrives. -/
def State.ringAcked (s : State) (f : W64) : State :=
  match s.rfw.req with
  | some (q, _, _) => if ringGood f && decide (rTyp f = 9) && decide (rTag f = rTag q) && decide (rTyp q = 2) then s.ringDone else s
  | none => s

/-- A request has no answer: once more from the same end, then from the other, then the monitor is unreachable. -/
def State.ringRetry (s : State) : State :=
  match s.rfw.req with
  | none => s
  | some (f, m, n) =>
    let again (g : W64) : State := ({ s with rfw := { s.rfw with req := some (g, m, n + 1), block := [] } } : State).ringSend [g]
    if n = 1 then again f
    else if n = 2 then again (ringFrame (rTyp f) (hopsTo m (!s.endFor m)) (rAddr f) (rData f) (rTag f))
    else
      let s := s.setMonitor m { s.monitor m with reachable := false }
      let s := { s with
        rfw := { s.rfw with todo := s.rfw.todo.filter fun p => decide (p.1 ≠ m) }
        res := { s.res with readback := s.res.readback.filter fun k => decide (k ≠ m) } }
      s.ringDone.ringChanged

/-- A NAK arrives: the request is sent again as if unanswered. -/
def State.ringNaked (s : State) (f : W64) : State :=
  match s.rfw.req with
  | some (q, _, _) => if ringGood f && decide (rTyp f = 0xA) && decide (rTag f = rTag q) then s.ringRetry else s
  | none => s

/-! ### Sweeps (R328, R331) -/

/-- Sweep ticks fall at GT = 156,250 × SWEEP_MS × k. -/
def State.sweepDue (s : State) : Bool := s.top.st.firmware && decide (s.clk.gt.toNat % (156250 * s.res.sweepMs) = 0)

/-- Monitors of the pack that answer. -/
def State.answering (s : State) : List Nat := (List.range monitorCount).filter fun m => (s.monitor m).reachable

/-- The least settle time of a CORNER, µs (R329). -/
def cornerSettle (c : BitVec 2) : Nat := if c = 0 then 1600 else if c = 1 then 400 else 100

/-- Two adjacent cells bleed, across monitor boundaries too. -/
def State.adjacentBleed (s : State) : Bool := (List.range (cellCount - 1)).any fun i => s.bleeds i && s.bleeds (i + 1)

/-- The settle time that a sweep uses, µs (R329). -/
def State.settleTime (s : State) : Nat :=
  let base := (List.range monitorCount).foldl (fun a m => max a (cornerSettle (s.monitor m).corner)) s.res.settleUs
  min 2000 (if s.adjacentBleed then 2 * base else base)

/-- A sweep: the converter latches its sample; PAUSE, SAMPLE and RESUME go out, from both ends once the ring is BROKEN, and the monitors are
read back in turn. WAIT is 4 µs for each monitor that the SAMPLE passes and 12 µs more (Table 14-5). PAUSE goes out the settle time of R329 and
60 µs before the tick; the command stands for the whole sweep. -/
def State.sweep (s : State) (stack : StackSample) : State :=
  if !s.sweepDue || decide (s.res.ring = .down) then s
  else
    let tag := s.res.tag + 1
    let l := s.answering
    let frames : List W64 :=
      [ringFrame 4 15 0 0 tag.toNat, ringFrame 3 15 0 (forwardDelay * (monitorCount + 3)) tag.toNat, ringFrame 5 15 0 0 tag.toNat]
    let s := { s with
      res := { s.res with
        settled := s.settleTime, tag := tag, sample := some stack, last := some stack, sample2 := none, splitMons := [], readback := l }
      rfw := { s.rfw with gotV := [], gotT := [], todo := s.rfw.todo.filter fun p => decide (rTyp p.2 ≠ 7) } }
    let s := s.ringSend (if s.res.ring = .whole then frames else frames ++ frames)
    let reads := l.map fun m => s.ringRequest m 7 0 0
    ({ s with rfw := { s.rfw with todo := reads ++ s.rfw.todo } } : State).ringNext

/-- Requests that wait for a monitor go to it from the end that reaches it. -/
def State.redirect (s : State) (ms : List Nat) : State :=
  let s := forAll ms s fun s m => s.setMonitor m { s.monitor m with from0 := false }
  let turn (p : Nat × W64) : Nat × W64 :=
    if ms.contains p.1 then (p.1, ringFrame (rTyp p.2) (hopsTo p.1 true) (rAddr p.2) (rData p.2) (rTag p.2)) else p
  { s with rfw := { s.rfw with todo := s.rfw.todo.map turn } }

/-- A broadcast is overdue at the far end: the ring is broken. Where SAMPLE had not passed every monitor, those it missed convert 100 µs later
with a second converter sample, the sweep is split, and they are read from the other end. -/
def State.ringBroken (s : State) (stack : StackSample) : State :=
  let missed := s.answering.filter fun m => decide ((s.monitor m).sampled ≠ some s.res.tag)
  let s := if s.res.ring = .whole then ({ s with res := { s.res with ring := .broken } } : State).ringChanged else s
  if s.res.sample.isSome && s.res.sample2.isNone && missed ≠ [] then
    (({ s with res := { s.res with sample2 := some stack, splitMons := missed, splits := s.res.splits + 1 } } : State).ringSend
      [ringFrame 3 15 0 6000 s.res.tag.toNat]).redirect missed
  else s

/-- A monitor's incoming link goes silent: its bleed switches open (R324). -/
def State.linkSilent (s : State) (m : Nat) : State := s.setMonitor m { s.monitor m with clocked := false }

/-! ### Records (R340–R344) -/

/-- A 32-bit word of a monitor's non-volatile memory, at a byte offset. -/
def Monitor.nvWord (m : Monitor) (a : Nat) : W32 := Tab.look 0 m.nv (a / 4)
/-- Words as bytes. -/
def bytes32 (l : List W32) : List Byte := l.flatMap fun w => toLe 4 w.toNat
/-- The words of a record copy at a byte offset. -/
def Monitor.copyAt (m : Monitor) (a : Nat) : List W32 := (List.range 248).map fun k => m.nvWord (a + 4 * k)

/-- A copy is good: MAGIC, FORMAT and CRC (R341). -/
def copyGood (l : List W32) : Bool :=
  decide (l.getD 0 0 = 0x00015253) && decide (crc32 ((bytes32 l).take 0x3DC) = l.getD 247 0)
def copyBlank (l : List W32) : Bool := decide ((l.getD 0 0).toNat % 65536 = 0xFFFF)
def copySeq (l : List W32) : W32 := l.getD 1 0

/-- The monitor's record: the copy in use and whether it is copy A; blank; or unreadable. -/
inductive NvState where
  | valid (words : List W32) (inA : Bool)
  | blank
  | bad
  deriving DecidableEq, Repr

def Monitor.record (m : Monitor) : NvState :=
  let a := m.copyAt 0x40
  let b := m.copyAt 0x420
  if copyGood a && copyGood b then
    if 0 < (copySeq b - copySeq a).toInt then .valid b false else .valid a true
  else if copyGood a then .valid a true
  else if copyGood b then .valid b false
  else if copyBlank a && copyBlank b then .blank
  else .bad

/-- One of the two copies fails its checks beside a valid one (R341). -/
def Monitor.torn (m : Monitor) : Bool := copyGood (m.copyAt 0x40) != copyGood (m.copyAt 0x420)

/-- SERIAL, where the identity page's CRC is right (Table 14-8). -/
def Monitor.serial (m : Monitor) : Option W64 :=
  let l := (List.range 16).map fun k => m.nvWord (4 * k)
  if crc32 ((bytes32 l).take 0x3C) = l.getD 15 0 then some ((l.getD 1 0) ++ (l.getD 0 0)) else none

/-- A record copy of a monitor from what firmware holds (Table 14-7). -/
def State.recordWords (s : State) (m : Nat) (seq : W32) : List W32 :=
  let c (j : Nat) : Cell := s.cell (6 * m + j)
  let flags := b2n s.res.needsLearn + (List.range 6).foldl (fun a j => a + b2n (c j).learned * 2 ^ (j + 1)) 0
  let cap := (List.range 3).map fun i => BitVec.ofNat 32 ((c (2 * i + 1)).cap * 65536 + (c (2 * i)).cap)
  let esr := (List.range 48).map fun i =>
    let e (k : Nat) : Nat := (c ((2 * i + k) / 16)).esr.getD ((2 * i + k) % 16) 0 % 65536
    BitVec.ofNat 32 (e 1 * 65536 + e 0)
  let body : List W32 := [0x00015253, seq, BitVec.ofNat 32 s.rfw.cycles, BitVec.ofNat 32 flags] ++ cap ++ [0] ++ esr ++ List.replicate 191 0
  body ++ [crc32 (bytes32 body)]

/-- Requests that write a copy, word by word, CRC last (R341). -/
def State.writeCopy (s : State) (m a : Nat) (l : List W32) : List (Nat × W64) :=
  s.ringRequest m 2 0x40 a :: l.map fun w => s.ringRequest m 2 0x44 w.toNat

/-- The words of a copy with another SEQ. -/
def reseq (l : List W32) (seq : W32) : List W32 :=
  let body := (l.set 1 seq).take 247
  body ++ [crc32 (bytes32 body)]

/-- A torn copy beside a valid one is rewritten from it, with the next SEQ (R341, Example 14-2). -/
def State.mendCopy (s : State) (m : Nat) : State :=
  match (s.monitor m).record with
  | .valid l inA => s.ask (s.writeCopy m (if inA then 0x420 else 0x40) (reseq l (copySeq l + 1)))
  | _ => s

/-- Write a monitor's record into the copy that does not hold the newest valid one, or both where the monitor is blank (R341, R344). -/
def State.writeRecord (s : State) (m : Nat) : State :=
  let s := { s with rfw := { s.rfw with
    wroteGt := Tab.put none s.rfw.wroteGt m (some s.clk.gt), wroteCycles := Tab.put 0 s.rfw.wroteCycles m s.rfw.cycles } }
  match (s.monitor m).record with
  | .valid l inA => s.ask (s.writeCopy m (if inA then 0x420 else 0x40) (s.recordWords m (copySeq l + 1)))
  | .blank => s.ask (s.writeCopy m 0x40 (s.recordWords m 1) ++ s.writeCopy m 0x420 (s.recordWords m 1))
  | .bad =>
    -- the volatile copy of a restored pack (R343)
    match Tab.look [] s.rfw.hostCopy m with
    | [] => s
    | l => { s with rfw := { s.rfw with hostCopy := Tab.put [] s.rfw.hostCopy m (s.recordWords m (copySeq l + 1)) } }

/-- A cell's parameters from the words of a record copy. -/
def Cell.fromCopy (x : Cell) (l : List W32) (j : Nat) : Cell :=
  let h (o : Nat) : Nat := fld (l.getD (o / 4) 0).toNat (8 * (o % 4)) 16
  { x with
    cap := h (0x10 + 2 * j), learned := (l.getD 3 0).getLsbD (j + 1)
    esr := (List.range 16).map fun k => h (0x20 + 32 * j + 2 * k) }

/-- Take a monitor's cells from a copy. -/
def State.adoptCopy (s : State) (m : Nat) (l : List W32) : State :=
  forAll (List.range 6) s fun s j => s.setCell (6 * m + j) ((s.cell (6 * m + j)).fromCopy l j)

/-- Nominal parameters. -/
def State.nominal (s : State) (m : Nat) : State :=
  forAll (List.range 6) s fun s j =>
    s.setCell (6 * m + j) { s.cell (6 * m + j) with cap := 30000, learned := false, esr := List.replicate 16 800 }

/-! ### Enumeration (R327, R344) -/

/-- RING after an enumeration (Table 14-4): which monitors ENUM has reached from each end. It arrives at the far ends where both reached the
same ones; a count other than M is a pack fault. -/
def State.ringFound (s : State) : Ring × Bool :=
  let seen (f : Monitor → Bool) : List Nat := (List.range 4).filter fun m => f (s.monitor m)
  let a := seen (·.seen0)
  let b := seen (·.seen1)
  let count := a.foldl (fun n m => max n ((s.monitor m).hop0 + 1)) 0
  if a = [] ∧ b = [] then (.down, false)
  else if a = b then (if count = monitorCount then (.whole, false) else (.down, true))
  else if (List.range monitorCount).all fun m => a.contains m || b.contains m then (.broken, false)
  else (.partialRing, false)

/-- The source of the pack's parameters (Table 14-9). -/
def State.packData (s : State) : State :=
  let ms := List.range monitorCount
  let recs := ms.map fun m => (m, (s.monitor m).record, (s.monitor m).reachable)
  let serials := (List.range 4).foldl (fun t m =>
    Tab.put none t m (if (s.monitor m).reachable then (s.monitor m).serial else none)) []
  let s := { s with rfw := { s.rfw with serials := serials } }
  let valid (r : NvState) : Bool := match r with | .valid _ _ => true | _ => false
  if recs.all fun p => p.2.2 && valid p.2.1 then
    let s := forAll recs s fun s p => match p.2.1 with | .valid l _ => s.adoptCopy p.1 l | _ => s
    let flag := recs.any fun p => match p.2.1 with | .valid l _ => (l.getD 3 0).getLsbD 0 | _ => false
    let cyc := recs.foldl (fun a p => match p.2.1 with | .valid l _ => max a (l.getD 2 0).toNat | _ => a) 0
    let s := { s with
      -- a pack found blank stays BLANK until learning completes
      res := { s.res with ident := if s.res.ident = .blank && flag then .blank else .own, needsLearn := flag }
      rfw := { s.rfw with cycles := cyc, wroteCycles := ms.foldl (fun t m => Tab.put 0 t m cyc) [] } }
    forAll (ms.filter fun m => (s.monitor m).torn) s fun s m => s.mendCopy m
  else if recs.all fun p => p.2.2 && decide (p.2.1 = .blank) then
    let s := forAll ms s fun s m => s.nominal m
    let s := { s with res := { s.res with ident := .blank, needsLearn := true } }
    forAll ms s fun s m => s.writeRecord m
  else if Config.variant = .light then
    let s := forAll ms s fun s m => s.nominal m
    { s with res := { s.res with ident := .nominal, needsLearn := true } }
  else if s.rfw.hostCopy = [] then
    let s := forAll ms s fun s m => s.nominal m
    { s with res := { s.res with ident := .nominal } }
  else
    -- restored data: kept where the SERIALs read agree or could not be read, discarded where they differ
    let held (m : Nat) : List W32 := Tab.look [] s.rfw.hostCopy m
    let differs (m : Nat) : Bool := decide (held m ≠ []) && match Tab.look none s.rfw.serials m with
      | some v => decide (s.rfw.hostSerials.getD m 0 ≠ v)
      | none => false
    let unread := ms.any fun m => (Tab.look none s.rfw.serials m).isNone
    let s := forAll ms s fun s m => if differs m || decide (held m = []) then s.nominal m else s.adoptCopy m (held m)
    let s := { s with rfw := { s.rfw with
      hostCopy := (ms.filter differs).foldl (fun t m => Tab.put [] t m []) s.rfw.hostCopy } }
    { s with res := { s.res with
      needsLearn := s.res.needsLearn || ms.any differs
      ident := if s.rfw.hostCopy = [] then .nominal else if unread then .hostUnverified else .host } }

/-- What R323 asks of the pack before the converter may run. -/
def State.convAllowed (s : State) : Bool :=
  s.res.interlock && !s.res.tempOff && !s.res.unmeasured && s.res.under.isEmpty && !s.res.shutOff && (decide (s.res.ring = .whole) || decide (s.res.ring = .broken))

/-- Enumeration (R327): where a change of ring state waits for it, it begins once that is 1 s old; else ENUM has run from both ends, and it
brings RING, the identity pages, the parameters, and CONV_EN. -/
def State.enumerate (s : State) : State :=
  if !s.top.st.firmware then s
  else match s.res.enumDue with
  | some g => if s.since g secondTt then ({ s with res := { s.res with enumDue := none } } : State).startEnum else s
  | none =>
    let (ring, fault) := s.ringFound
    let seen (m : Monitor) : Bool := m.seen0 || m.seen1
    let s := { s with res := { s.res with
      ring := ring
      monitors := (List.range 4).foldl (fun t m => let x := Tab.look ({} : Monitor) t m; Tab.put {} t m { x with reachable := seen x, from0 := x.seen0 }) s.res.monitors } }
    let s := if fault then
        let (v, s) := s.takeFree
        s.report 0xA 0xFF 0x2E none [v.setWidth 32]
      else s
    let s := s.packData
    let s := if ring = .whole ∨ ring = .broken then s.setConv s.convAllowed else (s.setConv false).ringChanged
    s.bootRing true

/-! ### The commands -/

/-- A sweep begins (R328). -/
def execSweepTick (stack : StackSample) (s : State) : Out := .next (s.sweep stack)
/-- A monitor receives READ (R326). -/
def execRingRead (m : Fin 4) (frame : W64) (s : State) : Out := .next (s.monRead m frame)
/-- A monitor receives WRITE (R326). -/
def execRingWrite (m : Fin 4) (frame : W64) (s : State) : Out := .next (s.monWrite m frame)
/-- A monitor receives SAMPLE (R328). -/
def execSample (m : Fin 4) (frame : W64) (volts : List Nat) (temps : List Int) (s : State) : Out := .next (s.monSample m frame volts temps)
/-- A monitor receives PAUSE (R328). -/
def execPause (m : Fin 4) (frame : W64) (s : State) : Out := .next (s.monPause m frame)
/-- A monitor receives RESUME (R328). -/
def execResume (m : Fin 4) (frame : W64) (s : State) : Out := .next (s.monResume m frame)
/-- A monitor receives ENUM (R327). -/
def execEnum (m : Fin 4) (frame : W64) (fromE1 : Bool) (s : State) : Out := .next (s.monEnum m frame fromE1)
/-- A monitor receives READBLOCK (R326). -/
def execReadblock (m : Fin 4) (frame : W64) (s : State) : Out := .next (s.monBlock m frame)
/-- The manager receives REPLY (R326). -/
def execReply (frame : W64) (s : State) : Out := .next (s.ringReply frame)
/-- The manager receives ACK (R326). -/
def execRingAck (frame : W64) (s : State) : Out := .next (s.ringAcked frame)
/-- The manager receives NAK (R326). -/
def execRingNak (frame : W64) (s : State) : Out := .next (s.ringNaked frame)
/-- A request is unanswered after 200 µs (R326). -/
def execRingRequestTimeout (s : State) : Out := .next s.ringRetry
/-- A broadcast is overdue at the far end (R331). -/
def execRingBrokenDetect (stack : StackSample) (s : State) : Out := .next (s.ringBroken stack)
/-- Enumeration (R327). -/
def execEnumeration (s : State) : Out := .next s.enumerate
/-- A monitor's incoming link goes silent (R324). -/
def execMonitorLinkSilent (m : Fin 4) (s : State) : Out := .next (s.linkSilent m)

end Sys2Proof.Machine
end

