-- ==== Sys2Proof/Machine/Estimator.lean ====
section
/-!
DEFINITION. The estimator (R332–R336), balancing (R330), capacitance learning (R337–R339), record writes (R342) and the restore (R343).
-/

namespace Sys2Proof.Machine

/-! ### Energies (R333) -/

/-- The cells of the pack with their numbers. -/
def State.cellList (s : State) : List (Nat × Cell) := (List.range cellCount).map fun i => (i, s.cell i)

/-- Capacitance in F. -/
def Cell.farad (c : Cell) : Rat := (c.cap : Rat) / 100

/-- Energy of the usable window, 2.2 to 3.8 V. -/
def State.windowEnergy (s : State) : Rat :=
  s.cellList.foldl (fun (a : Rat) (p : Nat × Cell) => a + p.2.farad / 2 * ((38 / 10) * (38 / 10) - (22 / 10) * (22 / 10))) 0

/-- Raw SoR: what the stack delivers before its first cell reaches 2.2 V. -/
def State.rawEnergy (s : State) : Rat :=
  let low := s.cellList.map fun (p : Nat × Cell) => p.2.farad * (p.2.vb - 22 / 10)
  let qa : Rat := match low with
    | [] => 0
    | x :: l => max 0 (l.foldl min x)
  s.cellList.foldl (fun (a : Rat) (p : Nat × Cell) =>
    let c := p.2.farad
    let v := p.2.vb
    let w := v - qa / c
    a + c / 2 * (v * v - w * w)) 0

/-! ### One cell (R332) -/

/-- Temperature band of the impedance table: below 15, 30, 45 °C. -/
def esrBand (tenths : Int) : Nat := if tenths < 150 then 0 else if tenths < 300 then 1 else if tenths < 450 then 2 else 3

/-- SoR band: quarters of the window energy. -/
def State.sorBand (s : State) : Nat :=
  let w := s.windowEnergy
  if s.res.rep * 4 < w then 0 else if s.res.rep * 2 < w then 1 else if s.res.rep * 4 < 3 * w then 2 else 3

/-- ESR in use in µΩ. -/
def Cell.esrNow (c : Cell) (band : Nat) : Nat := c.esr.getD (4 * esrBand c.temp + band) 0

/-- The measured voltage with the IR correction: `amps` positive when charging. -/
def Cell.corrected (c : Cell) (band : Nat) (volt : Nat) (milliamps : Int) : Rat :=
  (volt : Rat) / 10000 - (milliamps : Rat) / 1000 * ((c.esrNow band : Rat) / 1000000)

/-- The first measurement after a reset. -/
def Cell.start (c : Cell) (z : Rat) : Cell :=
  { c with vb := z, vr := 0, p11 := 25 / 1000000, p22 := 25 / 1000000, p12 := 0, z := z }

/-- The filter of R332; `dt` in seconds. -/
def Cell.filter (c : Cell) (z dt : Rat) (split : Bool) : Cell :=
  let a := Config.expNeg (dt / 4)
  let qb : Rat := 9 / 100000000
  let qr : Rat := 4 / 1000000
  let rm : Rat := 1 / 1000000
  let vr := a * c.vr
  let p11 := c.p11 + qb * dt * 100
  let p12 := a * c.p12
  let p22 := a * a * c.p22 + qr * dt * 100
  let s := p11 + 2 * p12 + p22 + rm * (if split then 4 else 1)
  let h1 := p11 + p12
  let h2 := p12 + p22
  let k1 := h1 / s
  let k2 := h2 / s
  let e := z - c.vb - vr
  { c with
    vb := c.vb + k1 * e, vr := vr + k2 * e, p11 := p11 - k1 * h1, p12 := p12 - k1 * h2, p22 := p22 - k2 * h2, z := z }

/-! ### Limits by the cells (R323, R335, R392) -/

/-- A report of the reservoir: RESERVOIR_LIMIT with the row of Table 14-2. -/
def State.limitReport (s : State) (row : Nat) : State := s.report 0xA 0xFF 0x2C none [BitVec.ofNat 32 row]

/-- What the measured cells' corrected voltages and temperatures bring about. A limit by z lifts once every z is inside 3.85 and 2.15 V. Each
cell below 2.0 V is a CELL_FAULT, and the converter stays OFF (R392). -/
def State.cellLimits (s : State) (got : List (Nat × Cell)) : State :=
  let r := s.res
  let cells := got.map fun p => p.2
  let under := (got.filter fun p => decide (p.2.z < 2)).map fun p => p.1
  let s := { s with res := { r with under := under ++ r.under.filter fun i => got.all fun p => decide (p.1 ≠ i) } }
  let s := forAll (under.filter fun i => !r.under.contains i) s fun s i => s.report 0xA (BitVec.ofNat 32 i) 0x2E none []
  let high := cells.any fun c => decide (385 / 100 ≤ c.z)
  let low := cells.any fun c => decide (c.z ≤ 215 / 100)
  let hot := cells.any fun c => decide (550 ≤ c.temp)
  let off := cells.any fun c => decide (650 ≤ c.temp) || decide (c.temp ≤ -200)
  let s := { s with res := { s.res with zHigh := high, zLow := low, hot := hot, tempOff := off } }
  let s := if (high && !r.zHigh) || (low && !r.zLow) then s.limitReport 4 else s
  if off && !r.tempOff then s.limitReport 6 else s

/-- End of charge: any z at 3.75 V, until the highest falls to 3.73 V. -/
def State.endOfCharge (s : State) (cells : List Cell) : State :=
  let r := s.res
  if !r.eoc && cells.any (fun c => decide (375 / 100 ≤ c.z)) then
    { s with res := { r with eoc := true, chgKeep := r.chgLim, chgLim := 0 } }
  else if r.eoc && cells.all (fun c => decide (c.z ≤ 373 / 100)) then
    { s with res := { r with eoc := false, chgLim := r.chgKeep } }
  else s

/-- End of discharge: the budget at 0, until it reaches 200 J. -/
def State.endOfDischarge (s : State) : State :=
  let r := s.res
  if !r.eod && decide (r.rep ≤ heldReserve) then
    { s with res := { r with eod := true, disKeep := r.disLim, disLim := 0 } }
  else if r.eod && decide ((heldReserve : Rat) + 200 ≤ r.rep) then
    { s with res := { r with eod := false, disLim := r.disKeep } }
  else s

/-! ### Balancing (R330) -/

/-- Whether a cell is to bleed, by its v_b above the lowest. -/
def Cell.wantsBleed (c : Cell) (lowest : Rat) : Bool :=
  decide (1 / 100 < c.vb - lowest) || (c.bleeding && decide (3 / 1000 < c.vb - lowest))

/-- With a monitor at 400 Hz, no two adjacent cells (R329). -/
def spread : Bool → List Bool → List Bool
  | _, [] => []
  | prev, b :: l => (b && !prev) :: spread (b && !prev) l

/-- The pattern of the next interval, written to the monitors whose pattern it changes. The 0.2 mA of R330 is the same for every monitor and so
leaves the comparison as it is. -/
def State.balance (s : State) : State :=
  let allowed := s.res.bleedEn && s.rfw.learn.isNone && decide (s.windowEnergy / 5 ≤ s.res.rep)
  let vbs := s.cellList.map fun p => p.2.vb
  let lowest := vbs.foldl min (vbs.headD 0)
  let want := s.cellList.map fun p => allowed && p.2.wantsBleed lowest
  let slow := (List.range monitorCount).any fun m => decide ((s.monitor m).corner = 0)
  let want := if slow then spread false want else want
  let s := forAll ((List.range cellCount).zip want) s fun s p => s.setCell p.1 { s.cell p.1 with bleeding := p.2 }
  let pattern (m : Nat) : Nat := (List.range 6).foldl (fun a j => a + b2n (want.getD (6 * m + j) false) * 2 ^ j) 0
  let change := (List.range monitorCount).filter fun m => decide ((s.monitor m).bleed ≠ BitVec.ofNat 6 (pattern m))
  s.ask (change.map fun m => s.ringRequest m 2 0 ((s.monitor m).corner.toNat * 2 ^ 30 + pattern m))

/-! ### The charge account (R336) -/

/-- 48 C in µC. -/
def State.account (s : State) (rested : Bool) : State :=
  let q := s.res.charge
  let vbs := s.cellList.map fun p => p.2.vb
  let s := match s.res.anchor with
    | none => s
    | some (q0, v0) =>
      let dq : Rat := ((q - q0 : Int) : Rat) / 1000000
      if dq < 48 ∧ -48 < dq then s
      else forAll (s.cellList.zip v0) s fun s p =>
        let pred := dq / p.1.2.farad
        let meas := p.1.2.vb - p.2
        let gap := if meas < pred then pred - meas else meas - pred
        let size := if meas < 0 then -meas else meas
        if size / 20 < gap then
          ({ s with res := { s.res with needsLearn := true } } : State).report 0xA (BitVec.ofNat 32 p.1.1) 0x2D none
            [BitVec.ofInt 32 (pred * 10000).floor, BitVec.ofInt 32 (meas * 10000).floor]
        else s
  if rested then { s with res := { s.res with anchor := some (q, vbs) } } else s

/-! ### Learning (R337–R339) -/

/-- Two consecutive rest points make a cycle: every cell's capacitance is learned where it lies between 150 F and 360 F. Answers how many lay
outside and the values in 0.01 F. -/
def State.learnFrom (s : State) (a b : RestPoint) : State × List (Bool × Nat) :=
  let dq : Rat := ((b.charge - a.charge : Int) : Rat) / 1000000
  let t : Rat := ((b.gt - a.gt).toNat : Rat) * 64 / 10000000000
  let value (i : Nat) : Rat :=
    let dv := b.vbs.getD i 0 - a.vbs.getD i 0
    let n := dq - t * 2 / 10000
    (if n < 0 then -n else n) / (if dv < 0 then -dv else dv)
  let got := (List.range cellCount).map fun i => (i, value i)
  let s := forAll got s fun s p =>
    if 150 ≤ p.2 ∧ p.2 ≤ 360 then s.setCell p.1 { s.cell p.1 with cap := (p.2 * 100).floor.toNat, learned := true }
    else s.report 0xA (BitVec.ofNat 32 p.1) 0x2E none [BitVec.ofNat 32 (p.2 * 100).floor.toNat]
  (s, got.map fun p => (decide (150 ≤ p.2) && decide (p.2 ≤ 360), (p.2 * 100).floor.toNat))

/-- Swing of a cycle in mC. -/
def swing (a b : RestPoint) : Nat := (b.charge - a.charge).natAbs / 1000

/-- Mean |amps| between the points above 40 A (Table 14-6, code 2). -/
def RestPoint.fast (a : RestPoint) : Bool := decide (0 < a.amps) && decide (40 * (a.amps : Rat) < a.ampSum)

/-- Once every cell has learned NEEDS_LEARN clears, and a BLANK pack is its own. Firmware's copies follow (R342, R343). -/
def State.learned (s : State) (all : Bool) : State :=
  let s := if all then
      { s with res := { s.res with needsLearn := false, ident := if s.res.ident = .blank then .own else s.res.ident } }
    else s
  forAll (List.range monitorCount) s fun s m => s.writeRecord m

/-- The end of a cycle at *B*. Answers the code of Table 14-6, or 0, and the values learned. -/
def State.closeCycle (s : State) (a b : RestPoint) : State × Nat × List Nat :=
  if a.fast then ({ s with res := { s.res with learnDq := s.res.learnDq + 1 } }, 2, [])
  else
    let (s, got) := s.learnFrom a b
    let all := got.all fun p => p.1
    let s := if all then s else { s with res := { s.res with learnDq := s.res.learnDq + 1 } }
    (s.learned all, if all then 0 else 7, (got.filter fun p => p.1).map fun p => p.2)

/-- The learn target (R339): H + 5 % of the window when the SoR stands at half of it or above, else 95 %. -/
def State.learnTarget (s : State) : Rat × Bool :=
  let w := s.windowEnergy
  if w / 2 ≤ s.res.rep then ((heldReserve : Rat) + w / 20, false) else (w * 19 / 20, true)

/-- A rest point has come: it opens or closes the commanded cycle, or else closes the one that its predecessor opened and opens the next. -/
def State.restPoint (s : State) (b : RestPoint) : State :=
  match s.rfw.learn with
  | some l =>
    match l.atA with
    | none =>
      let (t, above) := s.learnTarget
      { s with rfw := { s.rfw with learn := some { l with atA := some b, target := t, above := above } } }
    | some a =>
      if !l.reached then s
      else
        let s := { s with rfw := { s.rfw with learn := none, auto := some b, autoDq := false } }
        if swing a b < 192000 then s.completeOpt l.slot 2 0 (learnResult 0 (swing a b) 0 0 a.gt b.gt)
        else
          let (s, code, vs) := s.closeCycle a b
          s.completeOpt l.slot (if code = 0 then 0 else 2) code
            (learnResult code (swing a b) (vs.foldl min (vs.headD 0)) (vs.foldl max 0) a.gt b.gt)
  | none =>
    let s := match s.rfw.auto with
      | some a => if !s.rfw.autoDq && decide (192000 ≤ swing a b) then (s.closeCycle a b).1 else s
      | none => s
    { s with rfw := { s.rfw with auto := some b, autoDq := false } }

/-- Count a sweep's |amps| into the running cycles. -/
def RestPoint.addAmps (a : RestPoint) (x : Rat) : RestPoint := { a with ampSum := a.ampSum + (if x < 0 then -x else x), amps := a.amps + 1 }

/-- The SoR reaches the learn target. -/
def Learn.follow (l : Learn) (rep amps : Rat) : Learn :=
  { l with
    atA := l.atA.map fun (a : RestPoint) => a.addAmps amps
    reached := l.reached || (l.atA.isSome && (if l.above then decide (l.target ≤ rep) else decide (rep ≤ l.target))) }

/-- What the disqualifiers of Table 14-6 find at a sweep. -/
def State.sweepChecks (s : State) (dt : Rat) (split : Bool) (cells : List Cell) : State :=
  let s := if cells.any fun c => decide (c.temp < 100) || decide (450 < c.temp) then s.disqualify 1 else s
  let s := if 50 / 1000 < dt then s.disqualify 3 else s
  let s := if split then s.disqualify 4 else s
  if (List.range cellCount).any s.bleeds then s.disqualify 6 else s

/-! ### The update (R332–R336, R342) -/

/-- GT differences in seconds. -/
def seconds (a b : W64) : Rat := ((b - a).toNat : Rat) * 64 / 10000000000

/-- The measured cells of a sweep with their new values. -/
def State.measure (s : State) (x : StackSample) (dt : Rat) (split : Bool) : List (Nat × Cell) :=
  let band := s.sorBand
  (List.range cellCount).filterMap fun i =>
    match Tab.look none s.rfw.gotV i with
    | none => none
    | some v =>
      let m := i / 6
      let c := s.cell i
      let c := { c with temp := (Tab.look none s.rfw.gotT (2 * m + i % 6 / 3)).getD c.temp, seen := s.clk.gt }
      let y := if s.res.splitMons.contains m then s.res.sample2.getD x else x
      let z := c.corrected band v (y.milliamps.getD (s.monitor m).corner.toNat 0)
      some (i, if s.res.first || (decide (c.p11 = (0 : Rat)) && decide (c.p22 = (0 : Rat))) then c.start z else c.filter z dt split)

/-- Reported SoR (R334). -/
def reportedSor (first : Bool) (amps raw rep : Rat) (rested : Bool) : Rat :=
  if first then raw
  else if amps < -1 / 2 then min rep raw
  else if 1 / 2 < amps then raw
  else if rested then raw else min rep raw

/-- A monitor's record is written again for its CYCLES: 1,000 more than last written, and 600 s since (R342). -/
def State.nvDue (s : State) (m : Nat) : Bool :=
  decide (Tab.look 0 s.rfw.wroteCycles m + 1000 ≤ s.rfw.cycles) && match Tab.look none s.rfw.wroteGt m with
    | none => true
    | some g => s.since g (600 * secondTt)

/-- The update after readback. -/
def State.estimate (s : State) : State :=
  match s.res.sample with
  | none => s
  | some x =>
    if s.res.readback ≠ [] then s
    else
      let dt := seconds s.res.lastSweep s.clk.gt
      let split := s.res.sample2.isSome
      let got := s.measure x dt split
      let cells := got.map fun p => p.2
      let first := s.res.first
      let dq : Int := x.charge - s.res.charge
      let amps : Rat := if dt = 0 then 0 else (dq : Rat) / 1000000 / dt
      let still := !first && decide (-1 / 2 ≤ amps) && decide (amps ≤ 1 / 2)
      let warm := cells.all fun c => decide (100 ≤ c.temp) && decide (c.temp ≤ 450)
      let s := forAll got s fun s p => s.setCell p.1 p.2
      let rest := if still then some (s.res.restSince.getD s.res.lastSweep) else none
      let rested := match rest with | some g => s.since g 1562500000 | none => false
      let restL := if still && warm then some (s.res.restLearn.getD (s.res.lastSweep, false)) else none
      let raw := s.rawEnergy
      let rep := reportedSor first amps raw s.res.rep rested
      let w := s.windowEnergy
      let s := { s with res := { s.res with
        sample := none, sample2 := none, splitMons := [], lastSweep := s.clk.gt, first := false, lastSplit := split, charge := x.charge
        restSince := rest, restLearn := restL, raw := raw, rep := rep, sorPct := if w = 0 then 0 else (100 * rep / w).floor.toNat } }
      let s := if first then s else s.sweepChecks dt split cells
      let s := { s with rfw := { s.rfw with
        auto := s.rfw.auto.map fun (a : RestPoint) => a.addAmps amps
        learn := s.rfw.learn.map fun (l : Learn) => l.follow rep amps
        through := s.rfw.through + dq.natAbs % 960000
        cycles := s.rfw.cycles + dq.natAbs / 960000 } }
      let s := { s with rfw := { s.rfw with
        cycles := s.rfw.cycles + s.rfw.through.toNat / 960000, through := s.rfw.through % 960000 } }
      let s := ((s.cellLimits got).endOfCharge cells).endOfDischarge
      let s := s.account rested
      let s : State := match restL with
        | some (g, false) =>
          if s.since g 4687500000 then
            ({ s with res := { s.res with restLearn := some (g, true) } } : State).restPoint
              { gt := s.clk.gt, charge := x.charge, vbs := s.cellList.map fun (p : Nat × Cell) => p.2.vb }
          else s
        | _ => s
      let s := s.balance
      let s := forAll ((List.range monitorCount).filter s.nvDue) s fun s m => s.writeRecord m
      let s := if got.length = cellCount then { s with res := { s.res with unmeasured := false } } else s
      s.setConv (s.convAllowed && (s.res.convEn || got.length = cellCount))

/-- A cell has not been measured for 50 ms (R323): CONV_EN = 0. -/
def State.unmeasured (s : State) (c : Nat) : State :=
  if s.top.st.firmware && decide (c < cellCount) && s.since (s.cell c).seen 7812500 && !s.res.unmeasured then
    (({ s with res := { s.res with unmeasured := true } } : State).limitReport 6).setConv false
  else s

/-! ### RESERVOIR_LEARN and RESERVOIR_RESTORE -/

def State.learnCommand (s : State) (x : Exchange) : State :=
  let ok (s : State) : Bool :=
    s.rfw.learn.isNone && (decide (s.res.ring = .whole) || decide (s.res.ring = .broken)) && s.res.convEn
  s.handleCommand 0x12 x [] true .learn 0 (fun s => unless_ (ok s) 9) noFit fun s n =>
    let (t, above) := s.learnTarget
    ({ s with rfw := { s.rfw with
      learn := some { slot := some n, atA := none, target := t, above := above, reached := false }, auto := none } } : State).balance

/-- A restore image is well formed (R343): the header, and every copy's CRC. -/
def restoreGood (l : List Byte) : Bool :=
  let w (o k : Nat) : Nat := ofLe ((l.drop o).take k)
  decide (w 0 4 = 0x52535452) && decide (w 4 2 = 1) && decide (w 6 2 = monitorCount)
    && (List.range monitorCount).all fun m =>
      copyGood ((List.range 248).map fun k => BitVec.ofNat 32 (w (64 + 992 * m + 4 * k) 4))

/-- The restore of an image read: DENIED over a pack with valid records of its own or where a SERIAL differs; an image that is not well formed is
a FAULT. -/
def State.restoreFrom (s : State) (n : Nat) (l : List Byte) : State :=
  let serial (m : Nat) : W64 := BitVec.ofNat 64 (ofLe ((l.drop (8 + 8 * m)).take 8))
  let ms := List.range monitorCount
  let read (m : Nat) : Option W64 := Tab.look none s.rfw.serials m
  if s.res.ident = .own ∨ s.res.ident = .blank then s.complete n 9 0 []
  else if l.length < 64 + 992 * monitorCount ∨ restoreGood l = false then s.complete n 1 0 []
  else if ms.any fun m => match read m with | some v => decide (v ≠ serial m) | none => false then s.complete n 9 0 []
  else
    let copy (m : Nat) : List W32 := (List.range 248).map fun k => BitVec.ofNat 32 (ofLe ((l.drop (64 + 992 * m + 4 * k)).take 4))
    let s := forAll ms s fun s m => s.adoptCopy m (copy m)
    let s := { s with
      rfw := { s.rfw with
        hostCopy := ms.foldl (fun t m => Tab.put [] t m (copy m)) [], hostSerials := ms.map serial
        cycles := ms.foldl (fun a m => max a ((copy m).getD 2 0).toNat) 0 }
      res := { s.res with
        ident := if ms.any fun m => (read m).isNone then .hostUnverified else .host
        needsLearn := ms.any fun m => ((copy m).getD 3 0).getLsbD 0 } }
    s.complete n 0 0 []

/-- RESERVOIR_RESTORE reads its image; a read that fails completes PEER_LOST (log entry 188). -/
def State.restoreReservoir (s : State) (n src len : Nat) (refused : Bool) : State :=
  match s.fwRead src len refused with
  | (none, s) => s.complete n 5 0 []
  | (some l, s) => s.restoreFrom n l

def State.restoreCommandRes (s : State) (x : Exchange) : State :=
  s.handleCommand 0x13 x [hostMask, 0xFFFF] true .resRestore 0 (fun _ => unless_ (decide (Config.variant = .full)) 10) noFit
    fun s n => s.restoreReservoir n (parWord x 0) (parFld x 1 0 16) x.refused

/-! ### The commands -/

/-- The estimator update after readback (R332); in BOOT the first sweep it uses lets boot go on (R289). -/
def execEstimatorUpdate (s : State) : Out := .next (s.estimate.bootRing false)
/-- A cell unmeasured for 50 ms (R323). -/
def execCellUnmeasuredTimeout (cell : Fin 24) (s : State) : Out := .next (s.unmeasured cell)
/-- RESERVOIR_LEARN (R339). -/
def execReservoirLearn (x : Exchange) (s : State) : Out := .next (s.learnCommand x)
/-- RESERVOIR_RESTORE (R343). -/
def execReservoirRestore (x : Exchange) (s : State) : Out := .next (s.restoreCommandRes x)

end Sys2Proof.Machine
end

