-- ==== Sys2Proof/Machine/Power.lean ====
section
/-!
DEFINITION. Power governance (13): measurement windows, issue governors, the control step with the envelope and the limits in their order,
domain pace, Floor and its end, thermal limits, and energy attribution.
-/

namespace Sys2Proof.Machine

/-! ### Measurement (R301) -/

/-- A 10 µs window ends at this tt: the first at or after 1,562.5·k. -/
def State.windowEnds (s : State) : Bool := s.clk.locked && decide (2 * s.clk.gt.toNat % 3125 < 2)

/-- The window's input voltage (10 mV), input power (0.1 W) and converter power (0.1 W, discharge positive). The alert lines stay asserted to
the end of the window in which they asserted. -/
def State.measured (s : State) (vin pin : Nat) (conv : Int) : State :=
  if s.windowEnds && decide (s.top.st ≠ .off) then
    let pin := min pin 65535
    let p := s.pow
    let load : Int := pin + conv
    ({ s with
      top := { s.top with vin := min vin 65535 }
      pow := { p with
        window := s.windowNow, pin := pin, conv := conv, loads := (load :: p.loads).take 200000, loadEnergy := p.loadEnergy + load
        rails := p.rails.map fun (x : Rail) => { x with alert := false } }
      gvn := { s.gvn with eInput := s.gvn.eInput + pin, eLoad := s.gvn.eLoad + load } } : State).convUpdate
  else s

/-! ### Issue governors (R302–R304) -/

/-- A governor window ends at this tt: the first at or after 156.25·j. -/
def State.govEnds (s : State) : Bool := s.clk.locked && decide (4 * s.clk.gt.toNat % 625 < 4)

/-- Engine cycles of a window as a level, to the nearest. -/
def levelOf (cycles n : Nat) : Nat := min 256 ((cycles * 128 + n) / (2 * n))

/-- What a governor has done by the end of its window: activity with ballast, and the engine cycles of ballast. -/
def Gov.reached (g : Gov) (n : Nat) : Nat × Nat :=
  let real := levelOf g.spent n
  (max real g.lo, if real < g.lo then g.lo * n / 64 - g.spent else 0)

/-- The limits of the next window (R302). -/
def Gov.limits (g : Gov) (floor : Bool) (pace up down act : Nat) : Nat × Nat :=
  let cap := min g.ceil pace
  let rise := if 0 < g.stagger then 0 else up
  if floor then
    let hi := min cap 32
    (hi, min g.ballast hi)
  else
    let hi := max (min cap (act + rise)) (act - down)
    (hi, min hi (max g.ballast (act - down)))

/-- One governor at the end of its window. Unspent stagger counts down, and a unit's excess is carried over. -/
def Gov.turn (g : Gov) (floor : Bool) (pace up down n : Nat) (ballast : Bool) : Gov × Nat :=
  let now := if floor then min g.hi (min 32 (min g.ceil pace)) else g.hi
  let (act, extra) := if ballast then ({ g with lo := min g.lo now } : Gov).reached n else (levelOf g.spent n, 0)
  let (hi, lo) := g.limits floor pace up down act
  ({ g with
    act := act, hi := hi, lo := lo, stagger := g.stagger - 1, fresh := false, spent := 0
    excess := g.spent * 64 + g.excess - now * n }, extra)

/-- Put the governors of every tile. -/
def State.setGovs (s : State) (f : Nat → Gov → Gov) : State :=
  { s with pow := { s.pow with
    gov := ((List.range 1024).map fun t => (t, f t (s.gov t))).filter fun p => decide (p.2 ≠ ({} : Gov)) } }

/-- Every tile's governor window ends. Retired tiles and tiles without power run no ballast. -/
def State.governors (s : State) : State :=
  if s.govEnds && !s.top.railsOff then
    let p := s.pow
    let n := s.windowTc
    let turn (t : Nat) : Gov × Nat := (s.gov t).turn p.floor p.level p.up p.down n (decide ((s.tile t).st ≠ .retired))
    let s' := s.setGovs fun t _ => (turn t).1
    forAll ((List.range 1024).filter fun t => decide (0 < (turn t).2)) s' fun s t => s.setTile t ((s.tile t).count 11 (turn t).2)
  else s

/-! ### Levels (R308, R313, R317) -/

def State.thermal (s : State) (b : Nat) : Nat := Tab.look 256 s.gvn.thermalLvl b
def State.railLevel (s : State) (b : Nat) : Nat := Tab.look 256 s.gvn.railLvl b
/-- A bolt's local level: the minimum of ranks 3 to 5 of Table 13-13. -/
def State.localLevel (s : State) (b : Nat) : Nat := min (s.thermal b) (min (s.railLevel b) s.gvn.energyLvl)
/-- The module's sustainable level. -/
def State.sustainable (s : State) : Nat := (List.range 4).foldl (fun m b => min m (s.localLevel b)) 256

/-- CAUSE of Table 13-14. -/
def State.paceCause (s : State) : Nat :=
  if s.sustainable = 256 then 0
  else
    b2n ((List.range 4).any fun b => decide (s.thermal b < 256)) + b2n ((List.range 4).any fun b => decide (s.railLevel b < 256)) * 2
      + b2n (decide (s.gvn.energyLvl < 256)) * 4 + b2n s.pow.floor * 8 + b2n s.gvn.storedBinds * 16

/-- Send the sustainable level to every other member for tick k + 2 (R311, R312). -/
def State.sendPace (s : State) : State :=
  if s.gz.joined then
    let tick := s.gvn.tick + 2
    let lo : W64 := BitVec.ofNat 64 (tick % 2 ^ 32 * 2 ^ 32 + s.paceCause * 2 ^ 16 + s.sustainable)
    let hi : W64 := s.gvn.paceSeq.setWidth 64
    let s := forAll (s.others s.gz.members) s fun s m =>
      s.sendPacket { s.packet 0x32 3 (BitVec.ofNat 6 m) with len := 16, payload := toLe 8 lo.toNat ++ toLe 8 hi.toNat }
    { s with
      gz := { s.gz with paceSent := s.gz.paceSent ++ [(lo, hi)] }
      gvn := { s.gvn with paceSeq := s.gvn.paceSeq + 1, sentLevel := Tab.put 0 s.gvn.sentLevel tick (s.sustainable + 1) } }
  else s

/-- Write each bolt's local level to its tiles' CEIL. -/
def State.writeCeil (s : State) : State :=
  let lvl := (List.range 4).map s.localLevel
  s.setGovs fun t g => { g with ceil := lvl.getD (boltOf t) 256 }

/-! ### The envelope (R306, R307) -/

/-- Seconds of a pace tick. -/
def tickSec : Rat := 1 / 10000

/-- The rule of R306: the new setpoint and the envelope floor and ceiling of the next 100 µs. -/
def envelopeStep (e : Envelope) (p want : Rat) : Rat × Rat × Rat :=
  let step := (e.slope : Rat) * tickSec
  let lo : Rat := if e.slope = 0 then e.floor else max e.floor (p - step)
  let hi : Rat := if e.slope = 0 then e.ceiling else min e.ceiling (p + step)
  let (lo, hi) : Rat × Rat := if hi < lo then (if (e.ceiling : Rat) < p then (p - step, p - step) else (p + step, p + step)) else (lo, hi)
  (min (max want lo) hi, lo, hi)

/-- Mean load over the last 2 s in W. -/
def State.meanLoad (s : State) : Rat :=
  match s.pow.loads with
  | [] => (s.load : Rat) / 10
  | l => ((l.foldl (fun (a : Int) (x : Int) => a + x) 0 : Int) : Rat) / 10 / (l.length : Rat)

/-- The state of reserve that the setpoint aims at (R306, R339). -/
def State.sorTarget (s : State) : Rat :=
  let normal : Rat := (heldReserve : Rat) + (s.windowEnergy - (heldReserve : Rat)) * 7 / 10
  match s.rfw.learn with
  | some l => if l.atA.isSome then l.target else normal
  | none => normal

/-- The envelope that a pace tick binds: the one accepted since the last, or the stored one. -/
def State.bindEnvelope (s : State) : State :=
  match s.gvn.nextEnv with
  | some e =>
    let l := s.gvn.envSlots
    let s := { s with gvn := { s.gvn with env := e, nextEnv := none, envSlots := [], storedBinds := false } }
    forAll l s fun s n => s.complete n 0 0 [s.gtLow.setWidth 64]
  | none => if s.gvn.storedBinds then { s with gvn := { s.gvn with env := s.pow.stored } } else s

/-- p_in for the next 100 µs and the converter's setpoint; 0 while the tray bus is absent. -/
def State.setpoint (s : State) : State :=
  if s.top.busLost then { s with gvn := { s.gvn with pinSet := 0 }, res := { s.res with pinTarget := 0 } }
  else
    let want := s.meanLoad + (s.sorTarget - s.res.rep) / 60
    let (p, lo, hi) := envelopeStep s.gvn.env s.gvn.pinSet want
    { s with
      gvn := { s.gvn with pinSet := p, envLo := lo, envHi := hi }
      res := { s.res with pinTarget := min 65535 (p + 1 / 2).floor.toNat } }

/-! ### The limits that firmware sets (R308, R317) -/

/-- The hottest reading of a bolt in 0.1 °C, its junctions and its HBM stacks 10 °C higher. -/
def State.junctionMax (s : State) (b : Nat) : Int := (List.range 64).foldl (fun m n => max m (Tab.look 0 s.gvn.junction (64 * b + n))) (Tab.look 0 s.gvn.junction (64 * b))
def State.heat (s : State) (b : Nat) : Int := (List.range 6).foldl (fun m k => max m (Tab.look 0 s.gvn.hbmTemp (6 * b + k) + 100)) (s.junctionMax b)

/-- The thermal cap at a control step (Table 13-17). -/
def State.thermalStep (s : State) (b : Nat) : State :=
  let h := s.heat b
  let l := s.thermal b
  let l' := if 1000 ≤ h then l - 16 else if h < 970 then min 256 (l + 8) else l
  { s with gvn := { s.gvn with
    thermalLvl := Tab.put 256 s.gvn.thermalLvl b l'
    throttled := if h < 970 then Tab.put false s.gvn.throttled b false else s.gvn.throttled } }

/-- A first reading at 100 °C (90 °C of an HBM stack): the local level drops to three quarters, CEIL is written at once, and an extra PACE
goes out (R313, R317). -/
def State.throttle (s : State) (b : Nat) : State :=
  if !s.fwRuns || Tab.look false s.gvn.throttled b then s
  else
    let s := { s with gvn := { s.gvn with
      throttled := Tab.put false s.gvn.throttled b true, thermalLvl := Tab.put 256 s.gvn.thermalLvl b (s.localLevel b * 3 / 4) } }
    (s.setGovs fun t g => if boltOf t = b then { g with ceil := s.localLevel b, ballast := 0 } else g).sendPace

/-- The rail cap of a bolt: at most 128 while its CORE link is down (R297, R308). -/
def State.railStep (s : State) (b : Nat) : State :=
  let x := s.rail b
  let l := min 256 (Config.railCap b x.iout (min (s.localLevel b) s.pow.level))
  let l := if x.st = .linkDown then min l 128 else l
  { s with gvn := { s.gvn with railLvl := Tab.put 256 s.gvn.railLvl b l } }

/-- The energy cap: with the budget spent and the load above the envelope ceiling, the ceilings come down until the load is at or below p_in.
Without the tray bus the ceilings stay (R310). -/
def State.energyStep (s : State) : State :=
  let gap : Rat := (s.load : Rat) - 10 * s.gvn.pinSet
  let excess : Rat := (s.load : Rat) - 10 * s.gvn.envHi
  let l := if s.top.busLost then s.gvn.energyLvl
    else if !s.res.eod then 256
    else if 0 < gap ∧ (0 < excess ∨ s.gvn.energyLvl < 256) then s.gvn.energyLvl - max 1 (Config.capStep gap.floor) else s.gvn.energyLvl
  { s with gvn := { s.gvn with energyLvl := l } }

/-- Ballast at end of charge: raised until the load reaches the envelope floor, never above the applied ceiling, and zero under a thermal
cap. -/
def State.ballastStep (s : State) : State :=
  let gap : Rat := 10 * s.gvn.envLo - (s.load : Rat)
  let up := if 0 < gap then max 1 (Config.ballastStep gap.floor) else 0
  let hot := (List.range 4).map fun b => decide (s.thermal b < 256)
  let eoc := s.res.eoc
  let pace := s.pow.level
  s.setGovs fun t g => { g with ballast := if eoc && !hot.getD (boltOf t) false then min (min g.ceil pace) (g.ballast + up) else 0 }

/-- A deviation of the input beyond 92 W that a higher rank forces is logged once (R309). -/
def State.slopeCheck (s : State) : State :=
  let dev : Rat := (s.pow.pin : Rat) / 10 - s.gvn.pinSet
  let forced := s.top.railsOff || s.pow.floor || (List.range 4).any fun b => decide (s.thermal b < 256)
  let off := forced && !s.top.busLost && (decide (92 < dev) || decide (dev < -92))
  let s' := if off && !s.gvn.violating then
      s.report 0xD 0 0x2B none [BitVec.ofNat 32 s.pow.window, BitVec.ofInt 32 dev.floor]
    else s
  { s' with gvn := { s'.gvn with violating := off } }

/-- FW_FORCE that an HBM temperature set is cleared below 105 °C. -/
def State.hbmCool (s : State) : State := if s.gvn.hbmTemp.any fun p => decide (1050 ≤ p.2) then s else s.dropForce 1

/-- Nothing holds Floor but the latch. -/
def State.floorCausesGone (s : State) : Bool :=
  !s.pow.fwForce && s.pow.rails.all (fun x => !x.alert) && s.gvn.junction.all fun p => decide (p.2 < 1050)

/-- In Floor, with its causes gone, firmware raises the CORE and LOAM rails to their Run cells (R300). -/
def State.raiseRails (s : State) : State :=
  if s.pow.floor && s.floorCausesGone then
    forAll (List.range 8) s fun s r =>
      if s.railAim r < s.railCell r 0 ∧ (s.rail r).st ≠ .off ∧ (s.rail r).st ≠ .linkDown then s.sendTarget r (s.railCell r 0) (s.rail r).slew else s
  else s

/-! ### Pace ticks and control steps (R311–R314) -/

/-- The control step of a tick: envelope, setpoint, limits, CEIL and BALLAST, PACE. -/
def State.controlStep (s : State) : State :=
  let s := s.bindEnvelope.setpoint
  let s := forAll (List.range 4) s fun s b => (s.thermalStep b).railStep b
  let s := s.energyStep.writeCeil.ballastStep.slopeCheck.hbmCool.raiseRails
  (if s.gz.joined then s else { s with pow := { s.pow with level := 256, paceArmed := false } }).sendPace.convUpdate

/-- A pace tick: every 15,625 tt. The active cluster writes its checkpoint (R347); with it stopped the control step has not finished. -/
def State.paceTickNow (s : State) : State :=
  if s.clk.locked && decide (s.clk.gt.toNat % 15625 = 0) && s.top.st.firmware then
    let k := s.clk.gt.toNat / 15625
    let s := { s with gvn := { s.gvn with
      tick := k, stepDone := s.fwRuns
      received := s.gvn.received.filter fun p => decide (64 * k ≤ p.1), sentLevel := s.gvn.sentLevel.filter fun p => decide (k ≤ p.1) } }
    if s.fwRuns then ({ s with cmd := { s.cmd with unsaved := [] } } : State).controlStep else s
  else s

/-- 50 µs after the tick a step that has not finished is skipped. -/
def State.stepLate (s : State) : State :=
  if s.top.st.firmware && !s.gvn.stepDone && decide (s.gvn.tick * 15625 + 7813 ≤ s.clk.gt.toNat) then
    { s with gvn := { s.gvn with stepDone := true, skipped := s.gvn.skipped + 1 } }
  else s

/-- The next tick whose cut-off, 10 µs before it, has not passed. -/
def State.openTick (s : State) : Nat := (s.clk.gt.toNat + 1562) / 15625 + 1

/-- A member's level is received (R312): kept for its tick, or, past that tick's cut-off, for the next one that can still use it. A level above
256 is none. -/
def State.paceReceived (s : State) (m : Nat) (lo : W64) : State :=
  let s := s.dropControl 0x32 (some m)
  let lvl := lo.toNat % 512
  if s.isMember m && decide (m ≠ s.gz.me.toNat) && decide (lvl ≤ 256) then
    let cur := s.openTick
    let ahead : Int := ((BitVec.ofNat 32 (lo.toNat / 2 ^ 32)) - BitVec.ofNat 32 cur).toInt
    if ahead < 0 then
      if Tab.look 0 s.gvn.received (64 * cur + m) = 0 then
        { s with gvn := { s.gvn with received := Tab.put 0 s.gvn.received (64 * cur + m) (lvl + 1) } }
      else s
    else { s with gvn := { s.gvn with received := Tab.put 0 s.gvn.received (64 * (cur + ahead.toNat) + m) (lvl + 1) } }
  else s

/-- The cut-off of a tick: the minimum of the members' levels, each the latest for the tick or that of the tick before, arms GOV_PACE. A
member that has offered none yet does not count. -/
def State.cutoff (s : State) : State :=
  if s.clk.locked && decide ((s.clk.gt.toNat + 1562) % 15625 = 0) && s.fwRuns && s.gz.joined then
    let j := (s.clk.gt.toNat + 1562) / 15625
    let of_ (m : Nat) : Nat :=
      let v := Tab.look 0 s.gvn.received (64 * j + m)
      if v = 0 then Tab.look 0 s.gvn.received (64 * (j - 1) + m) else v
    let ms := (List.range 64).filter fun m => s.isMember m && decide (m ≠ s.gz.me.toNat)
    let own := Tab.look 0 s.gvn.sentLevel j
    let own := if own = 0 then s.sustainable + 1 else own
    let next := ms.foldl (fun a m => if of_ m = 0 then a else min a (of_ m)) own - 1
    { s with
      gvn := { s.gvn with received := ms.foldl (fun t m => Tab.put 0 t (64 * j + m) (of_ m)) s.gvn.received }
      pow := { s.pow with next := next, paceArmed := true, paceAt := BitVec.ofNat 32 (15625 * j) } }
  else s

/-- An armed GOV_PACE applies at its tt (R305). -/
def State.paceApplies (s : State) : State :=
  if s.pow.paceArmed && decide (s.gtLow = s.pow.paceAt) then { s with pow := { s.pow with level := s.pow.next, paceArmed := false } } else s

/-- 1 s without a refresh (R307). -/
def State.envelopeLost (s : State) : State :=
  if s.fwRuns && !s.gvn.storedBinds && s.gvn.nextEnv.isNone && decide (secondTt ≤ (s.gtLow - s.gvn.refreshGt).toNat) then
    ({ s with gvn := { s.gvn with storedBinds := true } } : State).report 0xD 0 0x2A none [s.gvn.refreshGt]
  else s

/-- POWER_ENVELOPE. -/
def envelopeOk (e : Envelope) : Bool := decide (e.ceiling ≤ 4600) && decide (e.floor ≤ e.ceiling) && (decide (e.slope = 0) || decide (10 ≤ e.slope))

def State.envelopeCommand (s : State) (x : Exchange) : State :=
  let e : Envelope := { floor := parFld x 0 16 16, ceiling := parFld x 0 0 16, slope := parFld x 1 0 32 }
  s.handleCommand 0x0F x [lowMask, lowMask] true .envelope 0 (fun _ => unless_ (envelopeOk e) 3) noFit fun s n =>
    { s with gvn := { s.gvn with nextEnv := some e, envSlots := s.gvn.envSlots ++ [n], refreshGt := s.gtLow } }

/-! ### Thermal limits (R299, R300, R317) -/

/-- Band of a temperature in 0.1 °C. -/
def bandOf (tenths : Int) : Nat := if tenths < 500 then 0 else if tenths < 750 then 1 else if tenths < 950 then 2 else 3

/-- The band follows the hottest sensor, falling once it is 2 °C below the upper band's bound, readings being whole tenths. A rise sends the new cells where they lie above the
present targets, at 20 mV/µs. -/
def State.followBand (s : State) (b : Nat) : State :=
  let old := Tab.look 0 s.gvn.band b
  let t := s.junctionMax b
  let new := if old < bandOf t then bandOf t else min old (bandOf (t + 19))
  let s := { s with gvn := { s.gvn with band := Tab.put 0 s.gvn.band b new } }
  if old < new then
    forAll [b, b + 4] s fun s r =>
      let c := s.railCell r s.railRow
      if s.railAim r < c ∧ (s.rail r).st ≠ .off ∧ (s.rail r).st ≠ .linkDown then s.sendTarget r c 4 else s
  else s

/-- At 120 °C every rail but CTLA and CTLB powers off, and the module is FAULTED. -/
def State.thermalOff (s : State) (sensor : Nat) (tenths : Int) : State :=
  s.fatal 0xD 0 0x45 [BitVec.ofNat 32 sensor, BitVec.ofInt 32 tenths]

/-- A junction sensor posts a reading. -/
def State.junctionReads (s : State) (b n : Nat) (tenths : Int) : State :=
  if s.top.st = .off then s
  else
    let s := { s with gvn := { s.gvn with junction := Tab.put 0 s.gvn.junction (64 * b + n) tenths } }
    let s := s.followBand b
    let s := if 1000 ≤ tenths then s.throttle b else s
    let s := if 1100 ≤ tenths then ({ s with pow := { s.pow with thermal := true } } : State).forceFloor else s
    if 1200 ≤ tenths ∧ s.top.railsOff = false then s.thermalOff (64 * b + n) tenths else s

/-- An HBM stack reports its temperature. -/
def State.hbmReads (s : State) (h : Nat) (tenths : Int) : State :=
  if s.top.st = .off then s
  else
    let s := { s with gvn := { s.gvn with hbmTemp := Tab.put 0 s.gvn.hbmTemp h tenths } }
    let s := if 900 ≤ tenths then s.throttle (h / 6) else s
    if 1050 ≤ tenths ∧ s.fwRuns = true then s.setForce 1 else s

/-! ### The end of Floor (R316) -/

/-- The power block's conditions for CLEAR. -/
def State.mayClear (s : State) : Bool :=
  s.floorCausesGone && (List.range 8).all fun r => s.railAt r (s.railCell r 0)

/-- CLEAR: Floor ends, or the refusal is counted. -/
def State.clearFloor (s : State) : State :=
  if s.mayClear then { s with pow := { s.pow with floor := false } }
  else { s with pow := { s.pow with clearRefused := s.pow.clearRefused + 1 } }

/-! ### Energy attribution (R318) -/

/-- A coefficient in µJ per unit of its event; number 12 is the static one, µJ per tile and second. -/
def State.coefficient (s : State) (e : Nat) : Rat := (Tab.look none s.gvn.coeff e).getD (Config.energyCoefficient e)

/-- An event count in the units of Table 13-18. -/
def eventUnits (e n : Nat) : Rat := if 7 ≤ e ∧ e ≤ 10 then (n : Rat) / 1024 else n

/-- The energy of a tile's events but ballast, and the static share of 10 ms, before *g*. -/
def State.tileEnergy (s : State) (t : Nat) : Rat :=
  (List.range 11).foldl (fun (a : Rat) e => a + s.coefficient e * eventUnits e (Tab.look 0 (s.tile t).events e)) (s.coefficient 12 / 100)

/-- The attribution of 10 ms. Where no rail energy was measured, *g* is a free value. -/
def State.attribute (s : State) : State :=
  if s.clk.locked && decide (s.clk.gt.toNat % 1562500 = 0) && s.fwRuns then
    let load := s.pow.loadEnergy
    let (u, s) : W64 × State := if s.pow.railEnergy = 0 then s.takeFree else (0, s)
    let g : Rat := if s.pow.railEnergy = 0 then (u.toNat : Rat) else load / s.pow.railEnergy
    let share (c : Nat) : Rat := g * ((s.ctx c).groups.flatMap Group.tiles).foldl (fun (a : Rat) t => a + s.tileEnergy t) 0
    let ballast : Rat := g * s.coefficient 11 * s.tiles.foldl (fun (a : Rat) (p : Nat × Tile) => a + (Tab.look 0 p.2.events 11 : Nat)) 0
    let cs := ((List.range 16).filter fun c => decide ((s.ctx c).groups ≠ [])).map fun c => (c, share c)
    let total := cs.foldl (fun (a : Rat) (p : Nat × Rat) => a + p.2) ballast
    let s := forAll cs s fun s p => s.setCtx p.1 { s.ctx p.1 with energy := (s.ctx p.1).energy + p.2 }
    { s with
      tiles := Tab.mapAll {} (fun _ (x : Tile) => { x with events := [] }) s.tiles
      pow := { s.pow with railEnergy := 0, loadEnergy := 0 }
      gvn := { s.gvn with eBallast := s.gvn.eBallast + ballast, eUnattr := s.gvn.eUnattr + (load - total) } }
  else s

/-- A refitted coefficient moves by at most a tenth. -/
def bounded (old new : Rat) : Rat :=
  let d := (if old < 0 then -old else old) / 10
  max (old - d) (min (old + d) new)

def State.refit (s : State) : State :=
  if s.clk.locked && decide (s.clk.gt.toNat % secondTt = 0) && s.fwRuns then
    { s with gvn := { s.gvn with
      refits := s.gvn.refits + 1
      coeff := (List.range 13).foldl (fun t e => Tab.put none t e (some (bounded (s.coefficient e) (Config.refit s.gvn.refits e)))) s.gvn.coeff } }
  else s

/-! ### The commands -/

/-- A measurement window ends (R301). -/
def execMeasurementWindow (vin pin : Nat) (conv : Int) (s : State) : Out := .next (s.measured vin pin conv)
/-- A governor window ends (R302). -/
def execGovernorWindow (s : State) : Out := .next s.governors
/-- A pace tick (R306, R312). -/
def execPaceTick (s : State) : Out := .next s.paceTickNow
/-- A control step is late (R314). -/
def execControlStepTimeout (s : State) : Out := .next s.stepLate
/-- A member's PACE is received (R312). -/
def execPace (src : Fin 64) (lo _hi : W64) (s : State) : Out := .next (s.paceReceived src lo)
/-- The cut-off of a tick (R312). -/
def execPaceCutoff (s : State) : Out := .next s.cutoff
/-- GOV_PACE applies (R305). -/
def execPaceApply (s : State) : Out := .next s.paceApplies
/-- The envelope is lost (R307). -/
def execEnvelopeTimeout (s : State) : Out := .next s.envelopeLost
/-- POWER_ENVELOPE (R306). -/
def execPowerEnvelope (x : Exchange) (s : State) : Out := .next (s.envelopeCommand x)
/-- A junction sensor's reading (R317). -/
def execJunctionSensorReading (b : Fin 4) (n : Fin 64) (tenths : Int) (s : State) : Out := .next (s.junctionReads b n tenths)
/-- An HBM stack's temperature (R317). -/
def execHbmTemperatureReport (h : Fin 24) (tenths : Int) (s : State) : Out := .next (s.hbmReads h tenths)
/-- A write of GOV_ALERT.FW_FORCE = 1 (R315). -/
def execFwForce (p : Path) (s : State) : Out := .next (s.claimed p fun s => s.setForce 0)
/-- A write of GOV_ALERT.CLEAR = 1 (R316). -/
def execFloorClear (p : Path) (s : State) : Out := .next (s.claimed p fun s => s.clearFloor)
/-- Energy attribution (R318). -/
def execEnergyAttribution (s : State) : Out := .next s.attribute
/-- Refit of the coefficients (R318). -/
def execCoefficientRefit (s : State) : Out := .next s.refit

end Sys2Proof.Machine
end

