-- ==== Sys2Proof/Machine/Control.lean ====
section
/-!
DEFINITION. The two clusters: heartbeats, claims, switch-over and the claim watchdog (R346–R355).
-/

namespace Sys2Proof.Machine

/-- A write of CLM_HB: only its owner is heard, and the age restarts (Table 15-4). -/
def State.heartbeat (s : State) (b : Bool) (v : W32) (p : Path) : State :=
  s.secured p fun s =>
    if pathPair p ≠ b2n b then { s with clm := { s.clm with hbRefused := s.clm.hbRefused + 1 } }
    else if b then { s with clm := { s.clm with hbB := v, ageB := 0 } }
    else { s with clm := { s.clm with hbA := v, ageA := 0 } }

/-- Put a claim, and count a change of the active cluster (Table 15-3). -/
def State.putClaim (s : State) (b : Bool) (v : W64) : State :=
  let was := s.activeB
  let s := if b then { s with clm := { s.clm with claimB := v } } else { s with clm := { s.clm with claimA := v } }
  if s.activeB = was then s else { s with clm := { s.clm with switches := s.clm.switches + 1 } }

/-- The test of R348: above both claims as they stand. -/
def State.claim (s : State) (b : Bool) (v : W64) : State :=
  if s.clm.claimA < v ∧ s.clm.claimB < v then s.putClaim b v
  else { s with clm := { s.clm with claimRefused := s.clm.claimRefused + 1 } }

/-- A write of a claim register by its owner; another's is refused and counted. -/
def State.ownClaim (s : State) (b : Bool) (p : Path) (f : State → State) : State :=
  s.secured p fun s =>
    if pathPair p ≠ b2n b then { s with clm := { s.clm with claimRefused := s.clm.claimRefused + 1 } } else f s

/-- CLM_CLAIM_LO is held for the next write of HI. -/
def State.claimLo (s : State) (b : Bool) (v : W32) (p : Path) : State :=
  s.ownClaim b p fun s =>
    if b then { s with clm := { s.clm with loB := v } } else { s with clm := { s.clm with loA := v } }

/-- CLM_CLAIM_HI presents the held low word and itself. -/
def State.claimHi (s : State) (b : Bool) (v : W32) (p : Path) : State :=
  s.ownClaim b p fun s => s.claim b (v ++ (if b then s.clm.loB else s.clm.loA))

/-- Age of a cluster's heartbeat; one that has never beaten does not reach any age. -/
def State.ageOf (s : State) (b : Bool) : W32 := if b then s.clm.ageB else s.clm.ageA
def State.ageReached (s : State) (b : Bool) (cc : Nat) : Bool := decide (cc ≤ (s.ageOf b).toNat) && decide (s.ageOf b ≠ 0xFFFFFFFF)

def State.clusterDead (s : State) (b : Bool) : Bool := if b then s.clm.deadB else s.clm.deadA

/-- The standby takes over (R351): its claim, its heartbeat; the switch is logged with the gap, and what the old cluster did after its last
checkpoint is repeated (R353). -/
def State.takeOver (s : State) : State :=
  let old := s.activeB
  if s.top.st.firmware && !s.clm.watchdog && !s.clusterDead (!old) && s.ageReached old 20000 then
    let gap := s.ageOf old
    let v := (if old then s.clm.claimB else s.clm.claimA) + 1
    let s := s.claim (!old) v
    let s := if old then { s with clm := { s.clm with hbA := s.clm.hbA + 1, ageA := 0 } }
      else { s with clm := { s.clm with hbB := s.clm.hbB + 1, ageB := 0 } }
    (s.report 0xB (BitVec.ofNat 32 (b2n (!old))) 0x30 none (data64 v.toNat ++ [gap])).redeliver
  else s

/-- The active cluster finds the standby silent. -/
def State.standbySilent (s : State) : State :=
  let b := !s.activeB
  if s.fwRuns && s.ageReached b 20000 then s.report 0xB (BitVec.ofNat 32 (b2n b)) 0x2F none [s.ageOf b] else s

/-- The claim watchdog (R355): Floor, by the path of FW_FORCE; nothing is driven from then on. -/
def State.watchdogFires (s : State) : State :=
  if s.top.st.firmware && !s.clm.watchdog && s.ageReached s.activeB 625000 then
    ({ s with clm := { s.clm with watchdog := true }, pow := { s.pow with firmware := true } } : State).forceFloor
  else s

/-! ### The commands -/

/-- A heartbeat (R351). -/
def execClmHbWrite (b : Bool) (v : W32) (p : Path) (s : State) : Out := .next (s.heartbeat b v p)
/-- The claim test (R348). -/
def execClmClaimHiWrite (b : Bool) (v : W32) (p : Path) (s : State) : Out := .next (s.claimHi b v p)
/-- A read of CLM_CLAIM_LO latches the high word (Table 15-2). -/
def execClmClaimLoRead (b : Bool) (p : Path) (s : State) : Out := .next (s.via p fun s => (s.csrRead (0x10000000 + 8 * b2n b) p (pathWho p)).2)
/-- The active cluster is lost (R351). -/
def execClusterLost (s : State) : Out := .next s.takeOver
/-- The standby is lost (R351). -/
def execStandbyLost (s : State) : Out := .next s.standbySilent
/-- The claim watchdog (R355). -/
def execClaimWatchdog (s : State) : Out := .next s.watchdogFires
/-- A cluster stops its heartbeat on an error in itself (R347). -/
def execClusterError (b : Bool) (s : State) : Out :=
  .next { s with clm := { s.clm with deadA := s.clm.deadA || !b, deadB := s.clm.deadB || b } }

end Sys2Proof.Machine
end

