-- ==== Sys2Proof/Machine/ControlFamily.lean ====
section
/-!
DEFINITION. The control instructions (Table 3-4).
-/

namespace Sys2Proof.Machine

/-- `br` (R70). -/
def execBr (i : Issue) (f : BitVec 48) (s : State) : Out := .next (s.syllable i 2 (0x01) f)
/-- `call` (R70). -/
def execCall (i : Issue) (f : BitVec 48) (s : State) : Out := .next (s.syllable i 2 (0x02) f)
/-- `jr` (R70). -/
def execJr (i : Issue) (f : BitVec 48) (s : State) : Out := .next (s.syllable i 2 (0x03) f)
/-- `callr` (R70). -/
def execCallr (i : Issue) (f : BitVec 48) (s : State) : Out := .next (s.syllable i 2 (0x04) f)
/-- `sys`: SYSCALL (R70, R48). -/
def execSys (i : Issue) (f : BitVec 48) (s : State) : Out := .next (s.syllable i 2 (0x10) f)
/-- `brk`: BREAK (R70, R48). -/
def execBrk (i : Issue) (f : BitVec 48) (s : State) : Out := .next (s.syllable i 2 (0x11) f)
/-- `tret` (R51). -/
def execTret (i : Issue) (f : BitVec 48) (s : State) : Out := .next (s.syllable i 2 (0x20) f)
/-- `wfi` (R71). -/
def execWfi (i : Issue) (f : BitVec 48) (s : State) : Out := .next (s.syllable i 2 (0x21) f)
/-- `halt` (R60). -/
def execHalt (i : Issue) (f : BitVec 48) (s : State) : Out := .next (s.syllable i 2 (0x22) f)
/-- `fence.i` (R72). -/
def execFenceI (i : Issue) (f : BitVec 48) (s : State) : Out := .next (s.syllable i 2 (0x30) f)

end Sys2Proof.Machine
end

