-- ==== Sys2Proof/Machine/Windows.lean ====
section
/-!
DEFINITION. The indirect windows (R362–R364).
-/

namespace Sys2Proof.Machine

/-- Block of a window. -/
def windowBlock : Window → Nat
  | .rail => 4 | .cmw => 6 | .exp => 9 | .gz => 10

/-- A write to a pair: secure, by its owner, and not while an access is pending, which sets LOST (R362, R363). `free` is the write itself. -/
def State.pairWrite (s : State) (j k : Nat) (p : Path) (pending free : Pair → Pair) : State :=
  s.secured p fun s =>
    if k ≠ pathPair p then { s with clm := { s.clm with windowDenied := s.clm.windowDenied + 1 } }
    else
      let x := s.pair j k
      s.setPair j k (if x.status = 1 then pending x else free x)

/-- A write of IXA (Table 15-10). -/
def State.ixaWrite (s : State) (j k : Nat) (v : W32) (p : Path) : State :=
  let n := v.toNat
  s.pairWrite j k p (fun x => { x with lost := !bitOf n 29 }) fun x =>
    let x := { x with
      auto := bitOf n 30, lost := x.lost && !bitOf n 29, stride := BitVec.ofNat 4 (n / 2 ^ 22), addr := BitVec.ofNat 22 n }
    if bitOf n 31 then x.startRead else x

/-- A write of IXD posts a write of the target. -/
def State.ixdPost (s : State) (j k : Nat) (v : W32) (p : Path) : State :=
  s.pairWrite j k p (fun x => { x with lost := true }) fun x => { x with status := 1, pend := some (some v) }

/-- What a target answers: data (none for a write), a NAK, or nothing. -/
inductive Reach where | done (v : W32) | nak | silent
  deriving DecidableEq, Repr

/-- An address where the target has no register: whether it answers NAK, and the data, are free. -/
def State.nothingThere (s : State) : Reach × State :=
  let (v, s) := s.takeFree
  (if v.getLsbD 63 then .nak else .done (v.setWidth 32), s)

/-- Frame log of a rail; a frame older than any logged is a free value. -/
def State.railWindow (s : State) (a : Nat) (wr : Option W32) : Reach × State :=
  if wr.isSome then (.nak, s)
  else if 13 * 0x400 ≤ a ∨ 0x200 ≤ a % 0x400 ∨ a % 4 ≠ 0 then s.nothingThere
  else match (s.rail (a / 0x400)).log[a % 0x400 / 8]? with
    | some (f, g) => (.done (if a % 8 = 0 then f else g), s)
    | none =>
      let (v, s) := s.takeFree
      (.done (v.setWidth 32), s)

/-- A cell monitor's register, by READ or WRITE over the ring. -/
def State.cmwWindow (s : State) (a : Nat) (wr : Option W32) : Reach × State :=
  let m := a / 0x100
  if monitorCount ≤ m ∨ (s.monitor m).reachable = false ∨ s.res.ring = .down then (.silent, s)
  else match wr with
    | some v => (.done 0, s.setMonitor m ((s.monitor m).writeReg (a % 0x100) v.toNat))
    | none =>
      let (v, y) := (s.monitor m).readReg (a % 0x100)
      (.done (BitVec.ofNat 32 v), s.setMonitor m y)

/-- An HBM3 mode register through the stack's test port: written only in BOOT. -/
def State.expWindow (s : State) (a : Nat) (wr : Option W32) (x : W32) : Reach × State :=
  match wr with
  | some v =>
    if s.top.st ≠ .boot then (.nak, s)
    else if 24 * 0x10000 ≤ a ∨ a % 4 ≠ 0 then s.nothingThere
    else (.done 0, { s with mem := { s.mem with modes := Tab.put none s.mem.modes a (some v) } })
  | none =>
    if 24 * 0x10000 ≤ a ∨ a % 4 ≠ 0 then s.nothingThere else (.done ((Tab.look none s.mem.modes a).getD x), s)

/-- An optical engine's management registers. -/
def State.gzWindow (s : State) (a : Nat) (wr : Option W32) (x : W32) : Reach × State :=
  if wr.isSome then (.nak, s)
  else if 34 * 0x1000 ≤ a ∨ 12 ≤ a % 0x1000 ∨ a % 4 ≠ 0 then s.nothingThere
  else (.done x, s)

/-- The target's answer to a window access; `x` is what a device outside the module reads. -/
def State.reach (s : State) (w : Window) (a : Nat) (wr : Option W32) (x : W32) : Reach × State :=
  match w with
  | .rail => s.railWindow a wr
  | .cmw => s.cmwWindow a wr
  | .exp => s.expWindow a wr x
  | .gz => s.gzWindow a wr x

/-- The block's source for WINDOW_NAK (Table 16-2). -/
def windowSource (w : Window) (a : Nat) : BitVec 4 × W32 :=
  match w with
  | .rail => (9, BitVec.ofNat 32 (a / 0x400))
  | .cmw => (0xA, 0xFF)
  | .exp => (5, BitVec.ofNat 32 (a / 0x10000))
  | .gz => (7, BitVec.ofNat 32 (a / 0x1000))

/-- A failed access: STATUS 2 NAK or 3 TIMEOUT, reported; ADDR and IXD stay. -/
def State.windowFails (s : State) (w : Window) (k : Nat) (status : BitVec 2) : State :=
  let j := windowBlock w
  let x := { s.pair j k with rd := false, status := status, pend := none }
  let (kind, src) := windowSource w x.addr.toNat
  (s.setPair j k x).report kind src 6 none [x.ixa, status.setWidth 32]

/-- The target answers. -/
def State.windowAnswers (s : State) (w : Window) (k : Nat) (v : W32) : State :=
  let j := windowBlock w
  let x := s.pair j k
  match x.pend with
  | none => s
  | some wr =>
    match s.reach w x.addr.toNat wr v with
    | (.silent, _) => s
    | (.nak, s) => s.windowFails w k 2
    | (.done d, s) =>
      let y := { x with rd := false, status := 0, pend := none }
      s.setPair j k (if wr.isSome then y.advance else { y with data := d })

/-- The target has not answered in time. -/
def State.windowTimeout (s : State) (w : Window) (k : Nat) : State :=
  if (s.pair (windowBlock w) k).status = 1 then s.windowFails w k 3 else s

/-! ### The commands -/

/-- A write of IXA with RD = 1 (R363). -/
def execIxaReadStart (w : Window) (pair : Fin 3) (v : W32) (p : Path) (s : State) : Out :=
  .next (s.ixaWrite (windowBlock w) pair (v ||| 0x80000000) p)
/-- A write of IXD (R363). -/
def execIxdWrite (w : Window) (pair : Fin 3) (v : W32) (p : Path) (s : State) : Out := .next (s.ixdPost (windowBlock w) pair v p)
/-- A read of IXD (R363). -/
def execIxdRead (w : Window) (pair : Fin 3) (p : Path) (s : State) : Out :=
  .next (s.via p fun s => (s.csrRead (windowBlock w * 0x1000000 + 0xF04 + 8 * pair.val) p (pathWho p)).2)
/-- The target answers (R363). -/
def execIxTargetAnswer (w : Window) (pair : Fin 3) (x : W32) (s : State) : Out := .next (s.windowAnswers w pair x)
/-- The access times out (R364). -/
def execIxTimeout (w : Window) (pair : Fin 3) (s : State) : Out := .next (s.windowTimeout w pair)

end Sys2Proof.Machine
end

