-- ==== Sys2Proof/Machine/ErrorFamily.lean ====
section
/-!
DEFINITION. Reports to the collectors and what they bring about (R367–R378), patrol scrubbing (R142), and the policy lock (R382).
-/

namespace Sys2Proof.Machine

/-- A report of fatal severity, as it was made. -/
def State.fatalReport (s : State) (r : Report) : State :=
  let typ := r.typ.toNat
  let s := if typ = 0x42 then { s with trust := { s.trust with sramBad := true } } else s
  let s := if typ = 0x45 then s.shutRails else s
  (s.report r.kind r.source typ r.context r.data).enterFaulted (if typ = 0x45 then 0xB else if typ = 0x46 then 0xD else 0xA)

/-- A 64-bit value at the start of DATA. -/
def reportAddr (r : Report) : Nat := (r.data.getD 0 0).toNat + (r.data.getD 1 0).toNat * 2 ^ 32

/-- Mark the word or sector of the module's stores that holds a place uncorrectable: what is read of it from now on is poison (R141, R145). -/
def State.markBad (s : State) (pa : Nat) : State :=
  match targetOf pa with
  | .hbm _ => { s with mem := { s.mem with bad := Tab.put false s.mem.bad (alignDown pa 32) true } }
  | .loam _ => { s with mem := { s.mem with bad := Tab.put false s.mem.bad (alignDown pa 8) true } }
  | .silt t off =>
    let x := s.tile t
    s.setTile t { x with siltBad := Tab.put false x.siltBad (alignDown off 8) true }
  | _ => s

/-- A word or sector is already marked uncorrectable. -/
def State.marked (s : State) (pa : Nat) : Bool :=
  match targetOf pa with
  | .hbm _ => (markIn s.mem.bad pa 1 32).isSome
  | .loam _ => (markIn s.mem.bad pa 1 8).isSome
  | .silt t off => (s.tile t).siltBadIn off 1
  | _ => true

/-- A collector report: logged, and acted on by its TYPE (R143, R145, R146, R376, R377). The word of an uncorrectable error is marked. -/
def State.collect (s : State) (r : Report) : State :=
  let typ := r.typ.toNat
  let src := r.source.toNat
  let logged (s : State) : State := s.report r.kind r.source typ r.context r.data
  if severity typ = some 3 then s.fatalReport r
  else match typ with
    | 0x01 => if src < 1024 then (logged s).correctedAt (siltPlace src (reportAddr r)) else logged s
    | 0x02 => (logged s).correctedAt (reportAddr r)
    | 0x03 => (logged s).correctedAt (reportAddr r)
    | 0x10 =>
      if src < 1024 then (logged (s.markBad (siltBase + src * siltBytes + reportAddr r % siltBytes))).retireTile src 0 else logged s
    | 0x11 =>
      let s := logged s
      let s := if s.marked (reportAddr r) then s else (s.markBad (reportAddr r)).repairRow (reportAddr r)
      s.retirePage (reportAddr r) 0
    | 0x12 => (logged (s.markBad (reportAddr r))).retirePage (reportAddr r) 0
    | 0x20 => s.retirePage (reportAddr r) (r.data.getD 2 0).toNat
    | 0x21 => if src < 1024 then s.retireTile src (r.data.getD 0 0).toNat else s
    | 0x22 => s.retireStack src (r.data.getD 0 0).toNat
    | _ => logged s

/-- The seconds of R372 that have ended: one RATE_LIMITED entry for each limited source. -/
def State.secondEnds (s : State) : State :=
  let old (r : Rate) : Bool := decide (secondTt ≤ (s.clk.gt - r.since).toNat)
  let l := s.err.rates.filter old
  let s := { s with err := { s.err with rates := s.err.rates.filter fun r => !old r } }
  forAll l s fun s r =>
    if r.suppressed = 0 then s
    else s.report r.kind r.source 0x32 none [r.firstType.setWidth 32, BitVec.ofNat 32 r.suppressed]

/-- A write of ERR_LOG_GET (Table 16-5). -/
def State.getWrite (s : State) (v : W32) : State :=
  let ahead := v - s.err.get
  if ahead.toInt < 0 then s
  else ({ s with err := { s.err with get := if s.held < ahead.toNat then s.err.put else v } } : State).flushOverflow

/-! ### Patrol scrubbing (R142) -/

/-- The word or sector that a scrub of an address reads. -/
def scrubWord (pa : Nat) : Nat := match targetOf pa with | .hbm _ => alignDown pa 32 | _ => alignDown pa 8

/-- An hour in tt. -/
def hourTt : Nat := 3600 * secondTt

/-- A scrub's report of a word is noted, and those more than an hour old forgotten. -/
def State.noteScrub (s : State) (a : Nat) : State :=
  { s with err := { s.err with
    scrubbed := (s.err.scrubbed.filter fun p => decide (p.1 ≠ a) && decide ((s.clk.gt - p.2).toNat < hourTt)) ++ [(a, s.clk.gt)] } }

/-- The scrub finds a new uncorrectable error: the word is marked and reported. -/
def State.scrubBad (s : State) (pa : Nat) : State :=
  let a := scrubWord pa
  let s := (s.markBad a).noteScrub a
  match targetOf a with
  | .hbm _ => s.ueHbm a
  | .loam _ => (s.ueLoam a).repairRow a
  | .silt t off => s.ueSilt t off
  | _ => s

/-- The scrub meets a word marked before: nothing is written, and the error is reported again where the last report of a scrub lies an hour
back. -/
def State.scrubAgain (s : State) (pa : Nat) : State :=
  let a := scrubWord pa
  if s.err.scrubbed.any fun p => decide (p.1 = a) && decide ((s.clk.gt - p.2).toNat < hourTt) then s
  else
    let s := s.noteScrub a
    match targetOf a with
    | .hbm n => s.report 5 (BitVec.ofNat 32 n) 0x12 none (data64 a)
    | .loam b => s.report 4 (BitVec.ofNat 32 b) 0x11 none (data64 a)
    | .silt t off => s.report 0 (BitVec.ofNat 32 t) 0x10 none [BitVec.ofNat 32 off]
    | _ => s

/-- It finds a correctable one, counts it and rewrites the word with the value it had; a store that reached the word first keeps its value. The
syndrome and the channel reported are free values. -/
def State.scrubFixes (s : State) (pa : Nat) : State :=
  let (v, s) := s.takeFree
  match targetOf pa with
  | .hbm n =>
    let a := alignDown pa 32
    (s.report 5 (BitVec.ofNat 32 n) 3 none (data64 a ++ [v.setWidth 32])).correctedAt a
  | .loam b =>
    let a := alignDown pa 8
    (s.report 4 (BitVec.ofNat 32 b) 2 none (data64 a ++ [v.setWidth 32])).correctedAt a
  | .silt t off =>
    let a := alignDown off 8
    (s.report 0 (BitVec.ofNat 32 t) 1 none [BitVec.ofNat 32 a, 0, v.setWidth 32]).correctedAt (siltPlace t a)
  | _ => s

/-- One scrub. A stack that is not up is not scrubbed. -/
def State.scrub (s : State) (pa : Nat) (f : ScrubFinding) : State :=
  let there := match targetOf pa with
    | .hbm n => s.stackUp n
    | .loam _ => true
    | .silt _ _ => true
    | _ => false
  if !there then s
  else if s.marked pa then s.scrubAgain pa
  else match f with
    | .clean => s
    | .correctable => s.scrubFixes pa
    | .raced => s.scrubFixes pa
    | .uncorrectable => s.scrubBad pa

/-! ### The commands -/

/-- A report reaches a collector (R367, R368). -/
def execErrorReport (r : Report) (s : State) : Out := .next (settle s (s.collect r))
/-- Seconds of the rate limit end (R372). -/
def execRateLimitSecondEnd (s : State) : Out := .next s.secondEnds
/-- ERR_LOG_GET (R373). -/
def execErrLogGetWrite (v : W32) (p : Path) (s : State) : Out := .next (s.via p fun s => s.getWrite v)
/-- A patrol scrub (R142). -/
def execPatrolScrub (addr : Nat) (finding : ScrubFinding) (s : State) : Out := .next (settle s (s.scrub addr finding))
/-- TRUST_POLICY.LOCK (R382). -/
def execPolicyLock (p : Path) (s : State) : Out :=
  .next (s.secured p fun s => { s with trust := { s.trust with lock := true } })

end Sys2Proof.Machine
end

