-- ==== Sys2Proof/Machine/GauzeFamily.lean ====
section
/-!
DEFINITION. The commands of ports, packets, the domain, its clock, the fabric queues and the Bursen link (08, 09).
-/

namespace Sys2Proof.Machine

/-! ### Ports -/

/-- A frame arrives (R195). -/
def execFrameReceive (port : Fin 33) (r : RxFrame) (s : State) : Out := .next (s.receive port r)
/-- A link fails (R196); port B's retrains as the others (R219). -/
def execLinkFailure (port : Fin 33) (s : State) : Out := .next (if port.val = 32 then s.linkFailsB else s.linkFails port)
/-- Training of a port ends (R196). -/
def execPortTrainingComplete (port : Fin 33) (r : Training) (s : State) : Out :=
  .next (if port.val = 32 then s.linkTrained r else (s.trained port r).tryJoin)
/-- GZ_PORT_CTRL.EN is cleared (R201). -/
def execPortEnClear (port : Fin 32) (drain : Bool) (p : Path) (s : State) : Out := .next (s.claimed p fun s => s.portOff port drain)
/-- GZ_PORT_CTRL.EN is set (R196). -/
def execPortEnSet (port : Fin 32) (timing : Bool) (p : Path) (s : State) : Out := .next (s.claimed p fun s => s.portOn port timing)
/-- GZ_PORT_CTRL.RETRAIN (R196). -/
def execRetrain (port : Fin 32) (p : Path) (s : State) : Out := .next (s.claimed p fun s => s.retrain port)
/-- An alignment codeword locks a lane (R193). -/
def execAlignmentCodeword (port : Fin 33) (lane : Fin 8) (s : State) : Out :=
  .next (s.setPort port { s.port port with lanes := (s.port port).lanes ||| BitVec.ofNat 8 (2 ^ lane.val) })

/-! ### Packets -/

/-- WIN_LOAD (R208). -/
def execWinLoad (k : Packet) (s : State) : Out := .next (settle s (s.serve { k with typ := 1 } .load))
/-- WIN_STORE (R208). -/
def execWinStore (k : Packet) (s : State) : Out := .next (settle s (s.serve { k with typ := 2 } .store))
/-- WIN_ATOMIC (R208). -/
def execWinAtomic (k : Packet) (s : State) : Out := .next (settle s (s.serve { k with typ := 3 } .atomic))
/-- PUT (R200). -/
def execPut (k : Packet) (s : State) : Out := .next (settle s (s.serve { k with typ := 4 } .store))
/-- GET (R200). -/
def execGet (k : Packet) (s : State) : Out := .next (settle s (s.serve { k with typ := 5 } .load))
/-- ATOMIC (R200). -/
def execAtomic (k : Packet) (s : State) : Out := .next (settle s (s.serve { k with typ := 6 } .atomic))
/-- NOTIFY (R197). -/
def execNotify (k : Packet) (s : State) : Out := .next (settle s (s.serve { k with typ := 7 } .notify))
/-- RESPONSE (R197). -/
def execResponse (k : Packet) (s : State) : Out := moved s (s.response { k with typ := 0x10 })
/-- COLL_DATA (R213). -/
def execCollData (k : Packet) (x : CollSlice) (s : State) : Out := moved s (s.collArrives { k with typ := 0x20 } x)

/-! ### The domain and its clock -/

/-- MEMBER (R203). -/
def execMember (k : MemberMsg) (s : State) : Out := moved s ((s.member k).tryLeave)
/-- TIME_SYNC (R218). -/
def execTimeSync (k : TimeStamps) (s : State) : Out := moved s (s.timeSync k)
/-- A heartbeat to every other member (R206). -/
def execHeartbeatTimer (s : State) : Out := .next (if s.gz.joined && s.top.st.live then s.tell (.heartbeat s.self) else s)
/-- No heartbeat or no route for 1 ms (R206). -/
def execPeerLostTimeout (m : Fin 64) (s : State) : Out := moved s (s.peerTimeout m)
/-- A join not done in 10 s (R204). -/
def execDomainJoinTimeout (s : State) : Out := .next s.joinTimeout
/-- The timing port is lost (R217). -/
def execTimingPortLost (s : State) : Out := .next s.timingLost
/-- Out of sync (R217). -/
def execOutOfSync (s : State) : Out := moved s s.outOfSync
/-- GT moves by one tt (R218). -/
def execGtCorrection (add : Bool) (s : State) : Out := .next (s.correctGt add)
/-- A TIME_SYNC exchange starts (R218). -/
def execTimeSyncExchange (port : Fin 32) (s : State) : Out := .next (s.startSync port)

/-! ### Fabric queues -/

/-- A descriptor starts (R209). -/
def execFabricDescriptorStart (b : Fin 4) (q : Fin 16) (s : State) : Out := moved s (s.fabStart b q)
/-- PUT (R211). -/
def execFabricPut (b : Fin 4) (q : Fin 16) (n : Nat) (s : State) : Out := moved s (s.fabGo b q n 1)
/-- GET (R211). -/
def execFabricGet (b : Fin 4) (q : Fin 16) (n : Nat) (s : State) : Out := moved s (s.fabGo b q n 2)
/-- ATOMIC (R211). -/
def execFabricAtomic (b : Fin 4) (q : Fin 16) (n : Nat) (s : State) : Out := moved s (s.fabGo b q n 3)
/-- NOTIFY (R211). -/
def execFabricNotify (b : Fin 4) (q : Fin 16) (n : Nat) (s : State) : Out := moved s (s.fabGo b q n 4)
/-- BARRIER (R211). -/
def execBarrier (b : Fin 4) (q : Fin 16) (n : Nat) (s : State) : Out := moved s (s.fabGo b q n 5)
/-- ALL_REDUCE (R213). -/
def execAllReduce (b : Fin 4) (q : Fin 16) (n : Nat) (s : State) : Out := moved s (s.fabGo b q n 16)
/-- REDUCE_SCATTER (R213). -/
def execReduceScatter (b : Fin 4) (q : Fin 16) (n : Nat) (s : State) : Out := moved s (s.fabGo b q n 17)
/-- ALL_GATHER (R213). -/
def execAllGather (b : Fin 4) (q : Fin 16) (n : Nat) (s : State) : Out := moved s (s.fabGo b q n 18)
/-- The queue's first descriptor completes (R211). -/
def execFabricDescriptorComplete (b : Fin 4) (q : Fin 16) (s : State) : Out := moved s (s.fabComplete b q)
/-- GZ_FQ_CTRL.EN is cleared (R178). -/
def execFqueueEnClear (b : Fin 4) (q : Fin 16) (drain : Bool) (p : Path) (s : State) : Out :=
  moved s (s.secured p fun s => s.fqOff b q drain)
/-- GZ_FQ_CTRL.EN is set (R415). -/
def execFqueueEnSet (b : Fin 4) (q : Fin 16) (p : Path) (s : State) : Out := .next (s.secured p fun s => s.fqOn b q)

/-! ### The Bursen link -/

/-- A line is read, for a shared copy or to own it (R221). -/
def State.readLine (s : State) (who : Reader) (line : Nat) (own : Bool) : State :=
  settle s (match who with | .host secure => s.hostReads line own secure | .module => s.moduleReads line own)

/-- READ_SHARED (R221). -/
def execReadShared (fromHost : Reader) (line : Nat) (s : State) : Out := .next (s.readLine fromHost line false)
/-- READ_OWN (R221). -/
def execReadOwn (fromHost : Reader) (line : Nat) (s : State) : Out := .next (s.readLine fromHost line true)
/-- INVALIDATE (R220): by the host of a copy the module holds, or the host's answer to the module's own. -/
def execInvalidate (byHost : Bool) (line : Nat) (s : State) : Out := .next (if byHost then s.withdrawn line else s.hostAnswers line)
/-- An INVALIDATE unanswered for 10 µs (R220). -/
def execSnoopTimeout (line : Nat) (s : State) : Out := .next (s.snoopLost line)
/-- The link leaves UP (R224). -/
def execBursenLinkDown (s : State) : Out := .next s.linkLost
/-- The link is UP again (R224). -/
def execBursenLinkUp (s : State) : Out := .next s.linkRaised

end Sys2Proof.Machine
end

