-- ==== Sys2Proof/Machine/MemoryFamily.lean ====
section
/-!
DEFINITION. The memory instructions (Table 3-6), and the answers to far accesses (R41).
-/

namespace Sys2Proof.Machine

/-- Low nibble of a load's OP (Table 3-6). -/
def loadCode : LoadKind → Nat
  | .b => 1 | .bu => 2 | .h => 3 | .hu => 4 | .w => 5 | .wu => 6 | .d => 7
/-- Low nibble of a store's OP (Table 3-6). -/
def storeCode : StoreKind → Nat
  | .b => 1 | .h => 3 | .w => 5 | .d => 7

/-- Silt loads to a scalar register (R38). -/
def execLdS (i : Issue) (k : LoadKind) (f : BitVec 48) (s : State) : Out := .next (s.syllable i 4 (loadCode k) f)
/-- `ld.sv` (R38). -/
def execLdSv (i : Issue) (f : BitVec 48) (s : State) : Out := .next (s.syllable i 4 (0x08) f)
/-- Silt stores (R34). -/
def execStS (i : Issue) (k : StoreKind) (f : BitVec 48) (s : State) : Out := .next (s.syllable i 4 (0x10 + storeCode k) f)
/-- `st.sv` (R34). -/
def execStSv (i : Issue) (f : BitVec 48) (s : State) : Out := .next (s.syllable i 4 (0x18) f)
/-- Far loads to a scalar register (R40). -/
def execLdF (i : Issue) (k : LoadKind) (f : BitVec 48) (s : State) : Out := .next (s.syllable i 4 (0x20 + loadCode k) f)
/-- `ld.fv` (R40). -/
def execLdFv (i : Issue) (f : BitVec 48) (s : State) : Out := .next (s.syllable i 4 (0x28) f)
/-- Far stores (R41). -/
def execStF (i : Issue) (k : StoreKind) (f : BitVec 48) (s : State) : Out := .next (s.syllable i 4 (0x30 + storeCode k) f)
/-- `st.fv` (R41). -/
def execStFv (i : Issue) (f : BitVec 48) (s : State) : Out := .next (s.syllable i 4 (0x38) f)
/-- `amo` (R77). -/
def execAmo (i : Issue) (op : AmoOp) (f : BitVec 48) (s : State) : Out := .next (s.syllable i 4 (match op with | .add => 0x40 | .and => 0x41 | .or => 0x42 | .xor => 0x43 | .swap => 0x44) f)
/-- `amo.cas` (R77). -/
def execAmoCas (i : Issue) (f : BitVec 48) (s : State) : Out := .next (s.syllable i 4 (0x45) f)
/-- `fence.l` (R136). -/
def execFenceL (i : Issue) (f : BitVec 48) (s : State) : Out := .next (s.syllable i 4 (0x50) f)
/-- `fence.g` (R137). -/
def execFenceG (i : Issue) (f : BitVec 48) (s : State) : Out := .next (s.syllable i 4 (0x51) f)

/-- A far load or atomic is performed at its target, or fails (R41). -/
def execFarLoadResponse (t : Fin 1024) (n : Nat) (x : Answer) (s : State) : Out := .next (settle s (s.farResponse t n false x))
/-- A far store is performed at its target, or fails (R41). -/
def execFarStoreAck (t : Fin 1024) (n : Nat) (x : Answer) (s : State) : Out := .next (settle s (s.farResponse t n true x))

end Sys2Proof.Machine
end

