-- ==== Sys2Proof/Machine/Query.lean ====
section
/-!
DEFINITION. QUERY with its reports (R240 and the rules that Table 9-11 names) and ATTEST (R384, R385). Each makes its report at once;
the next tick writes it.
-/

namespace Sys2Proof.Machine

/-- Signed values as two's complement. -/
def sLe (n : Nat) (v : Int) : List Byte := toLe n (v % 2 ^ (8 * n)).toNat
def zeros (n : Nat) : List Byte := List.replicate n 0

/-! ### Reports -/

/-- One handle (Table 9-12). -/
def State.handleReport (s : State) (h : Nat) : List Byte :=
  let x := s.slotOf (h % 4096)
  let done := decide (x.st = .complete)
  toLe 4 h ++ [if done then 2 else 1, x.opcode, 0, 0] ++ toLe 4 x.gtAccept.toNat
    ++ toLe 4 (if done then fld (x.record.getD 2 0).toNat 32 32 else 0)
    ++ (if done then (x.recordBytes ++ zeros 64).take 64 else zeros 64)

/-- Fit availability (R254): every code and scope with DEMAND zero. -/
def State.availability (s : State) : List Byte := s.shortfall (s.needs (List.replicate 79 0))

/-- Domain membership and routes (Table 9-13). -/
def State.domainReport (s : State) : List Byte :=
  let g := s.gz
  if !g.joined then zeros 32 ++ List.replicate 1024 0xFF
  else
    toLe 4 g.domain.toNat ++ toLe 4 (g.me.toNat + 2 ^ 6 + b2n g.coord * 2 ^ 7 + g.coordinator.toNat * 2 ^ 8)
      ++ toLe 8 g.epoch.toNat ++ toLe 8 g.members.toNat ++ zeros 8
      ++ (List.range 1024).map fun i => if i / 16 = g.me.toNat then 0xFE else Tab.look 0xFF g.routes i

/-- Energy (Table 13-19). -/
def State.energyReport (s : State) : List Byte :=
  let e (x : Rat) : List Byte := sLe 8 x.floor
  toLe 8 s.gtLow.toNat ++ e s.gvn.eInput ++ e s.gvn.eLoad ++ e s.gvn.eBallast ++ e s.gvn.eUnattr
    ++ (List.range 16).flatMap fun c => if (s.ctx c).st = .unloaded then zeros 8 else e (s.ctx c).energy

/-- The reservoir (after Table 14-15). -/
def State.reservoirReport (s : State) : List Byte :=
  let x : StackSample := s.res.last.getD { millivolts := 0, milliamps := [], charge := s.res.charge }
  let band := s.sorBand
  toLe 4 s.gtLow.toNat ++ sLe 4 s.res.raw.floor ++ sLe 8 s.res.rep.floor ++ sLe 8 x.charge ++ toLe 4 x.millivolts
    ++ sLe 4 (x.milliamps.getD 0 0)
    ++ (List.range cellCount).flatMap fun i =>
      let c := s.cell i
      sLe 2 (c.vb * 10000).floor ++ sLe 2 (c.vr * 10000).floor ++ toLe 2 c.cap ++ toLe 2 (c.esrNow band) ++ sLe 2 c.temp
        ++ toLe 2 (b2n (s.bleeds i) + b2n c.learned * 2) ++ zeros 4

/-- A monitor's SERIAL as last read or restored, and its record copy; what no one has read or supplied is a free value. -/
def State.monitorImage (s : State) (m : Nat) : W64 × List W32 × State :=
  let (u, s) := s.takeFree
  let (v, s) := s.takeFree
  let serial := match Tab.look none s.rfw.serials m with
    | some k => k
    | none => s.rfw.hostSerials.getD m u
  let words := match (s.monitor m).record, Tab.look [] s.rfw.hostCopy m with
    | .valid l _, _ => s.recordWords m (copySeq l)
    | _, [] => s.recordWords m (v.setWidth 32)
    | _, l => l
  (serial, words, s)

/-- The restore image (R343). -/
def State.restoreImage (s : State) : List Byte × State :=
  let (ks, ls, s) := (List.range monitorCount).foldl (fun (a : List Byte × List Byte × State) m =>
    let (k, l, s) := a.2.2.monitorImage m
    (a.1 ++ toLe 8 k.toNat, a.2.1 ++ bytes32 l, s)) ([], [], s)
  ((toLe 4 0x52535452 ++ toLe 2 1 ++ toLe 2 monitorCount ++ ks ++ zeros 64).take 64 ++ ls, s)

/-- The error log from a SEQ on (R375). -/
def State.logReport (s : State) (from_ len : Nat) : List Byte :=
  let put := s.err.put.toNat
  let start := max from_ (put - 1024)
  let l := (s.err.log.filter fun e => decide (start ≤ e.seq.toNat)).take ((len - 32) / 64)
  toLe 4 start ++ toLe 4 l.length ++ toLe 4 put ++ toLe 4 s.err.get.toNat ++ toLe 4 s.errStat.toNat ++ toLe 4 s.err.supp.toNat ++ zeros 8
    ++ l.flatMap LogEntry.bytes

/-- The retirement list (Table 16-10). -/
def State.retirementReport (s : State) (len : Nat) : List Byte :=
  let n := (len - 32) / 16
  let l := s.err.retired.take n
  toLe 4 l.length ++ [if n < s.err.retired.length then 1 else 0, s.err.retireGen, 0, 0] ++ zeros 24
    ++ l.flatMap fun r => [BitVec.ofNat 8 r.kind, 0, 0, 0] ++ toLe 4 r.seq.toNat ++ toLe 8 r.id

/-- The fuse image (Table 16-12). -/
def fuseImage : List Byte :=
  toLe 8 Config.serial.toNat ++ [BitVec.ofNat 8 (variantCode Config.variant)] ++ zeros 7 ++ digestBytes Config.firmwareKeyHash
    ++ (toLe 64 Config.identityKey.toNat).reverse
    ++ ((List.range 64).flatMap fun k => toLe 2 (Config.voltageTable (k / 16) (k / 8 % 2) (k / 4 % 2) (k % 4)).toNat)
    ++ ((List.range 5).flatMap fun k => toLe 2 (Config.fixedTarget (8 + k)).toNat) ++ toLe 2 heldReserve ++ zeros 260

/-! ### QUERY -/

/-- Minimum BUF_LEN of a SELECT, and whether ARG has a use; none for a reserved one (Table 9-11). -/
def querySelect (n : Nat) : Option (Nat × Bool) :=
  match n with
  | 0x01 => some (80, true)
  | 0x10 => some (2560, false)
  | 0x18 => some (1056, false)
  | 0x20 => some (168, false)
  | 0x30 => some (416, false)
  | 0x31 => some (4032, false)
  | 0x40 => some (96, true)
  | 0x41 => some (32, false)
  | 0x50 => some (1024, false)
  | 0x51 => some (512, false)
  | _ => none

/-- The value checks of R240. -/
def State.queryValues (s : State) (sel arg len : Nat) : Option (Nat × Nat) :=
  match querySelect sel with
  | none => some (2, 3)
  | some (n, used) =>
    if sel = 0x31 ∧ Config.variant = .light then some (2, 10)
    else if len < n ∨ (used = false ∧ arg ≠ 0) then some (2, 3)
    else if sel = 1 then
      if 2 ^ 32 ≤ arg then some (2, 2) else (s.handleWrong arg).map fun d => (2, d)
    else none

/-- The bytes of a report. -/
def State.queryReport (s : State) (sel arg len : Nat) : List Byte × State :=
  match sel with
  | 0x01 => (s.handleReport arg, s)
  | 0x10 => (s.availability, s)
  | 0x18 => (s.domainReport, s)
  | 0x20 => (s.energyReport, s)
  | 0x30 => (s.reservoirReport, s)
  | 0x31 => s.restoreImage
  | 0x40 => (s.logReport arg len, s)
  | 0x41 => (s.retirementReport len, s)
  | 0x50 => (Config.certificate.take 1024, s)
  | _ => (fuseImage, s)

/-- A report is made: it waits for its write. -/
def State.makeReport (s : State) (n buf : Nat) (l : List Byte) (x : Exchange) : State :=
  { s with cmd := { s.cmd with reports := s.cmd.reports ++ [{ slot := n, buf := buf, bytes := l, refused := x.refused }] } }

def State.queryCommand (s : State) (x : Exchange) : State :=
  let sel := parFld x 0 0 8
  let arg := parWord x 1
  let buf := parWord x 2
  let len := parFld x 3 0 32
  s.handleCommand 7 x [0xFF, wordMask, hostMask, lowMask] false .query 0 (fun s => s.queryValues sel arg len) noFit fun s n =>
    let (l, s) := s.queryReport sel arg len
    s.makeReport n buf l x

/-! ### ATTEST (R384) -/

/-- A context's 48 bytes of the record. -/
def State.attestCtx (s : State) (c : Nat) : List Byte :=
  let x := s.ctx c
  if x.st = .unloaded ∨ x.st = .loading then toLe 48 c
  else
    let code := match x.st with | .loaded => 2 | .running => 3 | .saved => 4 | .loading => 1 | .unloaded => 0
    [BitVec.ofNat 8 c, code, BitVec.ofNat 8 (b2n x.signed + x.keySlot.toNat * 2), x.priv.setWidth 8] ++ toLe 4 x.loadGt.toNat
      ++ digestBytes x.digest ++ zeros 8

/-- Bytes 0x100–0x1BF: the configuration. -/
def State.attestConfig (s : State) : List Byte :=
  let t := s.trust
  let key (k : Nat) : List Byte := if t.keyValid.getLsbD k then
      digestBytes (Config.sm3 ((List.range 16).flatMap fun i => toLe 4 (Tab.look 0 t.keys (16 * k + i)).toNat))
    else zeros 32
  toLe 4 s.policyReg.toNat ++ ((List.range 4).map fun k => (Tab.look 0 t.keyPriv k).setWidth 8)
    ++ toLe 4 (s.govReg 0x30).toNat ++ toLe 4 (s.govReg 0x34).toNat ++ toLe 4 s.gz.domain.toNat ++ toLe 4 (s.gzReg 0x404).toNat ++ zeros 8
    ++ (List.range 4).flatMap key ++ zeros 32

/-- The record of Table 16-17 with a nonce. -/
def State.attestation (s : State) (nonce : List Byte) : List Byte :=
  let config := s.attestConfig
  let head := toLe 4 0x54535441 ++ toLe 2 1 ++ zeros 2 ++ toLe 4 1280 ++ toLe 4 s.trust.version.toNat ++ nonce ++ toLe 8 s.clk.gt.toNat
    ++ toLe 8 Config.serial.toNat ++ digestBytes s.trust.digest ++ digestBytes (Config.sm3 fuseImage) ++ digestBytes (Config.sm3 config)
    ++ toLe 4 s.topState.toNat ++ toLe 4 s.errStat.toNat ++ toLe 4 s.err.put.toNat ++ zeros 84
  let body := head ++ config ++ (List.range 16).flatMap s.attestCtx
  body ++ (toLe 64 (Config.sm2Sign (Config.sm3 body)).toNat).reverse

def State.attestCommand (s : State) (x : Exchange) : State :=
  s.handleCommand 0x14 x (List.replicate 4 wordMask ++ [hostMask, lowMask]) false .attest 0
    (fun _ => unless_ (decide (1280 ≤ parFld x 5 0 32)) 3) noFit
    fun s n => s.makeReport n (parWord x 4) (s.attestation ((parBytes x).take 32)) x

/-! ### The commands -/

/-- QUERY (R240). -/
def execQuery (x : Exchange) (s : State) : Out := .next (s.queryCommand x)
/-- ATTEST (R384). -/
def execAttest (x : Exchange) (s : State) : Out := .next (s.attestCommand x)

end Sys2Proof.Machine
end

