-- ==== Sys2Proof/Machine/ScalarFamily.lean ====
section
/-!
DEFINITION. The scalar instructions (Table 3-5).
-/

namespace Sys2Proof.Machine

/-- Order of the relations in Table 3-5. -/
def relCode : Rel → Nat
  | .eq => 0 | .ne => 1 | .lt => 2 | .ltu => 3 | .le => 4 | .leu => 5

/-- `add`, `addi` (R73). -/
def execAdd (i : Issue) (imm : Bool) (f : BitVec 48) (s : State) : Out := .next (s.syllable i 3 (if imm then 0x41 else 0x01) f)
/-- `sub` (R73). -/
def execSub (i : Issue) (f : BitVec 48) (s : State) : Out := .next (s.syllable i 3 (0x02) f)
/-- `mul`, `muli` (R73). -/
def execMul (i : Issue) (imm : Bool) (f : BitVec 48) (s : State) : Out := .next (s.syllable i 3 (if imm then 0x43 else 0x03) f)
/-- `mulh`, `mulhu` (R73). -/
def execMulh (i : Issue) (unsigned : Bool) (f : BitVec 48) (s : State) : Out := .next (s.syllable i 3 (if unsigned then 5 else 4) f)
/-- `div`, `divu` (R74). -/
def execDiv (i : Issue) (unsigned : Bool) (f : BitVec 48) (s : State) : Out := .next (s.syllable i 3 (if unsigned then 7 else 6) f)
/-- `rem`, `remu` (R74). -/
def execRem (i : Issue) (unsigned : Bool) (f : BitVec 48) (s : State) : Out := .next (s.syllable i 3 (if unsigned then 9 else 8) f)
/-- `and`, `andi` (R73). -/
def execAnd (i : Issue) (imm : Bool) (f : BitVec 48) (s : State) : Out := .next (s.syllable i 3 (if imm then 0x4A else 0x0A) f)
/-- `or`, `ori` (R73). -/
def execOr (i : Issue) (imm : Bool) (f : BitVec 48) (s : State) : Out := .next (s.syllable i 3 (if imm then 0x4B else 0x0B) f)
/-- `xor`, `xori` (R73). -/
def execXor (i : Issue) (imm : Bool) (f : BitVec 48) (s : State) : Out := .next (s.syllable i 3 (if imm then 0x4C else 0x0C) f)
/-- `andn` (R73). -/
def execAndn (i : Issue) (f : BitVec 48) (s : State) : Out := .next (s.syllable i 3 (0x0D) f)
/-- `shl`, `shli` (R73). -/
def execShl (i : Issue) (imm : Bool) (f : BitVec 48) (s : State) : Out := .next (s.syllable i 3 (if imm then 0x4E else 0x0E) f)
/-- `shr`, `shri` (R73). -/
def execShr (i : Issue) (imm : Bool) (f : BitVec 48) (s : State) : Out := .next (s.syllable i 3 (if imm then 0x4F else 0x0F) f)
/-- `sra`, `srai` (R73). -/
def execSra (i : Issue) (imm : Bool) (f : BitVec 48) (s : State) : Out := .next (s.syllable i 3 (if imm then 0x50 else 0x10) f)
/-- `min`, `max` (R73). -/
def execMinMax (i : Issue) (max : Bool) (f : BitVec 48) (s : State) : Out := .next (s.syllable i 3 (if max then 0x12 else 0x11) f)
/-- `minu`, `maxu` (R73). -/
def execMinuMaxu (i : Issue) (max : Bool) (f : BitVec 48) (s : State) : Out := .next (s.syllable i 3 (if max then 0x14 else 0x13) f)
/-- `clz`, `ctz`, `popc` (R73). -/
def execClzCtzPopc (i : Issue) (which : BitCount) (f : BitVec 48) (s : State) : Out := .next (s.syllable i 3 (match which with | .clz => 0x18 | .ctz => 0x19 | .popc => 0x1A) f)
/-- `li` (R73). -/
def execLi (i : Issue) (f : BitVec 48) (s : State) : Out := .next (s.syllable i 3 (0x60) f)
/-- `lih` (R73). -/
def execLih (i : Issue) (f : BitVec 48) (s : State) : Out := .next (s.syllable i 3 (0x61) f)
/-- `cmp` and its immediate forms (R73). -/
def execCmp (i : Issue) (rel : Rel) (imm : Bool) (f : BitVec 48) (s : State) : Out := .next (s.syllable i 3 (relCode rel + if imm then 0xC0 else 0x80) f)
/-- `pand`, `por`, `pxor`, `pandn` (R73). -/
def execPredLogic (i : Issue) (op : PredOp) (f : BitVec 48) (s : State) : Out := .next (s.syllable i 3 (match op with | .pand => 0x90 | .por => 0x91 | .pxor => 0x92 | .pandn => 0x93) f)
/-- `pfroms` (R73). -/
def execPfroms (i : Issue) (f : BitVec 48) (s : State) : Out := .next (s.syllable i 3 (0x94) f)
/-- `ptos` (R73). -/
def execPtos (i : Issue) (f : BitVec 48) (s : State) : Out := .next (s.syllable i 3 (0x95) f)
/-- `pfirst` (R73). -/
def execPfirst (i : Issue) (f : BitVec 48) (s : State) : Out := .next (s.syllable i 3 (0x96) f)
/-- `csrr` (R75). -/
def execCsrr (i : Issue) (f : BitVec 48) (s : State) : Out := .next (s.syllable i 3 (0xF0) f)
/-- `csrw` (R75). -/
def execCsrw (i : Issue) (f : BitVec 48) (s : State) : Out := .next (s.syllable i 3 (0xF1) f)

end Sys2Proof.Machine
end

