-- ==== Sys2Proof/Machine/VectorFamily.lean ====
section
/-!
DEFINITION. The vector instructions (Table 3-8).
-/

namespace Sys2Proof.Machine

/-- `vadd`, `vsub`, `vmul` (R82). -/
def execVaddVsubVmul (i : Issue) (op : VArith) (f : BitVec 48) (s : State) : Out := .next (s.syllable i 5 (match op with | .add => 0x01 | .sub => 0x02 | .mul => 0x03) f)
/-- `vfma` (R80). -/
def execVfma (i : Issue) (f : BitVec 48) (s : State) : Out := .next (s.syllable i 5 (0x04) f)
/-- `vmin`, `vmax` (R80). -/
def execVminVmax (i : Issue) (max : Bool) (f : BitVec 48) (s : State) : Out := .next (s.syllable i 5 (if max then 6 else 5) f)
/-- `vabs`, `vneg` (R82). -/
def execVabsVneg (i : Issue) (neg : Bool) (f : BitVec 48) (s : State) : Out := .next (s.syllable i 5 (if neg then 8 else 7) f)
/-- `vrcp`, `vrsqrt` (R82). -/
def execVrcpVrsqrt (i : Issue) (rsqrt : Bool) (f : BitVec 48) (s : State) : Out := .next (s.syllable i 5 (if rsqrt then 0x0A else 0x09) f)
/-- `vand`, `vor`, `vxor` (R82). -/
def execVandVorVxor (i : Issue) (op : VLogic) (f : BitVec 48) (s : State) : Out := .next (s.syllable i 5 (match op with | .and => 0x10 | .or => 0x11 | .xor => 0x12) f)
/-- `vshl`, `vshr`, `vsra` (R82). -/
def execVshlVshrVsra (i : Issue) (op : VShift) (f : BitVec 48) (s : State) : Out := .next (s.syllable i 5 (match op with | .shl => 0x13 | .shr => 0x14 | .sra => 0x15) f)
/-- `vcmp` (R82). -/
def execVcmp (i : Issue) (rel : VRel) (f : BitVec 48) (s : State) : Out := .next (s.syllable i 5 (match rel with | .eq => 0x20 | .lt => 0x21 | .le => 0x22) f)
/-- `vsel` (R82). -/
def execVsel (i : Issue) (f : BitVec 48) (s : State) : Out := .next (s.syllable i 5 (0x23) f)
/-- `vbcast` (R82). -/
def execVbcast (i : Issue) (f : BitVec 48) (s : State) : Out := .next (s.syllable i 5 (0x30) f)
/-- `vext` (R82). -/
def execVext (i : Issue) (f : BitVec 48) (s : State) : Out := .next (s.syllable i 5 (0x31) f)
/-- `vins` (R82). -/
def execVins (i : Issue) (f : BitVec 48) (s : State) : Out := .next (s.syllable i 5 (0x32) f)
/-- `vperm` (R82). -/
def execVperm (i : Issue) (f : BitVec 48) (s : State) : Out := .next (s.syllable i 5 (0x33) f)
/-- `vidx` (R82). -/
def execVidx (i : Issue) (f : BitVec 48) (s : State) : Out := .next (s.syllable i 5 (0x34) f)
/-- `vcvt` (R83). -/
def execVcvt (i : Issue) (f : BitVec 48) (s : State) : Out := .next (s.syllable i 5 (0x40) f)
/-- `vpack` (R82). -/
def execVpack (i : Issue) (f : BitVec 48) (s : State) : Out := .next (s.syllable i 5 (0x41) f)
/-- `vunpack` (R82). -/
def execVunpack (i : Issue) (f : BitVec 48) (s : State) : Out := .next (s.syllable i 5 (0x42) f)
/-- `vred` (R84). -/
def execVred (i : Issue) (op : RedOp) (f : BitVec 48) (s : State) : Out := .next (s.syllable i 5 (match op with | .add => 0x50 | .max => 0x51 | .min => 0x52) f)
/-- `setvl` (R31). -/
def execSetvl (i : Issue) (f : BitVec 48) (s : State) : Out := .next (s.syllable i 5 (0x70) f)
/-- `vgth` (R85). -/
def execVgth (i : Issue) (f : BitVec 48) (s : State) : Out := .next (s.syllable i 5 (0x60) f)
/-- `vsct` (R85). -/
def execVsct (i : Issue) (f : BitVec 48) (s : State) : Out := .next (s.syllable i 5 (0x61) f)
/-- `vredn` (R84). -/
def execVredn (i : Issue) (f : BitVec 48) (s : State) : Out := .next (s.syllable i 5 (0x62) f)
/-- `vsort` (R85). -/
def execVsort (i : Issue) (f : BitVec 48) (s : State) : Out := .next (s.syllable i 5 (0x63) f)
/-- `vsorti` (R85). -/
def execVsorti (i : Issue) (f : BitVec 48) (s : State) : Out := .next (s.syllable i 5 (0x64) f)

end Sys2Proof.Machine
end

