-- ==== Sys2Proof/Machine/Writes.lean ====
section
/-!
DEFINITION. Writes of registers (R12, R14, R356–R361): each register's fields by their access type, and the Bursen WRITE that carries them
(R219, R223).
-/

namespace Sys2Proof.Machine

/-- Bits of a written word. -/
def vbit (v : W32) (k : Nat) : Bool := v.getLsbD k
def vfld (v : W32) (lo n : Nat) : Nat := fld v.toNat lo n

/-- A field of a secure register or claimed output that is written with a value its table reserves: R14 gives undefined results, and R15
lets them alter no such register, so the field keeps what it held (log entry 165). -/
def keepField (ok : Bool) (val old : Nat) : Nat := if ok then val else old

/-! ### Movers, expanders, ports, queues, cadences -/

/-- MOV_CTRL (Table 7-7). -/
def State.movCtrl (s : State) (b m : Nat) (v : W32) : State :=
  let s := s.setMover b m { s.mover b m with ctx := BitVec.ofNat 4 (vfld v 16 4), granted := vbit v 0 }
  let s := if vbit v 29 then (if (s.mover b m).suspend then s else s.moverHold b m)
    else if (s.mover b m).suspend then s.moverResume b m else s
  let s := if vbit v 31 then
      let s := if s.top.st = .faulted then s else s.moverOn b m
      if (s.mover b m).en then s.setMover b m { s.mover b m with drain := vbit v 30 } else s
    else s.moverOff b m (vbit v 30) 0
  if vbit v 28 && vbit v 27 then s
  else if vbit v 28 then s.moverRestart b m
  else if vbit v 27 then s.abandon b m
  else s

/-- EXP_CTRL (Table 7-12). -/
def State.expCtrl (s : State) (x : Nat) (v : W32) : State :=
  if vbit v 31 then
    let s := if s.top.st = .faulted then s else s.expanderOn x
    if (s.expander x).en then s.setExpander x { s.expander x with drain := vbit v 30 } else s
  else s.expanderOff x (vbit v 30)

/-- GZ_PORT_CTRL (Table 8-4). -/
def State.portCtrl (s : State) (n : Nat) (v : W32) : State :=
  let s := if vbit v 31 then
      let s := s.portOn n (vbit v 28)
      if (s.port n).en then s.setPort n { s.port n with drain := vbit v 30 } else s
    else
      let s := s.portOff n (vbit v 30)
      s.setPort n { s.port n with timing := vbit v 28 }
  if vbit v 29 then s.retrain n else s

/-- Counts of a port (Tables 8-5 and 9-2). -/
def State.portCounts (s : State) (n : Nat) (v : W32) : State :=
  s.setPort n { s.port n with retries := BitVec.ofNat 8 (vfld v 8 8), uncorrected := BitVec.ofNat 8 (vfld v 0 8) }

/-- GZ_DOM_STATE (Table 8-9); the upper bits of the full epoch stay. -/
def State.domState (s : State) (v : W32) : State :=
  { s with gz := { s.gz with
    joined := vbit v 31, coord := vbit v 30, me := BitVec.ofNat 6 (vfld v 24 6)
    epoch := (s.gz.epoch &&& 0xFF000000) ||| BitVec.ofNat 32 (vfld v 0 24) } }

/-- GZ_FQ_CTRL (Table 8-10). -/
def State.fqCtrl (s : State) (b q : Nat) (v : W32) : State :=
  let n := vfld v 21 4
  let size := keepField (decide (4 ≤ n) && decide (n ≤ 12)) n (s.fqueue b q).size.toNat
  let s := s.setFqueue b q { s.fqueue b q with
    granted := vbit v 29, ctx := BitVec.ofNat 4 (vfld v 25 4), size := BitVec.ofNat 4 size
    mover := BitVec.ofNat 5 (vfld v 16 5), doorbell := BitVec.ofNat 8 (vfld v 8 8), cad := vbit v 7, cadence := BitVec.ofNat 6 (vfld v 1 6) }
  if vbit v 31 then
    let s := s.fqOn b q
    if (s.fqueue b q).en then s.setFqueue b q { s.fqueue b q with drain := vbit v 30 } else s
  else s.fqOff b q (vbit v 30)

/-- CAD_CTRL (Table 11-5). A one written to EN of a cadence that is not armed is held, and arms nothing: only `CADENCE_ARM` gives a start (R264;
log entry 189). -/
def State.cadCtrl (s : State) (k : Nat) (v : W32) : State :=
  let s := s.setCad k { s.cad k with ctx := BitVec.ofNat 4 (vfld v 26 4) }
  if vbit v 31 then
    if (s.cad k).en || decide ((s.cad k).st = .disarmed) then s.setCad k { s.cad k with en := true, drain := vbit v 30 } else s
  else s.cadOff k (vbit v 30) 1 1

/-! ### Power and reservoir -/

/-- GOV_CTRL (Table 13-8). -/
def State.govCtrl (s : State) (v : W32) : State :=
  let ok (n : Nat) : Bool := decide (1 ≤ n) && decide (n ≤ 16)
  { s with pow := { s.pow with
    up := keepField (ok (vfld v 27 5)) (vfld v 27 5) s.pow.up, down := keepField (ok (vfld v 22 5)) (vfld v 22 5) s.pow.down
    staggerEn := vbit v 21 } }

/-- GOV_ALERT (Table 13-16): bits cleared by ones, the counts as written, then FW_FORCE, then CLEAR. -/
def State.govAlert (s : State) (v : W32) : State :=
  let p := s.pow
  let s := { s with pow := { p with
    source := p.source &&& ~~~ (BitVec.ofNat 13 (vfld v 16 13)), thermal := p.thermal && !vbit v 15, firmware := p.firmware && !vbit v 14
    clearRefused := BitVec.ofNat 6 (vfld v 8 6), floorCount := BitVec.ofNat 8 (vfld v 0 8) } }
  let s := if vbit v 30 then s.setForce 0
    else { s with pow := { s.pow with fwForce := false }, gvn := { s.gvn with forcedBy := [] } }
  if vbit v 29 then s.clearFloor else s

/-- GOV_ENV_STORED (Table 13-12): a value that breaks the checks of R231 is ignored. -/
def State.storeEnvelope (s : State) (e : Envelope) : State :=
  if envelopeOk e then { s with pow := { s.pow with stored := e } } else s

/-- Block GOV. -/
def State.govWrite (s : State) (o : Nat) (v : W32) (p : Path) : State :=
  match o with
  | 0x00 => s.claimed p fun s => s.govCtrl v
  | 0x10 => s.claimed p fun s => { s with pow := { s.pow with next := min 256 (vfld v 14 9), paceArmed := vbit v 13 } }
  | 0x14 => s.claimed p fun s => { s with pow := { s.pow with paceAt := v } }
  | 0x20 => s.claimed p fun s => s.govAlert v
  | 0x30 => s.secured p fun s => s.storeEnvelope { s.pow.stored with floor := vfld v 16 16, ceiling := vfld v 0 16 }
  | 0x34 => s.secured p fun s => s.storeEnvelope { s.pow.stored with slope := v.toNat }
  | _ =>
    let t := (o - 0x1000) / 4
    s.claimed p fun s => s.setGov t { s.gov t with ceil := min 256 (vfld v 23 9), ballast := min 256 (vfld v 14 9) }

/-- RES_CTRL (Table 14-10). -/
def State.resCtrl (s : State) (v : W32) : State :=
  let ms := keepField (decide (5 ≤ vfld v 20 8) && decide (vfld v 20 8 ≤ 100)) (vfld v 20 8) s.res.sweepMs
  let us := keepField (decide (100 ≤ vfld v 9 11) && decide (vfld v 9 11 ≤ 2000)) (vfld v 9 11) s.res.settleUs
  ({ s with res := { s.res with bleedEn := vbit v 30, sweepMs := ms, settleUs := us } } : State).setConv (vbit v 31)

/-- Block RES. -/
def State.resWrite (s : State) (o : Nat) (v : W32) (p : Path) : State :=
  match o with
  | 0x00 => s.claimed p fun s => s.resCtrl v
  | 0x04 => s.claimed p fun s => ({ s with res := { s.res with pinTarget := vfld v 0 16 } } : State).convUpdate
  | 0x08 => s.claimed p fun s =>
      ({ s with res := { s.res with chgLim := min 4000 (vfld v 16 16), disLim := min 4000 (vfld v 0 16) } } : State).convUpdate
  | 0x10 => { s with res := { s.res with splits := BitVec.ofNat 8 (vfld v 8 8), learnDq := BitVec.ofNat 8 (vfld v 0 8) } }
  | _ => s

/-! ### Translation -/

/-- Block MMU. -/
def State.mmuWrite (s : State) (o : Nat) (v : W32) : State :=
  if o = 0x10 then (if s.mmu.invCtrl.getLsbD 31 then s else { s with mmu := { s.mmu with invVa := v } })
  else if o = 0x14 then s.invWrite v
  else if o < 0x60 then (if o % 8 = 0 then s else s.moveGet ((o - 0x40) / 8) (v.setWidth 11))
  else if o < 0xC0 then { s with mmu := { s.mmu with ctx := Tab.put 0 s.mmu.ctx ((o - 0x80) / 4) (v &&& 0xC0000FFF) } }
  else { s with mmu := { s.mmu with root := Tab.put 0 s.mmu.root ((o - 0x100) / 4) (v &&& 0x1FFFFFFF) } }

/-! ### Trust, errors, claims -/

/-- The policy and its slots take no write while LOCK is 1. -/
def State.policyWrite (s : State) (v : W32) : State :=
  if s.trust.lock then s
  else { s with trust := { s.trust with
    lock := vbit v 31, requireSigned := vbit v 30, keyValid := BitVec.ofNat 4 (vfld v 26 4), unsignedPriv := BitVec.ofNat 3 (vfld v 0 3) } }

/-- A slot takes writes while it is not valid. -/
def State.slotOpen (s : State) (k : Nat) : Bool := !s.trust.lock && !s.trust.keyValid.getLsbD k

/-- Block TRUST. The staging window and TRUST_FW_CTRL take writes in HELD, while no verification runs (R286). -/
def State.trustWrite (s : State) (o : Nat) (v : W32) (p : Path) : State :=
  let held := decide (s.top.st = .held) && decide (s.trust.result ≠ 1)
  if o = 0 then s.secured p fun s =>
    if !held then s
    else if vbit v 31 then s.verify (BitVec.ofNat 22 (vfld v 0 22))
    else { s with trust := { s.trust with length := BitVec.ofNat 22 (vfld v 0 22) } }
  else if o = 4 then { s with trust := { s.trust with attempts := BitVec.ofNat 8 (vfld v 8 8) } }
  else if o = 0x20 then s.secured p fun s => s.policyWrite v
  else if o < 0x200 then s.secured p fun s =>
    if s.slotOpen ((o - 0x100) / 64) then { s with trust := { s.trust with keys := Tab.put 0 s.trust.keys ((o - 0x100) / 4) v } } else s
  else if o < 0x210 then s.secured p fun s =>
    let k := (o - 0x200) / 4
    if s.slotOpen k then { s with trust := { s.trust with keyPriv := Tab.put 0 s.trust.keyPriv k (BitVec.ofNat 3 (vfld v 0 3)) } } else s
  else if held && pathSecure p then { s with trust := { s.trust with window := Tab.writeN 0 s.trust.window (o - 0x100000) (toLe 4 v.toNat) } }
  else s

/-- Block ERR (Tables 16-4 to 16-8). -/
def State.errWrite (s : State) (o : Nat) (v : W32) : State :=
  match o with
  | 0x04 => s.getWrite v
  | 0x08 => { s with err := { s.err with lost := BitVec.ofNat 16 (vfld v 16 16), retireGen := BitVec.ofNat 8 (vfld v 8 8) } }
  | 0x0C => { s with err := { s.err with supp := v } }
  | 0x10 => { s with err := { s.err with notifyEn := vbit v 31, minSev := BitVec.ofNat 2 (vfld v 29 2), vector := BitVec.ofNat 16 (vfld v 0 16) } }
  | _ => s

/-- Block CLM (Tables 15-2 to 15-6). -/
def State.clmWrite (s : State) (o : Nat) (v : W32) (p : Path) : State :=
  match o with
  | 0x00 => s.claimLo false v p
  | 0x04 => s.claimHi false v p
  | 0x08 => s.claimLo true v p
  | 0x0C => s.claimHi true v p
  | 0x10 => { s with clm := { s.clm with
      hbRefused := BitVec.ofNat 6 (vfld v 24 6), switches := BitVec.ofNat 8 (vfld v 16 8)
      claimRefused := BitVec.ofNat 8 (vfld v 8 8), outputRefused := BitVec.ofNat 8 (vfld v 0 8) } }
  | 0x20 => s.heartbeat false v p
  | 0x24 => s.heartbeat true v p
  | 0x30 => { s with clm := { s.clm with
      secureDenied := BitVec.ofNat 16 (vfld v 16 16), windowDenied := BitVec.ofNat 16 (vfld v 0 16) } }
  | _ => s

/-! ### Tiles (R365, R366) -/

/-- TILE_CTRL: SOFT beside the highest-ranked of the other actions. -/
def State.tileCtrl (s : State) (t : Nat) (v : W32) : State :=
  let s := if vbit v 29 then s.resetTile t
    else if vbit v 26 then s.retireNow t
    else if vbit v 31 then s.stopTile t
    else if vbit v 28 then s.restoreTile t
    else if vbit v 30 then s.startTile t
    else s
  if vbit v 27 then s.softTile t else s

/-- One half of a tile system register, while the tile is RESET, HALTED or STOPPED. -/
def State.tileSysWrite (s : State) (t o : Nat) (v : W32) : State :=
  let x := s.tile t
  let n := o / 8
  if x.st = .running ∨ x.st = .retired then s
  else
    let old : W64 := if n = 8 then 0 else csrValue s.clk.gt s.clk.tileCycles t x n
    let w : W64 := if o % 8 = 0 then (old.extractLsb' 32 32) ++ v else v ++ (old.extractLsb' 0 32)
    if n = 0xF then s.setTile t { x with sys := { x.sys with tctx := w &&& 0xFFFF } }
    else s.setTile t { writeCsr x n w with haz := x.haz }

/-- Block TILE. -/
def State.tileWrite (s : State) (t o : Nat) (v : W32) : State :=
  if o = 0x800 then s.tileCtrl t v else if o < 0x800 then s.tileSysWrite t o v else s

/-! ### Every register -/

/-- Write the register at an offset of a block. A write to a secure register on a non-secure path is counted (R358), one to a claimed output is
judged by R349, and read-only registers ignore theirs. -/
def State.regWrite (s : State) (j o : Nat) (v : W32) (p : Path) : State :=
  let secure (f : State → State) : State := s.secured p f
  let loads (f : State → State) : State := if regSecure j o then s.secured p f else f s
  if (j = 4 ∨ j = 6 ∨ j = 9 ∨ j = 10) ∧ inPairs o then
    let k := (o - 0xF00) / 8
    if o % 8 = 0 then s.ixaWrite j k v p else s.ixdPost j k v p
  else match j with
  | 0 => if o = 0 then { s with top := { s.top with transitions := BitVec.ofNat 8 (vfld v 24 8) } } else s
  | 1 => { s with clk := { s.clk with switches := BitVec.ofNat 8 (vfld v 8 8), unlocks := BitVec.ofNat 8 (vfld v 0 8) } }
  | 2 => if o = 8 then { s with clk := { s.clk with loads := BitVec.ofNat 8 (vfld v 16 8) } } else s
  | 3 => s.govWrite o v p
  | 4 => if o < 0xD0 ∧ o % 16 = 0 then s.claimed p fun s => s.railTgtWrite (o / 16) v else loads id
  | 5 => s.resWrite o v p
  | 7 => secure fun s => s.mmuWrite o v
  | 8 =>
    let b := o / 0x200
    let m := o / 16 % 32
    if o % 16 = 0 then secure fun s => s.movCtrl b m v
    else if o % 16 = 4 then s.setMover b m { s.mover b m with completed := BitVec.ofNat 16 (vfld v 0 16) }
    else s
  | 9 =>
    let x := o / 16
    if 0x180 ≤ o then s
    else if o % 16 = 0 then secure fun s => s.expCtrl x v
    else s.setExpander x { s.expander x with errors := BitVec.ofNat 8 (vfld v 16 8), blocks := BitVec.ofNat 16 (vfld v 0 16) }
  | 10 =>
    let b := (o - 0x800) / 0x100
    let q := o / 16 % 16
    if o < 0x200 then (if o % 16 = 0 then s.claimed p fun s => s.portCtrl (o / 16) v else s.portCounts (o / 16) v)
    else if o = 0x400 then secure fun s => { s with gz := { s.gz with domain := v } }
    else if o = 0x404 then secure fun s => s.domState v
    else if o % 16 = 0 then secure fun s => s.fqCtrl b q v
    else if o % 16 = 4 then secure fun s => s.setFqueue b q { s.fqueue b q with base := v }
    else s
  | 11 =>
    let s := s.portCounts 32 v
    { s with cmd := { s.cmd with snoopTimeouts := BitVec.ofNat 8 (vfld v 16 8) } }
  | 13 =>
    let k := o / 16
    if o % 16 = 0 then secure fun s => s.cadCtrl k v
    else s.setCad k { s.cad k with lost := BitVec.ofNat 5 (vfld v 24 5), expired := BitVec.ofNat 8 (vfld v 16 8) }
  | 14 => s.errWrite o v
  | 15 => s.trustWrite o v p
  | 16 => s.clmWrite o v p
  | 17 => secure fun s => s.tileWrite (o / 0x1000) (o % 0x1000) v
  | _ => s

/-- A write at an offset of CSR space: where no register stands it is ignored (R359). -/
def State.csrWrite (s : State) (off : Nat) (v : W32) (p : Path) : State :=
  let j := off / 0x1000000
  let o := alignDown (off % 0x1000000) 4
  if regHere j o then s.regWrite j o v p else s

/-- A write of a register at its physical address. -/
def State.writeRegister (s : State) (addr : Nat) (v : W32) (p : Path) : State :=
  match targetOf addr with
  | .csr off => s.via p fun s => s.csrWrite off v p
  | _ => s

/-! ### The Bursen WRITE -/

/-- The registers whose four bytes a write carries whole, in rising order (R356). -/
def wholeWords (a n : Nat) : List Nat := (List.range (n / 4 + 1)).filterMap fun k =>
  let w := (a + 3) / 4 * 4 + 4 * k
  if w + 4 ≤ a + n then some w else none

/-- WRITE at the line's home: registers, the host-visible region, or host memory. -/
def State.bursenWrite (s : State) (a : Nat) (l : List Byte) (secure : Bool) : State :=
  let p : Path := if secure then .bursenSecure else .bursen
  if !s.linkUp || decide (s.top.st = .off) then s
  else match targetOf a with
    | .csr _ => forAll (wholeWords a l.length) s fun s w =>
        s.writeRegister w (BitVec.ofNat 32 (ofLe ((l.drop (w - a)).take 4))) p
    | .host h => s.hostWrite h l
    | .hbm _ =>
      if s.hostVisible a then
        match s.physWrite a l with
        | .ok s => s
        | .error e => s.reportMem e 8 0
      else s
    | _ => s

/-! ### The commands -/

/-- WRITE (R219). -/
def execWrite (addr : Nat) (data : List Byte) (secure : Bool) (s : State) : Out := moved s (s.bursenWrite addr data secure)
/-- A write of a register (R356). -/
def execRegisterWrite (addr : Nat) (v : W32) (p : Path) (s : State) : Out := moved s (s.writeRegister addr v p)

end Sys2Proof.Machine
end

