-- ==== Sys2Proof/Machine/Dispatch.lean ====
section
/-!
DEFINITION. One arm per command: each calls the meaning of that command.
-/

namespace Sys2Proof.Machine

/-- The effect of a command on everything but the queue. -/
def exec (i : Instr) (s : State) : Host.Outcome State Fault Refusal :=
  match i with
  | .br is f => Sys2Proof.Machine.execBr is f s
  | .call is f => Sys2Proof.Machine.execCall is f s
  | .jr is f => Sys2Proof.Machine.execJr is f s
  | .callr is f => Sys2Proof.Machine.execCallr is f s
  | .sys is f => Sys2Proof.Machine.execSys is f s
  | .brk is f => Sys2Proof.Machine.execBrk is f s
  | .tret is f => Sys2Proof.Machine.execTret is f s
  | .wfi is f => Sys2Proof.Machine.execWfi is f s
  | .halt is f => Sys2Proof.Machine.execHalt is f s
  | .fenceI is f => Sys2Proof.Machine.execFenceI is f s
  | .add is imm f => Sys2Proof.Machine.execAdd is imm f s
  | .sub is f => Sys2Proof.Machine.execSub is f s
  | .mul is imm f => Sys2Proof.Machine.execMul is imm f s
  | .mulh is unsigned f => Sys2Proof.Machine.execMulh is unsigned f s
  | .div is unsigned f => Sys2Proof.Machine.execDiv is unsigned f s
  | .rem is unsigned f => Sys2Proof.Machine.execRem is unsigned f s
  | .and is imm f => Sys2Proof.Machine.execAnd is imm f s
  | .or is imm f => Sys2Proof.Machine.execOr is imm f s
  | .xor is imm f => Sys2Proof.Machine.execXor is imm f s
  | .andn is f => Sys2Proof.Machine.execAndn is f s
  | .shl is imm f => Sys2Proof.Machine.execShl is imm f s
  | .shr is imm f => Sys2Proof.Machine.execShr is imm f s
  | .sra is imm f => Sys2Proof.Machine.execSra is imm f s
  | .minMax is max f => Sys2Proof.Machine.execMinMax is max f s
  | .minuMaxu is max f => Sys2Proof.Machine.execMinuMaxu is max f s
  | .clzCtzPopc is which f => Sys2Proof.Machine.execClzCtzPopc is which f s
  | .li is f => Sys2Proof.Machine.execLi is f s
  | .lih is f => Sys2Proof.Machine.execLih is f s
  | .cmp is rel imm f => Sys2Proof.Machine.execCmp is rel imm f s
  | .predLogic is op f => Sys2Proof.Machine.execPredLogic is op f s
  | .pfroms is f => Sys2Proof.Machine.execPfroms is f s
  | .ptos is f => Sys2Proof.Machine.execPtos is f s
  | .pfirst is f => Sys2Proof.Machine.execPfirst is f s
  | .csrr is f => Sys2Proof.Machine.execCsrr is f s
  | .csrw is f => Sys2Proof.Machine.execCsrw is f s
  | .ldS is k f => Sys2Proof.Machine.execLdS is k f s
  | .ldSv is f => Sys2Proof.Machine.execLdSv is f s
  | .stS is k f => Sys2Proof.Machine.execStS is k f s
  | .stSv is f => Sys2Proof.Machine.execStSv is f s
  | .ldF is k f => Sys2Proof.Machine.execLdF is k f s
  | .ldFv is f => Sys2Proof.Machine.execLdFv is f s
  | .stF is k f => Sys2Proof.Machine.execStF is k f s
  | .stFv is f => Sys2Proof.Machine.execStFv is f s
  | .amo is op f => Sys2Proof.Machine.execAmo is op f s
  | .amoCas is f => Sys2Proof.Machine.execAmoCas is f s
  | .fenceL is f => Sys2Proof.Machine.execFenceL is f s
  | .fenceG is f => Sys2Proof.Machine.execFenceG is f s
  | .farLoadResponse t n x => Sys2Proof.Machine.execFarLoadResponse t n x s
  | .farStoreAck t n x => Sys2Proof.Machine.execFarStoreAck t n x s
  | .vaddVsubVmul is op f => Sys2Proof.Machine.execVaddVsubVmul is op f s
  | .vfma is f => Sys2Proof.Machine.execVfma is f s
  | .vminVmax is max f => Sys2Proof.Machine.execVminVmax is max f s
  | .vabsVneg is neg f => Sys2Proof.Machine.execVabsVneg is neg f s
  | .vrcpVrsqrt is rsqrt f => Sys2Proof.Machine.execVrcpVrsqrt is rsqrt f s
  | .vandVorVxor is op f => Sys2Proof.Machine.execVandVorVxor is op f s
  | .vshlVshrVsra is op f => Sys2Proof.Machine.execVshlVshrVsra is op f s
  | .vcmp is rel f => Sys2Proof.Machine.execVcmp is rel f s
  | .vsel is f => Sys2Proof.Machine.execVsel is f s
  | .vbcast is f => Sys2Proof.Machine.execVbcast is f s
  | .vext is f => Sys2Proof.Machine.execVext is f s
  | .vins is f => Sys2Proof.Machine.execVins is f s
  | .vperm is f => Sys2Proof.Machine.execVperm is f s
  | .vidx is f => Sys2Proof.Machine.execVidx is f s
  | .vcvt is f => Sys2Proof.Machine.execVcvt is f s
  | .vpack is f => Sys2Proof.Machine.execVpack is f s
  | .vunpack is f => Sys2Proof.Machine.execVunpack is f s
  | .vred is op f => Sys2Proof.Machine.execVred is op f s
  | .setvl is f => Sys2Proof.Machine.execSetvl is f s
  | .vgth is f => Sys2Proof.Machine.execVgth is f s
  | .vsct is f => Sys2Proof.Machine.execVsct is f s
  | .vredn is f => Sys2Proof.Machine.execVredn is f s
  | .vsort is f => Sys2Proof.Machine.execVsort is f s
  | .vsorti is f => Sys2Proof.Machine.execVsorti is f s
  | .mmac is f => Sys2Proof.Machine.execMmac is f s
  | .mout is f => Sys2Proof.Machine.execMout is f s
  | .mzero is f => Sys2Proof.Machine.execMzero is f s
  | .mrd is f => Sys2Proof.Machine.execMrd is f s
  | .mwr is f => Sys2Proof.Machine.execMwr is f s
  | .mst is f => Sys2Proof.Machine.execMst is f s
  | .mld is f => Sys2Proof.Machine.execMld is f s
  | .mwait is f => Sys2Proof.Machine.execMwait is f s
  | .mresume is f => Sys2Proof.Machine.execMresume is f s
  | .mabort is f => Sys2Proof.Machine.execMabort is f s
  | .matrixUnitComplete t e => Sys2Proof.Machine.execMatrixUnitComplete t e s
  | .streamBlockArrival t e x => Sys2Proof.Machine.execStreamBlockArrival t e x s
  | .mvq is f => Sys2Proof.Machine.execMvq is f s
  | .barArv is f => Sys2Proof.Machine.execBarArv is f s
  | .barWt is f => Sys2Proof.Machine.execBarWt is f s
  | .barArm is f => Sys2Proof.Machine.execBarArm is f s
  | .barRd is f => Sys2Proof.Machine.execBarRd is f s
  | .cadDone is f => Sys2Proof.Machine.execCadDone is f s
  | .releasePerformed t n => Sys2Proof.Machine.execReleasePerformed t n s
  | .timerMatch t => Sys2Proof.Machine.execTimerMatch t s
  | .trapEntry t fetch => Sys2Proof.Machine.execTrapEntry t fetch s
  | .tileStop t p => Sys2Proof.Machine.execTileStop t p s
  | .saveSequence t => Sys2Proof.Machine.execSaveSequence t s
  | .saveComplete t => Sys2Proof.Machine.execSaveComplete t s
  | .tileStart t p => Sys2Proof.Machine.execTileStart t p s
  | .tileReset t p => Sys2Proof.Machine.execTileReset t p s
  | .tileResetDone t => Sys2Proof.Machine.execTileResetDone t s
  | .tileRestore t p => Sys2Proof.Machine.execTileRestore t p s
  | .restoreComplete t => Sys2Proof.Machine.execRestoreComplete t s
  | .tileSoft t p => Sys2Proof.Machine.execTileSoft t p s
  | .tileRetire t p => Sys2Proof.Machine.execTileRetire t p s
  | .walkComplete b n => Sys2Proof.Machine.execWalkComplete b n s
  | .faultRecordPost b n => Sys2Proof.Machine.execFaultRecordPost b n s
  | .mmuFqGetWrite b v p => Sys2Proof.Machine.execMmuFqGetWrite b v p s
  | .faultQueueScan => Sys2Proof.Machine.execFaultQueueScan s
  | .contextRefusalStop c => Sys2Proof.Machine.execContextRefusalStop c s
  | .demandFillComplete n => Sys2Proof.Machine.execDemandFillComplete n s
  | .mmuInvalidate v p => Sys2Proof.Machine.execMmuInvalidate v p s
  | .invalidationComplete => Sys2Proof.Machine.execInvalidationComplete s
  | .copy b m => Sys2Proof.Machine.execCopy b m s
  | .fill b m => Sys2Proof.Machine.execFill b m s
  | .gather b m => Sys2Proof.Machine.execGather b m s
  | .scatter b m => Sys2Proof.Machine.execScatter b m s
  | .expand b m => Sys2Proof.Machine.execExpand b m s
  | .tableLoad b m => Sys2Proof.Machine.execTableLoad b m s
  | .descriptorComplete b m => Sys2Proof.Machine.execDescriptorComplete b m s
  | .moverSafePoint b m => Sys2Proof.Machine.execMoverSafePoint b m s
  | .moverEnClear b m drain p => Sys2Proof.Machine.execMoverEnClear b m drain p s
  | .moverEnSet b m p => Sys2Proof.Machine.execMoverEnSet b m p s
  | .moverSuspend b m p => Sys2Proof.Machine.execMoverSuspend b m p s
  | .moverUnsuspend b m p => Sys2Proof.Machine.execMoverUnsuspend b m p s
  | .moverRestart b m p => Sys2Proof.Machine.execMoverRestart b m p s
  | .moverAbandon b m p => Sys2Proof.Machine.execMoverAbandon b m p s
  | .movCurLoRead b m => Sys2Proof.Machine.execMovCurLoRead b m s
  | .expanderBlockDone x m => Sys2Proof.Machine.execExpanderBlockDone x m s
  | .expanderEnClear x drain p => Sys2Proof.Machine.execExpanderEnClear x drain p s
  | .expanderEnSet x p => Sys2Proof.Machine.execExpanderEnSet x p s
  | .frameReceive port r => Sys2Proof.Machine.execFrameReceive port r s
  | .linkFailure port => Sys2Proof.Machine.execLinkFailure port s
  | .portTrainingComplete port r => Sys2Proof.Machine.execPortTrainingComplete port r s
  | .portEnClear port drain p => Sys2Proof.Machine.execPortEnClear port drain p s
  | .portEnSet port timing p => Sys2Proof.Machine.execPortEnSet port timing p s
  | .retrain port p => Sys2Proof.Machine.execRetrain port p s
  | .winLoad k => Sys2Proof.Machine.execWinLoad k s
  | .winStore k => Sys2Proof.Machine.execWinStore k s
  | .winAtomic k => Sys2Proof.Machine.execWinAtomic k s
  | .put k => Sys2Proof.Machine.execPut k s
  | .get k => Sys2Proof.Machine.execGet k s
  | .atomic k => Sys2Proof.Machine.execAtomic k s
  | .notify k => Sys2Proof.Machine.execNotify k s
  | .response k => Sys2Proof.Machine.execResponse k s
  | .collData k x => Sys2Proof.Machine.execCollData k x s
  | .member k => Sys2Proof.Machine.execMember k s
  | .timeSync k => Sys2Proof.Machine.execTimeSync k s
  | .pace src lo hi => Sys2Proof.Machine.execPace src lo hi s
  | .heartbeatTimer => Sys2Proof.Machine.execHeartbeatTimer s
  | .peerLostTimeout m => Sys2Proof.Machine.execPeerLostTimeout m s
  | .domainJoinTimeout => Sys2Proof.Machine.execDomainJoinTimeout s
  | .timingPortLost => Sys2Proof.Machine.execTimingPortLost s
  | .outOfSync => Sys2Proof.Machine.execOutOfSync s
  | .gtCorrection add => Sys2Proof.Machine.execGtCorrection add s
  | .fabricDescriptorStart b q => Sys2Proof.Machine.execFabricDescriptorStart b q s
  | .fabricPut b q n => Sys2Proof.Machine.execFabricPut b q n s
  | .fabricGet b q n => Sys2Proof.Machine.execFabricGet b q n s
  | .fabricAtomic b q n => Sys2Proof.Machine.execFabricAtomic b q n s
  | .fabricNotify b q n => Sys2Proof.Machine.execFabricNotify b q n s
  | .barrier b q n => Sys2Proof.Machine.execBarrier b q n s
  | .allReduce b q n => Sys2Proof.Machine.execAllReduce b q n s
  | .reduceScatter b q n => Sys2Proof.Machine.execReduceScatter b q n s
  | .allGather b q n => Sys2Proof.Machine.execAllGather b q n s
  | .fabricDescriptorComplete b q => Sys2Proof.Machine.execFabricDescriptorComplete b q s
  | .fqueueEnClear b q drain p => Sys2Proof.Machine.execFqueueEnClear b q drain p s
  | .fqueueEnSet b q p => Sys2Proof.Machine.execFqueueEnSet b q p s
  | .readShared fromHost line => Sys2Proof.Machine.execReadShared fromHost line s
  | .readOwn fromHost line => Sys2Proof.Machine.execReadOwn fromHost line s
  | .write addr data secure => Sys2Proof.Machine.execWrite addr data secure s
  | .invalidate byHost line => Sys2Proof.Machine.execInvalidate byHost line s
  | .snoopTimeout line => Sys2Proof.Machine.execSnoopTimeout line s
  | .bursenLinkDown => Sys2Proof.Machine.execBursenLinkDown s
  | .bursenLinkUp => Sys2Proof.Machine.execBursenLinkUp s
  | .apertureTimeout x => Sys2Proof.Machine.execApertureTimeout x s
  | .setupCompletion x => Sys2Proof.Machine.execSetupCompletion x s
  | .loadImage x => Sys2Proof.Machine.execLoadImage x s
  | .fitCheck x => Sys2Proof.Machine.execFitCheck x s
  | .start x => Sys2Proof.Machine.execStart x s
  | .stop x => Sys2Proof.Machine.execStop x s
  | .cancel x => Sys2Proof.Machine.execCancel x s
  | .query x => Sys2Proof.Machine.execQuery x s
  | .retire x => Sys2Proof.Machine.execRetire x s
  | .memCopy x => Sys2Proof.Machine.execMemCopy x s
  | .memFill x => Sys2Proof.Machine.execMemFill x s
  | .saveContext x => Sys2Proof.Machine.execSaveContext x s
  | .restoreContext x => Sys2Proof.Machine.execRestoreContext x s
  | .cadenceArm x => Sys2Proof.Machine.execCadenceArm x s
  | .cadenceDisarm x => Sys2Proof.Machine.execCadenceDisarm x s
  | .powerEnvelope x => Sys2Proof.Machine.execPowerEnvelope x s
  | .domainJoin x => Sys2Proof.Machine.execDomainJoin x s
  | .domainLeave x => Sys2Proof.Machine.execDomainLeave x s
  | .reservoirLearn x => Sys2Proof.Machine.execReservoirLearn x s
  | .reservoirRestore x => Sys2Proof.Machine.execReservoirRestore x s
  | .attest x => Sys2Proof.Machine.execAttest x s
  | .drain x => Sys2Proof.Machine.execDrain x s
  | .resetModule x => Sys2Proof.Machine.execResetModule x s
  | .servicePortModuleReset => Sys2Proof.Machine.execServicePortModuleReset s
  | .drainComplete => Sys2Proof.Machine.execDrainComplete s
  | .periodStart k => Sys2Proof.Machine.execPeriodStart k s
  | .deadline k => Sys2Proof.Machine.execDeadline k s
  | .expiryCleanupComplete k => Sys2Proof.Machine.execExpiryCleanupComplete k s
  | .cadenceEnClear k drain p => Sys2Proof.Machine.execCadenceEnClear k drain p s
  | .powerApplied => Sys2Proof.Machine.execPowerApplied s
  | .powerLoss => Sys2Proof.Machine.execPowerLoss s
  | .firstBreakOpen => Sys2Proof.Machine.execFirstBreakOpen s
  | .firstBreakClose => Sys2Proof.Machine.execFirstBreakClose s
  | .withdrawn => Sys2Proof.Machine.execWithdrawn s
  | .converterShutoffTimer => Sys2Proof.Machine.execConverterShutoffTimer s
  | .fwVerify length p => Sys2Proof.Machine.execFwVerify length p s
  | .fwVerifyDone selfA selfB agree => Sys2Proof.Machine.execFwVerifyDone selfA selfB agree s
  | .hbmTrainingComplete failed => Sys2Proof.Machine.execHbmTrainingComplete failed s
  | .bootComplete failedTiles failedPages => Sys2Proof.Machine.execBootComplete failedTiles failedPages s
  | .bootTimeout => Sys2Proof.Machine.execBootTimeout s
  | .pllLockLoss => Sys2Proof.Machine.execPllLockLoss s
  | .timeGtLoRead => Sys2Proof.Machine.execTimeGtLoRead s
  | .setTarget r frame => Sys2Proof.Machine.execSetTarget r frame s
  | .shed r frame => Sys2Proof.Machine.execShed r frame s
  | .unshed r frame => Sys2Proof.Machine.execUnshed r frame s
  | .targetSettled r => Sys2Proof.Machine.execTargetSettled r s
  | .loadStep r => Sys2Proof.Machine.execLoadStep r s
  | .phaseOvercurrent r => Sys2Proof.Machine.execPhaseOvercurrent r s
  | .ack r frame => Sys2Proof.Machine.execAck r frame s
  | .transitionDone r frame => Sys2Proof.Machine.execTransitionDone r frame s
  | .superseded r frame => Sys2Proof.Machine.execSuperseded r frame s
  | .telemetry r frame => Sys2Proof.Machine.execTelemetry r frame s
  | .shedCancelled r frame => Sys2Proof.Machine.execShedCancelled r frame s
  | .nak r frame => Sys2Proof.Machine.execNak r frame s
  | .alert r frame => Sys2Proof.Machine.execAlert r frame s
  | .railResendTimeout r => Sys2Proof.Machine.execRailResendTimeout r s
  | .railTgtGo r v p => Sys2Proof.Machine.execRailTgtGo r v p s
  | .railTgtShed r v p => Sys2Proof.Machine.execRailTgtShed r v p s
  | .railTgtUnshed r v p => Sys2Proof.Machine.execRailTgtUnshed r v p s
  | .railViRead r => Sys2Proof.Machine.execRailViRead r s
  | .junctionSensorReading b n tenths => Sys2Proof.Machine.execJunctionSensorReading b n tenths s
  | .measurementWindow vin pin conv => Sys2Proof.Machine.execMeasurementWindow vin pin conv s
  | .governorWindow => Sys2Proof.Machine.execGovernorWindow s
  | .paceTick => Sys2Proof.Machine.execPaceTick s
  | .controlStepTimeout => Sys2Proof.Machine.execControlStepTimeout s
  | .paceCutoff => Sys2Proof.Machine.execPaceCutoff s
  | .paceApply => Sys2Proof.Machine.execPaceApply s
  | .envelopeTimeout => Sys2Proof.Machine.execEnvelopeTimeout s
  | .busUndervoltage => Sys2Proof.Machine.execBusUndervoltage s
  | .busOvervoltage => Sys2Proof.Machine.execBusOvervoltage s
  | .inputOvercurrent => Sys2Proof.Machine.execInputOvercurrent s
  | .busReturn => Sys2Proof.Machine.execBusReturn s
  | .busStableTimer => Sys2Proof.Machine.execBusStableTimer s
  | .nodeExit => Sys2Proof.Machine.execNodeExit s
  | .heldReserveBoundary => Sys2Proof.Machine.execHeldReserveBoundary s
  | .stackLimit millivolts => Sys2Proof.Machine.execStackLimit millivolts s
  | .fwForce p => Sys2Proof.Machine.execFwForce p s
  | .floorClear p => Sys2Proof.Machine.execFloorClear p s
  | .energyAttribution => Sys2Proof.Machine.execEnergyAttribution s
  | .coefficientRefit => Sys2Proof.Machine.execCoefficientRefit s
  | .sweepTick stack => Sys2Proof.Machine.execSweepTick stack s
  | .ringRead m frame => Sys2Proof.Machine.execRingRead m frame s
  | .ringWrite m frame => Sys2Proof.Machine.execRingWrite m frame s
  | .sample m frame volts temps => Sys2Proof.Machine.execSample m frame volts temps s
  | .pause m frame => Sys2Proof.Machine.execPause m frame s
  | .resume m frame => Sys2Proof.Machine.execResume m frame s
  | .enum m frame fromE1 => Sys2Proof.Machine.execEnum m frame fromE1 s
  | .readblock m frame => Sys2Proof.Machine.execReadblock m frame s
  | .reply frame => Sys2Proof.Machine.execReply frame s
  | .ringAck frame => Sys2Proof.Machine.execRingAck frame s
  | .ringNak frame => Sys2Proof.Machine.execRingNak frame s
  | .ringRequestTimeout => Sys2Proof.Machine.execRingRequestTimeout s
  | .ringBrokenDetect stack => Sys2Proof.Machine.execRingBrokenDetect stack s
  | .enumeration => Sys2Proof.Machine.execEnumeration s
  | .estimatorUpdate => Sys2Proof.Machine.execEstimatorUpdate s
  | .cellUnmeasuredTimeout cell => Sys2Proof.Machine.execCellUnmeasuredTimeout cell s
  | .packInterlockOpen => Sys2Proof.Machine.execPackInterlockOpen s
  | .packInterlockClose => Sys2Proof.Machine.execPackInterlockClose s
  | .clmHbWrite b v p => Sys2Proof.Machine.execClmHbWrite b v p s
  | .clmClaimHiWrite b v p => Sys2Proof.Machine.execClmClaimHiWrite b v p s
  | .clmClaimLoRead b p => Sys2Proof.Machine.execClmClaimLoRead b p s
  | .clusterLost => Sys2Proof.Machine.execClusterLost s
  | .standbyLost => Sys2Proof.Machine.execStandbyLost s
  | .claimWatchdog => Sys2Proof.Machine.execClaimWatchdog s
  | .clusterError b => Sys2Proof.Machine.execClusterError b s
  | .ixaReadStart w pair v p => Sys2Proof.Machine.execIxaReadStart w pair v p s
  | .ixdWrite w pair v p => Sys2Proof.Machine.execIxdWrite w pair v p s
  | .ixdRead w pair p => Sys2Proof.Machine.execIxdRead w pair p s
  | .ixTargetAnswer w pair x => Sys2Proof.Machine.execIxTargetAnswer w pair x s
  | .ixTimeout w pair => Sys2Proof.Machine.execIxTimeout w pair s
  | .errorReport r => Sys2Proof.Machine.execErrorReport r s
  | .rateLimitSecondEnd => Sys2Proof.Machine.execRateLimitSecondEnd s
  | .errLogGetWrite v p => Sys2Proof.Machine.execErrLogGetWrite v p s
  | .patrolScrub addr finding => Sys2Proof.Machine.execPatrolScrub addr finding s
  | .policyLock p => Sys2Proof.Machine.execPolicyLock p s
  | .registerWrite addr v p => Sys2Proof.Machine.execRegisterWrite addr v p s
  | .alignmentCodeword port lane => Sys2Proof.Machine.execAlignmentCodeword port lane s
  | .moverAccessResponse b m x => Sys2Proof.Machine.execMoverAccessResponse b m x s
  | .hbmTemperatureReport h tenths => Sys2Proof.Machine.execHbmTemperatureReport h tenths s
  | .rootPllLock => Sys2Proof.Machine.execRootPllLock s
  | .timeSyncExchange port => Sys2Proof.Machine.execTimeSyncExchange port s
  | .controlRailLoss b => Sys2Proof.Machine.execControlRailLoss b s
  | .monitorLinkSilent m => Sys2Proof.Machine.execMonitorLinkSilent m s

end Sys2Proof.Machine
end

