-- ==== Sys2Proof/Safety.lean ====
section
/-!
DEFINITION. What a safe state is, in the terms claims use: every sparse map of the state in canonical form, and the states in which a
command has nothing standing in its way.
-/

namespace Sys2Proof

/-- The other slots of the bundle hold NOP, and no boundary request falls inside it (R32). -/
def Issue.alone (i : Issue) : Prop := i.rest = [] ∧ i.stopAt = none

end Sys2Proof

namespace Sys2Proof.Machine

/-- The sparse maps of one tile are canonical. -/
structure Tile.Inv (x : Tile) : Prop where
  s : Tab.wf 0 x.s = true
  p : Tab.wf 0 x.p = true
  v : Tab.wf 0 x.v = true
  acc : Tab.wf 0 x.acc = true
  sPoison : Tab.wf none x.sPoison = true
  vPoison : Tab.wf none x.vPoison = true
  eng : Tab.wf {} x.eng = true
  silt : Tab.wf 0 x.silt = true
  siltBad : Tab.wf false x.siltBad = true
  cuts : Tab.wf none x.cuts = true
  events : Tab.wf 0 x.events = true

/-- The tiles are in canonical form, the set of them and each one. -/
structure State.TilesInv (s : State) : Prop where
  tiles : Tab.wf {} s.tiles = true
  tile : ∀ t, (s.tile t).Inv

/-- The memories outside the tiles are in canonical form. -/
structure Mem.Inv (m : Mem) : Prop where
  phys : Tab.wf 0 m.phys = true
  bad : Tab.wf false m.bad = true
  host : Tab.wf 0 m.host = true
  badPages : Tab.wf false m.badPages = true
  modes : Tab.wf none m.modes = true
  cuts : Tab.wf none m.cuts = true
  cutsIn : ∀ a c, Tab.look none m.cuts a = some c → Tab.wf none c.cuts = true

/-- The translation state is in canonical form. -/
structure Mmu.Inv (m : Mmu) : Prop where
  ctx : Tab.wf 0 m.ctx = true
  root : Tab.wf 0 m.root = true
  fqPut : Tab.wf 0 m.fqPut = true
  fqGet : Tab.wf 0 m.fqGet = true
  fqSeq : Tab.wf 0 m.fqSeq = true
  posted : Tab.wf [] m.posted = true
  held : Tab.wf [] m.held = true
  walks : Tab.wf [] m.walks = true
  tlbs : Tab.wf [] m.tlbs = true
  wcache : Tab.wf [] m.wcache = true
  answered : Tab.wf [] m.answered = true

/-- Movers, expanders, table stores and counters are in canonical form. -/
structure Engines.Inv (e : Engines) : Prop where
  mov : Tab.wf {} e.mov = true
  exp : Tab.wf {} e.exp = true
  tables : Tab.wf none e.tables = true
  ctr : Tab.wf 0 e.ctr = true
  ctrGrant : Tab.wf none e.ctrGrant = true

/-- The fabric's maps are in canonical form. -/
structure Gauze.Inv (g : Gauze) : Prop where
  ports : Tab.wf {} g.ports = true
  credits : ∀ p, Tab.wf 0 (Tab.look ({} : Port) g.ports p).creditsUsed = true
  owed : ∀ p, Tab.wf 0 (Tab.look ({} : Port) g.ports p).creditsDue = true
  cutSince : Tab.wf none g.cutSince = true
  routes : Tab.wf 0xFF g.routes = true
  heard : Tab.wf 0 g.heard = true
  e2e : Tab.wf 0 g.e2e = true
  dups : Tab.wf [] g.dups = true
  exportMap : Tab.wf 0 g.exportMap = true
  fq : Tab.wf {} g.fq = true
  collIn : Tab.wf [] g.collIn = true

/-- The governors' maps are in canonical form. -/
structure Govern.Inv (g : Govern) : Prop where
  received : Tab.wf 0 g.received = true
  sentLevel : Tab.wf 0 g.sentLevel = true
  thermalLvl : Tab.wf 256 g.thermalLvl = true
  railLvl : Tab.wf 256 g.railLvl = true
  junction : Tab.wf 0 g.junction = true
  hbmTemp : Tab.wf 0 g.hbmTemp = true
  band : Tab.wf 0 g.band = true
  throttled : Tab.wf false g.throttled = true
  coeff : Tab.wf none g.coeff = true

/-- The reservoir's maps and each cell monitor's are in canonical form. -/
structure Reservoir.Inv (r : Reservoir) : Prop where
  monitors : Tab.wf {} r.monitors = true
  cells : Tab.wf {} r.cells = true
  volts : ∀ m, Tab.wf 0 (Tab.look ({} : Monitor) r.monitors m).volts = true
  temps : ∀ m, Tab.wf 0 (Tab.look ({} : Monitor) r.monitors m).temps = true
  nv : ∀ m, Tab.wf 0 (Tab.look ({} : Monitor) r.monitors m).nv = true

/-- Firmware's records of the reservoir are in canonical form. -/
structure ResFw.Inv (f : ResFw) : Prop where
  gotV : Tab.wf none f.gotV = true
  gotT : Tab.wf none f.gotT = true
  wroteGt : Tab.wf none f.wroteGt = true
  wroteCycles : Tab.wf 0 f.wroteCycles = true
  serials : Tab.wf none f.serials = true
  hostCopy : Tab.wf [] f.hostCopy = true

/-- The staging window and the key slots are in canonical form. -/
structure Trust.Inv (r : Trust) : Prop where
  window : Tab.wf 0 r.window = true
  keys : Tab.wf 0 r.keys = true
  keyPriv : Tab.wf 0 r.keyPriv = true

/-- Handles, host lines, contexts, cadences, windows and clocks are in canonical form. -/
structure State.HostInv (s : State) : Prop where
  slots : Tab.wf {} s.cmd.slots = true
  cache : Tab.wf none s.cmd.cache = true
  hostHeld : Tab.wf none s.cmd.hostHeld = true
  ctxs : Tab.wf {} s.ctxs = true
  answer : ∀ c, Tab.wf none (s.ctx c).answer = true
  cads : Tab.wf {} s.cads = true
  pairs : Tab.wf {} s.pairs = true
  syncs : Tab.wf 0 s.clk.syncs = true
  latches : Tab.wf 0 s.clk.gtHi = true
  portB : Tab.wf 0 s.cmd.portB.creditsUsed = true ∧ Tab.wf 0 s.cmd.portB.creditsDue = true
  gov : Tab.wf {} s.pow.gov = true

/-- The invariant of the machine: every memory and every numbered set of parts is in canonical form, and there are thirteen rails (R293). -/
structure State.Inv (s : State) : Prop where
  tiles : s.TilesInv
  mem : s.mem.Inv
  mmu : s.mmu.Inv
  eng : s.eng.Inv
  gz : s.gz.Inv
  gvn : s.gvn.Inv
  res : s.res.Inv
  rfw : s.rfw.Inv
  trust : s.trust.Inv
  host : s.HostInv
  rails : s.pow.rails.length = 13

/-! ### Bundles of one syllable (R32) -/

/-- A tile at a bundle boundary with nothing pending: RUNNING with no stop latched, no trap or interrupt due, nothing held or outstanding, no
register poisoned, and no hazard of Table 2-4 open; the module is not FAULTED. -/
structure State.Ready (s : State) (t : Nat) : Prop where
  up : s.top.st ≠ .faulted
  issues : (s.tile t).issues = true
  long : (s.tile t).longStop = false
  hold : (s.tile t).hold = .none
  engine : engineTrap (s.tile t) = none
  interrupt : interruptTrap s.clk.gt (s.tile t) = none
  fetch : (s.tile t).fetchFault = none
  walk : (s.tile t).walkFault = none
  far : (s.tile t).far = []
  sPoison : (s.tile t).sPoison = []
  vPoison : (s.tile t).vPoison = []
  vl : (s.tile t).haz.vlOpen = false
  tie : (s.tile t).haz.tieOpen = false
  tfflags : (s.tile t).haz.tfflagsOpen = false
  tvec : (s.tile t).haz.tvecOpen = false
  mseed : (s.tile t).haz.mseedOpen = false

/-- The tile with its bundle past: the program counter at the next bundle, every age one higher (R32). -/
def Tile.past (x : Tile) : Tile := { x with pc := x.pc + 64, hold := .none, haz := x.haz.tick, walkFault := none }

/-- The state after a bundle of tile `t` whose one syllable does `f` to the tile. -/
def State.ran (s : State) (t : Nat) (f : Tile → Tile) : State := s.setTile t (f (s.tile t).past)

/-- The guard of a syllable is on: bit 0 of its predicate (R30). -/
def State.guarded (s : State) (i : Issue) : Prop := ((s.tile i.tile).getP i.guard.toNat).getLsbD 0 = true

/-- Fields of a 48-bit operand field, as Tables 3-2 and 3-3 give them. -/
def opRD (f : BitVec 48) : Nat := (f.extractLsb' 42 6).toNat
def opRA (f : BitVec 48) : Nat := (f.extractLsb' 36 6).toNat
def opRB (f : BitVec 48) : Nat := (f.extractLsb' 30 6).toNat
def opImm (f : BitVec 48) : W64 := (f.extractLsb' 0 32).signExtend 64

/-- A lone syllable in a ready tile of a canonical state. -/
structure State.CanIssue (s : State) (i : Issue) : Prop where
  inv : s.Inv
  ready : s.Ready i.tile
  alone : i.alone

/-- The same in supervisor mode (R45). -/
def State.Supervisor (s : State) (t : Nat) : Prop := (s.tile t).sys.tstatus.getLsbD 0 = true

/-- Fields of format V (Table 3-3). -/
def opVD (f : BitVec 48) : Nat := (f.extractLsb' 43 5).toNat
def opVA (f : BitVec 48) : Nat := (f.extractLsb' 38 5).toNat
def opVB (f : BitVec 48) : Nat := (f.extractLsb' 33 5).toNat
def opVC (f : BitVec 48) : Nat := (f.extractLsb' 28 5).toNat
def opSA (f : BitVec 48) : Nat := (f.extractLsb' 22 6).toNat
def opSB (f : BitVec 48) : Nat := (f.extractLsb' 16 6).toNat
def opET (f : BitVec 48) : Nat := (f.extractLsb' 12 4).toNat
def opMOD (f : BitVec 48) : Nat := (f.extractLsb' 0 12).toNat

/-- Every byte that memory holds outside the tiles reads as before: the module's stores and the host's. -/
def SameMemory (s t : State) : Prop :=
  (∀ a, Tab.look 0 t.mem.phys a = Tab.look 0 s.mem.phys a) ∧ ∀ a, Tab.look 0 t.mem.host a = Tab.look 0 s.mem.host a

/-- Every byte of Silt of a tile reads as before. -/
def SameSilt (x y : Tile) : Prop := ∀ a, Tab.look 0 y.silt a = Tab.look 0 x.silt a

/-- Registers and accumulators read as before but for those that `ex` names. -/
def SameRegs (x y : Tile) (ex : Reg → Prop) : Prop :=
  (∀ n, ¬ ex (.s n) → y.getS n = x.getS n) ∧ (∀ n, ¬ ex (.p n) → y.getP n = x.getP n) ∧ (∀ n, ¬ ex (.v n) → y.getV n = x.getV n)
    ∧ ∀ e k i j, y.getAcc e k i j = x.getAcc e k i j

/-- Every tile but one is as before. -/
def SameTiles (s t : State) (n : Nat) : Prop := ∀ m, m ≠ n → t.tile m = s.tile m

/-- What a bundle of one syllable leaves of everything but the registers `ex` names: the program counter is at the next bundle; Silt, memory and the
other tiles are as before. -/
def PastBundle (s t : State) (n : Nat) (ex : Reg → Prop) : Prop :=
  (t.tile n).pc = (s.tile n).pc + 64 ∧ SameRegs (s.tile n) (t.tile n) ex ∧ SameSilt (s.tile n) (t.tile n) ∧ SameMemory s t ∧ SameTiles s t n

/-- Lane `l` of a vector syllable is enabled: below VL and its guard bit set (R30, R31). -/
def State.lane (s : State) (i : Issue) (l : Nat) : Prop :=
  l < (s.tile i.tile).vlen ∧ ((s.tile i.tile).getP i.guard.toNat).getLsbD l = true

/-- The command answers a state in which the enabled lanes of vD, of width `w`, hold `val` and all else of the registers and memory is as before. -/
def LanesGive (s : State) (i : Issue) (vd : Nat) (w : Nat) (val : Nat → Nat) (c : Instr) : Prop :=
  ∃ t, exec c s = .next t ∧ PastBundle s t i.tile (· = .v vd)
    ∧ ∀ l, l < 2048 / w →
      (s.lane i l → laneOf w ((t.tile i.tile).getV vd) l = val l)
      ∧ (¬ s.lane i l → laneOf w ((t.tile i.tile).getV vd) l = laneOf w ((s.tile i.tile).getV vd) l)

/-- No context waits for anything to end: none is being saved, restored, stopped or reset; a RUNNING one runs a START that another tile than `t`
keeps from ending (R230, R243); and a RUNNING module has a started context (Table 1-7). -/
structure State.Calm (s : State) (t : Nat) : Prop where
  save : ∀ c, (s.ctx c).saveSlot = none
  stop : ∀ c, (s.ctx c).stopping = false ∧ (s.ctx c).stopDue = false
  reset : ∀ c, (s.ctx c).ending = none ∧ (s.ctx c).due = none
  run : ∀ c, (s.ctx c).st = .running → (s.ctx c).startSlot.isSome = true ∧ ∃ u ∈ (s.ctx c).startTiles, u ≠ t ∧ (s.tile u).st ≠ .halted
  top : s.top.st = .running → ∃ c, (s.ctx c).started = true

/-- The physical address lies in the module's own memory, in a stack that is up or in Loam (R124, R408). -/
def State.here (s : State) (pa : Nat) : Prop := (∃ k, targetOf pa = .hbm k ∧ s.stackUp k = true) ∨ ∃ b, targetOf pa = .loam b

/-- Nothing waits to finish anywhere, no load is in progress, no byte of memory is marked uncorrectable, and the host holds no line of the
module's memory. -/
structure State.Still (s : State) : Prop where
  calm : s.Calm 1024
  loads : ∀ c, (s.ctx c).load = none
  bad : s.mem.bad = []
  held : s.cmd.hostHeld = []

/-- A packet that `s` sends is, in `t`, at this module's own receiver, on the port of its route, or waiting for a route (R198, R199). -/
def State.Sent (s t : State) (k : Packet) : Prop :=
  let r := s.routeOf k.dst k.flow
  if s.gz.joined = true ∧ k.dst = s.gz.me then k ∈ t.gz.arrived
  else if r < 32 ∧ (s.port r).carries = true ∧ s.frozen k = false then k ∈ (t.port r).holds else k ∈ t.gz.sent

/-- An exchange passes the first three checks (R27, R229): the link is up, firmware takes lines, the state accepts the opcode, a completion area is
there where one is needed, no reserved bit is set, and a secure-only command is secure. -/
structure State.Passes (s : State) (op : Nat) (x : Exchange) (masks : List Nat) (secureOnly : Bool) : Prop where
  up : s.cmd.link = .up
  fw : s.fwRuns = true
  accepts : s.accepts op = true
  code : lineOpcode op x = op
  area : s.cmd.areaValid = true
  fields : fieldsClear x masks = true
  secure : secureOnly = true → x.secure = true

/-- The response to an exchange that `s` evaluates (Table 9-4). -/
def State.Replied (s t : State) (result detail info : Nat) (now : Bool := false) : Prop :=
  t.cmd.resp = some { detail := BitVec.ofNat 16 detail, immediate := now, result := BitVec.ofNat 8 result, info := BitVec.ofNat 16 info
                      state := BitVec.ofNat 3 s.top.st.code, gtLow := s.clk.gt.setWidth 32 }

/-- The exchange is accepted: slot `n`, of the next generation, is taken for it, and the response carries its handle (R228, R236). -/
def State.Accepted (s t : State) (op n : Nat) (x : Exchange) : Prop :=
  let v := t.slotOf n
  v.gen = (s.slotOf n).gen + 1 ∧ v.opcode = BitVec.ofNat 8 op ∧ v.tag = x.tag ∧ v.intr = x.flags.getLsbD 8 ∧ v.gtAccept = s.clk.gt.setWidth 32
    ∧ t.cmd.lastSlot = n
    ∧ t.cmd.resp = some { handle := BitVec.ofNat 32 (((s.slotOf n).gen + 1).toNat * 4096 + n), state := BitVec.ofNat 3 s.top.st.code
                          gtLow := s.clk.gt.setWidth 32 }

/-- The handle of slot `n` has completed now (Tables 9-8, 9-9). -/
def State.Completed (s t : State) (n status detail : Nat) (result : List W64) : Prop :=
  let v := t.slotOf n
  v.st = .complete ∧ v.record = [BitVec.ofNat 64 (detail * 2 ^ 48 + v.opcode.toNat * 2 ^ 40 + status * 2 ^ 32 + v.gen.toNat * 4096 + n), v.tag,
    BitVec.ofNat 64 (s.clk.gt.toNat % 2 ^ 32 * 2 ^ 32 + v.gtAccept.toNat)] ++ (result ++ List.replicate 5 0).take 5

end Sys2Proof.Machine
end

