-- ==== Sys2Proof/Certificates/Slice0/Obligations.lean ====
section
/-!
DEFINITION. What is claimed of the model: the rules of the spec that say what a command or the machine does.
-/

open Sys2Proof Sys2Proof.Machine

/-! ### The scalar instructions (R73–R75) -/

/-- R73, Table 3-5: the register forms with a scalar result. Alone in a bundle of a ready tile, each writes its value to sD and lets the tile
go on to the next bundle; nothing else changes. A write to s0 is discarded by `setS`. -/
def Claims.ScalarRegisterResults : Prop :=
  ∀ (s : State) (i : Issue) (f : BitVec 48), s.CanIssue i → s.guarded i → (i.slot = 1 ∨ i.slot = 2) → f.extractLsb' 0 30 = 0 →
    let a := (s.tile i.tile).getS (opRA f)
    let b := (s.tile i.tile).getS (opRB f)
    let n := b.toNat % 64
    let gives (c : Instr) (v : W64) : Prop := exec c s = .next (s.ran i.tile fun y => y.setS (opRD f) v)
    gives (.add i false f) (a + b) ∧ gives (.sub i f) (a - b) ∧ gives (.mul i false f) (a * b)
      ∧ gives (.mulh i false f) ((a.signExtend 128 * b.signExtend 128).extractLsb' 64 64)
      ∧ gives (.mulh i true f) ((a.zeroExtend 128 * b.zeroExtend 128).extractLsb' 64 64)
      ∧ gives (.and i false f) (a &&& b) ∧ gives (.or i false f) (a ||| b) ∧ gives (.xor i false f) (a ^^^ b)
      ∧ gives (.andn i f) (a &&& ~~~ b)
      ∧ gives (.shl i false f) (a <<< n) ∧ gives (.shr i false f) (a >>> n) ∧ gives (.sra i false f) (a.sshiftRight n)
      ∧ gives (.minMax i false f) (if b.slt a then b else a) ∧ gives (.minMax i true f) (if a.slt b then b else a)
      ∧ gives (.minuMaxu i false f) (if b < a then b else a) ∧ gives (.minuMaxu i true f) (if a < b then b else a)

/-- R73: the immediate forms, with IMM sign-extended to 64 bits, `li`, and `lih`, which puts IMM over the low half of sA. -/
def Claims.ScalarImmediateResults : Prop :=
  ∀ (s : State) (i : Issue) (f : BitVec 48), s.CanIssue i → s.guarded i → (i.slot = 1 ∨ i.slot = 2) → f.extractLsb' 32 4 = 0 →
    let a := (s.tile i.tile).getS (opRA f)
    let b := opImm f
    let n := b.toNat % 64
    let gives (c : Instr) (v : W64) : Prop := exec c s = .next (s.ran i.tile fun y => y.setS (opRD f) v)
    gives (.add i true f) (a + b) ∧ gives (.mul i true f) (a * b) ∧ gives (.and i true f) (a &&& b) ∧ gives (.or i true f) (a ||| b)
      ∧ gives (.xor i true f) (a ^^^ b) ∧ gives (.shl i true f) (a <<< n) ∧ gives (.shr i true f) (a >>> n)
      ∧ gives (.sra i true f) (a.sshiftRight n)
      ∧ (opRA f = 0 → gives (.li i f) b)
      ∧ gives (.lih i f) (f.extractLsb' 0 32 ++ a.extractLsb' 0 32)

/-- (1) R73, Table 3-5: the register forms with a scalar result. Alone in a bundle of a ready tile, each writes its value to sD and lets the
tile go on to the next bundle; nothing else changes. A write to s0 is discarded by `setS`. (2) R73: the immediate forms, with IMM
sign-extended to 64 bits, `li`, and `lih`, which puts IMM over the low half of sA. -/
def Obligations.ScalarResults : Prop :=
  Claims.ScalarRegisterResults ∧ Claims.ScalarImmediateResults

/-- R74: division by zero gives all ones and leaves the dividend as remainder; −2⁶³ ÷ −1 gives −2⁶³ with remainder 0; every other division
truncates toward zero. None traps. -/
def Obligations.ScalarDivision : Prop :=
  ∀ (s : State) (i : Issue) (f : BitVec 48), s.CanIssue i → s.guarded i → (i.slot = 1 ∨ i.slot = 2) → f.extractLsb' 0 30 = 0 →
    let a := (s.tile i.tile).getS (opRA f)
    let b := (s.tile i.tile).getS (opRB f)
    let gives (c : Instr) (v : W64) : Prop := exec c s = .next (s.ran i.tile fun y => y.setS (opRD f) v)
    (b = 0 → gives (.div i false f) (BitVec.allOnes 64) ∧ gives (.div i true f) (BitVec.allOnes 64)
      ∧ gives (.rem i false f) a ∧ gives (.rem i true f) a)
    ∧ (a = BitVec.intMin 64 ∧ b = BitVec.allOnes 64 → gives (.div i false f) (BitVec.intMin 64) ∧ gives (.rem i false f) 0)
    ∧ (b ≠ 0 → gives (.div i true f) (BitVec.ofNat 64 (a.toNat / b.toNat)) ∧ gives (.rem i true f) (BitVec.ofNat 64 (a.toNat % b.toNat))
      ∧ gives (.div i false f) (BitVec.ofInt 64 (a.toInt.tdiv b.toInt)) ∧ gives (.rem i false f) (BitVec.ofInt 64 (a.toInt.tmod b.toInt)))

/-- R73: the bit counts (64 for a count of zeros in zero), written without reference to each other: `clz` counts the bits above the highest one,
`ctz` those below the lowest, `popc` the ones. -/
def Claims.ScalarBitCounts : Prop :=
  ∀ (s : State) (i : Issue) (f : BitVec 48), s.CanIssue i → s.guarded i → (i.slot = 1 ∨ i.slot = 2) → f.extractLsb' 0 36 = 0 →
    let a := (s.tile i.tile).getS (opRA f)
    ∀ w, ∃ n : Nat, n ≤ 64 ∧ exec (.clzCtzPopc i w f) s = .next (s.ran i.tile fun y => y.setS (opRD f) (BitVec.ofNat 64 n)) ∧
      match w with
      | .clz => (a = 0 ↔ n = 64) ∧ (n < 64 → a.getLsbD (63 - n) = true) ∧ ∀ k, 63 - n < k → k < 64 → n < 64 → a.getLsbD k = false
      | .ctz => (a = 0 ↔ n = 64) ∧ (n < 64 → a.getLsbD n = true) ∧ ∀ k, k < n → a.getLsbD k = false
      | .popc => n = ((List.finRange 64).filter fun k => a.getLsbD k.val).length

/-- R73: compares write a truth value (all ones or zero, R30) to pD, predicate logic works on all 64 bits, `pfroms` and `ptos` move a predicate,
`pfirst` sets the low sA bits. A write to p0 is discarded by `setP`. -/
def Claims.ScalarPredicates : Prop :=
  ∀ (s : State) (i : Issue) (f : BitVec 48), s.CanIssue i → s.guarded i → (i.slot = 1 ∨ i.slot = 2) →
    let x := s.tile i.tile
    let a := x.getS (opRA f)
    let putP (c : Instr) (v : W64) : Prop := exec c s = .next (s.ran i.tile fun y => y.setP (opRD f) v)
    let rel (r : Rel) (a b : W64) : Prop :=
      match r with | .eq => a = b | .ne => a ≠ b | .lt => a.toInt < b.toInt | .ltu => a.toNat < b.toNat | .le => a.toInt ≤ b.toInt | .leu => a.toNat ≤ b.toNat
    let cmp (r : Rel) (imm : Bool) (b : W64) : Prop :=
      (rel r a b → putP (.cmp i r imm f) (BitVec.allOnes 64)) ∧ (¬ rel r a b → putP (.cmp i r imm f) 0)
    (opRD f < 16 → f.extractLsb' 0 30 = 0 → ∀ r, cmp r false (x.getS (opRB f)))
    ∧ (opRD f < 16 → f.extractLsb' 32 4 = 0 → ∀ r, cmp r true (opImm f))
    ∧ (opRD f < 16 → opRA f < 16 → opRB f < 16 → f.extractLsb' 0 30 = 0 →
        let p := x.getP (opRA f)
        let q := x.getP (opRB f)
        putP (.predLogic i .pand f) (p &&& q) ∧ putP (.predLogic i .por f) (p ||| q) ∧ putP (.predLogic i .pxor f) (p ^^^ q)
          ∧ putP (.predLogic i .pandn f) (p &&& ~~~ q))
    ∧ (opRD f < 16 → f.extractLsb' 0 36 = 0 → putP (.pfroms i f) a
        ∧ putP (.pfirst i f) (if 64 ≤ a.toNat then BitVec.allOnes 64 else BitVec.ofNat 64 (2 ^ a.toNat - 1)))
    ∧ (opRA f < 16 → f.extractLsb' 0 36 = 0 → exec (.ptos i f) s = .next (s.ran i.tile fun y => y.setS (opRD f) (x.getP (opRA f))))

/-- (1) R73: the bit counts (64 for a count of zeros in zero), written without reference to each other: `clz` counts the bits above the highest
one, `ctz` those below the lowest, `popc` the ones. (2) R73: compares write a truth value (all ones or zero, R30) to pD, predicate logic
works on all 64 bits, `pfroms` and `ptos` move a predicate, `pfirst` sets the low sA bits. A write to p0 is discarded by `setP`. -/
def Obligations.ScalarPredicatesAndCounts : Prop :=
  Claims.ScalarBitCounts ∧ Claims.ScalarPredicates

/-- R75, Table 2-5: `csrr`, alone in slot 1, writes the named register's value to sD: in supervisor mode for every listed number, in user mode for
TID, VL, TFFLAGS, MSEED, TCYCLE and TGT. -/
def Claims.SystemRegisterReads : Prop :=
  ∀ (s : State) (i : Issue) (f : BitVec 48), s.CanIssue i → s.guarded i → i.slot = 1 → f.extractLsb' 32 10 = 0 →
    let x := s.tile i.tile
    ∀ n v, (n, v) ∈ [(0x00, BitVec.ofNat 64 i.tile.val), (0x01, x.sys.tstatus), (0x02, x.sys.tcause), (0x03, x.sys.tepc), (0x04, x.sys.tval),
        (0x05, x.sys.tvec), (0x06, x.sys.tscratch), (0x07, x.sys.tie),
        (0x08, BitVec.ofNat 64 ((x.sys.tip.extractLsb' 1 3).toNat * 2 + (if x.sys.ttimer ≤ s.clk.gt then 1 else 0) + if x.storeErrs = [] then 0 else 16)),
        (0x09, x.sys.vl), (0x0A, x.sys.tfflags), (0x0B, x.sys.mseed),
        (0x0C, s.clk.tileCycles - x.sys.cycleZero), (0x0D, s.clk.gt), (0x0E, x.sys.ttimer), (0x0F, x.sys.tctx), (0x10, x.sys.vcur),
        (0x11, x.sys.vsyl), (0x12, x.sys.vopa), (0x13, x.sys.vopb),
        (0x40, (x.engine 0).mcur), (0x41, (x.engine 0).msyl), (0x42, (x.engine 0).mopa), (0x43, (x.engine 0).mopb), (0x44, (x.engine 1).mcur),
        (0x45, (x.engine 1).msyl), (0x46, (x.engine 1).mopa), (0x47, (x.engine 1).mopb), (0x48, (x.engine 2).mcur), (0x49, (x.engine 2).msyl),
        (0x4A, (x.engine 2).mopa), (0x4B, (x.engine 2).mopb), (0x4C, (x.engine 3).mcur), (0x4D, (x.engine 3).msyl), (0x4E, (x.engine 3).mopa),
        (0x4F, (x.engine 3).mopb)] → (s.Supervisor i.tile ∨ n ∈ [0x00, 0x09, 0x0A, 0x0B, 0x0C, 0x0D]) →
      f.extractLsb' 0 32 = BitVec.ofNat 32 n →
      exec (.csrr i f) s = .next (s.ran i.tile fun y => y.setS (opRD f) v)

/-- R75, Tables 2-5, 2-8 and R31: `csrw`, of VL, TFFLAGS and MSEED in either mode and of every other register in supervisor mode. VL takes at most 64, TVEC has [11:0] zero, TIE and TFFLAGS keep five bits, a one
written to a latched bit of TIP clears it, MODE, PM and EFP of TSTATUS stay; TID, TCYCLE, TGT and TCTX are not written. A write of MSEED leaves the output of every SR = 1 instruction
in progress undefined (R113). -/
def Claims.SystemRegisterWrites : Prop :=
  ∀ (s : State) (i : Issue) (f : BitVec 48), s.CanIssue i → s.guarded i → i.slot = 1 → f.extractLsb' 32 4 = 0 → opRD f = 0 →
    let a := (s.tile i.tile).getS (opRA f)
    let sys (n : Nat) (g : TileSys → TileSys) : Prop := f.extractLsb' 0 32 = BitVec.ofNat 32 n →
      ∃ h, exec (.csrw i f) s = .next (s.ran i.tile fun y => { y with sys := g y.sys, haz := h })
    sys 0x09 (fun r => { r with vl := BitVec.ofNat 64 (min a.toNat 64) }) ∧ sys 0x0A (fun r => { r with tfflags := a &&& 0x1F })
    ∧ (f.extractLsb' 0 32 = 0x0B → ∃ t, exec (.csrw i f) s = .next t ∧ PastBundle s t i.tile (fun _ => False)
        ∧ (t.tile i.tile).sys = { (s.tile i.tile).sys with mseed := a }
        ∧ ∀ e, (t.tile i.tile).engine e = let g := (s.tile i.tile).engine e
            if g.idle = false ∧ xSR g.msyl = true then { g with seedUndef := true } else g)
    ∧ (s.Supervisor i.tile →
    sys 0x01 (fun r => { r with tstatus := (r.tstatus &&& ~~~ 0x190) ||| (a &&& 0x190) })
    ∧ sys 0x02 (fun r => { r with tcause := a &&& 0x8000000000FFF8FF })
    ∧ sys 0x03 (fun r => { r with tepc := a }) ∧ sys 0x04 (fun r => { r with tval := a }) ∧ sys 0x06 (fun r => { r with tscratch := a })
    ∧ sys 0x05 (fun r => { r with tvec := a &&& ~~~ 0xFFF }) ∧ sys 0x07 (fun r => { r with tie := a &&& 0x1F })
    ∧ sys 0x08 (fun r => { r with tip := r.tip &&& ~~~ (a &&& 0xE) })
    ∧ sys 0x0E (fun r => { r with ttimer := a }) ∧ sys 0x10 (fun r => { r with vcur := a &&& 0x80000007FFFFFFFF }) ∧ sys 0x11 (fun r => { r with vsyl := a }) ∧ sys 0x12 (fun r => { r with vopa := a })
    ∧ sys 0x13 (fun r => { r with vopb := a })
    ∧ (∀ n ∈ [0x00, 0x0C, 0x0D, 0x0F], sys n id)
    ∧ ∀ e, e < 4 → ((s.tile i.tile).engine e).running = false →
      let eng (n : Nat) (g : Engine → Engine) : Prop := f.extractLsb' 0 32 = BitVec.ofNat 32 (0x40 + 4 * e + n) →
        exec (.csrw i f) s = .next (s.ran i.tile fun y => y.setEngine e (g (y.engine e)))
      eng 0 (fun r => { r with mcur := a &&& 0xC000000FFFFFFFFF }) ∧ eng 1 (fun r => { r with msyl := a })
        ∧ eng 2 (fun r => { r with mopa := a }) ∧ eng 3 (fun r => { r with mopb := a }))

/-- R45, R75: in user mode `csrr` of a register that Table 2-5 does not grant, `csrw` of any but VL, TFFLAGS and MSEED, and `tret`, `wfi`,
`halt`, `mresume` and `mabort` raise PRIVILEGE: CODE 4, the syllable's slot, TEPC the bundle, TVAL the syllable; the tile enters supervisor
mode with interrupts off and goes on at TVEC. No register but those of the trap changes. -/
def Claims.PrivilegeTraps : Prop :=
  ∀ (s : State) (i : Issue) (f : BitVec 48), s.CanIssue i → s.guarded i → ¬ s.Supervisor i.tile → (s.gov i.tile).fresh = false →
    let x := s.tile i.tile
    let traps (c : Instr) (kind op : Nat) : Prop := ∃ t, exec c s = .next t ∧
      let y := t.tile i.tile
      y.sys.tcause = BitVec.ofNat 64 (4 + i.slot.val * 2048) ∧ y.sys.tepc = x.pc ∧ y.sys.tval = syllable kind op i.guard f
        ∧ y.pc = x.sys.tvec ∧ y.sys.tstatus.getLsbD 0 = true ∧ y.sys.tstatus.getLsbD 7 = false
        ∧ y.sys.tstatus.getLsbD 4 = false ∧ y.sys.tstatus.getLsbD 8 = x.sys.tstatus.getLsbD 7
        ∧ SameRegs x y (fun _ => False) ∧ SameSilt x y ∧ SameMemory s t ∧ SameTiles s t i.tile
    let n := (f.extractLsb' 0 32).toNat
    (i.slot = 0 → f = 0 → traps (.tret i f) 2 0x20 ∧ traps (.wfi i f) 2 0x21 ∧ traps (.halt i f) 2 0x22)
    ∧ (i.slot = 1 → f.extractLsb' 32 10 = 0 → (n ≤ 0x13 ∨ 0x40 ≤ n ∧ n ≤ 0x4F) → n ∉ [0, 9, 0xA, 0xB, 0xC, 0xD] →
        traps (.csrr i f) 3 0xF0)
    ∧ (i.slot = 1 → f.extractLsb' 32 4 = 0 → opRD f = 0 → (n ≤ 0x13 ∨ 0x40 ≤ n ∧ n ≤ 0x4F) → n ∉ [9, 0xA, 0xB] → traps (.csrw i f) 3 0xF1)
    ∧ (i.slot = 6 → f.extractLsb' 0 46 = 0 →
        traps (.mresume i f) 6 0x21 ∧ traps (.mabort i f) 6 0x22)

/-- R75, R45: a number below 0x1000 that Table 2-5 does not list, in `csrr` or `csrw`, raises ILLEGAL_SYLLABLE in either mode: CODE 3, SLOT 1, TEPC the
bundle, TVAL the syllable; no register but those of the trap changes. -/
def Claims.UnlistedSystemRegisters : Prop :=
  ∀ (s : State) (i : Issue) (f : BitVec 48), s.CanIssue i → s.guarded i → i.slot = 1 → (s.gov i.tile).fresh = false →
    let x := s.tile i.tile
    let n := (f.extractLsb' 0 32).toNat
    let traps (c : Instr) (op : Nat) : Prop := ∃ t, exec c s = .next t ∧
      let y := t.tile i.tile
      y.sys.tcause = BitVec.ofNat 64 (3 + 2048) ∧ y.sys.tepc = x.pc ∧ y.sys.tval = syllable 3 op i.guard f
        ∧ y.pc = x.sys.tvec ∧ y.sys.tstatus.getLsbD 0 = true ∧ y.sys.tstatus.getLsbD 7 = false
        ∧ SameRegs x y (fun _ => False) ∧ SameSilt x y ∧ SameMemory s t ∧ SameTiles s t i.tile
    0x13 < n → n < 0x1000 → ¬ (0x40 ≤ n ∧ n ≤ 0x4F) →
      (f.extractLsb' 32 10 = 0 → traps (.csrr i f) 0xF0) ∧ (f.extractLsb' 32 4 = 0 → opRD f = 0 → traps (.csrw i f) 0xF1)

/-- (1) R75, Table 2-5: `csrr`, alone in slot 1, writes the named register's value to sD: in supervisor mode for every listed number, in user
mode for TID, VL, TFFLAGS, MSEED, TCYCLE and TGT. (2) R75, Tables 2-5, 2-8 and R31: `csrw`, of VL, TFFLAGS and MSEED in either mode and of
every other register in supervisor mode. VL takes at most 64, TVEC has [11:0] zero, TIE and TFFLAGS keep five bits, a one written to a
latched bit of TIP clears it, MODE, PM and EFP of TSTATUS stay; TID, TCYCLE, TGT and TCTX are not written. A write of MSEED leaves the
output of every SR = 1 instruction in progress undefined (R113). (3) R45, R75: in user mode `csrr` of a register that Table 2-5 does not
grant, `csrw` of any but VL, TFFLAGS and MSEED, and `tret`, `wfi`, `halt`, `mresume` and `mabort` raise PRIVILEGE: CODE 4, the syllable's
slot, TEPC the bundle, TVAL the syllable; the tile enters supervisor mode with interrupts off and goes on at TVEC. No register but those of
the trap changes. (4) R75, R45: a number below 0x1000 that Table 2-5 does not list, in `csrr` or `csrw`, raises ILLEGAL_SYLLABLE in either
mode: CODE 3, SLOT 1, TEPC the bundle, TVAL the syllable; no register but those of the trap changes. -/
def Obligations.SystemRegisters : Prop :=
  Claims.SystemRegisterReads ∧ Claims.SystemRegisterWrites ∧ Claims.PrivilegeTraps ∧ Claims.UnlistedSystemRegisters

/-- R29, R30, R73, R75: what a lone scalar instruction leaves alone: every register but its destination, the accumulators, the system registers
(but for `csrw`), Silt, memory, and every other tile. -/
def Obligations.ScalarFrame : Prop :=
  ∀ (s t : State) (i : Issue) (f : BitVec 48), s.CanIssue i → s.guarded i →
    let x := s.tile i.tile
    let y := t.tile i.tile
    let keeps (c : Instr) (ex : Reg → Prop) : Prop := exec c s = .next t → y.pc = x.pc + 64 ∧ y.sys = x.sys
      ∧ SameRegs x y ex ∧ SameSilt x y ∧ SameMemory s t ∧ SameTiles s t i.tile
    let sD : Reg → Prop := (· = .s (opRD f))
    let pD : Reg → Prop := (· = .p (opRD f))
    ((i.slot = 1 ∨ i.slot = 2) → f.extractLsb' 0 30 = 0 →
      keeps (.add i false f) sD ∧ keeps (.sub i f) sD ∧ keeps (.mul i false f) sD ∧ (∀ u, keeps (.mulh i u f) sD ∧ keeps (.div i u f) sD
        ∧ keeps (.rem i u f) sD ∧ keeps (.minMax i u f) sD ∧ keeps (.minuMaxu i u f) sD)
      ∧ keeps (.and i false f) sD ∧ keeps (.or i false f) sD ∧ keeps (.xor i false f) sD ∧ keeps (.andn i f) sD ∧ keeps (.shl i false f) sD
      ∧ keeps (.shr i false f) sD ∧ keeps (.sra i false f) sD
      ∧ (opRD f < 16 → ∀ r, keeps (.cmp i r false f) pD) ∧ (opRD f < 16 → opRA f < 16 → opRB f < 16 → ∀ o, keeps (.predLogic i o f) pD))
    ∧ ((i.slot = 1 ∨ i.slot = 2) → f.extractLsb' 32 4 = 0 →
      keeps (.add i true f) sD ∧ keeps (.mul i true f) sD ∧ keeps (.and i true f) sD ∧ keeps (.or i true f) sD ∧ keeps (.xor i true f) sD
      ∧ keeps (.shl i true f) sD ∧ keeps (.shr i true f) sD ∧ keeps (.sra i true f) sD ∧ keeps (.lih i f) sD ∧ (opRA f = 0 → keeps (.li i f) sD)
      ∧ (opRD f < 16 → ∀ r, keeps (.cmp i r true f) pD))
    ∧ ((i.slot = 1 ∨ i.slot = 2) → f.extractLsb' 0 36 = 0 →
      (∀ w, keeps (.clzCtzPopc i w f) sD) ∧ (opRA f < 16 → keeps (.ptos i f) sD)
      ∧ (opRD f < 16 → keeps (.pfroms i f) pD ∧ keeps (.pfirst i f) pD))

/-! ### The control instructions (R70–R72) -/

/-- R70: a branch takes effect after its bundle. `br` and `call` go to the bundle IMM × 64 bytes from their own, `jr` and `callr` to the bundle
that holds the address in sA; `call` and `callr` leave the address of the next bundle in sD. -/
def Obligations.Branches : Prop :=
  ∀ (s : State) (i : Issue) (f : BitVec 48), s.CanIssue i → s.guarded i → i.slot = 0 → f.extractLsb' 32 4 = 0 →
    let x := s.tile i.tile
    let rel := x.pc + opImm f * 64
    let abs := x.getS (opRA f) &&& ~~~ 63
    (opRD f = 0 → opRA f = 0 → exec (.br i f) s = .next (s.ran i.tile fun y => { y with pc := rel }))
    ∧ (opRA f = 0 → exec (.call i f) s = .next (s.ran i.tile fun y => { y.setS (opRD f) (x.pc + 64) with pc := rel }))
    ∧ (opRD f = 0 → f.extractLsb' 0 32 = 0 → exec (.jr i f) s = .next (s.ran i.tile fun y => { y with pc := abs }))
    ∧ (f.extractLsb' 0 32 = 0 → exec (.callr i f) s = .next (s.ran i.tile fun y => { y.setS (opRD f) (x.pc + 64) with pc := abs }))

/-- R71, R72, R78, R60: `wfi`, `fence.i`, `fence.l` and `fence.g` let their bundle end and hold the next one; `halt` puts the tile into HALTED.
`wfi` and `halt` need supervisor mode. While the condition that is held for does not hold, no further bundle of the tile has an effect. -/
def Claims.HoldsAndHalt : Prop :=
  ∀ (s : State) (i : Issue), s.CanIssue i → s.guarded i →
    (i.slot = 0 → exec (.fenceI i 0) s = .next (s.ran i.tile fun y => { y with hold := .fenceI }))
    ∧ (i.slot = 0 → s.Supervisor i.tile → exec (.wfi i 0) s = .next (s.ran i.tile fun y => { y with hold := .wfi }))
    ∧ (i.slot = 0 → s.Supervisor i.tile → s.Calm i.tile → exec (.halt i 0) s = .next (s.ran i.tile fun y => { y with st := .halted }))
    ∧ (i.slot = 3 → ∃ h, exec (.fenceL i 0) s = .next (s.ran i.tile fun y => { y with hold := .fenceL, haz := h }))
    ∧ (i.slot = 3 → exec (.fenceG i 0) s = .next (s.ran i.tile fun y => { y with hold := .fenceG }))

/-- R71, R136, R137, R72: what `wfi` and the fences wait for. While an interrupt that TIE enables is not pending, or an access that the fence
orders is outstanding, and no trap is due, a bundle that reaches the boundary leaves the state as it is. -/
def Claims.HeldBundleWaits : Prop :=
  ∀ (s : State) (i : Issue) (f : BitVec 48), (s.tile i.tile).longStop = false → engineTrap (s.tile i.tile) = none →
    interruptTrap s.clk.gt (s.tile i.tile) = none →
    let x := s.tile i.tile
    (x.hold = .wfi ∧ tipNow s.clk.gt x &&& x.sys.tie = 0 ∨ x.hold = .fenceG ∧ x.far ≠ [] ∨ x.hold = .fenceI ∧ (∃ a ∈ x.far, a.kind = .store)
      ∨ x.hold = .fenceL ∧ ∃ a ∈ x.far, localTo i.tile a.pa = true) →
    exec (.br i f) s = .next s ∧ exec (.li i f) s = .next s ∧ exec (.ldS i .d f) s = .next s ∧ exec (.vidx i f) s = .next s
      ∧ exec (.mmac i f) s = .next s ∧ exec (.barArv i f) s = .next s

/-- (1) R71, R72, R78, R60: `wfi`, `fence.i`, `fence.l` and `fence.g` let their bundle end and hold the next one; `halt` puts the tile into
HALTED. `wfi` and `halt` need supervisor mode. While the condition that is held for does not hold, no further bundle of the tile has an
effect. (2) R71, R136, R137, R72: what `wfi` and the fences wait for. While an interrupt that TIE enables is not pending, or an access that
the fence orders is outstanding, and no trap is due, a bundle that reaches the boundary leaves the state as it is. -/
def Obligations.HoldsAndFences : Prop :=
  Claims.HoldsAndHalt ∧ Claims.HeldBundleWaits

/-- R48, R50: `sys` and `brk` end their bundle and trap: CODE 5 or 6, TEPC the next bundle, TVAL the immediate; PM and PIE take MODE and IE, the
tile is in supervisor mode with interrupts off at TVEC. R51: `tret` takes MODE and IE from PM and PIE and goes on at TEPC. -/
def Obligations.SystemCallsAndReturn : Prop :=
  ∀ (s : State) (i : Issue) (f : BitVec 48), s.CanIssue i → s.guarded i → i.slot = 0 → (s.gov i.tile).fresh = false →
    let x := s.tile i.tile
    let traps (c : Instr) (code : Nat) : Prop := ∃ t, exec c s = .next t ∧
      let y := t.tile i.tile
      y.sys.tcause = BitVec.ofNat 64 code ∧ y.sys.tepc = x.pc + 64 ∧ y.sys.tval = f.zeroExtend 64 ∧ y.pc = x.sys.tvec
        ∧ y.sys.tstatus.getLsbD 0 = true ∧ y.sys.tstatus.getLsbD 7 = false ∧ y.sys.tstatus.getLsbD 4 = x.sys.tstatus.getLsbD 0
        ∧ y.sys.tstatus.getLsbD 8 = x.sys.tstatus.getLsbD 7
        ∧ SameRegs x y (fun _ => False) ∧ SameSilt x y ∧ SameMemory s t ∧ SameTiles s t i.tile
    (f.extractLsb' 16 32 = 0 → traps (.sys i f) 5 ∧ traps (.brk i f) 6)
    ∧ (f = 0 → s.Supervisor i.tile → x.sys.vcur.getLsbD 63 = false → ∃ t, exec (.tret i f) s = .next t ∧
        let y := t.tile i.tile
        y.pc = x.sys.tepc &&& ~~~ 63 ∧ y.sys.tstatus.getLsbD 0 = x.sys.tstatus.getLsbD 4 ∧ y.sys.tstatus.getLsbD 7 = x.sys.tstatus.getLsbD 8
          ∧ { y.sys with tstatus := x.sys.tstatus } = x.sys
          ∧ SameRegs x y (fun _ => False) ∧ SameSilt x y ∧ SameMemory s t ∧ SameTiles s t i.tile)

/-! ### Silt and far accesses (R38–R41, R76, R77) -/

/-- R38, R76: a Silt load takes its bytes, least significant first, from sA + IMM modulo 512 KiB with the low bits of the size cleared, and
sign- or zero-extends them into sD; `ld.sv` moves 256 bytes into vD. The words of the range are correctable (R141), and no mover is writing
there without having signalled (Table 2-4). -/
def Claims.SiltLoads : Prop :=
  ∀ (s : State) (i : Issue) (f : BitVec 48), s.CanIssue i → s.guarded i → i.slot = 3 → f.extractLsb' 32 4 = 0 →
    let x := s.tile i.tile
    let off (n : Nat) : Nat := (x.getS (opRA f) + opImm f).toNat % 524288 / n * n
    let raw (n : Nat) : Nat := ofLe ((List.range n).map fun k => Tab.look 0 x.silt (off n + k))
    let rest (t : State) (ex : Reg → Prop) : Prop := (t.tile i.tile).pc = x.pc + 64 ∧ SameRegs x (t.tile i.tile) ex ∧ SameSilt x (t.tile i.tile)
      ∧ SameMemory s t ∧ SameTiles s t i.tile
    let loads (k : LoadKind) (n : Nat) (v : W64) : Prop := x.siltBadIn (off n) n = false → x.incomingIn (off n) n = false →
      ∃ t, exec (.ldS i k f) s = .next t ∧ (opRD f ≠ 0 → (t.tile i.tile).getS (opRD f) = v) ∧ rest t (· = .s (opRD f))
    loads .b 1 ((BitVec.ofNat 8 (raw 1)).signExtend 64) ∧ loads .bu 1 ((BitVec.ofNat 8 (raw 1)).zeroExtend 64)
      ∧ loads .h 2 ((BitVec.ofNat 16 (raw 2)).signExtend 64) ∧ loads .hu 2 ((BitVec.ofNat 16 (raw 2)).zeroExtend 64)
      ∧ loads .w 4 ((BitVec.ofNat 32 (raw 4)).signExtend 64) ∧ loads .wu 4 ((BitVec.ofNat 32 (raw 4)).zeroExtend 64)
      ∧ loads .d 8 (BitVec.ofNat 64 (raw 8))
      ∧ (opRD f < 32 → x.siltBadIn (off 256) 256 = false → x.incomingIn (off 256) 256 = false → ∃ t, exec (.ldSv i f) s = .next t
          ∧ (t.tile i.tile).getV (opRD f) = BitVec.ofNat 2048 (raw 256) ∧ rest t (· = .v (opRD f)))

/-- R38, R76: a Silt store writes the low bytes of sD, or all of vD, least significant first, at the address of R38, and leaves every other byte
of Silt, every register and all other memory alone. -/
def Claims.SiltStores : Prop :=
  ∀ (s : State) (i : Issue) (f : BitVec 48), s.CanIssue i → s.guarded i → i.slot = 3 → f.extractLsb' 32 4 = 0 →
    let x := s.tile i.tile
    let off (n : Nat) : Nat := (x.getS (opRA f) + opImm f).toNat % 524288 / n * n
    let stores (c : Instr) (n : Nat) (v : Nat) : Prop := ∃ t, exec c s = .next t ∧
      (∀ a, a < 524288 → Tab.look 0 (t.tile i.tile).silt a
        = if off n ≤ a ∧ a < off n + n then BitVec.ofNat 8 (v / 256 ^ (a - off n)) else Tab.look 0 x.silt a)
      ∧ (t.tile i.tile).pc = x.pc + 64 ∧ SameRegs x (t.tile i.tile) (fun _ => False) ∧ SameMemory s t ∧ SameTiles s t i.tile
    let v := (x.getS (opRD f)).toNat
    stores (.stS i .b f) 1 v ∧ stores (.stS i .h f) 2 v ∧ stores (.stS i .w f) 4 v ∧ stores (.stS i .d f) 8 v
      ∧ (opRD f < 32 → stores (.stSv i f) 256 (x.getV (opRD f)).toNat)

/-- (1) R38, R76: a Silt load takes its bytes, least significant first, from sA + IMM modulo 512 KiB with the low bits of the size cleared, and
sign- or zero-extends them into sD; `ld.sv` moves 256 bytes into vD. The words of the range are correctable (R141), and no mover is writing
there without having signalled (Table 2-4). (2) R38, R76: a Silt store writes the low bytes of sD, or all of vD, least significant first, at
the address of R38, and leaves every other byte of Silt, every register and all other memory alone. -/
def Obligations.SiltAccesses : Prop :=
  Claims.SiltLoads ∧ Claims.SiltStores

/-- R39, R40, R76, R77: a far access whose translation is at hand executes by becoming outstanding, with its cleared virtual address, its physical
address and its data; the registers and every memory stay as they are until it is performed. Atomics take the address in sA. -/
def Obligations.FarAccessesIssue : Prop :=
  ∀ (s : State) (i : Issue) (f : BitVec 48) (pa : Nat), s.CanIssue i → s.guarded i → i.slot = 3 →
    let x := s.tile i.tile
    let hit (va : Nat) (acc : Access) : Prop := s.translate (.slot3 i.tile) x.ctxNo x.asid va acc x.supervisor = .hit pa
    let out (c : Instr) (acc : Access) (kind : FarKind) (dest : FarDest) (n va : Nat) (data : Vec) (cmp : W64) : Prop := hit va acc →
      ∃ t tag, exec c s = .next t ∧ PastBundle s t i.tile (fun _ => False)
        ∧ (t.tile i.tile).far = [{ id := x.farNext, kind := kind, dest := dest, size := n, va := BitVec.ofNat 64 va, pa := pa, data := data
                                   cmp := cmp, tagged := tag }]
    let at_ (n : Nat) : Nat := (x.getS (opRA f) + opImm f).toNat / n * n
    let ld (k : LoadKind) (n : Nat) (sg : Bool) : Prop := out (.ldF i k f) .load (.load sg) (.scalar (opRD f)) n (at_ n) 0 0
    let st (k : StoreKind) (n : Nat) : Prop := out (.stF i k f) .store .store .none n (at_ n) ((x.getS (opRD f)).zeroExtend 2048) 0
    let amo (c : Instr) (op : Nat) (cmp : W64) : Prop :=
      out c .atomic (.amo op) (.scalar (opRD f)) 8 ((x.getS (opRA f)).toNat / 8 * 8) ((x.getS (opRB f)).zeroExtend 2048) cmp
    (f.extractLsb' 32 4 = 0 → ld .b 1 true ∧ ld .bu 1 false ∧ ld .h 2 true ∧ ld .hu 2 false ∧ ld .w 4 true ∧ ld .wu 4 false ∧ ld .d 8 false
      ∧ st .b 1 ∧ st .h 2 ∧ st .w 4 ∧ st .d 8
      ∧ (opRD f < 32 → out (.ldFv i f) .load (.load false) (.vector (opRD f)) 256 (at_ 256) 0 0
          ∧ out (.stFv i f) .store .store .none 256 (at_ 256) (x.getV (opRD f)) 0))
    ∧ (f.extractLsb' 0 30 = 0 → amo (.amo i .add f) 0 0 ∧ amo (.amo i .and f) 1 0 ∧ amo (.amo i .or f) 2 0 ∧ amo (.amo i .xor f) 3 0
        ∧ amo (.amo i .swap f) 4 0)
    ∧ (f.extractLsb' 0 24 = 0 → amo (.amoCas i f) 5 (x.getS (f.extractLsb' 24 6).toNat))

/-- R41, R76, R77, R134: an outstanding access to healthy module memory that no earlier outstanding access shares a byte with, and of which the
host holds no line, is performed: a load delivers its bytes, a store writes exactly its own, an atomic writes its new value and delivers the old
one. It is outstanding no more, and no other byte of memory changes. -/
def Claims.FarAccessesPerform : Prop :=
  ∀ (s : State) (t : Fin 1024) (n : Nat) (a : FarAccess) (x : Answer), s.Inv → (s.tile t).far[n]? = some a →
    (∀ g ∈ (s.tile t).far.take n, s.truePlace g.pa + g.size ≤ a.pa ∨ a.pa + a.size ≤ s.truePlace g.pa) →
    ((∃ k, targetOf a.pa = .hbm k ∧ s.stackUp k = true) ∨ ∃ b, targetOf a.pa = .loam b) →
    (∀ w m, markIn s.mem.bad a.pa m w = none) → s.cmd.hostHeld = [] → 0 < a.size →
    let raw (m : Nat) : Nat := ofLe (Tab.readN 0 s.mem.phys a.pa m)
    let ended (u : State) : Prop := (u.tile t).far = (s.tile t).far.filter (fun g => decide (g.id ≠ a.id)) ∧ (u.tile t).pc = (s.tile t).pc ∧ SameTiles s u t
    (∀ sg d, a.kind = .load sg → a.dest = .scalar d → 0 < d → ∃ u, exec (.farLoadResponse t n x) s = .next u ∧ ended u ∧ SameMemory s u
        ∧ (u.tile t).getS d = (if sg then BitVec.ofInt 64 (sx (8 * a.size) (raw a.size)) else BitVec.ofNat 64 (raw a.size)))
    ∧ (∀ sg d, a.kind = .load sg → a.dest = .vector d → ∃ u, exec (.farLoadResponse t n x) s = .next u ∧ ended u ∧ SameMemory s u
        ∧ (u.tile t).getV d = BitVec.ofNat 2048 (raw a.size))
    ∧ (a.kind = .store → ∃ u, exec (.farStoreAck t n x) s = .next u ∧ ended u
        ∧ ∀ k, Tab.look 0 u.mem.phys k = if a.pa ≤ k ∧ k < a.pa + a.size then BitVec.ofNat 8 (a.data.toNat / 256 ^ (k - a.pa))
            else Tab.look 0 s.mem.phys k)
    ∧ (∀ op d, a.kind = .amo op → op ≤ 5 → a.size = 8 → a.dest = .scalar d → 0 < d → ∃ u, exec (.farLoadResponse t n x) s = .next u ∧ ended u
        ∧ (u.tile t).getS d = BitVec.ofNat 64 (raw 8)
        ∧ let old : W64 := BitVec.ofNat 64 (raw 8)
          let v : W64 := a.data.setWidth 64
          let new : W64 := if op = 0 then old + v else if op = 1 then old &&& v else if op = 2 then old ||| v else if op = 3 then old ^^^ v
            else if op = 4 then v else if old = a.cmp then v else old
          ∀ k, Tab.look 0 u.mem.phys k = if a.pa ≤ k ∧ k < a.pa + 8 then BitVec.ofNat 8 (new.toNat / 256 ^ (k - a.pa)) else Tab.look 0 s.mem.phys k)

/-- R41: the loss of the fabric peer under an outstanding access. A load or atomic poisons its destination with SUBCODE 0x21 and its address; a
store makes its error pending for FAR_STORE_ERROR while fewer than eight are, unless its tile has been reset since (R273). -/
def Claims.FarAccessesLost : Prop :=
  ∀ (s : State) (t : Fin 1024) (n : Nat) (a : FarAccess) (m off : Nat), s.Inv → (s.tile t).far[n]? = some a →
    (∀ g ∈ (s.tile t).far.take n, s.truePlace g.pa + g.size ≤ a.pa ∨ a.pa + a.size ≤ s.truePlace g.pa) →
    targetOf a.pa = .window m off → s.gz.joined = true → m ≠ s.gz.me.toNat →
    (∀ d, a.kind ≠ .store → a.dest = .scalar d → 0 < d → ∃ u, exec (.farLoadResponse t n .lost) s = .next u
        ∧ Tab.look none (u.tile t).sPoison d = some ⟨0x21, a.va⟩ ∧ (u.tile t).getS d = (s.tile t).getS d)
    ∧ (∀ d, a.kind ≠ .store → a.dest = .vector d → ∃ u, exec (.farLoadResponse t n .lost) s = .next u
        ∧ Tab.look none (u.tile t).vPoison d = some ⟨0x21, a.va⟩ ∧ (u.tile t).getV d = (s.tile t).getV d)
    ∧ (a.kind = .store → (s.tile t).storeErrs.length < 8 ∨ a.stale = true → ∃ u, exec (.farStoreAck t n .lost) s = .next u
        ∧ (u.tile t).storeErrs = (s.tile t).storeErrs ++ if a.stale then [] else [a.va])

/-- (1) R41, R76, R77, R134: an outstanding access to healthy module memory that no earlier outstanding access shares a byte with, and of which
the host holds no line, is performed: a load delivers its bytes, a store writes exactly its own, an atomic writes its new value and delivers
the old one. It is outstanding no more, and no other byte of memory changes. (2) R41: the loss of the fabric peer under an outstanding
access. A load or atomic poisons its destination with SUBCODE 0x21 and its address; a store makes its error pending for FAR_STORE_ERROR
while fewer than eight are, unless its tile has been reset since (R273). -/
def Obligations.FarAccessesEnd : Prop :=
  Claims.FarAccessesPerform ∧ Claims.FarAccessesLost

/-! ### The vector instructions (R79–R85) -/

/-- R79, R81, R82: the integer vector operations, lane by lane and modulo 2 to the type's width; operand b is vB, or the low bits of sA in every
lane. Signed results are sign-extended into their lane, unsigned ones zero-extended (`laneVal`). -/
def Obligations.VectorIntegerLanes : Prop :=
  ∀ (s : State) (i : Issue) (f : BitVec 48), s.CanIssue i → (i.slot = 4 ∨ i.slot = 5) → 4 ≤ opET f → opET f ≤ 9 → opVC f = 0 → opSB f = 0 →
    let x := s.tile i.tile
    let et := opET f
    let n := etBits et
    let bc := opMOD f = 2048
    let a (l : Nat) : BitVec n := BitVec.ofNat n (laneOf 32 (x.getV (opVA f)) l)
    let b (l : Nat) : BitVec n := if bc then BitVec.ofNat n (x.getS (opSA f)).toNat else BitVec.ofNat n (laneOf 32 (x.getV (opVB f)) l)
    let less (u v : BitVec n) : Bool := if etSigned et then u.slt v else u.ult v
    let gives (c : Instr) (val : Nat → BitVec n) : Prop := LanesGive s i (opVD f) 32 (fun l => laneVal et (val l).toNat) c
    ((opMOD f = 0 ∧ opSA f = 0 ∨ bc ∧ opVB f = 0) →
      gives (.vaddVsubVmul i .add f) (fun l => a l + b l) ∧ gives (.vaddVsubVmul i .sub f) (fun l => a l - b l)
      ∧ gives (.vaddVsubVmul i .mul f) (fun l => a l * b l)
      ∧ gives (.vminVmax i false f) (fun l => if less (b l) (a l) then b l else a l)
      ∧ gives (.vminVmax i true f) (fun l => if less (a l) (b l) then b l else a l)
      ∧ gives (.vandVorVxor i .and f) (fun l => a l &&& b l) ∧ gives (.vandVorVxor i .or f) (fun l => a l ||| b l)
      ∧ gives (.vandVorVxor i .xor f) (fun l => a l ^^^ b l)
      ∧ gives (.vshlVshrVsra i .shl f) (fun l => a l <<< ((b l).toNat % n)) ∧ gives (.vshlVshrVsra i .shr f) (fun l => a l >>> ((b l).toNat % n))
      ∧ gives (.vshlVshrVsra i .sra f) (fun l => (a l).sshiftRight ((b l).toNat % n)))
    ∧ (f.extractLsb' 16 22 = 0 → opMOD f = 0 →
        gives (.vabsVneg i true f) (fun l => - a l)
        ∧ gives (.vabsVneg i false f) (fun l => if etSigned et ∧ (a l).msb = true then - a l else a l))

/-- R80, R82: floating-point vector arithmetic, lane by lane: the exact result of the decoded operands, rounded once to nearest even in the type;
`vfma` rounds the exact sum of the exact product. Minimum and maximum take the other operand of a NaN, and −0 as less than +0. Flags are only
ever set. -/
def Obligations.VectorFloatLanes : Prop :=
  ∀ (s : State) (i : Issue) (f : BitVec 48), s.CanIssue i → (i.slot = 4 ∨ i.slot = 5) → opET f ≤ 3 → opSB f = 0 →
    let x := s.tile i.tile
    let et := opET f
    let w := etLane et
    let fm := etFmt et
    let bc := opMOD f = 2048
    let code (r l : Nat) : Nat := laneOf w (x.getV r) l % 2 ^ etBits et
    let bcode (l : Nat) : Nat := if bc then (x.getS (opSA f)).toNat % 2 ^ etBits et else code (opVB f) l
    let a (l : Nat) : FpNum := decodeNum fm (code (opVA f) l)
    let b (l : Nat) : FpNum := decodeNum fm (bcode l)
    let c (l : Nat) : FpNum := decodeNum fm (code (opVC f) l)
    let rounded (v : FpNum) : Nat := (roundTo fm .even false v).1
    let gives (c : Instr) (val : Nat → Nat) : Prop := LanesGive s i (opVD f) w val c
      ∧ ∀ t, exec c s = .next t → (t.tile i.tile).sys.tfflags &&& x.sys.tfflags = x.sys.tfflags
    ((opMOD f = 0 ∧ opSA f = 0 ∨ bc ∧ opVB f = 0) →
      (opVC f = 0 → gives (.vaddVsubVmul i .add f) (fun l => rounded (FpNum.add false (a l) (b l)).1)
        ∧ gives (.vaddVsubVmul i .sub f) (fun l => rounded (FpNum.add false (a l) (b l).negate).1)
        ∧ gives (.vaddVsubVmul i .mul f) (fun l => rounded (FpNum.mul (a l) (b l)).1)
        ∧ ∀ mx, gives (.vminVmax i mx f) (fun l =>
            if a l = .nan ∧ b l = .nan then nanCode fm else if a l = .nan then bcode l else if b l = .nan then code (opVA f) l
            else if ((a l).lt (b l) || ((a l).eqv (b l) && (a l).isNeg && !(b l).isNeg)) != mx then code (opVA f) l else bcode l))
      ∧ gives (.vfma i f) (fun l => rounded (FpNum.add false (FpNum.mul (a l) (b l)).1 (c l)).1))
    ∧ (f.extractLsb' 16 22 = 0 → opMOD f = 0 →
        gives (.vabsVneg i false f) (fun l => rounded (a l).abs) ∧ gives (.vabsVneg i true f) (fun l => rounded (a l).negate)
        ∧ (et ≤ 1 → gives (.vrcpVrsqrt i false f) (fun l => rounded (a l).recip.1) ∧ gives (.vrcpVrsqrt i true f) (fun l => rounded (a l).rsqrt.1)))

/-- R82: lane moves. `vsel` takes vA where pC is set and vB elsewhere, `vbcast` the low bits of sA, `vperm` the lane of vA that vB names modulo the
lanes, `vidx` the lane number, `vins` one lane from sA; `vext` extends one lane into sB. Any type. -/
def Claims.VectorMoves : Prop :=
  ∀ (s : State) (i : Issue) (f : BitVec 48), s.CanIssue i → (i.slot = 4 ∨ i.slot = 5) → opET f ≤ 9 →
    let x := s.tile i.tile
    let et := opET f
    let w := etLane et
    let low := (x.getS (opSA f)).toNat % 2 ^ etBits et
    let lane (r l : Nat) : Nat := laneOf w (x.getV r) l
    (opSA f = 0 → opSB f = 0 → opMOD f = 0 → opVC f < 16 →
      LanesGive s i (opVD f) w (fun l => laneVal et (lane (if (x.getP (opVC f)).getLsbD l then opVA f else opVB f) l % 2 ^ etBits et)) (.vsel i f))
    ∧ (opVA f = 0 → opVB f = 0 → opVC f = 0 → opSB f = 0 → opMOD f = 0 → LanesGive s i (opVD f) w (fun _ => laneVal et low) (.vbcast i f))
    ∧ (opVC f = 0 → opSA f = 0 → opSB f = 0 → opMOD f = 0 →
      LanesGive s i (opVD f) w (fun l => lane (opVA f) (lane (opVB f) l % (2048 / w))) (.vperm i f))
    ∧ (4 ≤ et → f.extractLsb' 16 27 = 0 → opMOD f = 0 → LanesGive s i (opVD f) w (fun l => l % 2 ^ etBits et) (.vidx i f))
    ∧ (opVA f = 0 → opVB f = 0 → opVC f = 0 → opSB f = 0 → opMOD f < 2048 / w →
        ∃ t, exec (.vins i f) s = .next t ∧ PastBundle s t i.tile (· = .v (opVD f)) ∧ ∀ l, l < 2048 / w →
          laneOf w ((t.tile i.tile).getV (opVD f)) l = if l = opMOD f ∧ l < x.vlen ∧ (x.getP i.guard.toNat).getLsbD l = true then laneVal et low
            else lane (opVD f) l)
    ∧ (opVD f = 0 → opVB f = 0 → opVC f = 0 → opSA f = 0 → opMOD f < 2048 / w →
        ∃ t, exec (.vext i f) s = .next t ∧ PastBundle s t i.tile (· = .s (opSB f))
          ∧ (opSB f ≠ 0 → (t.tile i.tile).getS (opSB f)
              = if etSigned et then BitVec.ofInt 64 (sx (etBits et) (lane (opVA f) (opMOD f))) else BitVec.ofNat 64 (lane (opVA f) (opMOD f) % 2 ^ etBits et)))

/-- R82, R31: compares write the bit of each enabled lane in pD and leave its other bits, integers by value and floating-point numbers by value with
no relation true of a NaN; `setvl` writes min(sA, 64) to VL and to sB. -/
def Claims.VectorCompareAndLength : Prop :=
  ∀ (s : State) (i : Issue) (f : BitVec 48), s.CanIssue i → (i.slot = 4 ∨ i.slot = 5) →
    let x := s.tile i.tile
    let et := opET f
    let w := etLane et
    let bc := opMOD f = 2048
    let a (l : Nat) : Nat := laneOf w (x.getV (opVA f)) l % 2 ^ etBits et
    let b (l : Nat) : Nat := if bc then (x.getS (opSA f)).toNat % 2 ^ etBits et else laneOf w (x.getV (opVB f)) l % 2 ^ etBits et
    let less (u v : Nat) : Bool := if et ≤ 3 then (decodeNum (etFmt et) u).lt (decodeNum (etFmt et) v) else decide (intOf et u < intOf et v)
    let same (u v : Nat) : Bool := if et ≤ 3 then (decodeNum (etFmt et) u).eqv (decodeNum (etFmt et) v) else u == v
    let nan (u : Nat) : Prop := et ≤ 3 ∧ decodeNum (etFmt et) u = .nan
    let rel (r : VRel) (l : Nat) : Prop := ¬ nan (a l) ∧ ¬ nan (b l) ∧
      match r with | .eq => same (a l) (b l) = true | .lt => less (a l) (b l) = true | .le => (less (a l) (b l) || same (a l) (b l)) = true
    (et ≤ 9 → opVC f = 0 → opSB f = 0 → 0 < opVD f → opVD f < 16 → (opMOD f = 0 ∧ opSA f = 0 ∨ bc ∧ opVB f = 0) → ∀ r,
      ∃ t, exec (.vcmp i r f) s = .next t ∧ PastBundle s t i.tile (· = .p (opVD f)) ∧ ∀ l, l < 64 →
        (l < 2048 / w → s.lane i l → (((t.tile i.tile).getP (opVD f)).getLsbD l = true ↔ rel r l))
        ∧ (¬ (l < 2048 / w ∧ s.lane i l) → ((t.tile i.tile).getP (opVD f)).getLsbD l = (x.getP (opVD f)).getLsbD l))
    ∧ (f.extractLsb' 28 20 = 0 → f.extractLsb' 0 16 = 0 →
        ∃ t, exec (.setvl i f) s = .next t ∧ PastBundle s t i.tile (· = .s (opSB f))
          ∧ (t.tile i.tile).sys.vl = BitVec.ofNat 64 (min (x.getS (opSA f)).toNat 64)
          ∧ (opSB f ≠ 0 → (t.tile i.tile).getS (opSB f) = BitVec.ofNat 64 (min (x.getS (opSA f)).toNat 64)))

/-- (1) R82: lane moves. `vsel` takes vA where pC is set and vB elsewhere, `vbcast` the low bits of sA, `vperm` the lane of vA that vB names
modulo the lanes, `vidx` the lane number, `vins` one lane from sA; `vext` extends one lane into sB. Any type. (2) R82, R31: compares write
the bit of each enabled lane in pD and leave its other bits, integers by value and floating-point numbers by value with no relation true of
a NaN; `setvl` writes min(sA, 64) to VL and to sB. -/
def Obligations.VectorMovesAndCompares : Prop :=
  Claims.VectorMoves ∧ Claims.VectorCompareAndLength

/-- R83, R82: `vcvt` from any type to any, with the rounding of MOD[5:4]: between integers it wraps, or takes the nearest bound with MOD[6]; a number
that no integer of the type is near gives the type's minimum, or the nearest bound, and a NaN zero; an overflow between floating-point types gives
an infinity, or with MOD[6] the largest finite value; that of an integer what IEEE 754 gives in the rounding. The lanes are those of the wider element. `vpack` packs elements into quarter or half
registers and `vunpack` takes them out again. -/
def Obligations.VectorConversions : Prop :=
  ∀ (s : State) (i : Issue) (f : BitVec 48), s.CanIssue i → (i.slot = 4 ∨ i.slot = 5) → f.extractLsb' 16 22 = 0 → opET f ≤ 9 →
    let x := s.tile i.tile
    let et := opET f
    let dst := opMOD f % 16
    let rnd : Rnd := match opMOD f / 16 % 4 with | 0 => .even | 1 => .zero | 2 => .down | _ => .up
    let sat := decide (64 ≤ opMOD f)
    let elem (l : Nat) : Nat := laneOf (etLane et) (x.getV (opVA f)) l % 2 ^ etBits et
    let near (v : Int) : Int := max (intMin dst) (min (intMax dst) v)
    let stops (v : Int) : Bool := match rnd with | .even => false | .zero => true | .down => decide (0 ≤ v) | _ => decide (v < 0)
    let code (l : Nat) : Nat :=
      if 4 ≤ et ∧ 4 ≤ dst then wrapN (etBits dst) (if sat then near (intOf et (elem l)) else intOf et (elem l))
      else if 4 ≤ et then (roundTo (etFmt dst) rnd (sat || stops (intOf et (elem l))) (FpNum.ofInt (intOf et (elem l)))).1
      else match decodeNum (etFmt et) (elem l) with
        | .nan => if dst ≤ 3 then nanCode (etFmt dst) else 0
        | .inf neg => if dst ≤ 3 then (roundTo (etFmt dst) rnd false (.inf neg)).1
            else wrapN (etBits dst) (if sat && !neg then intMax dst else intMin dst)
        | .fin neg m e => if dst ≤ 3 then (roundTo (etFmt dst) rnd sat (.fin neg m e)).1
            else let v := (FpNum.toInt rnd neg m e).1
              wrapN (etBits dst) (if near v = v then v else if sat then near v else intMin dst)
    (dst ≤ 9 → opMOD f < 128 → ∃ t, exec (.vcvt i f) s = .next t ∧ PastBundle s t i.tile (· = .v (opVD f)) ∧ ∀ l, l < 2048 / etLane dst →
      (l < 2048 / etLane et → s.lane i l → laneOf (etLane dst) ((t.tile i.tile).getV (opVD f)) l = laneVal dst (code l))
      ∧ (¬ (l < 2048 / etLane et ∧ s.lane i l) →
          laneOf (etLane dst) ((t.tile i.tile).getV (opVD f)) l = laneOf (etLane dst) (x.getV (opVD f)) l))
    ∧ ((et = 2 ∨ et = 3 ∨ et = 6 ∨ et = 7 ∨ et = 8 ∨ et = 9) → opMOD f < (if etBits et = 16 then 2 else 4) →
        (∃ t, exec (.vpack i f) s = .next t ∧ PastBundle s t i.tile (· = .v (opVD f)) ∧ ∀ k, k < 2048 / etBits et →
          laneOf (etBits et) ((t.tile i.tile).getV (opVD f)) k =
            if 64 * opMOD f ≤ k ∧ k < 64 * opMOD f + 64 ∧ k - 64 * opMOD f < x.vlen ∧ (x.getP i.guard.toNat).getLsbD (k - 64 * opMOD f) = true
            then elem (k - 64 * opMOD f) else laneOf (etBits et) (x.getV (opVD f)) k)
        ∧ LanesGive s i (opVD f) 32 (fun l => laneVal et (laneOf (etBits et) (x.getV (opVA f)) (64 * opMOD f + l))) (.vunpack i f))

/-- R84: reductions. The integer `vred` leaves in lane 0 the sum of the enabled elements modulo 2 to the type's width, their greatest or their
least; the floating-point `vred` the value of the binary tree over all lanes, in which a lane that is not enabled counts as −0, −∞ or +∞. `vredn`
combines MOD[4:0] + 1 registers from vA on, lane by lane and from the first on, by the operation MOD[6:5] names. The other lanes of vD stay. -/
def Obligations.VectorReductions : Prop :=
  ∀ (s : State) (i : Issue) (f : BitVec 48), s.CanIssue i → (i.slot = 4 ∨ i.slot = 5) → f.extractLsb' 16 22 = 0 → opET f ≤ 9 →
    let x := s.tile i.tile
    let et := opET f
    let w := etLane et
    let fm := etFmt et
    let elem (r l : Nat) : Nat := laneOf w (x.getV r) l % 2 ^ etBits et
    let on : List Nat := (List.range (2048 / w)).filter fun l => decide (l < x.vlen) && (x.getP i.guard.toNat).getLsbD l
    let code (v : Int) : Nat := wrapN (etBits et) v
    let ints (r : Nat) : List Int := on.map fun l => intOf et (elem r l)
    let fp2 (k a b : Nat) : Nat :=
      let u := decodeNum fm a
      let v := decodeNum fm b
      let first := (u.lt v || (u.eqv v && u.isNeg && !v.isNeg)) != (k == 1)
      if k = 0 then (roundTo fm .even false (FpNum.add false u v).1).1
      else if u = .nan ∧ v = .nan then nanCode fm else if u = .nan then b else if v = .nan then a else if first then a else b
    let int2 (k : Nat) (a b : Int) : Int := if k = 0 then a + b else if k = 1 then max a b else min a b
    let step2 (k a b : Nat) : Nat := if et ≤ 3 then fp2 k a b else code (int2 k (intOf et a) (intOf et b))
    let unit (k : Nat) : Nat := if k = 0 then signBit fm else if k = 1 then signBit fm + infCode fm else infCode fm
    let leaf (k l : Nat) : Nat := if l ∈ on then elem (opVA f) l else unit k
    let tree4 (k b : Nat) : Nat := fp2 k (fp2 k (leaf k b) (leaf k (b + 1))) (fp2 k (leaf k (b + 2)) (leaf k (b + 3)))
    let tree16 (k b : Nat) : Nat := fp2 k (fp2 k (tree4 k b) (tree4 k (b + 4))) (fp2 k (tree4 k (b + 8)) (tree4 k (b + 12)))
    let tree32 (k b : Nat) : Nat := fp2 k (tree16 k b) (tree16 k (b + 16))
    let tree (k : Nat) : Nat := if et = 1 then tree32 k 0 else fp2 k (tree32 k 0) (tree32 k 32)
    let lane0 (c : Instr) (v : Nat) : Prop := ∃ t, exec c s = .next t ∧ PastBundle s t i.tile (· = .v (opVD f))
      ∧ laneOf w ((t.tile i.tile).getV (opVD f)) 0 = laneVal et v
      ∧ ∀ l, 0 < l → l < 2048 / w → laneOf w ((t.tile i.tile).getV (opVD f)) l = laneOf w (x.getV (opVD f)) l
    (4 ≤ et → opMOD f = 0 → lane0 (.vred i .add f) (code ((ints (opVA f)).foldl (· + ·) 0))
      ∧ lane0 (.vred i .max f) (code ((ints (opVA f)).foldl max (intMin et))) ∧ lane0 (.vred i .min f) (code ((ints (opVA f)).foldl min (intMax et))))
    ∧ (et ≤ 3 → opMOD f = 0 → lane0 (.vred i .add f) (tree 0) ∧ lane0 (.vred i .max f) (tree 1) ∧ lane0 (.vred i .min f) (tree 2))
    ∧ (opMOD f < 96 → opVA f + opMOD f % 32 ≤ 31 → LanesGive s i (opVD f) w (fun l =>
        laneVal et ((List.range (opMOD f % 32)).foldl (fun r j => step2 (opMOD f / 32) r (elem (opVA f + j + 1) l)) (elem (opVA f) l))) (.vredn i f))

/-- R85: `vgth` loads each enabled element from Silt at sA + index × size, `vsct` stores it there; element addresses are taken modulo 512 KiB with
the low bits of the size cleared. Of two elements stored at one place the later stands, and no other byte of Silt changes. -/
def Claims.VectorGatherScatter : Prop :=
  ∀ (s : State) (i : Issue) (f : BitVec 48), s.CanIssue i → (i.slot = 4 ∨ i.slot = 5) → opVC f = 0 → opSB f = 0 → opMOD f = 0 →
    (opET f = 0 ∨ opET f = 1 ∨ opET f = 4 ∨ opET f = 5) →
    let x := s.tile i.tile
    let w := etLane (opET f)
    let size := w / 8
    let off (l : Nat) : Nat := ((x.getS (opSA f)).toNat + laneOf w (x.getV (opVA f)) l * size) % 524288 / size * size
    (opVB f = 0 → x.siltBad = [] → x.incoming = [] →
      LanesGive s i (opVD f) w (fun l => ofLe ((List.range size).map fun k => Tab.look 0 x.silt (off l + k))) (.vgth i f))
    ∧ (opVD f = 0 → ∃ t, exec (.vsct i f) s = .next t ∧ (t.tile i.tile).pc = x.pc + 64 ∧ SameRegs x (t.tile i.tile) (fun _ => False)
        ∧ SameMemory s t ∧ SameTiles s t i.tile
        ∧ (∀ l, l < 2048 / w → s.lane i l → (∀ m, l < m → m < 2048 / w → s.lane i m → off m ≠ off l) →
            ∀ k, k < size → Tab.look 0 (t.tile i.tile).silt (off l + k) = BitVec.ofNat 8 (laneOf w (x.getV (opVB f)) l / 256 ^ k))
        ∧ ∀ a, (∀ l, l < 2048 / w → s.lane i l → ¬ (off l ≤ a ∧ a < off l + size)) → Tab.look 0 (t.tile i.tile).silt a = Tab.look 0 x.silt a)

/-- R85: `vsort` leaves the enabled elements in the enabled lanes in rising order, each as often as before; `vsorti` leaves the numbers of the lanes
they came from, each enabled lane once, with equal elements in lane order. Lanes that are not enabled stay. -/
def Claims.VectorSort : Prop :=
  ∀ (s : State) (i : Issue) (f : BitVec 48), s.CanIssue i → (i.slot = 4 ∨ i.slot = 5) → f.extractLsb' 16 22 = 0 → opMOD f = 0 →
    opET f ≤ 9 → opVD f ≠ opVA f →
    let x := s.tile i.tile
    let et := opET f
    let w := etLane et
    let on : List Nat := (List.range (2048 / w)).filter fun l => decide (l < x.vlen) && (x.getP i.guard.toNat).getLsbD l
    let key (l : Nat) : Int := sortKey et (laneOf w (x.getV (opVA f)) l % 2 ^ etBits et)
    let sorts (c : Instr) (of : Nat → Nat) : Prop := ∃ t, exec c s = .next t ∧ PastBundle s t i.tile (· = .v (opVD f))
      ∧ (∃ src : List Nat, src.Perm on ∧ (src.zip (src.drop 1)).all (fun p => decide (key p.1 < key p.2) || (decide (key p.1 = key p.2) && decide (p.1 < p.2))) = true
          ∧ on.map (fun l => laneOf w ((t.tile i.tile).getV (opVD f)) l) = src.map of)
      ∧ ∀ l, l < 2048 / w → l ∉ on → laneOf w ((t.tile i.tile).getV (opVD f)) l = laneOf w (x.getV (opVD f)) l
    sorts (.vsort i f) (fun l => laneVal et (laneOf w (x.getV (opVA f)) l % 2 ^ etBits et)) ∧ sorts (.vsorti i f) (fun l => laneVal et l)

/-- (1) R85: `vgth` loads each enabled element from Silt at sA + index × size, `vsct` stores it there; element addresses are taken modulo 512
KiB with the low bits of the size cleared. Of two elements stored at one place the later stands, and no other byte of Silt changes. (2) R85:
`vsort` leaves the enabled elements in the enabled lanes in rising order, each as often as before; `vsorti` leaves the numbers of the lanes
they came from, each enabled lane once, with equal elements in lane order. Lanes that are not enabled stay. -/
def Obligations.VectorGatherAndSort : Prop :=
  Claims.VectorGatherScatter ∧ Claims.VectorSort

/-! ### The matrix engines (R42, R55, R87, R88, R104, R109, R114–R118) -/

/-- R42, R87, R114: a legal `mmac` or `mout` on an idle engine takes its copies (MSYL the syllable, MOPAe and MOPBe the values of sA and sB) and
starts the engine at unit 0 of stage 0 or 1; nothing else of the tile's registers or memory changes, nor another engine. -/
def Claims.MatrixDispatch : Prop :=
  ∀ (s : State) (i : Issue) (f : BitVec 48), s.CanIssue i → s.guarded i → i.slot = 6 →
    let x := s.tile i.tile
    let e := (f.extractLsb' 46 2).toNat
    let goes (c : Instr) (op : Nat) (mcur : W64) : Prop := syllableOk x (syllable 6 op i.guard f) = true → (x.engine e).idle = true →
      ∃ t u v, exec c s = .next t ∧ PastBundle s t i.tile (fun _ => False)
        ∧ (t.tile i.tile).engine e = { mcur := mcur, msyl := syllable 6 op i.guard f, mopa := x.getS (f.extractLsb' 28 6).toNat
                                       mopb := x.getS (f.extractLsb' 22 6).toNat, running := true, undef := u, seedUndef := v }
        ∧ (x.haz.stores = [] → x.haz.mseedOpen = false → u = false ∧ v = false)
        ∧ ∀ n, n < 4 → n ≠ e → (t.tile i.tile).engine n = x.engine n
    goes (.mmac i f) 1 0x8000000000000000 ∧ goes (.mout i f) 2 0x8000000100000000

/-- R88, Table 3-11: the accumulator moves, on an engine that does not run. `mzero` clears one accumulator tile, `mrd` reads rows 2·ROWP and
2·ROWP + 1 of it into vD, `mwr` writes them from vA, `mst` stores all 32 rows to 4 KiB of Silt and `mld` loads them. -/
def Obligations.AccumulatorMoves : Prop :=
  ∀ (s : State) (i : Issue) (f : BitVec 48), s.CanIssue i → s.guarded i → i.slot = 6 →
    let x := s.tile i.tile
    let e := (f.extractLsb' 46 2).toNat
    let k := (f.extractLsb' 42 4).toNat
    let vr := (f.extractLsb' 37 5).toNat
    let off := (x.getS (f.extractLsb' 31 6).toNat).toNat % 524288 / 4096 * 4096
    let row := 2 * (f.extractLsb' 23 4).toNat
    let rest (t : State) (ex : Reg → Prop) : Prop := (t.tile i.tile).pc = x.pc + 64
      ∧ (∀ n, (t.tile i.tile).getS n = x.getS n ∧ (t.tile i.tile).getP n = x.getP n) ∧ (∀ n, ¬ ex (.v n) → (t.tile i.tile).getV n = x.getV n)
      ∧ SameMemory s t ∧ SameTiles s t i.tile
    let accs (t : State) (val : Nat → Nat → Option W32) : Prop := ∀ e' k' a b, e' < 4 → k' < 16 → a < 32 → b < 32 →
      (t.tile i.tile).getAcc e' k' a b = if e' = e ∧ k' = k then (val a b).getD (x.getAcc e' k' a b) else x.getAcc e' k' a b
    (x.engine e).running = false →
    (f.extractLsb' 0 42 = 0 → ∃ t, exec (.mzero i f) s = .next t ∧ rest t (fun _ => False) ∧ SameSilt x (t.tile i.tile) ∧ accs t fun _ _ => some 0)
    ∧ (f.extractLsb' 0 23 = 0 → f.extractLsb' 27 10 = 0 →
        (∃ t, exec (.mrd i f) s = .next t ∧ rest t (· = .v vr) ∧ SameSilt x (t.tile i.tile) ∧ (accs t fun _ _ => none)
          ∧ ∀ l, l < 64 → laneOf 32 ((t.tile i.tile).getV vr) l = (x.getAcc e k (row + l / 32) (l % 32)).toNat)
        ∧ ∃ t, exec (.mwr i f) s = .next t ∧ rest t (fun _ => False) ∧ SameSilt x (t.tile i.tile)
          ∧ accs t fun a b => if row ≤ a ∧ a < row + 2 then some (BitVec.ofNat 32 (laneOf 32 (x.getV vr) (32 * (a - row) + b))) else none)
    ∧ (f.extractLsb' 0 31 = 0 → f.extractLsb' 37 5 = 0 →
        (∃ t, exec (.mst i f) s = .next t ∧ rest t (fun _ => False) ∧ (accs t fun _ _ => none)
          ∧ ∀ a, a < 524288 → Tab.look 0 (t.tile i.tile).silt a = if off ≤ a ∧ a < off + 4096
              then BitVec.ofNat 8 ((x.getAcc e k ((a - off) / 128) ((a - off) / 4 % 32)).toNat / 256 ^ ((a - off) % 4)) else Tab.look 0 x.silt a)
        ∧ (x.siltBad = [] → ∃ t, exec (.mld i f) s = .next t ∧ rest t (fun _ => False) ∧ SameSilt x (t.tile i.tile)
          ∧ accs t fun a b => some (BitVec.ofNat 32 (ofLe ((List.range 4).map fun q => Tab.look 0 x.silt (off + 128 * a + 4 * b + q))))))

/-- R42, R44, R55, R88: a dispatch waits until its engine is idle, accumulator moves, `mresume` and `mabort` until it does not run, and `mwait` until no engine
of its mask runs or is faulted; a bundle that waits changes nothing. In supervisor mode `mresume` restarts a held or faulted engine at its unit and
`mabort` clears VALID and FAULTED and keeps the accumulators. -/
def Claims.EngineControl : Prop :=
  ∀ (s : State) (i : Issue) (f : BitVec 48), s.CanIssue i → s.guarded i → i.slot = 6 →
    let x := s.tile i.tile
    let e := (f.extractLsb' 46 2).toNat
    let legal (op : Nat) : Prop := syllableOk x (syllable 6 op i.guard f) = true
    ((x.engine e).running = true →
      (legal 1 → exec (.mmac i f) s = .next s) ∧ (legal 2 → exec (.mout i f) s = .next s) ∧ (legal 0x10 → exec (.mzero i f) s = .next s)
      ∧ (legal 0x11 → exec (.mrd i f) s = .next s ∧ exec (.mwr i f) s = .next s) ∧ (legal 0x13 → exec (.mst i f) s = .next s ∧ exec (.mld i f) s = .next s)
      ∧ (legal 0x21 → s.Supervisor i.tile → exec (.mresume i f) s = .next s)
      ∧ (legal 0x22 → s.Supervisor i.tile → exec (.mabort i f) s = .next s))
    ∧ (legal 0x20 →
        ((∃ n, n < 4 ∧ (f.extractLsb' 27 4).getLsbD n = true ∧ ((x.engine n).running = true ∨ (x.engine n).mcur.getLsbD 62 = true)) →
          exec (.mwait i f) s = .next s)
        ∧ ((∀ n, n < 4 → (f.extractLsb' 27 4).getLsbD n = true → (x.engine n).running = false ∧ (x.engine n).mcur.getLsbD 62 = false) →
          exec (.mwait i f) s = .next (s.ran i.tile id)))
    ∧ (f.extractLsb' 0 46 = 0 → s.Supervisor i.tile →
        ((x.engine e).mcur.getLsbD 63 = true → (x.engine e).running = false → ∃ t, exec (.mresume i f) s = .next t ∧ PastBundle s t i.tile (fun _ => False)
          ∧ ((t.tile i.tile).engine e).running = true
          ∧ ((t.tile i.tile).engine e).mcur = ((x.engine e).mcur &&& 0x8000000FFFFFFFFF)
          ∧ ((t.tile i.tile).engine e).msyl = (x.engine e).msyl)
        ∧ ((x.engine e).mcur.getLsbD 63 = false → (x.engine e).running = false → exec (.mresume i f) s = .next (s.ran i.tile id))
        ∧ ((x.engine e).running = false → ∃ t, exec (.mabort i f) s = .next t ∧ PastBundle s t i.tile (fun _ => False)
          ∧ ((t.tile i.tile).engine e).running = false ∧ ((t.tile i.tile).engine e).mcur = ((x.engine e).mcur &&& 0xFFFFFFFFF)))

/-- (1) R42, R87, R114: a legal `mmac` or `mout` on an idle engine takes its copies (MSYL the syllable, MOPAe and MOPBe the values of sA and sB)
and starts the engine at unit 0 of stage 0 or 1; nothing else of the tile's registers or memory changes, nor another engine. (2) R42, R44,
R55, R88: a dispatch waits until its engine is idle, accumulator moves, `mresume` and `mabort` until it does not run, and `mwait` until no
engine of its mask runs or is faulted; a bundle that waits changes nothing. In supervisor mode `mresume` restarts a held or faulted engine
at its unit and `mabort` clears VALID and FAULTED and keeps the accumulators. -/
def Obligations.EngineDispatchAndControl : Prop :=
  Claims.MatrixDispatch ∧ Claims.EngineControl

/-- R104, R109, R114, R98, R302: one unit of a running engine. In stage 0 element (i, j) of the accumulator tile becomes its old value (or zero, in
unit 0 with ZERO) plus the scaled block sum of vector i of block u of A and vector j of block u of B, rounded once; MCUR counts the unit, and the
last one goes on to stage 1 or ends the instruction. In stage 1 row u is converted and stored at C_OFF, with its scale byte after the 1,024
bytes of an FP8 tile. Each unit's cycles count against the governor. -/
def Claims.MatrixUnits : Prop :=
  ∀ (s : State) (t : Fin 1024) (n : Fin 4), s.Inv →
    let x := s.tile t
    let e := x.engine n
    let w := e.msyl
    let u := (e.mcur.extractLsb' 0 32).toNat
    let fa := (w.extractLsb' 38 4).toNat
    let fb := (w.extractLsb' 34 4).toNat
    let k := (w.extractLsb' 42 4).toNat
    let kb := (e.mopa.extractLsb' 38 12).toNat
    let off (m : W64) (lo : Nat) : Nat := (m.extractLsb' lo 14).toNat * 32
    let silt (o m : Nat) : List Byte := (List.range m).map fun q => Tab.look 0 x.silt ((o + q) % 524288)
    e.running = true → e.mcur.getLsbD 63 = true → e.mcur.getLsbD 62 = false → s.top.st ≠ .faulted → s.mayStart t = true → x.stopping = false →
    e.ahead = none → e.undef = false → e.seedUndef = false →
    (e.mcur.extractLsb' 32 4 = 0 → u < kb → x.siltBad = [] → ∀ bb,
      (if w.getLsbD 21 = true then ∃ r, e.blocks.find? (fun r => decide (r.index = u)) = some r ∧ r.bytes = some bb
        else bb = silt (off e.mopb 5 + u * blockBytes fb) (blockBytes fb)) →
      ∃ t', exec (.matrixUnitComplete t n) s = .next t' ∧ SameMemory s t' ∧ SameSilt x (t'.tile t) ∧ SameTiles s t' t
        ∧ ((t'.tile t).engine n).running = (decide (u + 1 < kb) || w.getLsbD 19)
        ∧ ((t'.tile t).engine n).mcur = (if u + 1 < kb then BitVec.ofNat 64 (2 ^ 63 + u + 1) else if w.getLsbD 19 = true then 0x8000000100000000
            else BitVec.ofNat 64 kb)
        ∧ (t'.gov t).spent = (s.gov t).spent + (if fb = 9 then 8 else if fa ≤ 1 then 128 else if fa ≤ 4 then 32 else 16)
        ∧ ∀ m q a b, m < 4 → q < 16 → a < 32 → b < 32 → (t'.tile t).getAcc m q a b = if m = n.val ∧ q = k then
            BitVec.ofNat 32 (accStep (if w.getLsbD 20 = true ∧ u = 0 then 0 else (x.getAcc m q a b).toNat)
              (blockSum (blockVector fa (silt (off e.mopa 5 + u * blockBytes fa) (blockBytes fa)) a) (blockVector fb bb b))).1
            else x.getAcc m q a b)
    ∧ (e.mcur.extractLsb' 32 4 = 1 → u < 32 →
      let ofmt := (w.extractLsb' 15 4).toNat
      let r := unitRow ofmt (w.getLsbD 14) (w.getLsbD 13) (w.getLsbD 12) (e.mopb.extractLsb' 32 32).toNat
        (fun j => srDraw x.sys.mseed (off e.mopa 24) u j) ((List.range 32).map fun j => (x.getAcc n k u j).toNat)
      ∃ t', exec (.matrixUnitComplete t n) s = .next t' ∧ SameMemory s t' ∧ SameRegs x (t'.tile t) (fun _ => False) ∧ SameTiles s t' t
        ∧ ((t'.tile t).engine n).running = decide (u + 1 < 32)
        ∧ ((t'.tile t).engine n).mcur = (if u + 1 < 32 then BitVec.ofNat 64 (2 ^ 63 + 2 ^ 32 + u + 1) else 0x100000020)
        ∧ (t'.gov t).spent = (s.gov t).spent + 2
        ∧ (∀ q, q < r.1.length → Tab.look 0 (t'.tile t).silt ((off e.mopa 24 + u * r.1.length + q) % 524288) = r.1.getD q 0)
        ∧ (∀ b, r.2.1 = some b → Tab.look 0 (t'.tile t).silt ((off e.mopa 24 + 1024 + u) % 524288) = b)
        ∧ ∀ a, a < 524288 → (∀ q, q < r.1.length → a ≠ (off e.mopa 24 + u * r.1.length + q) % 524288) →
            (r.2.1 = none ∨ a ≠ (off e.mopa 24 + 1024 + u) % 524288) → Tab.look 0 (t'.tile t).silt a = Tab.look 0 x.silt a)

/-- R116, R117: a streaming engine takes the next block of operand B, at most four ahead of the unit in progress, from translated memory; a
translation fault at the unit in progress stops the engine with FAULTED and EFP set, and one further ahead waits for its unit. -/
def Claims.StreamBlocks : Prop :=
  ∀ (s : State) (t : Fin 1024) (n : Fin 4) (a : Answer), s.Inv →
    let x := s.tile t
    let e := x.engine n
    let size := blockBytes (e.msyl.extractLsb' 34 4).toNat
    let u := e.nextBlock
    let va := (e.mopb.extractLsb' 6 51).toNat * 64 + u * size
    let xlat := s.translate (.engine t n) x.ctxNo x.asid va .stream false
    e.running = true → e.mcur.getLsbD 63 = true → e.mcur.getLsbD 62 = false → e.msyl.getLsbD 21 = true → e.mcur.extractLsb' 32 4 = 0 → e.ahead = none →
    x.stopping = false → u < (e.mopa.extractLsb' 38 12).toNat → u ≤ (e.mcur.extractLsb' 0 32).toNat + 4 → s.top.st ≠ .faulted →
    va % 65536 + size ≤ 65536 → s.cmd.hostHeld = [] →
    (∀ pa, xlat = .hit pa → ((∃ k, targetOf pa = .hbm k ∧ s.stackUp k = true) ∨ ∃ b, targetOf pa = .loam b) →
      (∀ b m, markIn s.mem.bad pa b m = none) →
      ∃ t', exec (.streamBlockArrival t n a) s = .next t' ∧ SameMemory s t' ∧ SameRegs x (t'.tile t) (fun _ => False) ∧ SameSilt x (t'.tile t)
        ∧ SameTiles s t' t
        ∧ (t'.tile t).engine n = { e with blocks := e.blocks ++ [{ index := u, bytes := some (Tab.readN 0 s.mem.phys pa size) }] })
    ∧ (∀ f, xlat = .fault f → ∃ t', exec (.streamBlockArrival t n a) s = .next t' ∧ SameMemory s t' ∧ SameRegs x (t'.tile t) (fun _ => False)
        ∧ SameTiles s t' t
        ∧ (u = (e.mcur.extractLsb' 0 32).toNat → ((t'.tile t).engine n).mcur = e.mcur ||| 0x4000000000000000
            ∧ ((t'.tile t).engine n).running = false ∧ (t'.tile t).sys.tstatus.getLsbD (32 + n) = true)
        ∧ ((e.mcur.extractLsb' 0 32).toNat < u → ((t'.tile t).engine n).ahead = some (u, BitVec.ofNat 64 (va / 64 * 64), trapCode f.kind)
            ∧ ((t'.tile t).engine n).mcur = e.mcur))

/-- (1) R104, R109, R114, R98, R302: one unit of a running engine. In stage 0 element (i, j) of the accumulator tile becomes its old value (or
zero, in unit 0 with ZERO) plus the scaled block sum of vector i of block u of A and vector j of block u of B, rounded once; MCUR counts the
unit, and the last one goes on to stage 1 or ends the instruction. In stage 1 row u is converted and stored at C_OFF, with its scale byte
after the 1,024 bytes of an FP8 tile. Each unit's cycles count against the governor. (2) R116, R117: a streaming engine takes the next block
of operand B, at most four ahead of the unit in progress, from translated memory; a translation fault at the unit in progress stops the
engine with FAULTED and EFP set, and one further ahead waits for its unit. -/
def Obligations.MatrixUnitsAndStreams : Prop :=
  Claims.MatrixUnits ∧ Claims.StreamBlocks

/-! ### Streams and synchronisation (R90–R95) -/

/-- R90–R95: a stream syllable whose counter or mover the context holds executes. `mvq` reserves an entry of the mover's queue; it, `bar.arv` and
`cad.done` become releases ordered behind every far access of the tile. `bar.wt` holds its bundle until the counter has reached the low half of sA,
`bar.arm` arms the tile's notification and `bar.rd` reads the counter. -/
def Obligations.StreamSync : Prop :=
  ∀ (s : State) (i : Issue) (f : BitVec 48), s.CanIssue i → s.guarded i → i.slot = 7 → f.extractLsb' 16 10 = 0 →
    let x := s.tile i.tile
    let c := (f.extractLsb' 26 10).toNat
    let ra := (f.extractLsb' 42 6).toNat
    let rb := (f.extractLsb' 36 6).toNat
    let releases (cmd : Instr) (k : ReleaseKind) : Prop := ∃ t, exec cmd s = .next t ∧ PastBundle s t i.tile (fun _ => False) ∧ t.eng.ctr = s.eng.ctr
      ∧ (t.tile i.tile).releases = x.releases ++ [{ what := k, before := x.farNext }]
    let target : W32 := (x.getS ra).setWidth 32
    let is : Bool := !(s.ctr c - target).getLsbD 31
    (f = 0 → releases (.cadDone i f) .cadDone)
    ∧ (Tab.look none s.eng.ctrGrant c = some x.ctxNo →
        (ra = 0 → rb = 0 → releases (.barArv i f) (.barArv c (f.extractLsb' 0 16).toNat))
        ∧ (rb = 0 → f.extractLsb' 0 16 = 0 →
          (is = false → exec (.barWt i f) s = .next s)
          ∧ (is = true → s.pow.staggerEn = false → exec (.barWt i f) s = .next (s.ran i.tile id))
          ∧ ∃ t, exec (.barArm i f) s = .next t ∧ PastBundle s t i.tile (fun _ => False) ∧ t.eng.ctr = s.eng.ctr
            ∧ (t.tile i.tile).armed = (if is then none else some (c, target))
            ∧ (t.tile i.tile).sys.tip = (if is then x.sys.tip ||| 8 else x.sys.tip))
        ∧ (ra = 0 → f.extractLsb' 0 16 = 0 → exec (.barRd i f) s = .next (s.ran i.tile fun y => y.setS rb ((s.ctr c).setWidth 64))))
    ∧ (let b := i.tile.val / 256
       let m := ((x.getS rb).extractLsb' 0 5).toNat
       let v := s.mover b m
       let new : MovEntry :=
         { num := v.nextNum, released := false, va := 0, ctx := x.ctxNo, tile := i.tile.val, words := none, late := !v.en
           lateStatus := if v.drain then 2 else 3 }
       f.extractLsb' 0 36 = 0 → x.getS rb < 32 → v.granted = true → v.ctx.toNat = x.ctxNo → v.queue.length + (if v.run.isSome then 1 else 0) < 16 →
        releases (.mvq i f) (.mvq m v.nextNum (x.getS ra &&& ~~~ 63))
        ∧ ∃ t, exec (.mvq i f) s = .next t ∧ (t.mover b m).queue = v.queue ++ [new] ∧ (t.mover b m).nextNum = v.nextNum + 1)

/-- R92, R90, R94, R93, R267, R138: a release is performed once no earlier far access of its tile is outstanding, and until then nothing happens. `bar.arv`
adds to the counter modulo 2³² and fires every armed notification that it satisfies, once; `mvq` gives its entry the descriptor's address;
the first `cad.done` of a period before the deadline counts, a later one does nothing, nor does one of a tile that no armed cadence has as a member. -/
def Obligations.ReleasesPerform : Prop :=
  ∀ (s : State) (t : Fin 1024) (n : Nat) (r : Release), s.Inv → (s.tile t).releases[n]? = some r →
    let x := s.tile t
    let gone (u : State) : Prop := (u.tile t).releases = x.releases.eraseIdx n ∧ (u.tile t).pc = x.pc ∧ SameRegs x (u.tile t) (fun _ => False)
      ∧ SameSilt x (u.tile t) ∧ SameMemory s u
    ((∃ a ∈ x.far, a.id < r.before) → exec (.releasePerformed t n) s = .next s)
    ∧ ((∀ a ∈ x.far, r.before ≤ a.id) →
        (∀ c inc, r.what = .barArv c inc → ∃ u, exec (.releasePerformed t n) s = .next u ∧ gone u ∧ u.ctr c = s.ctr c + BitVec.ofNat 32 inc
          ∧ (∀ d, d ≠ c → u.ctr d = s.ctr d)
          ∧ ∀ m, match (s.tile m).armed with
            | some (d, target) => if d = c ∧ (s.ctr c + BitVec.ofNat 32 inc - target).getLsbD 31 = false
                then (u.tile m).armed = none ∧ (u.tile m).sys.tip = (s.tile m).sys.tip ||| 8
                else (u.tile m).armed = (s.tile m).armed ∧ (u.tile m).sys = (s.tile m).sys
            | none => (u.tile m).armed = none ∧ (u.tile m).sys = (s.tile m).sys)
        ∧ (∀ m e va, r.what = .mvq m e va → ∃ u, exec (.releasePerformed t n) s = .next u ∧ gone u ∧ SameTiles s u t
          ∧ (u.mover (t / 256) m).queue = (s.mover (t / 256) m).queue.map fun q => if q.num = e then { q with released := true, va := va } else q)
        ∧ (∀ k c d, r.what = .cadDone → s.cads.find? (fun p => p.2.runs && (s.cadTiles p.1).contains t.val) = some (k, c) → s.decl k = some d →
          ∃ u, exec (.releasePerformed t n) s = .next u ∧ gone u ∧ SameTiles s u t
            ∧ (u.cad k).done = (if s.clk.gt.toNat < s.deadlineGt k d ∧ t.val ∉ c.done then c.done ++ [t.val] else c.done)
            ∧ (u.cad k).st = c.st ∧ (t.val ∈ c.done → u.cads = s.cads))
        ∧ (r.what = .cadDone → s.cads.find? (fun p => p.2.runs && (s.cadTiles p.1).contains t.val) = none →
          ∃ u, exec (.releasePerformed t n) s = .next u ∧ gone u ∧ SameTiles s u t ∧ u.cads = s.cads))

/-! ### Tiles (R46, R49–R53, R57–R63, R162, R358, R365, R366) -/

/-- R60–R63, R57, R162, R358: the actions of TILE_CTRL on the secure path. STOP latches a stop request, after which no bundle of the tile has an
effect; START runs it from its entry point in supervisor mode with interrupts off; RESET clears its registers, and its end Silt; RESTORE, SOFT
and RETIRE act as their states allow. On another path a write has no effect and is counted. The
way of the path to the registers stands (R20, R224). -/
def Claims.TileActions : Prop :=
  ∀ (s : State) (t : Fin 1024) (p : Path), s.Inv → s.pathUp p = true →
    let x := s.tile t
    let settled : Prop := x.resetting = false ∧ x.restoring = false
    let with_ (c : Instr) (y : Tile) : Prop := exec c s = .next (s.setTile t y)
    (pathSecure p = false → ∀ c ∈ [Instr.tileStop t p, .tileStart t p, .tileReset t p, .tileRestore t p, .tileSoft t p, .tileRetire t p],
      exec c s = .next { s with clm := { s.clm with secureDenied := s.clm.secureDenied + 1 } })
    ∧ (pathSecure p = true →
      (x.st = .running → x.stopping = false → settled → ∃ u, exec (.tileStop t p) s = .next u ∧ (u.tile t).stopping = true
        ∧ (u.tile t).st = .running ∧ SameRegs x (u.tile t) (fun _ => False) ∧ SameSilt x (u.tile t) ∧ SameMemory s u ∧ SameTiles s u t
        ∧ ∀ i f, i.tile = t → exec (.li i f) u = .next u ∧ exec (.stS i .d f) u = .next u ∧ exec (.mmac i f) u = .next u)
      ∧ (x.st = .reset → settled → ∀ e, s.entryOf t = some e → with_ (.tileStart t p) { x with
          st := .running, pc := e &&& ~~~ 63, sys := { x.sys with tstatus := (x.sys.tstatus ||| 1) &&& ~~~ 0x80 } })
      ∧ (x.st = .reset → settled → with_ (.tileRetire t p) { x with st := .retired })
      ∧ ((x.st = .reset ∨ x.st = .stopped) → settled → with_ (.tileRestore t p) { x with restoring := true })
      ∧ (x.st ≠ .stopped → with_ (.tileSoft t p) { x with sys := { x.sys with tip := x.sys.tip ||| 2 } })
      ∧ (x.st = .retired → exec (.tileReset t p) s = .next s)
      ∧ (x.st ≠ .retired → x.saving = false → ∃ u, exec (.tileReset t p) s = .next u ∧ SameSilt x (u.tile t) ∧ SameMemory s u ∧ SameTiles s u t
          ∧ (u.tile t).st = .reset ∧ (u.tile t).resetting = true ∧ (u.tile t).sys = { cycleZero := s.clk.tileCycles }
          ∧ (∀ n, (u.tile t).getS n = 0 ∧ (u.tile t).getV n = 0 ∧ (0 < n → (u.tile t).getP n = 0)) ∧ (u.tile t).acc = []
          ∧ (u.tile t).eng = [] ∧ (u.tile t).sPoison = [] ∧ (u.tile t).vPoison = []
          ∧ (∀ a ∈ x.far, a.kind = .store → ∃ b ∈ (u.tile t).far, b.pa = a.pa ∧ b.data = a.data) ∧ ∀ b ∈ (u.tile t).far, b.dest = .none))
    ∧ (x.resetting = true → s.Calm t → with_ (.tileResetDone t) { x with
        silt := [], siltBad := [], resetting := false, retireDue := false, st := if x.retireDue then .retired else .reset
        sys := { x.sys with cycleZero := s.clk.tileCycles } })

/-- R58, R59, Table 2-13: the save sequencer of a stopped tile writes Silt, the accumulators, the vector, scalar and predicate registers, the
program counter and every system register to the tile's save area, on a stack that is up, and nothing else; then the tile is STOPPED. The end of a restore gives the tile
what the area holds and lets it run. -/
def Claims.TileSaveRestore : Prop :=
  ∀ (s : State) (t : Fin 1024) (a : Nat), s.Inv → s.saveArea t = some a → s.here a → s.cmd.hostHeld = [] →
    let x := s.tile t
    let word (u : State) (o n : Nat) : Nat := ofLe (Tab.readN 0 u.mem.phys (a + o) n)
    let holds (u : State) (y : Tile) : Prop := (∀ k, k < 524288 → Tab.look 0 u.mem.phys (a + k) = Tab.look 0 y.silt k)
      ∧ (∀ e k i j, e < 4 → k < 16 → i < 32 → j < 32 → word u (0x80000 + 4 * (16384 * e + 1024 * k + 32 * i + j)) 4 = (y.getAcc e k i j).toNat)
      ∧ (∀ n, n < 32 → word u (0xC0000 + 256 * n) 256 = (y.getV n).toNat) ∧ (∀ n, 0 < n → n < 64 → word u (0xC2000 + 8 * n) 8 = (y.getS n).toNat)
      ∧ (∀ n, 0 < n → n < 16 → word u (0xC2200 + 8 * n) 8 = (y.getP n).toNat)
    (x.saveReady = true → x.siltBad = [] → ∃ u, exec (.saveSequence t) s = .next u ∧ (u.tile t).saving = true ∧ holds u x
      ∧ word u 0xC2280 8 = x.stopPc.toNat
      ∧ (∀ n, csrListed n = true → word u (0xC2400 + 8 * n) 8 = (csrValue s.clk.gt s.clk.tileCycles t x n).toNat)
      ∧ ∀ b, (b < a ∨ a + 0xC3000 ≤ b) → Tab.look 0 u.mem.phys b = Tab.look 0 s.mem.phys b)
    ∧ (x.saving = true → x.stopping = true → s.Calm t → exec (.saveComplete t) s = .next (s.setTile t { x with
        st := .stopped, stopping := false, saving := false, pc := x.stopPc, longStop := false }))
    ∧ (x.restoring = true → s.Calm t → s.mem.bad = [] → word s 0xC2290 8 = 0 → word s 0xC2298 8 = 0 → word s 0xC2480 8 < 2 ^ 63 →
        ∃ u, exec (.restoreComplete t) s = .next u ∧ SameMemory s u ∧ SameTiles s u t
          ∧ (u.tile t).st = .running ∧ (u.tile t).restoring = false ∧ holds s (u.tile t)
          ∧ (u.tile t).pc = BitVec.ofNat 64 (word s 0xC2280 8 / 64 * 64)
          ∧ (u.tile t).sys.tepc = BitVec.ofNat 64 (word s 0xC2418 8) ∧ (u.tile t).sys.tscratch = BitVec.ofNat 64 (word s 0xC2430 8)
          ∧ (u.tile t).sys.mseed = BitVec.ofNat 64 (word s 0xC2458 8) ∧ (u.tile t).sys.ttimer = BitVec.ofNat 64 (word s 0xC2470 8)
          ∧ ∀ e, e < 4 → ((u.tile t).engine e).msyl = BitVec.ofNat 64 (word s (0xC2600 + 32 * e + 8) 8)
            ∧ ((u.tile t).engine e).mopa = BitVec.ofNat 64 (word s (0xC2600 + 32 * e + 16) 8)
            ∧ ((u.tile t).engine e).mopb = BitVec.ofNat 64 (word s (0xC2600 + 32 * e + 24) 8))

/-- (1) R60–R63, R57, R162, R358: the actions of TILE_CTRL on the secure path. STOP latches a stop request, after which no bundle of the tile
has an effect; START runs it from its entry point in supervisor mode with interrupts off; RESET clears its registers, and its end Silt;
RESTORE, SOFT and RETIRE act as their states allow. On another path a write has no effect and is counted. The way of the path to the
registers stands (R20, R224). (2) R58, R59, Table 2-13: the save sequencer of a stopped tile writes Silt, the accumulators, the vector,
scalar and predicate registers, the program counter and every system register to the tile's save area, on a stack that is up, and nothing
else; then the tile is STOPPED. The end of a restore gives the tile what the area holds and lets it run. -/
def Obligations.TileControl : Prop :=
  Claims.TileActions ∧ Claims.TileSaveRestore

/-- R46, R49, R50, R53, R54, R59, R71, Tables 2-7 and 2-9: at a bundle boundary that is no element boundary of a long instruction the engine fault of the lowest engine whose EFP bit is set is taken before anything,
with its TVAL and SUBCODE, and clears that bit; else, with IE = 1, the enabled interrupt first in the order FAR_STORE_ERROR, TIMER, SOFT, BARRIER, MOVER
is taken at TVEC + 0x200, the first of them consuming its oldest record. A FETCH_FAULT goes to TVEC, but at one of the handlers' own addresses it halts
the tile. A timer match ends the `wfi` that waits for it. -/
def Obligations.TrapsAtBoundaries : Prop :=
  ∀ (s : State) (t : Fin 1024) (f : Fetch), s.Inv → (s.tile t).issues = true → s.top.st ≠ .faulted →
    let x := s.tile t
    let taken (c : Instr) (cause val : W64) (at_ : W64) : Prop := ∃ u, exec c s = .next u ∧
      let y := u.tile t
      y.sys.tcause = cause ∧ y.sys.tval = val ∧ y.sys.tepc = x.pc ∧ y.pc = at_ ∧ y.sys.tstatus.getLsbD 0 = true ∧ y.sys.tstatus.getLsbD 7 = false
        ∧ y.sys.tstatus.getLsbD 4 = x.sys.tstatus.getLsbD 0 ∧ y.sys.tstatus.getLsbD 8 = x.sys.tstatus.getLsbD 7
        ∧ (∀ e, e < 4 → cause ≠ BitVec.ofNat 64 (0x18 + e * 2 ^ 14 + ((x.engine e).faultSub).toNat * 2 ^ 16) → y.sys.tstatus.getLsbD (32 + e) = x.sys.tstatus.getLsbD (32 + e))
        ∧ SameRegs x y (fun _ => False) ∧ SameSilt x y ∧ SameMemory s u ∧ SameTiles s u t
    let due := tipNow s.clk.gt x &&& x.sys.tie
    x.haz.tvecOpen = false → x.longStop = false →
    (∀ e, e < 4 → x.sys.tstatus.getLsbD (32 + e) = true → (∀ d, d < e → x.sys.tstatus.getLsbD (32 + d) = false) →
      taken (.trapEntry t f) (BitVec.ofNat 64 (0x18 + e * 2 ^ 14 + ((x.engine e).faultSub).toNat * 2 ^ 16)) (x.engine e).faultVa x.sys.tvec
      ∧ ∃ u, exec (.trapEntry t f) s = .next u ∧ (u.tile t).sys.tstatus.getLsbD (32 + e) = false)
    ∧ ((∀ e, e < 4 → x.sys.tstatus.getLsbD (32 + e) = false) → f = .none →
        (x.sys.tstatus.getLsbD 7 = true → x.fetchFault = none →
          (∃ pa, s.translate (.fetch t) x.ctxNo x.asid x.pc.toNat .fetch x.supervisor = .hit pa) →
          ∀ k v, (if due.getLsbD 4 = true then k = 5 ∧ v = x.storeErrs.headD 0 else v = 0 ∧ if due.getLsbD 0 = true then k = 1
              else if due.getLsbD 1 = true then k = 2 else if due.getLsbD 3 = true then k = 4 else due.getLsbD 2 = true ∧ k = 3) →
            taken (.trapEntry t f) (BitVec.ofNat 64 (2 ^ 63 + k)) v (x.sys.tvec + 0x200)
            ∧ ∃ u, exec (.trapEntry t f) s = .next u ∧ (u.tile t).storeErrs = if k = 5 then x.storeErrs.drop 1 else x.storeErrs)
        ∧ (x.hold = .none → x.fetchFault ≠ none →
            (x.pc ≠ x.sys.tvec → x.pc ≠ x.sys.tvec + 0x200 → taken (.trapEntry t f) 1 x.pc x.sys.tvec)
            ∧ ((x.pc = x.sys.tvec ∨ x.pc = x.sys.tvec + 0x200) → s.Calm t → ∃ u, exec (.trapEntry t f) s = .next u
                ∧ (u.tile t).st = .halted ∧ (u.tile t).sys.tcause = 1 ∧ (u.tile t).sys.tval = x.pc
                ∧ (u.tile t).sys.tepc = x.sys.tepc ∧ (u.tile t).pc = x.pc)))
    ∧ (x.sys.ttimer ≤ s.clk.gt → x.hold = .wfi → x.sys.tie.getLsbD 0 = true →
        exec (.timerMatch t) s = .next (s.setTile t { x with hold := .none }))
    ∧ (s.clk.gt < x.sys.ttimer → exec (.timerMatch t) s = .next s)

/-! ### Translation (R149–R166) -/

/-- R151, R152, R154, R411: a page walk of a valid context reads one entry a level from the root of its bolt's copy on; where levels 0 to L − 1 hold
well-formed pointers and level L, of 2, 3 or 4, a well-formed leaf of 1 GiB, 2 MiB or 64 KiB that grants the access, the leaf enters the requester's TLB,
which then translates the address. No other state than that of translation changes. -/
def Claims.WalksTranslate : Prop :=
  ∀ (s : State) (b : Fin 4) (n : Nat) (w : Walk) (level : Nat) (tb : Nat → Nat) (e : Nat → W64), s.Inv → (Tab.look [] s.mmu.walks b)[n]? = some w →
    w.va.toNat < 2 ^ 57 → s.ctxValid w.ctx = true → s.cachedPointer b (s.ctxAsid w.ctx) w.va.toNat = none → 2 ≤ level → level ≤ 4 →
    tb 0 = s.rootOf b w.ctx →
    let va := w.va.toNat
    let bits := if level = 2 then 30 else if level = 3 then 21 else 16
    let index (k : Nat) : Nat := if k = 4 then va / 65536 % 32 else va / 2 ^ (48 - 9 * k) % 512
    let pa (v : W64) : Nat := (v.extractLsb' 8 40).toNat * 256
    (∀ k, k ≤ level → s.readEntry (tb k + index k * 8) = .ok (e k)) →
    (∀ k, k < level → (e k).getLsbD 0 = true ∧ (e k).getLsbD 1 = false ∧ (k < 3 → (e k).extractLsb' 8 4 = 0) ∧ tb (k + 1) = pa (e k)) →
    (e level).extractLsb' 0 2 = 3 → pa (e level) % 2 ^ bits = 0 → ((e level).getLsbD 3 = true → (e level).getLsbD 2 = true) →
    s.leafCheck w.ctx (e level) w.acc w.sup = none →
      ∃ t, exec (.walkComplete b n) s = .next t ∧ { t with mmu := s.mmu } = s
        ∧ t.translate w.who w.ctx (s.whoAsid w) va w.acc w.sup = .hit (pa (e level) + va % 2 ^ bits)
        ∧ Tab.look [] t.mmu.walks b = (Tab.look [] s.mmu.walks b).eraseIdx n
        ∧ ∀ k, k ≠ w.who.tlb → Tab.look [] t.mmu.tlbs k = Tab.look [] s.mmu.tlbs k

/-- R151, R152, R158, R40: a walk that finds a fault (an invalid context, an address beyond 57 bits, an invalid or malformed entry, or a leaf that
does not grant the access) leaves a record of kind, level, entry and address with its requester, and the tile's next bundle or its fetch takes the fault.
What the walk finds with a leaf is WINDOW before PERMISSION. That ENTRY and PADDR are zero where no entry was read
is the model's choice (log entry 176). -/
def Claims.WalksFault : Prop :=
  ∀ (s : State) (b : Fin 4) (n : Nat) (w : Walk) (f : WalkFault), s.Inv → (Tab.look [] s.mmu.walks b)[n]? = some w → f.kind ≠ 3 →
    let read := (s.walk b w.ctx w.va.toNat).1
    ((2 ^ 57 ≤ w.va.toNat ∨ s.ctxValid w.ctx = false) → read = .error ⟨0, 0, false, 0, 0⟩)
    ∧ (∀ e, ((windowBase ≤ ptePa e ∧ s.ctxWindow w.ctx = false) → s.leafCheck w.ctx e w.acc w.sup = some 2)
        ∧ (¬ (windowBase ≤ ptePa e ∧ s.ctxWindow w.ctx = false) → rightOk e w.acc = false → s.leafCheck w.ctx e w.acc w.sup = some 1))
    ∧ ((read = .error f ∨ ∃ leaf level a k, read = .ok (leaf, level, a) ∧ s.leafCheck w.ctx leaf w.acc w.sup = some k ∧ f = ⟨k, level, false, leaf, a⟩) →
      let va : W64 := match w.acc with | .stream => BitVec.ofNat 64 (w.va.toNat / 64 * 64) | _ => w.va
      let kept (t : State) : Prop := Tab.look [] t.mmu.held w.who.bolt = Tab.look [] s.mmu.held w.who.bolt ++ [{
          who := w.who, ctx := w.ctx, acc := w.acc, va := va, kind := f.kind, level := BitVec.ofNat 3 f.level, malformed := f.malformed
          entry := f.entry, paddr := BitVec.ofNat 48 f.paddr, peer := 0, gtLow := 0, seq := 0 }] ∧ SameMemory s t
      (∀ u, w.who = .slot3 u → ∃ t, exec (.walkComplete b n) s = .next t ∧ kept t ∧ SameTiles s t u
          ∧ t.tile u = { s.tile u with walkFault := some (BitVec.ofNat 8 (0x10 + f.kind.toNat), w.va) })
      ∧ (∀ u, w.who = .fetch u → (s.tile u).pc = w.va → ∃ t, exec (.walkComplete b n) s = .next t ∧ kept t ∧ SameTiles s t u
          ∧ t.tile u = { s.tile u with fetchFault := some w.va })
      ∧ ∀ k m, w.who = .mover k m → (s.mover k m).st = .running → ∃ t, exec (.walkComplete b n) s = .next t ∧ kept t ∧ (∀ u, t.tile u = s.tile u)
          ∧ (t.mover k m).st = .paused)

/-- (1) R151, R152, R154, R411: a page walk of a valid context reads one entry a level from the root of its bolt's copy on; where levels 0 to L
− 1 hold well-formed pointers and level L, of 2, 3 or 4, a well-formed leaf of 1 GiB, 2 MiB or 64 KiB that grants the access, the leaf
enters the requester's TLB, which then translates the address. No other state than that of translation changes. (2) R151, R152, R158, R40: a
walk that finds a fault (an invalid context, an address beyond 57 bits, an invalid or malformed entry, or a leaf that does not grant the
access) leaves a record of kind, level, entry and address with its requester, and the tile's next bundle or its fetch takes the fault. What
the walk finds with a leaf is WINDOW before PERMISSION. That ENTRY and PADDR are zero where no entry was read is the model's choice (log
entry 176). -/
def Obligations.Walks : Prop :=
  Claims.WalksTranslate ∧ Claims.WalksFault

/-- R158, R159, Table 6-8: posting a held record gives it GT and the queue's SEQ, writes its 32 bytes at PUT in the bolt's ring, and advances both; not
while the same requester has an earlier one posted. An engine's record waits for its engine to have stopped on the fault. A secure write of GET consumes the records before it. -/
def Claims.FaultQueues : Prop :=
  ∀ (s : State) (b : Fin 4) (n : Nat) (r : FaultRecord) (base : Nat), s.Inv → (Tab.look [] s.mmu.held b)[n]? = some r → s.reserve b = some base →
    let held := Tab.look [] s.mmu.held b
    let posted := Tab.look [] s.mmu.posted b
    let put := Tab.look 0 s.mmu.fqPut b
    let seq := Tab.look 0 s.mmu.fqSeq b
    let r' := { r with gtLow := s.clk.gt.setWidth 32, seq := seq }
    let at_ := base + 0x64000000 + 32 * put.toNat
    let bytes := r'.words.flatMap fun w => toLe 8 w.toNat
    let stands : Prop := ∀ t e, r.who = .engine t e → ((s.tile t).engine e).mcur.getLsbD 62 = true
    (stands → (∃ q ∈ posted ++ held.take n, q.who.unit = r.who.unit) → exec (.faultRecordPost b n) s = .next s)
    ∧ (∀ t e, r.who = .engine t e → ((s.tile t).engine e).mcur.getLsbD 62 = false → ((s.tile t).engine e).ahead.isSome = true →
        exec (.faultRecordPost b n) s = .next s)
    ∧ (stands → (∀ q ∈ posted ++ held.take n, q.who.unit ≠ r.who.unit) → s.here base → ∃ u, exec (.faultRecordPost b n) s = .next u
        ∧ Tab.look [] u.mmu.posted b = posted ++ [r'] ∧ Tab.look [] u.mmu.held b = held.eraseIdx n ∧ Tab.look 0 u.mmu.fqPut b = put + 1
        ∧ Tab.look 0 u.mmu.fqSeq b = seq + 1 ∧ (∀ m, u.tile m = s.tile m)
        ∧ (∀ k m, (r.who = .mover k m ∨ ∃ x j, r.who = .expander x j m ∧ k = x / 6) → (s.mover k m).st = .paused →
            (u.mover k m).faultSeq = some seq)
        ∧ ∀ a, Tab.look 0 u.mem.phys a = if at_ ≤ a ∧ a < at_ + 32 then bytes.getD (a - at_) 0 else Tab.look 0 s.mem.phys a)
    ∧ (∀ p v, s.pathUp p = true → (pathSecure p = false → exec (.mmuFqGetWrite b v p) s = .next { s with clm := { s.clm with secureDenied := s.clm.secureDenied + 1 } })
      ∧ (pathSecure p = true → ∃ u, exec (.mmuFqGetWrite b v p) s = .next u ∧ Tab.look 0 u.mmu.fqGet b = v.setWidth 11
        ∧ Tab.look [] u.mmu.posted b = posted.drop (v.setWidth 11 - Tab.look 0 s.mmu.fqGet b).toNat ∧ { u with mmu := s.mmu } = s))

/-- R155, R156: GO removes every TLB and walk-cache entry of the named span, or of the ASID, or all of them, at once, and stays set until the accesses
that used them have ended; a second write meanwhile does nothing. -/
def Claims.Invalidation : Prop :=
  ∀ (s : State) (v : W32) (p : Path), s.Inv → pathSecure p = true → s.pathUp p = true →
    let scope := (v.extractLsb' 29 2).toNat
    let asid := v.extractLsb' 0 12
    let n := 2 ^ (v.extractLsb' 12 5).toNat * 65536
    let va := ((v.extractLsb' 20 9).toNat * 2 ^ 48 + s.mmu.invVa.toNat * 65536) / n * n
    let meets (a : BitVec 12) (at_ k : Nat) : Prop := scope = 0 ∨ a = asid ∧ (scope = 1 ∨ at_ < va + n ∧ va < at_ + k)
    (s.mmu.invCtrl.getLsbD 31 = true → exec (.mmuInvalidate v p) s = .next s)
    ∧ (s.mmu.invCtrl.getLsbD 31 = false → v.getLsbD 31 = true → scope ≤ 2 → (scope = 2 → (v.extractLsb' 12 5).toNat < 26) →
      ∃ t, exec (.mmuInvalidate v p) s = .next t ∧ { t with mmu := s.mmu } = s ∧ t.mmu.invCtrl.getLsbD 31 = true
        ∧ (∀ k e, e ∈ Tab.look [] t.mmu.tlbs k ↔ e ∈ Tab.look [] s.mmu.tlbs k ∧ ¬ meets e.asid e.va (2 ^ e.bits))
        ∧ ∀ k a l q tb, (a, l, q, tb) ∈ Tab.look [] t.mmu.wcache k ↔ (a, l, q, tb) ∈ Tab.look [] s.mmu.wcache k ∧ ¬ meets a q (2 ^ levelShift l))
    ∧ ((∃ q ∈ s.mmu.invWait, ∃ f ∈ (s.tile q.1).far, f.id = q.2) → exec .invalidationComplete s = .next s)
    ∧ ((∀ q ∈ s.mmu.invWait, ∀ f ∈ (s.tile q.1).far, f.id ≠ q.2) → exec .invalidationComplete s
        = .next { s with mmu := { s.mmu with invCtrl := s.mmu.invCtrl &&& 0x7FFFFFFF, invWait := [] } })

/-- (1) R158, R159, Table 6-8: posting a held record gives it GT and the queue's SEQ, writes its 32 bytes at PUT in the bolt's ring, and
advances both; not while the same requester has an earlier one posted. An engine's record waits for its engine to have stopped on the fault.
A secure write of GET consumes the records before it. (2) R155, R156: GO removes every TLB and walk-cache entry of the named span, or of the
ASID, or all of them, at once, and stays set until the accesses that used them have ended; a second write meanwhile does nothing. -/
def Obligations.FaultQueuesAndInvalidation : Prop :=
  Claims.FaultQueues ∧ Claims.Invalidation

/-- R159, R162, R163, Table 6-13: the scan of a queue with one record of a tile, a permission or window fault, refuses it: the verdict and the address are
written to the tile's answer entry, SOFT is set, the record is consumed and the context keeps it. 100 µs of global time later, and not before, the
context's tiles are reset toward its end. -/
def Claims.FaultAnswers : Prop :=
  ∀ (s : State) (c : Fin 16) (r : FaultRecord), s.Inv → s.top.st.serves = true → (∀ d, d ≠ c.val → s.ctx d = {}) → s.cads = [] →
    let x := s.ctx c
    x.st = .running → x.saveSlot = none → x.stopping = false → x.stopDue = false → x.ending = none → x.due = none → x.released = false →
    (∀ t b page, r.who = .slot3 t → r.ctx = c.val → (r.kind = 1 ∨ r.kind = 2) → b = t / 256 → b < 4 → Tab.look none x.answer b = some page → x.refusal = none →
      s.ctxHasTile c t = true → (s.tile t).st = .running → x.startSlot.isSome = true → t ∈ x.startTiles →
      Tab.look [] s.mmu.posted b = [r] → (∀ d, d ≠ b → Tab.look [] s.mmu.posted d = []) → Tab.look [] s.mmu.answered b = [] →
      let a := page + t % 256 * 0x80
      (∃ k, targetOf a = .hbm k ∧ s.stackUp k = true) → markIn s.mem.bad a 16 32 = none → (Tab.look 0 s.mem.phys a).getLsbD 0 = false →
      ∃ u, exec .faultQueueScan s = .next u
        ∧ Tab.readN 0 u.mem.phys a 16 = toLe 8 (r.seq.toNat * 65536 + 2 * 256 + 1) ++ toLe 8 (r.va.toNat % 2 ^ 57)
        ∧ (∀ q, (q < a ∨ a + 16 ≤ q) → Tab.look 0 u.mem.phys q = Tab.look 0 s.mem.phys q)
        ∧ (u.tile t).sys.tip = (s.tile t).sys.tip ||| 2 ∧ (u.ctx c).refusal = some (r, s.clk.gt)
        ∧ Tab.look [] u.mmu.posted b = [] ∧ Tab.look 0 u.mmu.fqGet b = Tab.look 0 s.mmu.fqGet b + 1)
    ∧ (∀ g, x.refusal = some (r, g) →
      ((s.clk.gt - g).toNat < 15625 → exec (.contextRefusalStop c) s = .next s)
      ∧ (15625 ≤ (s.clk.gt - g).toNat → (∃ t ∈ x.tiles, (s.tile t).st ≠ .retired) → ∃ u, exec (.contextRefusalStop c) s = .next u
        ∧ (u.ctx c).ending = some r.words ∧ ∀ t ∈ x.tiles, (s.tile t).st ≠ .retired → (u.tile t).st = .reset ∧ (u.tile t).resetting = true))

/-- R165, R167: a demand fill whose descriptor is queued waits for it. Else the next physical descriptor of the fill is queued on mv31 of the bolt of its
pool page, while that has an entry free; and once all have run the fill ends: the page's leaf, with the region's rights, is in firmware's record and in
every bolt's copy of the tables, and the fill is filled. -/
def Claims.DemandFills : Prop :=
  ∀ (s : State) (n : Nat) (f : Fill) (g : Region), s.Inv → s.Calm 1024 → s.top.st.serves = true → s.mmu.fills[n]? = some f →
    (s.ctx f.ctx).demandRegion f.va = some g → Tab.look false s.mem.badPages f.page = false → (∀ b, Tab.look [] s.mmu.posted b = []) →
    let b := f.page / (6 * stackBytes)
    let v := s.mover b 31
    let leaf : W64 := BitVec.ofNat 64 (f.page + g.rights.toNat * 4 + 3)
    let at_ (r : Nat) : Nat := r + (s.ctx f.ctx).tableOff 4 f.va + 8 * (f.va / 65536 % 32)
    (f.busy = true → exec (.demandFillComplete n) s = .next s)
    ∧ (f.busy = false → ∀ p q, f.left = p :: q → v.queue.length + (if v.run.isSome then 1 else 0) < 16 → ∃ t, exec (.demandFillComplete n) s = .next t
        ∧ (t.mover b 31).queue = v.queue ++ [{
             num := v.nextNum, released := true, va := 0, ctx := f.ctx, tile := 0, words := some p.words
             work := .fill f.ctx f.va, piece := p.before, more := q, late := !v.en, lateStatus := if v.drain then 2 else 3 }]
        ∧ { f with busy := true } ∈ t.mmu.fills ∧ t.mmu.filled = s.mmu.filled ∧ SameMemory s t ∧ ∀ k, t.tile k = s.tile k)
    ∧ (f.busy = false → f.left = [] → (∀ k r, k < 4 → s.reserve k = some r → s.here (at_ r) ∧ at_ r % 8 = 0) → ∃ t, exec (.demandFillComplete n) s = .next t
        ∧ t.mmu.fills = s.mmu.fills.eraseIdx n ∧ t.mmu.filled = s.mmu.filled ++ [f] ∧ (∀ e, (f.va, e) ∈ (t.ctx f.ctx).map → e = leaf)
        ∧ (∀ k r, k < 4 → s.reserve k = some r → Tab.readN 0 t.mem.phys (at_ r) 8 = toLe 8 leaf.toNat) ∧ ∀ k, t.tile k = s.tile k)

/-- (1) R159, R162, R163, Table 6-13: the scan of a queue with one record of a tile, a permission or window fault, refuses it: the verdict and
the address are written to the tile's answer entry, SOFT is set, the record is consumed and the context keeps it. 100 µs of global time
later, and not before, the context's tiles are reset toward its end. (2) R165, R167: a demand fill whose descriptor is queued waits for it.
Else the next physical descriptor of the fill is queued on mv31 of the bolt of its pool page, while that has an entry free; and once all
have run the fill ends: the page's leaf, with the region's rights, is in firmware's record and in every bolt's copy of the tables, and the
fill is filled. -/
def Obligations.FaultAnswersAndFills : Prop :=
  Claims.FaultAnswers ∧ Claims.DemandFills

/-! ### Movers and expanders (R167–R189, R413–R416) -/

/-- R168, R173: a mover takes the released entry at the head of its queue, reads its descriptor of 128 bytes through its TLB and, where every
check passes, runs it from its first byte; a check that fails ends it REFUSED with the check's DETAIL. The command names the descriptor's own
operation. Memory, tiles and every other mover stay. -/
def Obligations.MoversStart : Prop :=
  ∀ (s : State) (b : Fin 4) (m : Fin 32) (e : MovEntry) (q : List MovEntry) (pa pb : Nat), s.Inv → s.Still →
    let v := s.mover b m
    (v.st = .idle ∨ v.st = .running) → v.run = none → v.queue = e :: q → e.released = true → e.words = none → e.late = false → v.suspend = false →
    s.translate (.mover b m) e.ctx (s.ctxAsid e.ctx) e.va.toNat .descriptor false = .hit pa →
    (s.touch (.mover b m) (s.ctxAsid e.ctx) e.va.toNat).translate (.mover b m) e.ctx (s.ctxAsid e.ctx) (e.va.toNat + 64) .descriptor false = .hit pb →
    (∀ k, k < 8 → s.here (pa + 8 * k) ∧ s.here (pb + 8 * k)) →
    let ws : List W64 := (List.range 16).map fun k =>
      BitVec.ofNat 64 (ofLe (Tab.readN 0 s.mem.phys (if k < 8 then pa + 8 * k else pb + 8 * (k - 8)) 8))
    let op := ((ws.getD 0 0).extractLsb' 60 4).toNat
    let runs (c : Instr) : Prop := ∃ t, exec c s = .next t ∧ SameMemory s t ∧ (∀ n, t.tile n = s.tile n)
      ∧ (∀ k, k ≠ 32 * b.val + m.val → Tab.look {} t.eng.mov k = Tab.look {} s.eng.mov k) ∧ (t.mover b m).queue = q ∧ (t.mover b m).st = .running
      ∧ ∃ r, (t.mover b m).run = some r ∧ r.entry = e ∧ r.words = ws ∧ r.cursor = 0 ∧ r.poisoned = none
        ∧ match s.checkDescriptor b e.ctx ws with
          | some d => r.verdict = some (9, d) ∧ r.done = true
          | none => (op = 5 → (s.expander (6 * b + dExp ws)).en = true) → r.verdict = none ∧ r.done = false
    (op = 1 → runs (.copy b m)) ∧ (op = 2 → runs (.fill b m)) ∧ (op = 3 → runs (.gather b m)) ∧ (op = 4 → runs (.scatter b m))
      ∧ (op = 5 → runs (.expand b m)) ∧ (op = 6 → runs (.tableLoad b m))

/-- R167, R170, R172: one response to an access of a running COPY or FILL. At most 256 bytes, within one row and crossing no 256-byte boundary of
source or destination, go from the source address at the cursor (or the repeated pattern) to the destination address at the cursor; the cursor
advances, and with the last byte the work is done. Nothing else is written. The addresses of firmware's descriptors are physical (R149). -/
def Claims.MoversCopy : Prop :=
  ∀ (s : State) (b : Fin 4) (m : Fin 32) (a : Answer) (r : Running), s.Inv → s.Still →
    let v := s.mover b m
    let ws := r.words
    let w (k lo n : Nat) : Nat := ((ws.getD k 0).extractLsb' lo n).toNat
    let op := w 0 60 4
    let len := w 3 0 32
    let n1 := w 3 32 16
    let total := len * n1 * w 3 48 16
    let row := r.cursor / len
    let at_ (base outer middle : Nat) : Nat := (((w base 0 57 : Nat) + (row / n1 : Nat) * (ws.getD outer 0).toInt + (row % n1 : Nat) * (ws.getD middle 0).toInt
      + (r.cursor % len : Nat) : Int) % (2 ^ 57 : Nat)).toNat
    let src := at_ 1 5 4
    let dst := at_ 2 7 6
    (v.st = .running ∨ v.st = .draining) → v.run = some r → r.done = false → ws ≠ [] → r.cursor < total → v.suspend = false → r.overlap = false →
    r.verdict = none → ∀ sp dp,
      let asid := s.ctxAsid r.entry.ctx
      let phys := r.entry.words.isSome
      (if phys = true then dp = dst else s.translate (.mover b m) r.entry.ctx asid dst .moverDst false = .hit dp) → s.here dp →
      let moves (n : Nat) (byte : Nat → Byte) : Prop := ∃ t, exec (.moverAccessResponse b m a) s = .next t ∧ (∀ k, t.tile k = s.tile k)
        ∧ (∀ k, Tab.look 0 t.mem.phys k = if dp ≤ k ∧ k < dp + n then byte (k - dp) else Tab.look 0 s.mem.phys k)
        ∧ (∀ k, Tab.look 0 t.mem.host k = Tab.look 0 s.mem.host k)
        ∧ (t.mover b m).run = some { r with cursor := r.cursor + n, done := decide (r.cursor + n = total) }
      (op = 2 → moves (min (len - r.cursor % len) (256 - dst % 256)) fun k => BitVec.ofNat 8 (w 1 0 64 / 256 ^ ((r.cursor + k) % 8)))
      ∧ (op = 1 → (if phys = true then sp = src
            else (s.touch (.mover b m) asid dst).translate (.mover b m) r.entry.ctx asid src .moverSrc false = .hit sp) →
          s.here sp → (sp + 256 ≤ dp ∨ dp + 256 ≤ sp) →
          moves (min (len - r.cursor % len) (min (256 - dst % 256) (256 - src % 256))) fun k => Tab.look 0 s.mem.phys (sp + k))

/-- R171, R186: GATHER and SCATTER read the list entry of the piece at the cursor, eight bytes at LIST + 8 times the piece's number, before its bytes; an
entry beyond 57 bits ends the descriptor REFUSED with DETAIL 8. A TABLE_LOAD gathers its image, and at its last byte a valid image becomes the
bolt's table, an invalid one a DECODE_ERROR. -/
def Claims.MoversLists : Prop :=
  ∀ (s : State) (b : Fin 4) (m : Fin 32) (a : Answer) (r : Running) (pa : Nat), s.Inv → s.Still →
    let v := s.mover b m
    let w (k lo n : Nat) : Nat := ((r.words.getD k 0).extractLsb' lo n).toNat
    let op := w 0 60 4
    let len := w 3 0 32
    let piece := r.cursor / len % w 3 32 16
    let xlat (va : Nat) : Xlat := s.translate (.mover b m) r.entry.ctx (s.ctxAsid r.entry.ctx) va .moverSrc false
    let now (r' : Running) : Prop := ∃ t, exec (.moverAccessResponse b m a) s = .next t ∧ SameMemory s t ∧ (∀ k, t.tile k = s.tile k)
      ∧ (t.mover b m).run = some r'
    (v.st = .running ∨ v.st = .draining) → v.run = some r → r.done = false → r.words ≠ [] → r.entry.words = none → r.verdict = none → v.suspend = false → s.here pa →
    ((op = 3 ∨ op = 4) → r.cursor < len * w 3 32 16 * w 3 48 16 → (∀ p, r.piece = some p → p.1 ≠ piece) → xlat (w 10 0 57 + 8 * piece) = .hit pa →
      let entry := ofLe (Tab.readN 0 s.mem.phys pa 8)
      (entry < 2 ^ 57 → now { r with piece := some (piece, some entry) })
      ∧ (2 ^ 57 ≤ entry → now { r with verdict := some (9, 8), done := true }))
    ∧ (op = 6 → w 3 0 32 = 16448 → w 3 32 16 = 1 → w 3 48 16 = 1 → r.cursor < 16448 → r.poisoned = none →
      let va := (w 1 0 57 + r.cursor) % 2 ^ 57
      let n := min (16448 - r.cursor) (256 - va % 256)
      let image := r.buf ++ (Tab.readN 0 s.mem.phys pa n).map some
      let r' : Running := { r with cursor := r.cursor + n, buf := image }
      xlat va = .hit pa →
      (r.cursor + n < 16448 → now r')
      ∧ (r.cursor + n = 16448 → match parseTable (image.map fun x => x.getD 0) with
        | some tb => now { r' with done := true } ∧ ∀ t, exec (.moverAccessResponse b m a) s = .next t → t.tableOf b (w 0 42 6) = some tb
        | none => now { r' with verdict := some (6, 1), done := true }))

/-- (1) R167, R170, R172: one response to an access of a running COPY or FILL. At most 256 bytes, within one row and crossing no 256-byte
boundary of source or destination, go from the source address at the cursor (or the repeated pattern) to the destination address at the
cursor; the cursor advances, and with the last byte the work is done. Nothing else is written. The addresses of firmware's descriptors are
physical (R149). (2) R171, R186: GATHER and SCATTER read the list entry of the piece at the cursor, eight bytes at LIST + 8 times the
piece's number, before its bytes; an entry beyond 57 bits ends the descriptor REFUSED with DETAIL 8. A TABLE_LOAD gathers its image, and at
its last byte a valid image becomes the bolt's table, an invalid one a DECODE_ERROR. -/
def Obligations.MoversMove : Prop :=
  Claims.MoversCopy ∧ Claims.MoversLists

/-- R174, R175, R178, Tables 7-1 and 7-3: a descriptor whose work is done completes: its cursor and status words are written to its bytes 0x70 to 0x7F, then
its flag, then its counter, where those are its context's, then the interrupt of the tile that queued it; the mover counts it and rests. STATUS is the verdict's, POISONED where a
byte was lost, DRAINED where the mover drains, else OK. -/
def Obligations.MoversComplete : Prop :=
  ∀ (s : State) (b : Fin 4) (m : Fin 32) (r : Running) (pa : Nat), s.Inv → s.Still →
    let v := s.mover b m
    let w (k lo n : Nat) : Nat := ((r.words.getD k 0).extractLsb' lo n).toNat
    let status := match r.verdict with
      | some d => d.1
      | none => if r.poisoned.isSome then 7 else if r.drained then 2 else 1
    let detail := match r.verdict with | some d => d.2 | none => 0
    let cursor := if status = 7 then r.poisoned.getD r.cursor else if status = 6 ∧ w 0 60 4 = 5 then r.blockOut else r.cursor
    (v.st = .running ∨ v.st = .draining) → v.suspend = false → v.run = some r → r.done = true → r.lost = [] → r.words ≠ [] → r.entry.words = none →
    r.entry.work = .none → r.noWrite = false → detail < 16 → status < 256 →
    s.translate (.mover b m) r.entry.ctx (s.ctxAsid r.entry.ctx) (r.entry.va.toNat + 0x70) .moverDst false = .hit pa → s.here pa →
    ∃ t, exec (.descriptorComplete b m) s = .next t
      ∧ ofLe (Tab.readN 0 t.mem.phys pa 8) = cursor % 2 ^ 64
      ∧ ofLe (Tab.readN 0 t.mem.phys (pa + 8) 8) = s.clk.gt.toNat % 2 ^ 32 * 2 ^ 32 + (if status = 4 then r.seq.toNat else 0) * 2 ^ 24 + detail * 2 ^ 20
          + (if status = 3 then v.abortCause.toNat else 0) * 2 ^ 16 + status
      ∧ (∀ k, (k < pa ∨ pa + 16 ≤ k) → Tab.look 0 t.mem.phys k = Tab.look 0 s.mem.phys k)
      ∧ (t.mover b m).run = none ∧ (t.mover b m).lastStatus = BitVec.ofNat 8 status ∧ (t.mover b m).completed = v.completed + 1
      ∧ (t.mover b m).st = (if v.en then .idle else if v.queue = [] then .disabled else v.st)
      ∧ (let u := w 8 19 10
         let flags : Prop := w 0 58 1 = 1 ∧ s.ctxHasTile r.entry.ctx u = true ∧ (s.tile u).windowOpen = true
         (flags → Tab.readN 0 (t.tile u).silt (w 8 0 19 / 8 * 8) 8 = toLe 8 (status * 2 ^ 32 + w 8 32 32))
          ∧ ∀ n a, ¬ (flags ∧ n = u ∧ w 8 0 19 / 8 * 8 ≤ a ∧ a < w 8 0 19 / 8 * 8 + 8) → Tab.look 0 (t.tile n).silt a = Tab.look 0 (s.tile n).silt a)
      ∧ (∀ c, t.ctr c = if w 0 57 1 = 1 ∧ s.ctrGranted r.entry.ctx (w 9 16 10) = true ∧ c = w 9 16 10 then s.ctr c + BitVec.ofNat 32 (w 9 0 16) else s.ctr c)
      ∧ (w 0 59 1 = 1 → (t.tile r.entry.tile).sys.tip.getLsbD 2 = true)
      ∧ ∀ n, SameRegs (s.tile n) (t.tile n) (fun _ => False) ∧ (t.tile n).pc = (s.tile n).pc

/-- R178–R181, R413, R415, R358: turning a mover off and on. A clear of EN disables it where nothing is left and otherwise drains or aborts; EN stays 0
while it drains or aborts and in FAULTED. SUSPEND takes hold at the next safe point and its clear lets the work go on; at the safe point of an
abort the descriptor ends ABORTED. An abort and SUSPEND take back the walks that the mover waits for. RESTART goes on with a paused descriptor. Reading MOV_CUR_LO latches the high half of the cursor. -/
def Obligations.MoversControl : Prop :=
  ∀ (s : State) (b : Fin 4) (m : Fin 32) (p : Path), s.Inv → s.Still → s.pathUp p = true →
    let v := s.mover b m
    let now (c : Instr) (u : Mover) : Prop := exec c s = .next (s.setMover b m u)
    let left := v.run.isSome || !v.queue.isEmpty
    let nowBut (c : Instr) (u : Mover) : Prop := ∃ t, exec c s = .next t ∧ { t with mmu := s.mmu } = s.setMover b m u
      ∧ { t.mmu with walks := s.mmu.walks } = s.mmu ∧ ∀ w ∈ Tab.look [] t.mmu.walks b, w.who ≠ .mover b m
    (pathSecure p = false → ∀ c ∈ [Instr.moverEnClear b m true p, .moverEnClear b m false p, .moverEnSet b m p, .moverSuspend b m p, .moverUnsuspend b m p,
        .moverRestart b m p, .moverAbandon b m p], exec c s = .next { s with clm := { s.clm with secureDenied := s.clm.secureDenied + 1 } })
    ∧ (pathSecure p = true →
      (v.en = true → (v.st = .idle ∨ v.st = .running) →
        (left = false → ∀ d, now (.moverEnClear b m d p) { v with en := false, drain := d, abortCause := 0, st := .disabled })
        ∧ (left = true → now (.moverEnClear b m true p) { v with en := false, drain := true, abortCause := 0, st := .draining
                                                                 run := v.run.map fun r => if r.done then r else { r with drained := true } }
            ∧ nowBut (.moverEnClear b m false p) { v with en := false, drain := false, abortCause := 0, st := .aborting }))
      ∧ (v.en = false → v.drain = true → v.st = .draining → nowBut (.moverEnClear b m false p) { v with
          drain := false, abortCause := 0, st := .aborting, queue := v.queue.map fun e => { e with lateStatus := 3 } })
      ∧ (v.en = true → v.st = .suspended → ∀ d, now (.moverEnClear b m d p) { v with
          en := false, drain := d, abortCause := 0, run := if d then v.run.map fun r => if r.done then r else { r with drained := true } else v.run })
      ∧ (v.en = false → (v.st = .draining ∨ v.st = .aborting ∨ v.st = .paused ∨ v.st = .suspended ∧ left = true) → exec (.moverEnSet b m p) s = .next s)
      ∧ (v.en = false → v.st = .disabled → s.top.st ≠ .faulted → now (.moverEnSet b m p) { v with
          en := true, drain := false, abortCause := 0, st := if v.run.isSome then .running else .idle })
      ∧ (s.top.st = .faulted → exec (.moverEnSet b m p) s = .next s)
      ∧ nowBut (.moverSuspend b m p) { v with suspend := true }
      ∧ (v.st = .suspended → now (.moverUnsuspend b m p) { v with
          suspend := false
          st := if v.en then (if v.run.isSome then .running else .idle) else if !left then .disabled else if v.drain then .draining else .aborting })
      ∧ (v.st ≠ .suspended → now (.moverUnsuspend b m p) { v with suspend := false })
      ∧ (v.st = .paused → now (.moverRestart b m p) { v with faultSeq := none, st := if !v.en then .draining else if v.run.isSome then .running else .idle })
      ∧ (v.st ≠ .paused → exec (.moverRestart b m p) s = .next s ∧ exec (.moverAbandon b m p) s = .next s)
      ∧ (∀ r, v.st = .paused → v.en = true → v.run = some r → r.entry.work = .none → v.suspend = false →
          (r.done = true ∨ ∃ pa, s.translate (.mover b m) r.entry.ctx (s.ctxAsid r.entry.ctx) (r.entry.va.toNat + 0x70) .moverDst false = .hit pa ∧ s.here pa) →
          ∃ t, exec (.moverAbandon b m p) s = .next t ∧ (t.mover b m).run = none ∧ (t.mover b m).lastStatus = 4 ∧ (t.mover b m).st = .idle
            ∧ (t.mover b m).completed = v.completed + 1))
    ∧ (v.suspend = true → v.st = .running → now (.moverSafePoint b m) { v with st := .suspended, was := .running })
    ∧ (v.suspend = true → v.st = .idle → now (.moverSafePoint b m) { v with st := .suspended, was := .idle })
    ∧ (v.suspend = true → v.st = .draining → now (.moverSafePoint b m) { v with st := .suspended, was := .draining })
    ∧ (∀ r, v.st = .aborting → v.en = false → v.suspend = false → v.run = some r → r.words ≠ [] → r.done = false → r.entry.work = .none →
        (r.entry.words.isSome = true ∨ ∃ pa, s.translate (.mover b m) r.entry.ctx (s.ctxAsid r.entry.ctx) (r.entry.va.toNat + 0x70) .moverDst false = .hit pa ∧ s.here pa) → ∃ t, exec (.moverSafePoint b m) s = .next t ∧ (t.mover b m).run = none ∧ (t.mover b m).lastStatus = 3
          ∧ (t.mover b m).completed = v.completed + 1 ∧ (t.mover b m).st = (if v.queue = [] then .disabled else .aborting))
    ∧ ∃ t, exec (.movCurLoRead b m) s = .next t
        ∧ t = s.setMover b m { v with curHi := BitVec.ofNat 16 ((match v.run with | some r => r.cursor | none => 0) / 2 ^ 32) }

/-- R183, R185, R187–R189, R178–R180, R415: the next block of an EXPAND, of the mover whose turn it is in the round robin. Its header of 32 bytes is
checked before its bytes are read; a good block is decoded with the table it names into the bytes that are then written, and counted; an error ends
the descriptor DECODE_ERROR at the block's first byte and is counted. EN of an expander is turned off by draining or aborting what names it, and
stays 0 in FAULTED. -/
def Obligations.Expanders : Prop :=
  ∀ (s : State) (x : Fin 24) (m : Fin 32) (p : Path), s.Inv → s.Still →
    let b := x.val / 6
    let v := s.expander x
    let mv := s.mover b m
    let due (n : Nat) : Prop := ((s.mover b n).st = .running ∨ (s.mover b n).st = .draining) ∧ (s.mover b n).suspend = false
      ∧ ∃ r, (s.mover b n).run = some r ∧ r.done = false ∧ r.verdict = none ∧ dOp r.words = 5 ∧ dExp r.words = x.val % 6 ∧ r.buf = [] ∧ r.block < dCnt1 r.words
    let turn (k : Nat) : Nat := (v.last + 1 + k) % 32
    (¬ due m → exec (.expanderBlockDone x m) s = .next s)
    ∧ (∀ k j, k < 32 → turn k = m → j < k → due (turn j) → exec (.expanderBlockDone x m) s = .next s)
    ∧ (∀ (k : Nat) (r : Running) (hl l : List Byte) (u u' : State), k < 32 → turn k = m → (∀ j, j < k → ¬ due (turn j)) → due m → mv.run = some r →
      (v.st = .decoding ∨ v.st = .idle) →
      let s0 := s.setExpander x { v with last := m, st := .decoding }
      s0.readCoded x m r 4 r.blockAt 32 = (.bytes (hl.map some), u) →
      let h := blockHeader hl
      u.tableLoading b h.table = false → { u with mmu := s.mmu } = s0 →
      let errs (d n : Nat) : Prop := ∃ t q, exec (.expanderBlockDone x m) s = .next t ∧ (t.expander x).errors = v.errors + 1
        ∧ (t.expander x).blocks = v.blocks + BitVec.ofNat 16 n
        ∧ (t.mover b m).run = some q ∧ q.verdict = some (6, d) ∧ q.done = true ∧ q.blockOut = r.cursor ∧ q.cursor = r.cursor
      (u.grantedTable b r.entry.ctx h.table = none → errs 1 0)
      ∧ ∀ tb, u.grantedTable b r.entry.ctx h.table = some tb → (h.ok = false → errs 2 0)
        ∧ (h.ok = true → u.readCoded x m r 8 (r.blockAt + 32) (h.coded + h.raw) = (.bytes (l.map some), u') → { u' with mmu := s.mmu } = s0 →
            let room := min (dLen0 r.words - r.cursor) (if wordAt r.words 6 = 0 then h.output tb.symw else (wordAt r.words 6).toInt.natAbs)
            (∀ d, decodeBlock tb h (l.take h.coded) (l.drop h.coded) = .error d → errs d 0)
            ∧ ∀ o, decodeBlock tb h (l.take h.coded) (l.drop h.coded) = .ok o →
              (room < h.output tb.symw → errs 6 1)
              ∧ (h.output tb.symw ≤ room → ∃ t, exec (.expanderBlockDone x m) s = .next t
                ∧ (t.expander x).blocks = v.blocks + 1 ∧ (t.expander x).errors = v.errors ∧ (t.expander x).last = m.val
                ∧ (t.mover b m).run = some { r with buf := o.map some, block := r.block + 1, blockOut := r.cursor, blockAt := r.blockAt + h.stride })))
    ∧ (s.pathUp p = true → pathSecure p = false → ∀ d, exec (.expanderEnClear x d p) s = .next { s with clm := { s.clm with secureDenied := s.clm.secureDenied + 1 } }
        ∧ exec (.expanderEnSet x p) s = .next { s with clm := { s.clm with secureDenied := s.clm.secureDenied + 1 } })
    ∧ (s.pathUp p = true → pathSecure p = true →
      (∀ d, v.en = true → v.st ≠ .unavailable → (∀ n ∈ s.namers x, (s.mover b n).st ≠ .paused) → ∃ t, exec (.expanderEnClear x d p) s = .next t
        ∧ (t.expander x).en = false ∧ (t.expander x).drain = d
        ∧ (t.expander x).st = (if s.namers x = [] then .disabled else if d then .draining else .aborting)
        ∧ ∀ r, mv.run = some r → dOp r.words = 5 → dExp r.words = x.val % 6 → r.done = false → r.verdict = none →
          (r.block = 0 → (t.mover b m).run = some { r with verdict := some (if d then 2 else 3, 0), done := true })
          ∧ (0 < r.block → (t.mover b m).run = some (if d then { r with drained := true } else { r with verdict := some (3, 0), done := decide (r.buf = []) })))
      ∧ (∀ r pa, v.en = true → v.st ≠ .unavailable → s.namers x = [m.val] → mv.st = .paused → mv.run = some r → r.done = false → r.entry.words = none →
        s.translate (.mover b m) r.entry.ctx (s.ctxAsid r.entry.ctx) (r.entry.va.toNat + 0x70) .moverDst false = .hit pa → s.here pa → r.entry.work = .none →
        ∃ t, exec (.expanderEnClear x false p) s = .next t ∧ (t.expander x).en = false ∧ (t.mover b m).run = none ∧ (t.mover b m).lastStatus = 3
          ∧ ofLe (Tab.readN 0 t.mem.phys pa 8) = r.cursor % 2 ^ 64)
      ∧ (v.en = false → v.st = .disabled → s.top.st ≠ .faulted →
          exec (.expanderEnSet x p) s = .next (s.setExpander x { v with en := true, drain := false, st := .idle }))
      ∧ (v.en = true ∨ v.st ≠ .disabled ∨ s.top.st = .faulted → exec (.expanderEnSet x p) s = .next s))

/-! ### Gauze ports and packets (R191–R201, R206–R208, R216) -/

/-- R193–R196, R358, R349: a port is turned on into training, and RETRAIN takes a failed one there, each only by the cluster that holds the outputs; a
training that succeeds with the module's own domain brings it UP, the third failure in a row FAILED. A carrying link fails once its oldest frame has been
replayed 16 times or has stood for 100 µs: it retrains with fresh numbers, at the eighth failure in 10 s it is FAILED. Which of RETRIES and UNCORRECTED
counts the failure is left open (log entry 183). Clearing EN drains what it holds or disables it. -/
def Obligations.PortStates : Prop :=
  ∀ (s : State) (n : Fin 32) (p : Path), s.Inv →
    let v := s.port n
    let u : Fin 33 := ⟨n.val, Nat.lt_succ_of_lt n.isLt⟩
    let goes (c : Instr) (w : Port → Prop) : Prop := ∃ t, exec c s = .next t ∧ w (t.port n)
    (s.pathUp p = true → ∀ c ∈ [Instr.portEnSet n true p, .portEnSet n false p, .portEnClear n true p, .portEnClear n false p, .retrain n p],
      (pathSecure p = false → exec c s = .next { s with clm := { s.clm with secureDenied := s.clm.secureDenied + 1 } })
      ∧ (pathSecure p = true → s.mayDrive p = false → exec c s = .next { s with clm := { s.clm with outputRefused := s.clm.outputRefused + 1 } }))
    ∧ (s.pathUp p = true → pathSecure p = true → s.mayDrive p = true →
      (∀ b, v.en = false → v.st ≠ .draining → v.st ≠ .aborting → goes (.portEnSet n b p) fun w => w.en = true ∧ w.drain = false ∧ w.timing = b
          ∧ w.st = .training ∧ w.txSeq = 0 ∧ w.rxSeq = 0 ∧ w.unacked = [] ∧ w.txq = [] ∧ w.creditsUsed = [] ∧ w.lanes = 0)
      ∧ (v.st = .failed → goes (.retrain n p) fun w => w.st = .training ∧ w.fails = 0 ∧ w.failTimes = [] ∧ w.txSeq = 0 ∧ w.rxSeq = 0)
      ∧ (v.st ≠ .failed → exec (.retrain n p) s = .next s)
      ∧ (∀ d, v.en = true → goes (.portEnClear n d p) fun w => w.en = false ∧ w.drain = d
          ∧ w.st = if (v.st = .up ∨ v.st = .draining) ∧ d = true ∧ (v.unacked ≠ [] ∨ v.txq ≠ []) then .draining else .disabled))
    ∧ (∀ l, exec (.alignmentCodeword u l) s = .next (s.setPort n { v with lanes := v.lanes ||| BitVec.ofNat 8 (2 ^ l.val) }))
    ∧ (v.st = .training → s.gz.joining = none →
      (goes (.portTrainingComplete u .failed) fun w => w.fails = v.fails + 1 ∧ w.st = if 3 ≤ v.fails + 1 then .failed else .training)
      ∧ ∀ d m q, goes (.portTrainingComplete u (.up d m q)) fun w => w.peerValid = true ∧ w.peerMember = m ∧ w.peerPort = q ∧ w.peerDomain = d ∧ w.fails = 0
          ∧ w.st = if d = s.gz.domain then .up else .training)
    ∧ (let failing : Prop := 16 ≤ v.replays ∨ ∃ f l, v.unacked = f :: l ∧ 15625 ≤ (s.clk.gt - f.sentAt).toNat
       ((v.st ≠ .up ∧ v.st ≠ .draining ∨ ¬ failing) → exec (.linkFailure u) s = .next s)
       ∧ (v.st = .up → failing → goes (.linkFailure u) fun w =>
          w.st = (if 7 ≤ (v.failTimes.filter fun g => decide ((s.clk.gt - g).toNat < 1562500000)).length then .failed else .training)
          ∧ w.peerValid = false ∧ w.unacked = [] ∧ w.txq = [] ∧ w.txSeq = 0 ∧ w.rxSeq = 0 ∧ w.creditsUsed = []
          ∧ (w.retries = v.retries + 1 ∧ w.uncorrected = v.uncorrected ∨ w.retries = v.retries ∧ w.uncorrected = v.uncorrected + 1)))

/-- R193–R195: what a frame does at a port that is UP with nothing waiting to be sent. One that FEC could not correct is counted and reported; it and one of
a bad CRC are NAKed, one out of sequence only where no NAK is owed (log entry 182). Of a good one the header is taken: an ACK or a NAK acknowledges the frames up
to its number, and a NAK has the others sent again in order. A good data frame is acknowledged, and its packets for this module stand in the receiver's buffer and
reach its receiver in order. Every frame that goes out is good. -/
def Obligations.Frames : Prop :=
  ∀ (s : State) (n : Fin 32) (r : RxFrame), s.Inv →
    let v := s.port n
    let u : Fin 33 := ⟨n.val, Nat.lt_succ_of_lt n.isLt⟩
    let typ := (r.lcw.extractLsb' 18 2).toNat
    let seq := r.lcw.extractLsb' 6 12
    let h := ofLe (r.bytes.take 2)
    let nakked (w : Port) : Prop := w.nakDue = true ∧ w.rxSeq = v.rxSeq ∧ w.unacked = v.unacked ∧ ∃ f, w.wire = v.wire ++ [f] ∧ frameGood f = true
      ∧ f.lcw.extractLsb' 18 2 = 1 ∧ ofLe (f.bytes.take 2) / 16 = (v.rxSeq - 1).toNat ∧ bitOf (ofLe (f.bytes.take 2)) 2 = true
    let left : List TxFrame := if (bitOf h 3 || bitOf h 2) && v.unacked.any (fun f => decide (f.seq = BitVec.ofNat 12 (h / 16)))
      then (v.unacked.dropWhile fun f => decide (f.seq ≠ BitVec.ofNat 12 (h / 16))).drop 1 else v.unacked
    let again (w : Port) : Prop := w.unacked = left ∧ (∀ f ∈ w.wire.drop v.wire.length, frameGood f = true)
      ∧ ((w.wire.drop v.wire.length).filter fun f => f.lcw.extractLsb' 18 2 = 0).map (fun f => f.lcw.extractLsb' 6 12)
          = (if bitOf h 2 then left.map fun f => f.seq else [])
    (v.st ≠ .up → v.st ≠ .draining → exec (.frameReceive u r) s = .next s)
    ∧ (v.st = .up → v.txq = [] →
      (r.fecOk = false → ∃ t, exec (.frameReceive u r) s = .next t ∧ (t.port n).uncorrected = v.uncorrected + 1 ∧ nakked (t.port n)
          ∧ t.gz.arrived = s.gz.arrived)
      ∧ (r.fecOk = true → typ < 2 → (frameGood r = false ∨ seq ≠ v.rxSeq ∧ v.nakDue = false) → ∃ t, exec (.frameReceive u r) s = .next t
          ∧ nakked (t.port n) ∧ t = s.setPort n (t.port n))
      ∧ (r.fecOk = true → typ < 2 → frameGood r = true → seq ≠ v.rxSeq → v.nakDue = true → exec (.frameReceive u r) s = .next s)
      ∧ (r.fecOk = true → 2 ≤ typ → exec (.frameReceive u r) s = .next s)
      ∧ (r.fecOk = true → frameGood r = true → seq = v.rxSeq →
          (typ = 1 → ∃ t, exec (.frameReceive u r) s = .next t ∧ (t.port n).rxSeq = v.rxSeq ∧ (t.port n).nakDue = false ∧ again (t.port n)
            ∧ t = s.setPort n (t.port n))
          ∧ (typ = 0 → s.gz.joined = true →
              let l := cutPackets 80 (v.partBytes ++ (r.bytes.drop 12).take 624)
              (∀ k ∈ l.1, k.dst = s.gz.me) →
              ∃ t f, exec (.frameReceive u r) s = .next t ∧ (t.port n).rxSeq = v.rxSeq + 1 ∧ (t.port n).nakDue = false ∧ (t.port n).ackDue = false
                ∧ again (t.port n) ∧ (t.port n).wire.getLast? = some f ∧ f.lcw.extractLsb' 18 2 = 1 ∧ ofLe (f.bytes.take 2) = seq.toNat * 16 + 8
                ∧ (t.port n).partBytes = l.2 ∧ (t.port n).rxBuf = v.rxBuf ++ l.1 ∧ t.gz.arrived = s.gz.arrived ++ l.1)))

/-- R197, R200, R206–R208, R216, Tables 8-6 and 8-7: a request that reaches this module from a member in the present epoch, with a tag in time and not seen before,
is performed on the exported bytes and answered; the answer is kept with its number. A right that the export does not give is answered 1
and an expired tag 3, with nothing read or written or kept; a source that is no member gets no answer; one performed before is answered again from its record
and not performed. A counter is named by its number in the exporter's image (Table 10-8). No earlier request of its source and flow waits (R140). -/
def Obligations.RequestsServed : Prop :=
  ∀ (s : State) (k : Packet), s.Inv → s.top.st.live = true → s.gz.joined = true → k.dst = s.gz.me → s.mem.bad = [] → s.cmd.hostHeld = [] →
    (∀ j ∈ s.gz.arrived, ¬ (j.cls = 0 ∧ j.src = k.src ∧ j.flow = k.flow)) →
    let i := 16 * k.src.toNat + k.flow.toNat
    let off := k.addr.toNat % 2 ^ 48
    let n := k.payload.length
    let answers (c : Instr) (st : Nat) (data : List Byte) (w : State → Prop) : Prop := ∃ t r, exec c s = .next t ∧ w t ∧ s.Sent t r
      ∧ (if st = 0 then (Tab.look [] t.gz.dups i).getLast? = some (k.seq, r) else t.gz.dups = s.gz.dups)
      ∧ r.typ = 0x10 ∧ r.cls = 1 ∧ r.dst = k.src ∧ r.src = s.gz.me ∧ r.txn = k.txn ∧ r.rstatus = BitVec.ofNat 8 st ∧ r.payload = data
    let reads (pa m : Nat) : List Byte := Tab.readN 0 s.mem.phys pa m
    let same (t : State) : Prop := SameMemory s t ∧ t.eng.ctr = s.eng.ctr
    let wrote (pa : Nat) (l : List Byte) (t : State) : Prop :=
      ∀ a, Tab.look 0 t.mem.phys a = if pa ≤ a ∧ a < pa + l.length then l.getD (a - pa) 0 else Tab.look 0 s.mem.phys a
    let counted (e : Export) (t : State) : Prop := ∀ c, t.ctr c
      = if k.inc ≠ 0 ∧ c = 256 * e.ctrBolt + ((s.ctx e.ctx).ctrBase.getD e.ctrBolt 0 + k.ctr.toNat % 256) then s.ctr c + BitVec.ofNat 32 k.inc.toNat else s.ctr c
    let old (pa : Nat) : W64 := BitVec.ofNat 64 (ofLe (reads pa 8))
    let arg (m : Nat) : W64 := BitVec.ofNat 64 (ofLe ((k.payload.drop (8 * m)).take 8))
    let new (pa : Nat) : List Byte := toLe 8 (atomicNew k.aop.toNat (old pa) (arg 0) (arg 1)).toNat
    let all : List Instr := [.winLoad k, .winStore k, .winAtomic k, .put k, .get k, .atomic k, .notify k]
    (s.current k = false → ∀ c ∈ all, ∃ t, exec c s = .next t ∧ same t ∧ t.gz.dups = s.gz.dups)
    ∧ (s.current k = true → s.tagOk k = false → ∀ c ∈ all, answers c 3 [] fun t => same t ∧ (t.cad k.cadence.toNat).discards = (s.cad k.cadence.toNat).discards + 1)
    ∧ (∀ r, s.current k = true → s.tagOk k = true → s.recorded k = some r → ∀ c ∈ [Instr.winStore k, .winAtomic k, .put k, .atomic k, .notify k],
        ∃ t, exec c s = .next t ∧ same t ∧ t.gz.dups = s.gz.dups ∧ s.Sent t { r with txn := k.txn, epoch := s.gz.epoch.setWidth 16 })
    ∧ (s.current k = true → s.tagOk k = true → s.recorded k = none →
      (s.here off →
        (s.exportRight off k.len 1 = true → answers (.winLoad k) 0 (reads off k.len) same)
        ∧ (s.exportRight off k.len 1 = false → answers (.winLoad k) 1 [] same)
        ∧ (s.exportRight off n 2 = true → answers (.winStore k) 0 [] (wrote off k.payload))
        ∧ (s.exportRight off n 2 = false → answers (.winStore k) 1 [] same)
        ∧ (s.exportRight off 8 3 = true → k.aop.toNat ≤ 5 → n = 16 → answers (.winAtomic k) 0 (reads off 8) (wrote off (new off))))
      ∧ (∀ e va pa m right, s.exportFor { k with typ := 0 } m right = some (e, va) → s.mapPhys e.ctx va = some pa → s.here pa → 0 < m → va % 65536 + m ≤ 65536 →
        (m = k.len → right = 1 → answers (.get k) 0 (reads pa m) same)
        ∧ (m = n → right = 2 → answers (.put k) 0 [] fun t => wrote pa k.payload t ∧ counted e t)
        ∧ (m = 8 → right = 3 → k.aop.toNat ≤ 5 → n = 16 → answers (.atomic k) 0 (reads pa 8) fun t => wrote pa (new pa) t ∧ counted e t))
      ∧ (s.exportFor { k with typ := 0 } k.len 1 = none → answers (.get k) 1 [] same)
      ∧ (s.exportFor { k with typ := 0 } n 2 = none → answers (.put k) 1 [] same)
      ∧ (s.exportFor { k with typ := 0 } 8 3 = none → answers (.atomic k) 1 [] same)
      ∧ (∀ e va, s.exportFor { k with typ := 0 } 0 0 = some (e, va) → answers (.notify k) 0 [] fun t => SameMemory s t ∧ counted e t)
      ∧ (s.exportFor { k with typ := 0 } 0 0 = none → answers (.notify k) 1 [] same))

/-- R197, R206, R211, R213: a RESPONSE ends the request whose transaction number it carries: a tile's load takes its bytes or the poison of its status, a request
of a descriptor its count and, where it failed, its status. Data of a collective waits for its step. -/
def Obligations.ResponsesEnd : Prop :=
  ∀ (s : State) (k : Packet), s.Inv → s.Still → s.top.st.live = true → s.gz.joined = true → k.dst = s.gz.me → s.current k = true → s.gz.sent = [] →
    let mine (x : Txn) : Prop := s.gz.txns.find? (fun t => decide (t.num = k.txn) && decide (t.peer = k.src)) = some x
    (∀ x tl id f d, mine x → x.who = .far tl id → (s.tile tl).far.find? (fun f => decide (f.id = id)) = some f → f.kind = .load false → f.dest = .scalar d →
      0 < d → f.size ≤ 8 →
      ∃ t, exec (.response k) s = .next t ∧ (∀ y ∈ t.gz.txns, y.num ≠ k.txn) ∧ (∀ y ∈ (t.tile tl).far, y.id ≠ id)
        ∧ (k.rstatus = 0 → k.payload.length = f.size → (t.tile tl).getS d = BitVec.ofNat 64 (ofLe k.payload) ∧ Tab.look none (t.tile tl).sPoison d = none)
        ∧ (k.rstatus = 2 → Tab.look none (t.tile tl).sPoison d = some ⟨0x20, f.va⟩)
        ∧ ((k.rstatus = 1 ∨ k.rstatus = 3) → Tab.look none (t.tile tl).sPoison d = some ⟨0x21, f.va⟩))
    ∧ (∀ x b q n off d, mine x → x.who = .desc b q n off → (s.fqueue b q).flight = [d] → d.num = n → fOp d.words ≠ 2 → fOp d.words ≠ 3 → d.done = false →
      d.verdict = none → 0 < d.missing → ∃ t e, exec (.response k) s = .next t ∧ (∀ y ∈ t.gz.txns, y.num ≠ k.txn) ∧ (t.fqueue b q).flight = [e]
        ∧ e.missing = d.missing - 1
        ∧ e.verdict = (if k.rstatus = 0 then none else if k.rstatus = 1 then some (0x0A, 0) else if k.rstatus = 2 then some (8, 0) else some (0x0B, 0))
        ∧ e.cursor = (if k.rstatus = 0 then d.cursor else min d.cursor off)
        ∧ e.done = decide (d.missing = 1 ∧ (k.rstatus ≠ 0 ∨ d.issued = true)))
    ∧ (∀ x : CollSlice, s.tagOk k = true → s.recorded k = none → (s.fqueue x.bolt x.queue).flight = [] →
      ∃ t, exec (.collData k x) s = .next t ∧ Tab.look [] t.gz.collIn (16 * x.bolt.val + x.queue.val)
        = Tab.look [] s.gz.collIn (16 * x.bolt.val + x.queue.val) ++ [{ src := k.src.toNat, chunk := x.chunk, gather := x.gather, elem := k.addr.toNat % 2 ^ 32, bytes := k.payload }]
        ∧ SameMemory s t)

/-! ### The domain and its time (R203–R206, R217, R218, R280) -/

/-- R203–R206: a member adopts an epoch higher than its own, and then holds its membership, is coordinator where no lower index is in it, and has no
request outstanding to a member that left. Only a member's messages count. The coordinator issues the next epoch for an admission, a leave and a loss;
any other member tells a loss. One not in the new membership is no member any more. A heartbeat goes to every other member; a member's is noted;
1 ms without one, or without a route, is a loss; and 10 s without the end of a join end it with FAULT. -/
def Claims.Membership : Prop :=
  ∀ (s : State), s.Inv → s.Still → s.top.st.live = true → s.gz.joining = none → s.gz.selfLeave = false → s.gz.sent = [] → s.gz.arrived = [] →
    let me := s.gz.me.toNat
    let one (n : Nat) : W64 := BitVec.ofNat 64 (2 ^ n)
    let live (n : Nat) : W64 := s.gz.members &&& ~~~ (s.gz.suspects ||| one n)
    let lowest (x : W64) : Prop := x.getLsbD me = true ∧ ∀ j, j < me → x.getLsbD j = false
    let issues (c : Instr) (m : W64) : Prop := ∃ t, exec c s = .next t ∧ t.gz.memberSent = s.gz.memberSent ++ [.epoch s.gz.me.toFin (s.gz.epoch + 1) m]
      ∧ t.gz.members = m ∧ t.gz.epoch = s.gz.epoch + 1 ∧ t.gz.joined = true
    let tells (c : Instr) (n : Fin 64) : Prop := ∃ t, exec c s = .next t ∧ t.gz.memberSent = s.gz.memberSent ++ [.loss s.gz.me.toFin n]
      ∧ t.gz.members = s.gz.members ∧ t.gz.epoch = s.gz.epoch
    let loses (c : Instr) (n : Fin 64) : Prop := (lowest (live n) → issues c (live n)) ∧ (¬ lowest (live n) → tells c n)
    (s.gz.joined = false → exec .heartbeatTimer s = .next s ∧ ∀ n, exec (.peerLostTimeout n) s = .next s ∧ exec (.member (.heartbeat n)) s = .next s
        ∧ exec (.member (.loss n n)) s = .next s ∧ exec (.member (.departing n)) s = .next s)
    ∧ (s.gz.joined = true → s.gz.members.getLsbD me = true →
      (∃ t, exec .heartbeatTimer s = .next t ∧ t.gz.memberSent = s.gz.memberSent ++ [.heartbeat s.gz.me.toFin] ∧ t.gz.members = s.gz.members
          ∧ t.gz.epoch = s.gz.epoch
          ∧ ∀ m, m < 64 → m ≠ me → s.gz.members.getLsbD m = true → s.routeOf (BitVec.ofNat 6 m) 0 < 32 →
            s.Sent t (s.memberPacket (.heartbeat s.gz.me.toFin) m))
      ∧ (∀ (n : Fin 64) e m, (e ≤ s.gz.epoch ∨ s.gz.members.getLsbD n.val = false) → s.gz.leaving = none → exec (.member (.epoch n e m)) s = .next s)
      ∧ (∀ (n : Fin 64) e m, s.gz.members.getLsbD n.val = true → s.gz.epoch < e → m.getLsbD me = true → s.gz.leaving = none → ∃ t, exec (.member (.epoch n e m)) s = .next t ∧ t.gz.epoch = e
          ∧ t.gz.members = m ∧ t.gz.joined = true ∧ (t.gz.coord = true ↔ lowest m) ∧ t.gz.memberSent = s.gz.memberSent
          ∧ ∀ x ∈ t.gz.txns, s.gz.members.getLsbD x.peer.toNat = true → m.getLsbD x.peer.toNat = true)
      ∧ (∀ (n : Fin 64) e m, s.gz.members.getLsbD n.val = true → s.gz.epoch < e → m.getLsbD me = false → ∃ t, exec (.member (.epoch n e m)) s = .next t ∧ t.gz.epoch = e ∧ t.gz.joined = false
          ∧ t.gz.routes = [] ∧ t.gz.exports = [] ∧ t.gz.exportMap = [] ∧ (∀ k, (t.port k).st = (s.port k).st)
          ∧ ∀ l, l < 4096 → s.gz.leaving = some l → (s.slotOf l).st = .outstanding → s.clm.watchdog = false →
            (t.slotOf l).st = .complete ∧ ((t.slotOf l).record.getD 0 0).extractLsb' 32 8 = 0)
      ∧ (s.gz.leaving = none → ∀ n : Fin 64, n.val ≠ me →
        let inn := s.gz.members.getLsbD n
        (exec (.member (.heartbeat n)) s = .next (if inn then { s with gz := { s.gz with heard := Tab.put 0 s.gz.heard n s.clk.gt } } else s))
        ∧ (s.gz.coord = false → exec (.member (.admission n)) s = .next s ∧ exec (.member (.leave n)) s = .next s ∧ ∀ k, exec (.member (.loss k n)) s = .next s)
        ∧ (s.gz.coord = true →
          (inn = false → s.reaches n = true → issues (.member (.admission n)) (s.gz.members ||| one n))
          ∧ (inn = true ∨ s.reaches n = false → exec (.member (.admission n)) s = .next s)
          ∧ (inn = true → issues (.member (.leave n)) (s.gz.members &&& ~~~ one n) ∧ ∀ k : Fin 64, s.gz.members.getLsbD k.val = true → loses (.member (.loss k n)) n)
          ∧ ∀ k : Fin 64, s.gz.members.getLsbD k.val = false → exec (.member (.loss k n)) s = .next s)
        ∧ (inn = true → loses (.member (.departing n)) n
          ∧ (156250 ≤ (s.clk.gt - Tab.look 0 s.gz.heard n).toNat → loses (.peerLostTimeout n) n)
          ∧ (∀ g, Tab.look none s.gz.cutSince n = some g → 156250 ≤ (s.clk.gt - g).toNat → loses (.peerLostTimeout n) n)
          ∧ ((s.clk.gt - Tab.look 0 s.gz.heard n).toNat < 156250 →
              (∀ g, Tab.look none s.gz.cutSince n = some g → (s.clk.gt - g).toNat < 156250) → exec (.peerLostTimeout n) s = .next s))))
    ∧ exec .domainJoinTimeout s = .next s
    ∧ ∀ l, l < 4096 → (s.slotOf l).st = .outstanding → s.clm.watchdog = false →
      let j : State := { s with gz := { s.gz with joining := some l } }
      (1562500000 ≤ (s.clk.gt.setWidth 32 - (s.slotOf l).gtAccept).toNat → ∃ t, exec .domainJoinTimeout j = .next t ∧ t.gz.joining = none ∧ t.gz.joined = false
          ∧ (t.slotOf l).st = .complete ∧ ((t.slotOf l).record.getD 0 0).extractLsb' 32 8 = 1)
      ∧ ((s.clk.gt.setWidth 32 - (s.slotOf l).gtAccept).toNat < 1562500000 → exec .domainJoinTimeout j = .next j)

/-- R217, R218, R279, R280: a member takes its offset from an exchange as half the sum of the two differences and keeps the bound of 4 ns or not; a joining
one loads GT once, which completes its join. A correction is one tt, at most once every 64 tt, and never lowers GT. The loss of the timing port moves the
PLL to the next listed port that leads toward the time root, or into holdover; out of sync there, the member begins to leave. An exchange starts with a
TIME_SYNC packet on its link. The list's order and the packet's payload are the model's (log entries 28, 181). -/
def Claims.DomainTime : Prop :=
  ∀ (s : State), s.Inv → s.Still → s.gz.arrived = [] →
    let since := (s.clk.gt - s.clk.lastCorrection).toNat
    let clk (c : Clocks) : State := { s with clk := c }
    (∀ k, (s.gz.joined = false ∨ s.clk.root = true) → exec (.timeSync k) s = .next s)
    ∧ (∀ k, s.gz.joined = true → s.clk.root = false → s.gz.gtLoadDue = false →
        let d := ((k.t2 - k.t1) + (k.t3 - k.t4)) / 2
        exec (.timeSync k) s = .next (clk { s.clk with offset := BitVec.ofInt 16 d, inSync := decide (-40 ≤ d ∧ d ≤ 40) }))
    ∧ (∀ k n, s.gz.joined = true → s.clk.root = false → s.gz.gtLoadDue = true → s.cads = [] → n < 4096 → s.gz.joining = some n → (s.slotOf n).st = .outstanding →
        s.clm.watchdog = false → ∃ t, exec (.timeSync k) s = .next t ∧ t.clk.gt = k.parentGt ∧ t.clk.loads = s.clk.loads + 1 ∧ t.gz.gtLoadDue = false
          ∧ t.gz.joining = none ∧ (t.slotOf n).st = .complete ∧ ((t.slotOf n).record.getD 0 0).extractLsb' 32 8 = 0
          ∧ (t.slotOf n).record.getD 3 0 = s.gz.members ∧ (t.slotOf n).record.getD 4 0 = s.gz.epoch.setWidth 64)
    ∧ (∀ a, (s.gz.joined = false ∨ s.clk.root = true ∨ since < 64) → exec (.gtCorrection a) s = .next s)
    ∧ (s.gz.joined = true → s.clk.root = false → 64 ≤ since →
        exec (.gtCorrection true) s = .next (clk { s.clk with gt := s.clk.gt + 1, lastCorrection := s.clk.gt + 1 })
        ∧ exec (.gtCorrection false) s = .next (clk { s.clk with withhold := true, lastCorrection := s.clk.gt }))
    ∧ (s.clk.source ≠ 1 → exec .timingPortLost s = .next s)
    ∧ (s.clk.source = 1 →
        let next (p : Nat) : Prop := p ∈ s.portsTo (Config.timeRoot s.gz.domain).toNat ∧ (s.port p).timing = true ∧ p ≠ s.clk.timingPort.toNat
        (∀ p, next p → (∀ q, q < p → ¬ next q) → exec .timingPortLost s = .next (clk { s.clk with timingPort := BitVec.ofNat 5 p }))
        ∧ ((∀ p, ¬ next p) → exec .timingPortLost s = .next (clk { s.clk with source := 2, timingPort := 0, switches := s.clk.switches + 1 })))
    ∧ ((s.clk.source ≠ 2 ∨ s.gz.joined = false) → exec .outOfSync s = .next s)
    ∧ (s.clk.source = 2 → s.gz.joined = true → s.gz.coord = false → s.gz.leaveSent = false → s.gz.fq = [] → ∃ t, exec .outOfSync s = .next t
        ∧ t.clk = { s.clk with inSync := false } ∧ t.gz.selfLeave = true ∧ t.gz.memberSent = s.gz.memberSent ++ [.leave s.gz.me.toFin])
    ∧ ∀ p : Fin 32, (¬ (s.gz.joined = true ∧ (s.port p).st = .up) → exec (.timeSyncExchange p) s = .next s)
      ∧ (s.gz.joined = true → (s.port p).st = .up → ∃ t, exec (.timeSyncExchange p) s = .next t
          ∧ t.clk = { s.clk with syncs := Tab.put 0 s.clk.syncs p s.clk.gt }
          ∧ let l := (Config.syncPayload s.clk.gt).take 256
            { s.packet 0x31 3 (s.port p).peerMember with len := l.length, payload := l } ∈ (t.port p).holds)

/-- (1) R203–R206: a member adopts an epoch higher than its own, and then holds its membership, is coordinator where no lower index is in it,
and has no request outstanding to a member that left. Only a member's messages count. The coordinator issues the next epoch for an
admission, a leave and a loss; any other member tells a loss. One not in the new membership is no member any more. A heartbeat goes to every
other member; a member's is noted; 1 ms without one, or without a route, is a loss; and 10 s without the end of a join end it with FAULT.
(2) R217, R218, R279, R280: a member takes its offset from an exchange as half the sum of the two differences and keeps the bound of 4 ns or
not; a joining one loads GT once, which completes its join. A correction is one tt, at most once every 64 tt, and never lowers GT. The loss
of the timing port moves the PLL to the next listed port that leads toward the time root, or into holdover; out of sync there, the member
begins to leave. An exchange starts with a TIME_SYNC packet on its link. The list's order and the packet's payload are the model's (log
entries 28, 181). -/
def Obligations.Domain : Prop :=
  Claims.Membership ∧ Claims.DomainTime

/-! ### Fabric queues and collectives (R209–R215) -/

/-- R209–R211, R178: a queue starts its next descriptor, which its bound mover reads, 64 in flight at most; a bad one is REFUSED and one whose peer is no member
PEER_LOST. Each command of an operation sends its next request, with a transaction and an end-to-end number of its own: a PUT carries the local
bytes and then its notification, a BARRIER notifies every member of its mask. The first descriptor, done, writes its status and signals
within its context. -/
def Obligations.FabricQueues : Prop :=
  ∀ (s : State) (b : Fin 4) (q : Fin 16), s.Inv → s.Still → s.top.st.live = true → s.gz.selfLeave = false → s.gz.leaving = none →
    let f := s.fqueue b q
    let m := f.mover.toNat
    let c := f.ctx.toNat
    let mv : State → Nat → Access → Xlat := fun s va acc => s.translate (.mover b m) c (s.ctxAsid c) va acc false
    let still (t : State) : Prop := SameMemory s t ∧ (∀ n, t.tile n = s.tile n)
    (s.mover b m).st ≠ .paused →
    ((f.granted = false ∨ 64 ≤ f.flight.length ∨ s.fqWaiting b q = 0) → exec (.fabricDescriptorStart b q) s = .next s)
    ∧ (∀ pa, f.granted = true → f.flight.length < 64 → s.fqWaiting b q ≠ 0 → f.en = true → f.aborting = false →
        let va := f.base.toNat * 128 + f.started % 2 ^ f.size.toNat * 128
        let ws : List W64 := (List.range 16).map fun k => BitVec.ofNat 64 (ofLe (Tab.readN 0 s.mem.phys (pa + 8 * k) 8))
        mv s va .descriptor = .hit pa → s.here pa →
        ∃ t d, exec (.fabricDescriptorStart b q) s = .next t ∧ still t ∧ t.fqueue b q = { f with started := f.started + 1, flight := f.flight ++ [d] }
          ∧ d.num = f.started ∧ d.words = ws ∧ d.cursor = 0 ∧ d.missing = 0 ∧ d.issued = false ∧ (d.done = true ↔ d.verdict ≠ none)
          ∧ (fOp ws ∉ [1, 2, 3, 4, 5, 16, 17, 18] → d.verdict = some (9, 8))
          ∧ d.verdict = match s.checkFabric c ws with
            | some e => some (9, e)
            | none => if fOp ws ≤ 4 ∧ s.isMember (fPeer ws) = false then some (5, 0) else none)
    ∧ (∀ d, s.gz.joined = true → f.flight = [d] → d.done = false → d.verdict = none →
        let ws := d.words
        let note : BitVec 10 × BitVec 16 := (BitVec.ofNat 10 (dWord ws 4 16 10), BitVec.ofNat 16 (dWord ws 4 0 16))
        let len := (wordAt ws 3).toNat
        let n := min (len - d.cursor) (min (256 - ((wordAt ws 2).toNat + d.cursor) % 256) (65536 - (dWord ws 1 0 57 + d.cursor) % 65536))
        let addr (off : Nat) : W64 := BitVec.ofNat 64 (dWord ws 0 38 8 * 2 ^ 56 + off % 2 ^ 48)
        let pk (typ : BitVec 8) (dst : BitVec 6) (off len : Nat) (i : BitVec 10 × BitVec 16) (aop : Nat) (l : List Byte) : Packet := {
          typ := typ, cls := 0, hop := 0, dst := dst, src := s.gz.me, flow := flowOf (addr off).toNat, len := len, epoch := s.gz.epoch.setWidth 16
          addr := addr off, tagged := f.cad, cadence := if f.cad then f.cadence else 0
          period := if f.cad then BitVec.ofNat 9 (s.cad f.cadence.toNat).period else 0, txn := s.gz.nextTxn, ctr := i.1, inc := i.2, rstatus := 0
          aop := BitVec.ofNat 4 aop, seq := Tab.look 0 s.gz.e2e (16 * dst.toNat + (flowOf (addr off).toNat).toNat), payload := l }
        let peer := BitVec.ofNat 6 (dWord ws 0 46 6)
        let sends (c : Instr) (k : Packet) (off : Nat) (d' : FabDesc) : Prop := ∃ t, exec c s = .next t ∧ still t ∧ s.Sent t k
          ∧ t.gz.txns = s.gz.txns ++ [{ num := s.gz.nextTxn, peer := k.dst, flow := k.flow, who := .desc b q d.num off }]
          ∧ t.gz.nextTxn = s.gz.nextTxn + 1 ∧ (t.fqueue b q).flight = [{ d' with missing := d.missing + 1 }]
        (fOp ws = 1 → d.cursor < len → ∀ pa, mv s ((dWord ws 1 0 57 + d.cursor) % 2 ^ 57) .moverSrc = .hit pa → s.here pa →
          sends (.fabricPut b q 0) (pk 4 peer ((wordAt ws 2).toNat + d.cursor) n (0, 0) 0 (Tab.readN 0 s.mem.phys pa n)) d.cursor
            { d with cursor := d.cursor + n, issued := decide (d.cursor + n = len ∧ dWord ws 4 0 16 = 0) })
        ∧ (fOp ws = 1 → len ≤ d.cursor → d.missing = 0 → d.noted = false → d.issued = false →
          sends (.fabricPut b q 0) (pk 7 peer 0 0 note 0 []) 0 { d with noted := true, issued := true })
        ∧ (fOp ws = 2 → d.cursor < len → sends (.fabricGet b q 0) (pk 5 peer ((wordAt ws 2).toNat + d.cursor) n (0, 0) 0 []) d.cursor
            { d with cursor := d.cursor + n, issued := decide (d.cursor + n = len) })
        ∧ (fOp ws = 3 → d.issued = false → sends (.fabricAtomic b q 0) (pk 6 peer (wordAt ws 2).toNat 16 note (dWord ws 0 34 4)
            (toLe 8 (wordAt ws 5).toNat ++ toLe 8 (wordAt ws 6).toNat)) 0 { d with issued := true })
        ∧ (fOp ws = 4 → d.issued = false → s.isMember (dWord ws 0 46 6) = true → sends (.fabricNotify b q 0) (pk 7 peer 0 0 note 0 []) 0 { d with issued := true })
        ∧ (fOp ws = 5 → d.issued = false → (∀ k, (wordAt ws 7).getLsbD k = true → s.isMember k = true) → ∃ t, exec (.barrier b q 0) s = .next t ∧ still t
            ∧ (∀ k : Fin 64, (wordAt ws 7).getLsbD k = true → ∃ p, s.Sent t p ∧ p.typ = 7 ∧ p.dst.toNat = k.val ∧ (p.ctr, p.inc) = note ∧ p.addr = addr 0
                ∧ { num := p.txn, peer := p.dst, flow := p.flow, who := .desc b q d.num 0, old := false } ∈ t.gz.txns)
            ∧ t.gz.nextTxn.toNat = (s.gz.nextTxn.toNat + ((List.range 64).filter fun k => (wordAt ws 7).getLsbD k).length) % 2 ^ 32)
        ∧ (fOp ws = 5 → d.issued = false → (∃ k, (wordAt ws 7).getLsbD k = true ∧ s.isMember k = false) →
            ∃ t, exec (.barrier b q 0) s = .next t ∧ (t.fqueue b q).flight = [{ d with verdict := some (5, 0), done := decide (d.missing = 0) }] ∧ t.gz.sent = s.gz.sent))
    ∧ (∀ d rest pa, f.flight = d :: rest → d.done = true → d.noWrite = false → d.lost = [] → fOp d.words < 16 → d.verdict ≠ some (3, 0) →
        let status := match d.verdict with | some v => v.1 | none => if d.poisoned.isSome then 7 else if !f.en && f.drain then 2 else 1
        let detail := match d.verdict with | some v => v.2 | none => 0
        let sf := dWord d.words 0 57 1
        let sc := dWord d.words 0 56 1
        status < 256 → status ≠ 3 → status ≠ 4 → detail < 16 →
        d.va.toNat % 128 = 0 → mv s ((d.va.toNat + 0x70) % 2 ^ 57) .moverDst = .hit pa → s.here pa →
        ∃ t, exec (.fabricDescriptorComplete b q) s = .next t ∧ (t.fqueue b q).flight = rest
          ∧ ofLe (Tab.readN 0 t.mem.phys pa 8) = (if status = 7 then d.poisoned.getD d.cursor else d.cursor) % 2 ^ 64
          ∧ ofLe (Tab.readN 0 t.mem.phys (pa + 8) 8) = s.clk.gt.toNat % 2 ^ 32 * 2 ^ 32 + detail * 2 ^ 20 + status
          ∧ (∀ k, (k < pa ∨ pa + 16 ≤ k) → Tab.look 0 t.mem.phys k = Tab.look 0 s.mem.phys k)
          ∧ (let u := dWord d.words 8 19 10
             let o := dWord d.words 8 0 19 / 8 * 8
             let flags : Prop := sf = 1 ∧ s.ctxHasTile c u = true ∧ (s.tile u).windowOpen = true
             (flags → Tab.readN 0 (t.tile u).silt o 8 = toLe 8 (status * 2 ^ 32 + dWord d.words 8 32 32))
              ∧ ∀ n a, ¬ (flags ∧ n = u ∧ o ≤ a ∧ a < o + 8) → Tab.look 0 (t.tile n).silt a = Tab.look 0 (s.tile n).silt a)
          ∧ (∀ k, t.ctr k = if sc = 1 ∧ s.ctrGranted c (dWord d.words 9 16 10) = true ∧ k = dWord d.words 9 16 10 then s.ctr k + BitVec.ofNat 32 (dWord d.words 9 0 16) else s.ctr k))
    ∧ (∀ d rest, f.flight = d :: rest → d.done = false → exec (.fabricDescriptorComplete b q) s = .next s)
    ∧ (∀ p d, s.pathUp p = true → pathSecure p = false → exec (.fqueueEnClear b q d p) s = .next { s with clm := { s.clm with secureDenied := s.clm.secureDenied + 1 } }
        ∧ exec (.fqueueEnSet b q p) s = .next { s with clm := { s.clm with secureDenied := s.clm.secureDenied + 1 } })
    ∧ ∀ p, s.pathUp p = true → pathSecure p = true →
      let idle := f.flight.isEmpty && decide (s.fqWaiting b q = 0)
      (∀ d, f.en = true → exec (.fqueueEnClear b q d p) s = .next (s.setFqueue b q { f with
          en := false, drain := d, limit := some (f.started + s.fqWaiting b q), draining := d && !idle, aborting := !d && !idle
          flight := if d then f.flight else f.flight.map fun x =>
            if x.done || x.verdict.isSome then x else { x with verdict := some (3, 0), done := decide (x.missing = 0) } }))
      ∧ (∀ d, f.en = false → f.draining = false → exec (.fqueueEnClear b q d p) s = .next s)
      ∧ (f.en = false → f.draining = false → f.aborting = false → exec (.fqueueEnSet b q p) s
          = .next (s.setFqueue b q { f with en := true, drain := false, limit := none }))
      ∧ (f.draining = true ∨ f.aborting = true → exec (.fqueueEnSet b q p) s = .next s)

/-- R210, R212–R214: a collective first reads its ring list. Over a ring of n with LEN = 32 n elements of FP32, position p sends chunk p − 1 of its input at the first step
of a reduction, and its own chunk, stored first, of an ALL_GATHER. At the last reduction step it stores the received chunk p plus its own, each
element the exact sum rounded once; at an ALL_GATHER step it stores what it received. What it takes is what the member before it in the ring sent. The TXN of its
packets is the model's (log entry 184). -/
def Obligations.Collectives : Prop :=
  ∀ (s : State) (b : Fin 4) (q : Fin 16) (d : FabDesc), s.Inv → s.Still → s.top.st.live = true → s.gz.joined = true →
    let f := s.fqueue b q
    let m := f.mover.toNat
    let c := f.ctx.toNat
    let ws := d.words
    let op := fOp ws
    let cmd : Instr := if op = 16 then .allReduce b q 0 else if op = 17 then .reduceScatter b q 0 else .allGather b q 0
    let mv : State → Nat → Access → Xlat := fun s va acc => s.translate (.mover b m) c (s.ctxAsid c) (va % 2 ^ 57) acc false
    let touched (va : Nat) : State := s.touch (.mover b m) (s.ctxAsid c) (va % 2 ^ 57)
    let flat (va n : Nat) : Prop := va % 65536 + n ≤ 65536
    let now (w : State → Prop) (e : FabDesc) : Prop := ∃ t, exec cmd s = .next t ∧ w t ∧ (t.fqueue b q).flight = [e] ∧ ∀ n, t.tile n = s.tile n
    let stored (pa : Nat) (l : List Byte) (t : State) : Prop :=
      ∀ a, Tab.look 0 t.mem.phys a = if pa ≤ a ∧ a < pa + l.length then l.getD (a - pa) 0 else Tab.look 0 s.mem.phys a
    op ∈ [16, 17, 18] → (s.mover b m).st ≠ .paused → f.flight = [d] → d.done = false → d.verdict = none → d.poisoned = none →
    (∀ pa (r : List Nat) (tail : List Byte), let va := (wordAt ws 7).toNat
      d.ring = [] → flat va 64 → mv s va .moverSrc = .hit pa → s.here pa →
      Tab.readN 0 s.mem.phys pa 64 = r.map (BitVec.ofNat 8) ++ tail → (tail = [] ∨ tail.head? = some 0xFF) → (∀ x ∈ r, x < 64) →
      let good := 2 ≤ r.length ∧ r.Nodup ∧ s.gz.me.toNat ∈ r
      (good → (∀ x ∈ r, s.isMember x = true) → now (SameMemory s) { d with ring := r })
      ∧ (good → (∃ x ∈ r, s.isMember x = false) → now (SameMemory s) { d with verdict := some (5, 0), done := true })
      ∧ (¬ good → now (SameMemory s) { d with verdict := some (9, 9), done := true }))
    ∧ (∀ p n, let r := d.ring
      r.length = n → 2 ≤ n → n ≤ 64 → r.Nodup → p < n → r[p]? = some s.gz.me.toNat → fDtype ws = 0 → fLen ws = 32 * n →
      let in_ (k : Nat) : Nat := fLocal ws + 128 * k
      let out (k : Nat) : Nat := fRemote ws + 128 * k
      let dst := BitVec.ofNat 6 (r.getD ((p + 1) % n) 0)
      let pk (k : Nat) (l : List Byte) : Packet := {
        typ := 0x20, cls := 2, hop := 0, dst := dst, src := s.gz.me, flow := BitVec.ofNat 4 q, len := 128, epoch := s.gz.epoch.setWidth 16
        addr := BitVec.ofNat 64 (32 * k), tagged := f.cad, cadence := if f.cad then f.cadence else 0
        period := if f.cad then BitVec.ofNat 9 (s.cad f.cadence.toNat).period else 0, txn := BitVec.ofNat 32 (4 * d.num + b), ctr := 0, inc := 0
        rstatus := 0, aop := 0, seq := Tab.look 0 s.gz.e2e (16 * dst.toNat + q), payload := l }
      let from_ := r.getD ((p + n - 1) % n) 0
      let got := Tab.look [] s.gz.collIn (16 * b.val + q.val)
      (d.step = 0 → d.sent = 0 → got = [] →
        (op ≠ 18 → let k := (p + n - 1) % n
          ∀ pa, flat (in_ k) 128 → mv s (in_ k) .moverSrc = .hit pa → s.here pa →
            now (fun t => SameMemory s t ∧ s.Sent t (pk k (Tab.readN 0 s.mem.phys pa 128))) { d with sent := 1 })
        ∧ (op = 18 → ∀ pa po, flat (in_ p) 128 → flat (out p) 128 → mv s (in_ p) .moverSrc = .hit pa → s.here pa → mv (touched (in_ p)) (out p) .moverDst = .hit po → s.here po →
            let l := Tab.readN 0 s.mem.phys pa 128
            now (fun t => stored po l t ∧ s.Sent t (pk p l)) { d with sent := 1, chunks := d.chunks ||| BitVec.ofNat 64 (2 ^ p), cursor := d.cursor + 128 }))
      ∧ (∀ (x : List Byte), x.length = 128 →
        (op ≠ 18 → d.step + 2 = n → d.sent = n - 1 → got = [{ src := from_, chunk := p, gather := false, elem := 32 * p, bytes := x }] →
          ∀ pa po, flat (in_ p) 128 → flat (out p) 128 → mv s (in_ p) .moverSrc = .hit pa → s.here pa → mv (touched (in_ p)) (out p) .moverDst = .hit po → s.here po →
            let y := Tab.readN 0 s.mem.phys pa 128
            let val (l : List Byte) (i : Nat) : FpNum := decodeNum fmtF32 (ofLe ((l.drop (4 * i)).take 4))
            let sum : List Byte := (List.range 32).flatMap fun i => toLe 4 (roundTo fmtF32 .even false (FpNum.add false (val x i) (val y i)).1).1
            now (fun t => stored po sum t ∧ Tab.look [] t.gz.collIn (16 * b.val + q.val) = [])
              { d with step := d.step + 1, acc := sum, chunks := d.chunks ||| BitVec.ofNat 64 (2 ^ p), cursor := d.cursor + 128, done := decide (op = 17) })
        ∧ (op = 18 → d.step + 1 < n → d.sent = d.step + 1 → let k := (p + 2 * n - d.step - 1) % n
          got = [{ src := from_, chunk := k, gather := true, elem := 32 * k, bytes := x }] → ∀ po, flat (out k) 128 → mv s (out k) .moverDst = .hit po → s.here po →
            now (fun t => stored po x t ∧ Tab.look [] t.gz.collIn (16 * b.val + q.val) = [])
              { d with step := d.step + 1, acc := x, chunks := d.chunks ||| BitVec.ofNat 64 (2 ^ k), cursor := d.cursor + 128, done := decide (d.step + 2 = n) })))

/-! ### The Bursen link (R219–R224) -/

/-- R219–R221, R223: a line of the host-visible region that the host reads is its bytes, and the host then holds it, as owner with READ_OWN; other module memory
does not answer. A host line that the module reads is in its cache, where a full one gives up another line. A holder's INVALIDATE takes the copy away, a dirty one written back first; one
unanswered for 10 µs is lost to the host, counted and reported. A WRITE changes exactly its bytes at the line's home. While the link is not UP
none of this happens. -/
def Claims.BursenLines : Prop :=
  ∀ (s : State) (l : Nat), s.Inv →
    let a := 128 * l
    let rd (h : Reader) (own : Bool) : Instr := if own then .readOwn h l else .readShared h l
    let only (t : State) : Prop := { t with cmd := s.cmd } = s
    (s.cmd.link ≠ .up → (∀ h own, exec (rd h own) s = .next s) ∧ ∀ h, exec (.invalidate h l) s = .next s)
    ∧ (s.cmd.link = .up →
      (∀ sec own k, targetOf a = .hbm k → s.hostVisible a = false → exec (rd (.host sec) own) s = .next s)
      ∧ (∀ sec own k, targetOf a = .hbm k → s.hostVisible a = true → s.stackUp k = true → s.mem.bad = [] → ∃ t, exec (rd (.host sec) own) s = .next t ∧ only t
          ∧ t.cmd.readData = Tab.readN 0 s.mem.phys a 128
          ∧ Tab.look none t.cmd.hostHeld l = some (own || decide (Tab.look none s.cmd.hostHeld l = some true))
          ∧ ∀ n, n ≠ l → Tab.look none t.cmd.hostHeld n = Tab.look none s.cmd.hostHeld n)
      ∧ (∀ own, l < 2 ^ 35 → Tab.look none s.cmd.cache l = none → 524288 ≤ s.cmd.cache.length → ∃ t h, exec (rd .module own) s = .next t
          ∧ Tab.look none t.cmd.cache l = some h ∧ h.owned = own ∧ t.cmd.cache.length = s.cmd.cache.length)
      ∧ (∀ own, l < 2 ^ 35 → (Tab.look none s.cmd.cache l = none → s.cmd.cache.length < 524288) → ∃ t h, exec (rd .module own) s = .next t ∧ only t ∧ Tab.look none t.cmd.cache l = some h
          ∧ (Tab.look none s.cmd.cache l = none → h = { owned := own, dirty := false, data := Tab.readN 0 s.mem.host a 128 })
          ∧ (∀ g, Tab.look none s.cmd.cache l = some g → h = { g with owned := g.owned || own })
          ∧ ∀ n, n ≠ l → Tab.look none t.cmd.cache n = Tab.look none s.cmd.cache n)
      ∧ (Tab.look none s.cmd.cache l = none → exec (.invalidate true l) s = .next s)
      ∧ (∀ h, Tab.look none s.cmd.cache l = some h → ∃ t, exec (.invalidate true l) s = .next t ∧ Tab.look none t.cmd.cache l = none
          ∧ (∀ n, n ≠ l → Tab.look none t.cmd.cache n = Tab.look none s.cmd.cache n) ∧ t.mem.phys = s.mem.phys
          ∧ ∀ n, Tab.look 0 t.mem.host n = if h.dirty = true ∧ a ≤ n ∧ n < a + h.data.length then h.data.getD (n - a) 0 else Tab.look 0 s.mem.host n)
      ∧ (∀ c ∈ [Instr.invalidate false l, .snoopTimeout l], l ∈ s.cmd.snoops → ∃ t, exec c s = .next t ∧ l ∉ t.cmd.snoops
          ∧ Tab.look none t.cmd.hostHeld l = none ∧ ∀ n, n ≠ l → Tab.look none t.cmd.hostHeld n = Tab.look none s.cmd.hostHeld n)
      ∧ (s.Still → s.top.st ≠ .off → ∀ (x : Nat) (d : List Byte) (b : Bool),
          (∀ k, targetOf x = .hbm k → s.hostVisible x = true → s.stackUp k = true → ∃ t, exec (.write x d b) s = .next t
              ∧ { t with mem := s.mem } = s ∧ t.mem.host = s.mem.host
              ∧ ∀ n, Tab.look 0 t.mem.phys n = if x ≤ n ∧ n < x + d.length then d.getD (n - x) 0 else Tab.look 0 s.mem.phys n)
          ∧ (∀ k, targetOf x = .hbm k → s.hostVisible x = false → exec (.write x d b) s = .next s)
          ∧ (∀ h, targetOf x = .host h → ∃ t, exec (.write x d b) s = .next t ∧ t.mem.phys = s.mem.phys
              ∧ ∀ n, Tab.look 0 t.mem.host n = if h ≤ n ∧ n < h + d.length then d.getD (n - h) 0 else Tab.look 0 s.mem.host n)
          ∧ (∀ j o, targetOf x = .csr (j * 2 ^ 24 + o) → j < 18 → o < 2 ^ 24 → o % 4 = 0 → x % 4 = 0 → d.length = 4 → regHere j o = true → regSecure j o = true →
              ¬ (0xF00 ≤ o ∧ o < 0xF18 ∧ j ∈ [4, 6, 9, 10]) →
              exec (.write x d false) s = .next { s with clm := { s.clm with secureDenied := s.clm.secureDenied + 1 } })))
    ∧ (l ∉ s.cmd.snoops → exec (.snoopTimeout l) s = .next s)
    ∧ (l ∈ s.cmd.snoops → s.err = {} → ∃ t, exec (.snoopTimeout l) s = .next t ∧ t.cmd.snoopTimeouts = s.cmd.snoopTimeouts + 1
        ∧ t.err.log.map (fun e => (e.kind, e.typ, e.data)) = [(8, 0x17, [BitVec.ofNat 32 a, BitVec.ofNat 32 (a / 2 ^ 32)])])

/-- R224: as the link leaves UP every host line is dropped, a dirty one with its data, whose count the BURSEN_DOWN entry holds. While it is not UP a
command that completes keeps its record; once it is UP the records are written in their order, each with the message it asked for. Without CTLA the link stays down. Three failures of training in a
row put it in FAILED, and an oldest frame replayed 16 times or unacknowledged for 100 µs takes it down (R196, R219). -/
def Claims.BursenLink : Prop :=
  ∀ (s : State), s.Inv →
    (s.cmd.link ≠ .up → exec .bursenLinkDown s = .next s)
    ∧ (s.cmd.link = .up → exec .bursenLinkUp s = .next s)
    ∧ (s.cmd.link = .up → s.err = {} → ∃ t, exec .bursenLinkDown s = .next t ∧ t.cmd = { s.cmd with link := .training, cache := [], portB := (s.port 32).fresh .disabled }
        ∧ (t.port 32).st = .disabled ∧ (t.port 32).unacked = [] ∧ (t.port 32).txq = [] ∧ t.mem.host = s.mem.host
        ∧ t.err.log.map (fun e => (e.kind, e.typ, e.data))
          = [(8, 0x27, [0, 0, BitVec.ofNat 32 (s.cmd.cache.filter fun p => match p.2 with | some h => h.dirty | none => false).length])])
    ∧ (s.cmd.link ≠ .up → s.top.ctlA = false → exec .bursenLinkUp s = .next s)
    ∧ (s.cmd.link ≠ .up → s.top.st ≠ .off → s.top.ctlA = true → s.cmd.areaRefused = false → (∀ n ∈ s.cmd.heldRecords, (s.slotOf n).record.length = 8) → s.cmd.heldRecords.Nodup →
        ∃ t, exec .bursenLinkUp s = .next t ∧ t.cmd.link = .up ∧ t.cmd.heldRecords = []
          ∧ (∀ n ∈ s.cmd.heldRecords, Tab.readN 0 t.mem.host (s.cmd.area + 64 * n) 64 = (s.slotOf n).record.flatMap fun w => toLe 8 w.toNat)
          ∧ (∀ a, (∀ n ∈ s.cmd.heldRecords, a < s.cmd.area + 64 * n ∨ s.cmd.area + 64 * n + 64 ≤ a) → Tab.look 0 t.mem.host a = Tab.look 0 s.mem.host a)
          ∧ t.cmd.msgs = s.cmd.msgs ++ ((s.cmd.heldRecords.filter fun n => (s.slotOf n).intr && s.cmd.intEn).map fun n =>
              { vector := s.cmd.vector, payload := BitVec.ofNat 16 n, secure := s.cmd.areaSecure })
          ∧ t.mem.phys = s.mem.phys)
    ∧ (s.cmd.link ≠ .up → s.cmd.link ≠ .failed → s.top.ctlA = true →
        let n := s.cmd.portB.fails + 1
        exec (.portTrainingComplete 32 .failed) s = .next { s with cmd := { s.cmd with
          portB := { s.cmd.portB with fails := n }, link := if 3 ≤ n then .failed else .training } })
    ∧ (s.cmd.link = .up → (s.cmd.portB.failing s.clk.gt = false → exec (.linkFailure 32) s = .next s)
        ∧ (s.cmd.portB.failing s.clk.gt = true → ∃ t, exec (.linkFailure 32) s = .next t ∧ t.cmd.link = .training ∧ t.cmd.cache = []))
    ∧ ∀ n status, n < 4096 → status < 256 → s.cmd.link ≠ .up → (s.slotOf n).st = .outstanding → s.clm.watchdog = false →
        (s.complete n status 0 []).cmd.heldRecords = s.cmd.heldRecords ++ [n] ∧ (s.complete n status 0 []).mem.host = s.mem.host

/-- (1) R219–R221, R223: a line of the host-visible region that the host reads is its bytes, and the host then holds it, as owner with READ_OWN;
other module memory does not answer. A host line that the module reads is in its cache, where a full one gives up another line. A holder's
INVALIDATE takes the copy away, a dirty one written back first; one unanswered for 10 µs is lost to the host, counted and reported. A WRITE
changes exactly its bytes at the line's home. While the link is not UP none of this happens. (2) R224: as the link leaves UP every host line
is dropped, a dirty one with its data, whose count the BURSEN_DOWN entry holds. While it is not UP a command that completes keeps its
record; once it is UP the records are written in their order, each with the message it asked for. Without CTLA the link stays down. Three
failures of training in a row put it in FAILED, and an oldest frame replayed 16 times or unacknowledged for 100 µs takes it down (R196,
R219). -/
def Obligations.Bursen : Prop :=
  Claims.BursenLines ∧ Claims.BursenLink

/-! ### Commands and handles (R225–R237) -/

/-- The rows that are exchanges: opcode (Table 9-6), whether secure-only, the bits of the parameter words that the command defines (Table 9-7). -/
def Claims.commands : List (Nat × Bool × List Nat × (Exchange → Instr)) :=
  let host := 2 ^ 48 - 1
  let word := 2 ^ 64 - 1
  let low := 2 ^ 32 - 1
  let image := [host, word, 0xF, host] ++ List.replicate 6 word
  [(0x01, false, [host, 0x1FFFF], .setupCompletion), (0x02, false, image, .loadImage), (0x03, false, image, .fitCheck), (0x04, false, [0xF], .start),
   (0x05, false, [0xF], .stop), (0x06, false, [low], .cancel), (0x07, false, [0xFF, word, host, low], .query),
   (0x08, false, 0x1F :: List.replicate 12 word, .retire), (0x09, false, [0xF, word, word, host], .memCopy),
   (0x0A, false, [0xF, 0, word, host, word], .memFill), (0x0B, false, [0xF], .saveContext), (0x0C, false, [0xF], .restoreContext)]
  ++ [(0x0D, false, [0x3F, word], .cadenceArm), (0x0E, false, [0x13F], .cadenceDisarm), (0x0F, true, [low, low], .powerEnvelope),
   (0x10, false, [low, 0x13F, word], .domainJoin), (0x11, false, [], .domainLeave), (0x12, true, [], .reservoirLearn),
   (0x13, true, [host, 0xFFFF], .reservoirRestore), (0x14, false, List.replicate 4 word ++ [host, low], .attest), (0x15, false, [], .drain),
   (0x16, true, [], .resetModule)]

/-- R27, R226–R229: an exchange is refused at the first of these checks that fails, with no effect but its response: the cluster takes lines, the module state
accepts the opcode (Table 1-8), a completion area is registered, the OPCODE is none of the reserved ones, no reserved bit is set, a secure-only command is
secure. In OFF, or with the link not UP,
nothing is answered. A line not taken in time is answered BUSY, DETAIL 2. -/
def Obligations.CommandChecks : Prop :=
  ∀ (s : State) (x : Exchange) (op : Nat) (sec : Bool) (masks : List Nat) (cmd : Exchange → Instr), s.Inv → s.Still →
    (op, sec, masks, cmd) ∈ Claims.commands →
    let turns (c : Instr) (result detail : Nat) : Prop := exec c s = .next { s with cmd := { s.cmd with resp := some {
      detail := BitVec.ofNat 16 detail, result := BitVec.ofNat 8 result, state := BitVec.ofNat 3 s.top.st.code, gtLow := s.clk.gt.setWidth 32 } } }
    let code := match x.opcode with | some k => if k.toNat = 0 ∨ 0x16 < k.toNat then k.toNat else op | none => op
    let reserved := code = 0 ∨ 0x16 < code
    let takes := match s.top.st with
      | .ready | .running => True
      | .drain => code ∈ [0x01, 0x06, 0x07, 0x08, 0x0F, 0x11, 0x14, 0x15, 0x16]
      | .faulted => code ∈ [0x01, 0x07, 0x08, 0x0F, 0x14, 0x16] ∧ ¬ (code = 0x16 ∧ s.top.cause = 0xB ∧ ∃ p ∈ s.gvn.junction, 1000 ≤ p.2)
      | _ => False
    let clear := x.flags &&& ~~~ 0x100 = 0 ∧ x.par.length ≤ 14 ∧ ∀ k, k < 14 → ∀ i, i < 64 → (x.par.getD k 0).getLsbD i = true → (masks.getD k 0).testBit i = true
    let deaf := s.top.st = .off ∨ s.cmd.link ≠ .up
    (deaf → exec (cmd x) s = .next s ∧ exec (.apertureTimeout x) s = .next s)
    ∧ (¬ deaf → turns (.apertureTimeout x) 1 2
      ∧ (s.top.st.firmware = true → s.fwRuns = false → turns (cmd x) 1 2)
      ∧ (s.top.st.firmware = false ∨ s.fwRuns = true →
        (¬ takes → turns (cmd x) 4 1)
        ∧ (takes → s.cmd.areaValid = false → code ≠ 0x01 → code ≠ 0x16 → turns (cmd x) 4 2)
        ∧ (takes → s.cmd.areaValid = true → reserved → turns (cmd x) 2 1)
        ∧ (takes → ¬ reserved → s.cmd.areaValid = true ∨ op = 0x01 ∨ op = 0x16 →
          (¬ clear → turns (cmd x) 2 2) ∧ (clear → sec = true → x.secure = false → turns (cmd x) 2 4))))

/-- R233, R235–R237: SETUP_COMPLETION registers AREA, VECTOR and INT_EN while every slot is free. RETIRE frees its handles in order up to the first that is stale,
free or outstanding. CANCEL answers 1 for a handle already complete and refuses one that is stale, free or cannot be cancelled. A command
with a handle takes the free slot that follows the last one allocated. -/
def Obligations.Handles : Prop :=
  ∀ (s : State) (x : Exchange), s.Inv → s.Still →
    let w (k : Nat) : Nat := (x.par.getD k 0).toNat
    let only (t : State) : Prop := { t with cmd := s.cmd } = s
    let answers (c : Instr) (result detail info : Nat) (now : Bool) : Prop := ∃ t, exec c s = .next t ∧ only t ∧ s.Replied t result detail info now
        ∧ { t.cmd with resp := s.cmd.resp } = s.cmd
    let busy := ∃ n, (s.slotOf n).st ≠ .free
    (s.top.st ≠ .off → s.cmd.link = .up → (s.top.st.firmware = true → s.fwRuns = true) → s.accepts 1 = true → lineOpcode 1 x = 1 → fieldsClear x [2 ^ 48 - 1, 0x1FFFF] = true →
      (w 0 % 4096 ≠ 0 → answers (.setupCompletion x) 2 3 0 false)
      ∧ (w 0 % 4096 = 0 → busy → answers (.setupCompletion x) 2 11 0 false)
      ∧ (w 0 % 4096 = 0 → ¬ busy → ∃ t, exec (.setupCompletion x) s = .next t ∧ only t ∧ s.Replied t 0 0 0 true ∧ t.cmd.areaValid = true ∧ t.cmd.areaSecure = x.secure
          ∧ t.cmd.area = w 0 ∧ t.cmd.vector = BitVec.ofNat 16 (w 1) ∧ t.cmd.intEn = decide (w 1 / 65536 % 2 = 1) ∧ t.cmd.areaRefused = x.refused
          ∧ t.cmd.slots = s.cmd.slots))
    ∧ (s.Passes 8 x (0x1F :: List.replicate 12 (2 ^ 64 - 1)) false →
      let n := w 0 % 32
      let h (i : Nat) : Nat := w (1 + i / 2) / 2 ^ (32 * (i % 2)) % 2 ^ 32
      let slot (i : Nat) : Slot := s.slotOf (h i % 4096)
      let good (i : Nat) : Prop := (slot i).gen.toNat = h i / 4096 ∧ (slot i).st = .complete
      ((∃ i, n ≤ i ∧ i < 24 ∧ h i ≠ 0) → answers (.retire x) 2 2 0 false)
      ∧ ((∀ i, n ≤ i → i < 24 → h i = 0) →
      ((n = 0 ∨ 24 < n) → answers (.retire x) 2 3 0 false)
      ∧ (0 < n → n ≤ 24 → ∀ k, k ≤ n → (∀ i, i < k → good i ∧ ∀ j, j < i → h j ≠ h i) →
        let freed (t : State) : Prop := only t ∧ (∀ i, i < k → t.slotOf (h i % 4096) = { slot i with st := .free })
          ∧ ∀ m, (∀ i, i < k → m ≠ h i % 4096) → t.slotOf m = s.slotOf m
        (k = n → ∃ t, exec (.retire x) s = .next t ∧ freed t ∧ s.Replied t 0 0 n true)
        ∧ (k < n → (∀ i, i < k → h i % 4096 ≠ h k % 4096) →
          ((slot k).gen.toNat ≠ h k / 4096 → ∃ t, exec (.retire x) s = .next t ∧ freed t ∧ s.Replied t 2 5 k)
          ∧ ((slot k).gen.toNat = h k / 4096 → (slot k).st = .free → ∃ t, exec (.retire x) s = .next t ∧ freed t ∧ s.Replied t 2 7 k)
          ∧ ((slot k).gen.toNat = h k / 4096 → (slot k).st = .outstanding → ∃ t, exec (.retire x) s = .next t ∧ freed t ∧ s.Replied t 2 6 k)))))
    ∧ (s.Passes 6 x [2 ^ 32 - 1] false →
      let h := w 0
      let v := s.slotOf (h % 4096)
      (v.gen.toNat ≠ h / 4096 → answers (.cancel x) 2 5 0 false)
      ∧ (v.gen.toNat = h / 4096 →
        (v.st = .free → answers (.cancel x) 2 7 0 false)
        ∧ (v.st ≠ .free → v.op ∉ [.start, .load, .memCopy, .memFill, .query, .attest, .arm, .save] → answers (.cancel x) 2 8 0 false)
        ∧ (v.st = .complete → v.op ∈ [.start, .load, .memCopy, .memFill, .query, .attest, .arm, .save] → answers (.cancel x) 0 0 1 true)))
    ∧ ∀ n, n < 4096 → s.cads = [] → ((s.slotOf n).st = .free ∧ ∃ k, k < 4096 ∧ n = (s.cmd.lastSlot + 1 + k) % 4096
        ∧ ∀ j, j < k → (s.slotOf ((s.cmd.lastSlot + 1 + j) % 4096)).st ≠ .free) → s.Passes 0x15 x [] false →
        ∃ t, exec (.drain x) s = .next t ∧ s.Accepted t 0x15 n x ∧ (t.slotOf n).st = .outstanding

/-! ### Contexts, loads and work for the host (R230–R260) -/

/-- R63, R243, R255, R257–R260, R230, R233: START runs every tile of the context's groups from its group's entry point, with TCTX, TVEC and TSCRATCH loaded, and the
module is RUNNING. STOP, and CANCEL of the START, reset every tile of the context; once the last has ended its reset, START completes ABORTED and STOP
OK, the context is unloaded, its pages read zero, and with no context left the module is READY. SAVE_CONTEXT suspends its movers, drains its queues and
stops its tiles. RESTORE_CONTEXT restores each saved tile, or completes FIT_SHORT with code 1 and
the bolt of the first lost group. A context in any other state is refused. The DETAIL of an aborted START and the layout of that RESULT are the model's
(log entries 187, 179). -/
def Claims.Contexts : Prop :=
  ∀ (s : State) (x : Exchange) (c : Fin 16) (n : Nat), s.Inv → s.Still → s.cads = [] → n < 4096 → s.freeSlot = some n → (x.par.getD 0 0).toNat = c.val →
    let y := s.ctx c
    let tiles := y.groups.flatMap fun g => (List.range 16).map fun k => 16 * g.phys + k
    let refused (cmd : Instr) : Prop := ∃ t, exec cmd s = .next t ∧ s.Replied t 2 9 0 ∧ { t with cmd := s.cmd } = s ∧ t.cmd.slots = s.cmd.slots
    let takes (cmd : Instr) (op : Nat) (w : State → Prop) : Prop := ∃ t, exec cmd s = .next t ∧ s.Accepted t op n x ∧ w t
    let resets (t : State) : Prop := (∀ u ∈ tiles, (s.tile u).st ≠ .retired → (t.tile u).st = .reset ∧ (t.tile u).resetting = true)
      ∧ ∀ u, u ∉ tiles → (t.tile u).st = (s.tile u).st ∧ (t.tile u).resetting = (s.tile u).resetting
    let usable := y.st ≠ .unloaded ∧ y.st ≠ .loading
    let busyTile := ∃ u ∈ tiles, (s.tile u).st ≠ .retired
    (s.Passes 4 x [0xF] false →
      ((y.st ≠ .loaded ∧ y.st ≠ .running ∨ y.startSlot.isSome = true) → refused (.start x))
      ∧ (y.st = .loaded → y.startSlot = none → tiles ≠ [] → (y.groups.map (·.phys)).Nodup → y.cads = [] →
        (∀ b a k, k < 65536 → Tab.look none y.answer b = some a → ∃ h, targetOf (a + k) = .hbm h) →
        (∀ u ∈ tiles, u < 1024 ∧ (s.tile u).st = .reset ∧ (s.tile u).resetting = false ∧ (s.tile u).restoring = false) →
        takes (.start x) 4 fun t => (t.ctx c).st = .running ∧ (t.ctx c).startSlot = some n ∧ (t.slotOf n).st = .outstanding
          ∧ (s.top.st = .ready → t.top.st = .running ∧ t.top.prev = .ready ∧ t.top.cause = 4 ∧ t.top.transitions = s.top.transitions + 1)
          ∧ (∀ g ∈ y.groups, ∀ k, k < 16 → let v := t.tile (16 * g.phys + k)
              v.st = .running ∧ v.pc = g.entry &&& ~~~ 63 ∧ v.sys.tstatus = ((s.tile (16 * g.phys + k)).sys.tstatus ||| 1) &&& ~~~ 0x80
              ∧ v.sys.tctx = BitVec.ofNat 64 (s.ctxAsid c * 16 + c) ∧ v.sys.tvec = g.tvec &&& ~~~ 0xFFF
              ∧ v.sys.tscratch = BitVec.ofNat 64 (answerSlot (16 * g.phys + k)))
          ∧ ∀ u, u ∉ tiles → t.tile u = s.tile u))
    ∧ (s.Passes 5 x [0xF] false →
      (¬ usable → refused (.stop x))
      ∧ (usable → y.released = false → busyTile → takes (.stop x) 5 fun t => (t.ctx c).stopping = true ∧ (t.ctx c).stopSlot = some n ∧ (t.ctx c).startSlot = y.startSlot
          ∧ resets t))
    ∧ (∀ (z : Exchange) a, (z.par.getD 0 0).toNat = (s.slotOf a).gen.toNat * 4096 + a → a < 4096 → s.Passes 6 z [2 ^ 32 - 1] false → (s.slotOf a).st = .outstanding →
        (s.slotOf a).op = .start → (s.slotOf a).arg = c → usable → y.released = false → busyTile →
        ∃ t, exec (.cancel z) s = .next t ∧ s.Replied t 0 0 0 true ∧ (t.ctx c).stopping = true ∧ resets t)
    ∧ (s.Passes 0xB x [0xF] false →
      (y.st ≠ .running → refused (.saveContext x))
      ∧ (∀ u, y.st = .running → u ∈ tiles → (∀ w ∈ tiles, (s.tile w).st = .running ∧ (s.tile w).stopping = false ∧ (s.tile w).resetting = false ∧ (s.tile w).restoring = false) →
          takes (.saveContext x) 0xB fun t => (t.ctx c).saveSlot = some n ∧ (t.ctx c).saved = tiles ∧ (t.ctx c).st = .running ∧ (t.slotOf n).st = .outstanding
            ∧ (∀ w ∈ tiles, (t.tile w).stopping = true ∧ (t.tile w).st = .running)
            ∧ (∀ p ∈ y.movers, (t.mover p.1 p.2).suspend = true) ∧ ∀ p ∈ y.queues, (t.fqueue p.1 p.2).en = false ∧ ((s.fqueue p.1 p.2).en = true → (t.fqueue p.1 p.2).drain = true)))
    ∧ (s.Passes 0xC x [0xF] false →
      (y.st ≠ .saved → refused (.restoreContext x))
      ∧ (∀ g pre post, y.st = .saved → y.groups = pre ++ g :: post → (∀ h ∈ pre, s.groupLost c h.phys = false) → s.groupLost c g.phys = true →
          takes (.restoreContext x) 0xC fun t => s.Completed t n 7 1 [BitVec.ofNat 64 (1 + 2 ^ 16 + g.phys / 16 * 2 ^ 24)] ∧ t.ctx c = y
            ∧ ∀ u, t.tile u = s.tile u)
      ∧ (y.st = .saved → y.released = false → (∀ g ∈ y.groups, s.groupLost c g.phys = false) → y.saved ≠ [] →
          (∀ u ∈ y.saved, (s.tile u).st = .stopped ∧ (s.tile u).resetting = false ∧ (s.tile u).restoring = false) →
          takes (.restoreContext x) 0xC fun t => (t.ctx c).saveSlot = some n ∧ (t.slotOf n).st = .outstanding ∧ (∀ u ∈ y.saved, (t.tile u).restoring = true)
            ∧ ∀ u, u ∉ y.saved → t.tile u = s.tile u))
    ∧ ∀ (q : State) (t : Fin 1024) (a b : Nat), q.Inv → (∀ d, d ≠ c.val → q.ctx d = {}) → q.cads = [] → q.clm.watchdog = false →
      let z := q.ctx c
      let mine := z.groups.flatMap fun g => (List.range 16).map fun k => 16 * g.phys + k
      z.stopping = true → z.stopDue = false → z.saveSlot = none → z.released = false → z.movCount = [] → z.fqCount = [] → t.val ∈ mine →
      (q.tile t).resetting = true → (q.tile t).retireDue = false →
      (∀ u ∈ mine, u ≠ t.val → (q.tile u).resetting = false ∧ (q.tile u).st = .reset) → a ≠ b → a < 4096 → b < 4096 → z.startSlot = some a → z.stopSlot = some b → q.fwBusy c = false →
      (q.slotOf a).st = .outstanding → (q.slotOf b).st = .outstanding →
      ∃ r, exec (.tileResetDone t) q = .next r ∧ r.ctx c = {} ∧ q.Completed r a 2 2 [] ∧ q.Completed r b 0 0 [] ∧ (r.tile t).st = .reset ∧ (r.tile t).silt = []
        ∧ (∀ p ∈ z.pages, (∃ k, targetOf p.2 = .hbm k) → ∀ k, k < 65536 → Tab.look 0 r.mem.phys (p.2 + k) = 0)
        ∧ (q.top.st = .running → r.top.st = .ready ∧ r.top.cause = 5)

/-- R231–R234, R240, R249, R251, R384: an image that cannot be read or is short of a resource loads nothing and completes with its DETAIL or code; one that fits holds all its plan
demands, and its copying is queued as chains of physical descriptors on firmware movers. FIT_CHECK counts what is short. MEM_COPY and MEM_FILL queue such a
chain, one descriptor for each stretch within a page, or complete FAULT where a page does not translate. QUERY and ATTEST make their report, which the next
tick writes (log entry 186); a SELECT, length or ARG out of range is refused. -/
def Claims.LoadsAndReports : Prop :=
  ∀ (s : State) (x : Exchange) (n : Nat), s.Inv → s.Still → n < 4096 → s.freeSlot = some n →
    let w (k : Nat) : Nat := (x.par.getD k 0).toNat
    let image : List Nat := [2 ^ 48 - 1, 2 ^ 64 - 1, 0xF, 2 ^ 48 - 1] ++ List.replicate 6 (2 ^ 64 - 1)
    let c := w 2
    let bytes := (s.hostRead (w 0) (w 1)).1
    let refused (cmd : Instr) (r d : Nat) : Prop := ∃ t, exec cmd s = .next t ∧ s.Replied t r d 0 ∧ { t with cmd := s.cmd } = s ∧ t.cmd.slots = s.cmd.slots
    let takes (cmd : Instr) (op : Nat) (v : State → Prop) : Prop := ∃ t, exec cmd s = .next t ∧ s.Accepted t op n x ∧ v t
    let reports (cmd : Instr) (op buf : Nat) (v : List Byte → Prop) : Prop := takes cmd op fun t => (t.slotOf n).st = .outstanding ∧ SameMemory s t
      ∧ ∃ l, t.cmd.reports = s.cmd.reports ++ [{ slot := n, buf := buf, bytes := l, refused := x.refused }] ∧ v l
    (s.cmd.cache = [] → bytes = Tab.readN 0 s.mem.host (w 0) (w 1))
    ∧ (s.Passes 2 x image false →
      ((s.ctx c).st ≠ .unloaded → refused (.loadImage x) 2 9)
      ∧ ((s.ctx c).st = .unloaded → s.loadFull = true → refused (.loadImage x) 1 3)
      ∧ ((s.ctx c).st = .unloaded → s.loadFull = false →
        (∀ k, s.summaryShort (summaryOf x) = some k → refused (.loadImage x) 3 k)
        ∧ (s.summaryShort (summaryOf x) = none → x.refused = true → takes (.loadImage x) 2 fun t => s.Completed t n 1 4 [] ∧ t.ctx c = s.ctx c)
        ∧ (s.summaryShort (summaryOf x) = none → x.refused = false →
          (∀ d, d < 65536 → parseImage bytes (w 1) = .error d → takes (.loadImage x) 2 fun t => s.Completed t n 1 d [] ∧ t.ctx c = s.ctx c)
          ∧ ∀ p, parseImage bytes (w 1) = .ok p →
            (∀ q l, s.shortOf p.demands = q :: l → q.code < 65536 → takes (.loadImage x) 2 fun t => s.Completed t n 7 q.code [] ∧ t.ctx c = s.ctx c)
            ∧ (s.shortOf p.demands = [] → s.place p = none → takes (.loadImage x) 2 fun t => s.Completed t n 7 4 [] ∧ t.ctx c = s.ctx c)
            ∧ ∀ z, s.shortOf p.demands = [] → s.place p = some z →
              let j : Load := { slot := n, image := w 0, length := w 1, shortfall := w 3, signed := p.signed, sects := p.sects, queues := p.queues
                                exports := p.exports, priv := p.priv, policy := s.policy, demands := p.demands }
              let chains := (s.setCtx c z).loadChains c j
              chains ≠ [] → takes (.loadImage x) 2 fun t => (t.slotOf n).st = .outstanding ∧ { t.ctx c with load := none } = { z with load := none }
                ∧ (t.ctx c).st = .loading ∧ (t.ctx c).load = some { j with left := chains.length, worst := 1, copied := none }
                ∧ ∀ q ∈ chains, ∀ l0 more, q.2 = l0 :: more → ∃ e, (t.mover q.1.1 q.1.2).queue = (s.mover q.1.1 q.1.2).queue ++ [e] ∧ e.words = some l0.words
                    ∧ e.more = more ∧ e.work = .load c ∧ e.released = true)))
    ∧ (s.Passes 3 x image false → s.summaryShort (summaryOf x) = none → x.refused = true → takes (.fitCheck x) 3 fun t => s.Completed t n 1 4 [])
    ∧ (s.Passes 3 x image false → s.summaryShort (summaryOf x) = none → x.refused = false →
        (∀ d, d < 65536 → parseImage bytes (w 1) = .error d → takes (.fitCheck x) 3 fun t => s.Completed t n 1 d [])
        ∧ ∀ p, parseImage bytes (w 1) = .ok p → let l := s.shortOf p.demands
          (∀ q ∈ l, q.code < 65536) → takes (.fitCheck x) 3 fun t => s.Completed t n (if l = [] then 0 else 7) (match l with | q :: _ => q.code | [] => 0) [BitVec.ofNat 64 l.length]
            ∧ t.ctxs = s.ctxs)
    ∧ (∀ fill : Bool, let cmd : Instr := if fill then .memFill x else .memCopy x
        let op := if fill then 0xA else 9
        let k := w 0
        let len := w 3
        let src := if fill then w 4 else w 1
        s.Passes op x (if fill then [0xF, 0, 2 ^ 64 - 1, 2 ^ 48 - 1, 2 ^ 64 - 1] else [0xF, 2 ^ 64 - 1, 2 ^ 64 - 1, 2 ^ 48 - 1]) false →
        let usable := (s.ctx k).st ≠ .unloaded ∧ (s.ctx k).st ≠ .loading
        let cut := s.fwCut k (if fill then 2 else 1) src (w 2) (2 * (len / 65536) + 4) 0 len
        (len = 0 → refused cmd 2 3)
        ∧ (len ≠ 0 → ¬ usable → refused cmd 2 9)
        ∧ (len ≠ 0 → usable → s.fwFull = true → refused cmd 1 3)
        ∧ (len ≠ 0 → usable → s.fwFull = false →
          (cut = none → takes cmd op fun t => s.Completed t n 1 0 [0, 4])
          ∧ (∀ l0 more, cut = some (l0 :: more) → takes cmd op fun t => (t.slotOf n).st = .outstanding ∧ SameMemory s t
              ∧ ∃ e, (t.mover 0 31).queue = (s.mover 0 31).queue ++ [e] ∧ e.work = .command n ∧ e.ctx = k ∧ e.released = true ∧ e.words = some l0.words ∧ e.more = more)
          ∧ (w 2 + len ≤ 2 ^ 57 → w 2 % 65536 + len ≤ 65536 → (fill = false → src + len ≤ 2 ^ 57 ∧ src % 65536 + len ≤ 65536) → ∀ d, s.fwPage k (w 2) .moverDst = some d →
              ∀ a, (if fill then a = src else s.fwPage k src .moverSrc = some a) →
              cut = some [{ words := [BitVec.ofNat 64 ((if fill then 2 else 1) * 2 ^ 60), BitVec.ofNat 64 a, BitVec.ofNat 64 d,
                BitVec.ofNat 64 (2 ^ 48 + 2 ^ 32 + len), 0, 0, 0, 0, 0, 0, 0, 0, 0, 0, 0, 0], before := 0 }])))
    ∧ (s.Passes 7 x [0xFF, 2 ^ 64 - 1, 2 ^ 48 - 1, 2 ^ 32 - 1] false →
        let sel := w 0
        let need := match sel with
          | 0x01 => 80 | 0x10 => 2560 | 0x18 => 1056 | 0x20 => 168 | 0x30 => 416 | 0x31 => 4032 | 0x40 => 96 | 0x41 => 32 | 0x50 => 1024 | 0x51 => 512 | _ => 0
        let v := s.slotOf (w 1 % 4096)
        (sel ∉ [0x01, 0x10, 0x18, 0x20, 0x30, 0x31, 0x40, 0x41, 0x50, 0x51] → refused (.query x) 2 3)
        ∧ (sel = 0x31 → Config.variant = .light → refused (.query x) 2 10)
        ∧ ((sel = 0x31 → Config.variant ≠ .light) → (w 3 < need ∨ sel ∉ [0x01, 0x40] ∧ w 1 ≠ 0) → refused (.query x) 2 3)
        ∧ (sel = 1 → 80 ≤ w 3 → w 1 < 2 ^ 32 → v.gen.toNat ≠ w 1 / 4096 → refused (.query x) 2 5)
        ∧ (sel = 1 → 80 ≤ w 3 → w 1 < 2 ^ 32 → v.gen.toNat = w 1 / 4096 → v.st = .free → refused (.query x) 2 7)
        ∧ (sel = 1 → 80 ≤ w 3 → w 1 < 2 ^ 32 → v.gen.toNat = w 1 / 4096 → v.st = .complete → v.record.length = 8 →
            reports (.query x) 7 (w 2) fun l => l = toLe 4 (w 1) ++ [2, v.opcode, 0, 0]
                ++ toLe 4 v.gtAccept.toNat ++ toLe 4 ((v.record.getD 2 0).extractLsb' 32 32).toNat ++ v.record.flatMap fun q => toLe 8 q.toNat)
        ∧ (sel = 1 → 80 ≤ w 3 → w 1 < 2 ^ 32 → v.gen.toNat = w 1 / 4096 → v.st = .outstanding →
            reports (.query x) 7 (w 2) fun l => l = toLe 4 (w 1) ++ [1, v.opcode, 0, 0] ++ toLe 4 v.gtAccept.toNat ++ List.replicate 68 0)
        ∧ (sel = 0x18 → 1056 ≤ w 3 → w 1 = 0 → reports (.query x) 7 (w 2) fun l => l =
                if s.gz.joined then toLe 4 s.gz.domain.toNat ++ toLe 4 (s.gz.me.toNat + 64 + (if s.gz.coord then 128 else 0) + s.gz.coordinator.toNat * 256)
                  ++ toLe 8 s.gz.epoch.toNat ++ toLe 8 s.gz.members.toNat ++ List.replicate 8 0
                  ++ (List.range 1024).map fun i => if i / 16 = s.gz.me.toNat then 0xFE else Tab.look 0xFF s.gz.routes i
                else List.replicate 32 0 ++ List.replicate 1024 0xFF)
        ∧ (sel ∈ [0x10, 0x20, 0x30, 0x40, 0x41, 0x50, 0x51] → need ≤ w 3 → (sel = 0x40 ∨ w 1 = 0) → reports (.query x) 7 (w 2) fun l => l.length ≤ w 3)
        ∧ (sel = 0x31 → Config.variant ≠ .light → need ≤ w 3 → w 1 = 0 → reports (.query x) 7 (w 2) fun _ => True))
    ∧ (s.Passes 0x14 x (List.replicate 4 (2 ^ 64 - 1) ++ [2 ^ 48 - 1, 2 ^ 32 - 1]) false →
        (w 5 < 1280 → refused (.attest x) 2 3)
        ∧ (1280 ≤ w 5 → reports (.attest x) 0x14 (w 4) fun r => r.length = 1280
            ∧ r.take 4 = toLe 4 0x54535441 ∧ (r.drop 16).take 32 = (List.range 4).flatMap (fun k => toLe 8 (w k)) ∧ (r.drop 48).take 8 = toLe 8 s.clk.gt.toNat
              ∧ r.drop 1216 = (toLe 64 (Config.sm2Sign (Config.sm3 (r.take 1216))).toNat).reverse))

/-- (1) R63, R243, R255, R257–R260, R230, R233: START runs every tile of the context's groups from its group's entry point, with TCTX, TVEC and
TSCRATCH loaded, and the module is RUNNING. STOP, and CANCEL of the START, reset every tile of the context; once the last has ended its
reset, START completes ABORTED and STOP OK, the context is unloaded, its pages read zero, and with no context left the module is READY.
SAVE_CONTEXT suspends its movers, drains its queues and stops its tiles. RESTORE_CONTEXT restores each saved tile, or completes FIT_SHORT
with code 1 and the bolt of the first lost group. A context in any other state is refused. The DETAIL of an aborted START and the layout of
that RESULT are the model's (log entries 187, 179). (2) R231–R234, R240, R249, R251, R384: an image that cannot be read or is short of a
resource loads nothing and completes with its DETAIL or code; one that fits holds all its plan demands, and its copying is queued as chains
of physical descriptors on firmware movers. FIT_CHECK counts what is short. MEM_COPY and MEM_FILL queue such a chain, one descriptor for
each stretch within a page, or complete FAULT where a page does not translate. QUERY and ATTEST make their report, which the next tick
writes (log entry 186); a SELECT, length or ARG out of range is refused. -/
def Obligations.ContextsAndLoads : Prop :=
  Claims.Contexts ∧ Claims.LoadsAndReports

/-! ### Cadences (R261–R275) -/

/-- A context runs cadence `k` and nothing else runs: no other context or cadence, no run of START's, nothing waiting to end. -/
structure Claims.OneCadence (s : State) (k : Nat) (d : CadDecl) (c : Nat) : Prop where
  inv : s.Inv
  decl : s.decl k = some d
  ctx : (s.cad k).ctx.toNat = c
  others : ∀ e, e ≠ c → s.ctx e = {}
  cads : ∀ j, j ≠ k → s.cad j = {}
  armed : (s.cad k).st ≠ .disarmed
  run : (s.ctx c).st = .running ∧ (s.ctx c).startSlot = none ∧ (s.ctx c).saveSlot = none ∧ (s.ctx c).ending = none ∧ (s.ctx c).due = none
    ∧ (s.ctx c).stopping = false ∧ (s.ctx c).stopDue = false ∧ (s.ctx c).load = none ∧ (s.ctx c).released = false
  bad : s.mem.bad = []
  watchdog : s.clm.watchdog = false

/-- R264, R274: CADENCE_ARM is refused where no LOADED or RUNNING context declares the cadence or it is armed, and for a START_GT less than 100 µs away; accepted, the cadence
waits, its epoch words are zero and its context and the module run. CADENCE_DISARM and a clear of EN disarm it: before its start or in a gap at once, a
running period at its deadline with DRAIN = 1 and by expiry at once with DRAIN = 0; the arm handle completes DRAINED or ABORTED, the disarm OK.
In its deadline tt a period ends by its deadline first (R275). -/
def Claims.CadenceArming : Prop :=
  ∀ (s : State) (x : Exchange) (k : Fin 64) (n : Nat), s.Inv → n < 4096 → s.freeSlot = some n →
    let w (i : Nat) : Nat := (x.par.getD i 0).toNat
    let v := s.cad k
    let takes (cmd : Instr) (op : Nat) (g : State → Prop) : Prop := ∃ t, exec cmd s = .next t ∧ s.Accepted t op n x ∧ g t
    let refused (cmd : Instr) (d : Nat) : Prop := ∃ t, exec cmd s = .next t ∧ s.Replied t 2 d 0 ∧ { t with cmd := s.cmd } = s
    (s.Passes 0xD x [0x3F, 2 ^ 64 - 1] false → w 0 = k.val →
      ((v.st ≠ .disarmed ∨ s.declarer k = none) → refused (.cadenceArm x) 9)
      ∧ (∀ c, v.st = .disarmed → s.declarer k = some c →
        (w 1 < s.clk.gt.toNat + 15625 → refused (.cadenceArm x) 3)
        ∧ (s.clk.gt.toNat + 15625 ≤ w 1 → (∀ d, (s.ctx c).cads.find? (fun d => decide (d.number = k.val)) = some d → ∀ b ∈ d.bufs, ∀ pa, s.ctxPhys c b.2.2.toNat = some pa →
              ∃ h, targetOf pa = .hbm h ∧ s.stackUp h = true) → s.mem.bad = [] →
          takes (.cadenceArm x) 0xD fun t => let u := t.cad k
            u.en = true ∧ u.st = .waiting ∧ u.ctx.toNat = c ∧ u.period = 0 ∧ u.startGt.toNat = w 1 ∧ u.armSlot = some n ∧ u.epoch = 0 ∧ (t.slotOf n).st = .outstanding
            ∧ (t.ctx c).st = .running ∧ (s.top.st = .ready → t.top.st = .running ∧ t.top.cause = 4)
            ∧ ∀ d, (s.ctx c).cads.find? (fun d => decide (d.number = k.val)) = some d → ∀ b ∈ d.bufs, ∀ pa, s.ctxPhys c b.2.2.toNat = some pa →
              Tab.readN 0 t.mem.phys pa 8 = List.replicate 8 0)))
    ∧ (∀ (d : CadDecl) (c a : Nat), Claims.OneCadence s k d c → v.armSlot = some a → a < 4096 → a ≠ n → (s.slotOf a).st = .outstanding → v.en = true → v.armStatus = none →
        v.disarmSlots = [] → v.periodSlot = none →
      let ends (t : State) (status : Nat) : Prop := (t.cad k).en = false ∧ (t.cad k).st = .disarmed ∧ s.Completed t a status 0 [] ∧ (t.ctx c).st = .loaded
        ∧ (s.top.st = .running → t.top.st = .ready ∧ t.top.cause = 5)
      let expires (t : State) (detail : Nat) : Prop := (t.cad k).en = false ∧ (t.cad k).st = .expiring ∧ (t.cad k).period = v.period + 1 ∧ (t.cad k).detail = detail
        ∧ (t.cad k).expired = v.expired + 1 ∧ (t.cad k).armStatus = some (2, 0)
        ∧ ∀ u ∈ s.cadTiles k, (s.tile u).st ≠ .retired → (t.tile u).st = .reset ∧ (t.tile u).resetting = true
      let rests := v.st = .waiting ∨ v.st = .gap
      let before := s.clk.gt.toNat < s.deadlineGt k d
      let whole := (∀ u ∈ s.cadTiles k, u ∈ v.done) ∧ s.cadIdle k = true
      (∀ dr : Bool, s.Passes 0xE x [0x13F] false → w 0 = k.val + (if dr then 256 else 0) →
        (rests → takes (.cadenceDisarm x) 0xE fun t => ends t (if dr then 3 else 2) ∧ s.Completed t n 0 0 [])
        ∧ (v.st = .active → dr = true → takes (.cadenceDisarm x) 0xE fun t => (t.cad k).st = .draining ∧ (t.cad k).en = false ∧ (t.cad k).disarmSlots = [n])
        ∧ (v.st = .active → dr = false → before → takes (.cadenceDisarm x) 0xE fun t => expires t 1 ∧ (t.cad k).disarmSlots = [n])
        ∧ (v.st = .active → dr = false → ¬ before → ¬ whole → takes (.cadenceDisarm x) 0xE fun t => expires t 0 ∧ (t.cad k).disarmSlots = [n])
        ∧ (v.st = .active → dr = false → ¬ before → whole → takes (.cadenceDisarm x) 0xE fun t => ends t 2 ∧ s.Completed t n 0 0 []))
      ∧ ∀ (dr : Bool) (p : Path), s.pathUp p = true →
        (pathSecure p = true → rests → ∃ t, exec (.cadenceEnClear k dr p) s = .next t ∧ ends t (if dr then 3 else 2))
        ∧ (pathSecure p = true → v.st = .active → dr = true → ∃ t, exec (.cadenceEnClear k dr p) s = .next t ∧ (t.cad k).st = .draining ∧ (t.cad k).en = false)
        ∧ (pathSecure p = true → v.st = .active → dr = false → ∃ t, exec (.cadenceEnClear k dr p) s = .next t ∧ (before → expires t 1) ∧ (¬ before → ¬ whole → expires t 0)
            ∧ (¬ before → whole → ends t 2))
        ∧ (pathSecure p = false → exec (.cadenceEnClear k dr p) s = .next { s with clm := { s.clm with secureDenied := s.clm.secureDenied + 1 } }))
    ∧ (s.Still → v.st = .disarmed → ∀ dr : Bool, s.Passes 0xE x [0x13F] false → w 0 = k.val + (if dr then 256 else 0) → refused (.cadenceDisarm x) 9)

/-- R265, R267–R273: at its start tick a period writes its number to the period word, starts every member tile from its group's entry point and takes a handle with
REPORT = 0. At the deadline it completes where every member tile is done and every mover and queue idle: its record is OK, its tiles are reset, its
counters zero. Otherwise it expires, and once the cleanup is done every epoch word is one higher, the counters are zero, and the record is EXPIRED.
A period whose start tick finds the cleanup unfinished is skipped. -/
def Claims.CadencePeriods : Prop :=
  ∀ (s : State) (k : Fin 64) (d : CadDecl) (c : Nat), Claims.OneCadence s k d c →
    let v := s.cad k
    let y := s.ctx c
    let start := v.startGt.toNat + v.period * d.period
    let tiles := s.cadTiles k
    let groups := (y.groups.zipIdx.map fun g => (g.2, g.1)).filter fun g => d.groups.getLsbD g.1
    let ready := ∀ u ∈ tiles, (s.tile u).st = .reset ∧ (s.tile u).resetting = false ∧ (s.tile u).restoring = false
    let reach (va : Nat) : Prop := ∃ pa h, s.ctxPhys c va = some pa ∧ targetOf pa = .hbm h ∧ s.stackUp h = true
    let word (t : State) (va val : Nat) : Prop := ∀ pa, s.ctxPhys c va = some pa → Tab.readN 0 t.mem.phys pa 8 = toLe 8 val
    let result (n epoch : Nat) : List W64 :=
      [BitVec.ofNat 64 k, BitVec.ofNat 64 n, BitVec.ofNat 64 (groups.map fun g => if (g.2.tiles.all fun u => v.done.contains u) then 2 ^ g.1 else 0).sum,
        BitVec.ofNat 64 (v.late % 2 ^ 32 * 2 ^ 32 + v.aborted % 65536 * 65536 + v.done.length % 65536),
        BitVec.ofNat 64 ((if d.bufs = [] then 0 else epoch) * 2 ^ 32 + v.lastDone.toNat)]
    let cleared (t : State) : Prop := ∀ b, b < 4 → ∀ i, i < d.ctrCount → d.ctrFirst + i < y.ctrCount.getD b 0 → t.ctr (256 * b + y.ctrBase.getD b 0 + d.ctrFirst + i) = 0
    let resets (t : State) : Prop := ∀ u ∈ tiles, (s.tile u).st ≠ .retired → (t.tile u).st = .reset ∧ (t.tile u).resetting = true
    (s.clk.gt.toNat < start → exec (.periodStart k) s = .next s)
    ∧ (s.clk.gt.toNat < start + d.deadline → exec (.deadline k) s = .next s)
    ∧ (start ≤ s.clk.gt.toNat → v.en = true → v.skipped = false →
      ((v.st = .waiting ∨ v.st = .gap) → ready → (y.groups.map (·.phys)).Nodup → (∀ u ∈ tiles, u < 1024) → reach d.periodVa.toNat →
        (∀ b a i, i < 65536 → Tab.look none y.answer b = some a → ∃ h, targetOf (a + i) = .hbm h) →
        (∀ b a i pa, i < 65536 → Tab.look none y.answer b = some a → s.ctxPhys c d.periodVa.toNat = some pa → a + i < pa ∨ pa + 8 ≤ a + i) →
        ∃ t, exec (.periodStart k) s = .next t ∧ word t d.periodVa.toNat v.period ∧ (t.cad k).st = .active ∧ (t.cad k).done = [] ∧ (t.cad k).period = v.period
          ∧ (∀ g ∈ groups, ∀ u ∈ g.2.tiles, (t.tile u).st = .running ∧ (t.tile u).pc = g.2.entry &&& ~~~ 63 ∧ (t.tile u).sys.tvec = g.2.tvec &&& ~~~ 0xFFF
              ∧ (t.tile u).sys.tip = 0 ∧ (t.tile u).storeErrs = [])
          ∧ (∀ u, u ∉ tiles → t.tile u = s.tile u)
          ∧ (d.report = 0 → ∀ n, s.freeSlot = some n → (t.cad k).periodSlot = some n ∧ (t.slotOf n).st = .outstanding ∧ (t.slotOf n).opcode = 0x0D
              ∧ (t.slotOf n).gen = (s.slotOf n).gen + 1 ∧ ∀ a, v.armSlot = some a → (t.slotOf n).tag = (s.slotOf a).tag)
          ∧ (d.report = 0 → s.freeSlot = none → (t.cad k).lost = v.lost + 1))
      ∧ (v.st = .expiring ∨ ((v.st = .waiting ∨ v.st = .gap) ∧ ¬ ready) → ∃ t, exec (.periodStart k) s = .next t ∧ (t.cad k).skipped = true ∧ (t.cad k).st = v.st
          ∧ (t.cad k).expired = v.expired + 1 ∧ (t.cad k).period = v.period ∧ (∀ u, t.tile u = s.tile u)
          ∧ (d.report ≠ 2 → ∀ n, n < 4096 → s.freeSlot = some n → ∃ q, (t.slotOf n).record = q ∧ (t.slotOf n).st = .complete ∧ (q.getD 0 0).extractLsb' 32 8 = 4
              ∧ (q.getD 0 0).extractLsb' 48 16 = 3 ∧ q.getD 4 0 = BitVec.ofNat 64 v.period)))
    ∧ (start + d.deadline ≤ s.clk.gt.toNat → v.st = .active → v.en = true → v.armStatus = none → y.groups = y.groups.filter (fun g => decide (g.bolt < 4)) →
      let idle := s.cadIdle k = true
      let done := ∀ u ∈ tiles, u ∈ v.done
      (done → idle → ∃ t, exec (.deadline k) s = .next t ∧ (t.cad k).st = .gap ∧ (t.cad k).period = v.period + 1 ∧ resets t ∧ cleared t ∧ (t.ctx c).st = .running
          ∧ ∀ n, n < 4096 → v.periodSlot = some n → (s.slotOf n).st = .outstanding → s.Completed t n 0 0 (result v.period v.epoch.toNat))
      ∧ (¬ (done ∧ idle) → ∃ t, exec (.deadline k) s = .next t ∧ (t.cad k).st = .expiring ∧ (t.cad k).period = v.period + 1 ∧ (t.cad k).expired = v.expired + 1
          ∧ (t.cad k).detail = 0 ∧ resets t))
    ∧ (v.skipped = true → v.st = .expiring ∨ v.st = .gap → start + d.deadline ≤ s.clk.gt.toNat → ∃ t, exec (.deadline k) s = .next t ∧ (t.cad k).period = v.period + 1
        ∧ (t.cad k).skipped = false ∧ (t.cad k).st = v.st ∧ (t.cad k).epoch = v.epoch)
    ∧ (v.st ≠ .expiring ∨ s.cleanupDone k = false → exec (.expiryCleanupComplete k) s = .next s)
    ∧ (v.st = .expiring → s.cleanupDone k = true → v.en = true → v.detail < 65536 → (∀ b ∈ d.bufs, reach b.2.2.toNat ∧ ∀ b' ∈ d.bufs, b' ≠ b → ∀ pa pb,
          s.ctxPhys c b.2.2.toNat = some pa → s.ctxPhys c b'.2.2.toNat = some pb → pa = pb ∨ pa + 8 ≤ pb ∨ pb + 8 ≤ pa) →
        ∃ t, exec (.expiryCleanupComplete k) s = .next t ∧ (t.cad k).st = .gap ∧ (t.cad k).epoch = v.epoch + 1 ∧ (∀ b ∈ d.bufs, word t b.2.2.toNat (v.epoch + 1).toNat) ∧ cleared t
          ∧ ∀ n, n < 4096 → v.periodSlot = some n → (s.slotOf n).st = .outstanding → s.Completed t n 4 v.detail (result v.closed (v.epoch + 1).toNat))

/-- (1) R264, R274: CADENCE_ARM is refused where no LOADED or RUNNING context declares the cadence or it is armed, and for a START_GT less than
100 µs away; accepted, the cadence waits, its epoch words are zero and its context and the module run. CADENCE_DISARM and a clear of EN
disarm it: before its start or in a gap at once, a running period at its deadline with DRAIN = 1 and by expiry at once with DRAIN = 0; the
arm handle completes DRAINED or ABORTED, the disarm OK. In its deadline tt a period ends by its deadline first (R275). (2) R265, R267–R273:
at its start tick a period writes its number to the period word, starts every member tile from its group's entry point and takes a handle
with REPORT = 0. At the deadline it completes where every member tile is done and every mover and queue idle: its record is OK, its tiles
are reset, its counters zero. Otherwise it expires, and once the cleanup is done every epoch word is one higher, the counters are zero, and
the record is EXPIRED. A period whose start tick finds the cleanup unfinished is skipped. -/
def Obligations.Cadences : Prop :=
  Claims.CadenceArming ∧ Claims.CadencePeriods

/-! ### Power, boot, reset and drain (R20, R25–R28, R277–R292, R387–R390, R404) -/

/-- R28, R182, R275: FAULTED is entered with its cause. Every outstanding handle completes ABORTED with the cause in DETAIL, the movers stop, and no
cadence is armed. -/
def Claims.Faulted (s t : State) (cause : Nat) : Prop :=
  t.top.st = .faulted ∧ t.top.prev = s.top.st ∧ t.top.cause = BitVec.ofNat 4 cause ∧ t.top.transitions = s.top.transitions + 1
    ∧ (∀ n, (s.slotOf n).st = .outstanding → s.Completed t n 2 cause []) ∧ (∀ k, (t.cad k).st = .disarmed)
    ∧ ∀ b m, (t.mover b m).en = false ∧ (t.mover b m).run = none ∧ (t.mover b m).queue = []

/-- In OFF the rails are off and nothing but the host, the pack and the pins keeps what it held; the state is else as a cold reset leaves it. -/
def Claims.Cold (s t : State) : Prop :=
  { t with
    pending := [], free := 0
    top := { t.top with st := .held, pinOpen := false, vin := 0, ctlA := true, ctlB := true, busLost := false }
    mem := { t.mem with host := [] }
    cmd := { t.cmd with msgs := [], resp := none }
    pow := { t.pow with rails := [] }
    res := { t.res with monitors := [], interlock := true } } = { State.reset with pow := { State.reset.pow with rails := [] } }
  ∧ t.mem.host = s.mem.host ∧ t.cmd.msgs = s.cmd.msgs ∧ t.res.monitors = s.res.monitors ∧ t.top.pinOpen = s.top.pinOpen ∧ t.res.interlock = s.res.interlock

/-- R20, R25, R277, R279, R282: 50 V with the control rails brings HELD out of OFF; the loss of the node, or of both control rails, is OFF, and of one stops
its cluster, with CTLA the Bursen link too. The PLL's lock starts GT; its loss is fatal. A read of TIME_GT_LO latches the high word for its
requester. -/
def Claims.PowerTransitions : Prop :=
  ∀ (s : State), s.Inv →
    let off (t : State) : Prop := t.top.st = .off ∧ Claims.Cold s t ∧ ∀ r, (t.rail r).st = .off ∧ (t.rail r).phases = 0
    (s.top.st ≠ .off → exec .powerApplied s = .next s)
    ∧ (s.top.st = .off → ∃ t, exec .powerApplied s = .next t ∧ t.top.st = .held ∧ t.top.ctlA = true ∧ t.top.ctlB = true ∧ Claims.Cold s t
        ∧ t.pow.rails = State.reset.pow.rails)
    ∧ (∃ t, exec .powerLoss s = .next t ∧ off t)
    ∧ (s.top.st = .off → exec (.controlRailLoss false) s = .next s ∧ exec (.controlRailLoss true) s = .next s ∧ exec .rootPllLock s = .next s)
    ∧ (s.top.st ≠ .off →
      (s.top.ctlB = true → ∃ t, exec (.controlRailLoss false) s = .next t ∧ t.top = { s.top with ctlA := false } ∧ t.clm = { s.clm with deadA := true }
        ∧ (t.rail 11).st = .off ∧ (∀ r, r ≠ 11 → t.rail r = s.rail r) ∧ t.cmd.link = .down ∧ t.cmd.slots = s.cmd.slots)
      ∧ (s.top.ctlA = true → ∃ t, exec (.controlRailLoss true) s = .next t ∧ t.top = { s.top with ctlB := false } ∧ t.clm = { s.clm with deadB := true }
        ∧ (t.rail 12).st = .off ∧ (∀ r, r ≠ 12 → t.rail r = s.rail r) ∧ t.cmd = s.cmd)
      ∧ (s.top.ctlB = false → ∃ t, exec (.controlRailLoss false) s = .next t ∧ off t)
      ∧ (s.top.ctlA = false → ∃ t, exec (.controlRailLoss true) s = .next t ∧ off t)
      ∧ exec .rootPllLock s = .next { s with clk := { s.clk with locked := true } })
    ∧ (s.clk.locked = false → exec .pllLockLoss s = .next s)
    ∧ (s.clk.locked = true → ∃ t, exec .pllLockLoss s = .next t ∧ t.clk = { s.clk with locked := false, unlocks := s.clk.unlocks + 1 }
        ∧ (s.err = {} → t.err.log.map (fun e => (e.kind, e.typ)) = [(0xC, 0x41)])
        ∧ (s.clm.watchdog = false → s.top.st ∈ [.boot, .ready, .running, .drain] → Claims.Faulted s t 0xA)
        ∧ (s.top.st ∉ [.boot, .ready, .running, .drain] → t.top = s.top))
    ∧ (s.cmd.link ≠ .up → exec .timeGtLoRead s = .next s)
    ∧ (s.cmd.link = .up → exec .timeGtLoRead s = .next { s with clk := { s.clk with gtHi := Tab.put 0 s.clk.gtHi 2 (s.clk.gt.extractLsb' 32 32) } })

/-- R285–R290, R144: GO begins a verification in HELD. A rejected image keeps HELD with its reason and wipes the window; an accepted one starts BOOT: the first claim,
the rails sent to the voltage table, movers 30 and 31 enabled. The last rail at its target ends the first step.
Training, with the built-in tests before it, makes available the stacks that neither failed nor are retired, and enumeration follows; a bolt without one is
fatal. BOOT ends in READY once every step is done, and in DRAIN where a trigger still holds; after 10 s it is fatal. -/
def Claims.Boot : Prop :=
  ∀ (s : State), s.Inv → s.clm.watchdog = false →
    let up (t : State) (n : Nat) : Prop := t.top.hbmUp.getLsbD n = true
    (∀ (l : BitVec 22) (p : Path), s.pathUp p = true →
      (pathSecure p = false → exec (.fwVerify l p) s = .next { s with clm := { s.clm with secureDenied := s.clm.secureDenied + 1 } })
      ∧ (pathSecure p = true → (s.top.st ≠ .held ∨ s.trust.result = 1 ∨ s.clk.locked = false) → exec (.fwVerify l p) s = .next s)
      ∧ (pathSecure p = true → s.top.st = .held → s.clk.locked = true → s.trust.result ≠ 1 → exec (.fwVerify l p) s
          = .next { s with trust := { s.trust with go := true, length := l, result := 1, reason := 0, attempts := s.trust.attempts + 1 } }))
    ∧ (∀ a b agree : Bool, (s.top.st ≠ .held ∨ s.trust.result ≠ 1) → exec (.fwVerifyDone a b agree) s = .next s)
    ∧ (∀ a b agree : Bool, s.top.st = .held → s.trust.result = 1 →
      let n := s.trust.length.toNat
      let l := Tab.readN 0 s.trust.window 0 n
      let w (o k : Nat) : Nat := ofLe ((l.drop o).take k)
      let header := w 0 4 = 0x41434C46 ∧ w 4 2 = 1 ∧ w 6 2 = 0 ∧ w 0x18 232 = 0 ∧ 0x100 ≤ w 0x10 8 ∧ w 0x10 8 + 129 ≤ n
      let size := w 8 4 = n ∧ n % 64 = 0 ∧ 384 ≤ n ∧ n ≤ 3145728
      let key := (l.drop (n - 128)).take 64
      let known := Config.sm3 key = Config.firmwareKeyHash
      let signed := Config.sm2Verify (BitVec.ofNat 512 (ofBe key)) (identity "CERHEBY-FW") (Config.sm3 (l.take (n - 128))) (BitVec.ofNat 512 (ofBe (l.drop (n - 64)))) = true
      let rejected (t : State) (reason : BitVec 8) : Prop := t.trust = { s.trust with go := false, result := 3, reason := reason, window := [] }
        ∧ t.top = { s.top with st := .held, prev := .held, cause := 1, transitions := s.top.transitions + 1 } ∧ t.clm = s.clm
      let accepted (t : State) : Prop :=
        t.trust = { s.trust with go := false, result := 2, reason := 0, version := BitVec.ofNat 32 (w 12 4), digest := Config.sm3 (l.take (n - 128)) }
        ∧ t.top.st = .boot ∧ t.top.prev = .held ∧ t.top.cause = 2 ∧ t.top.bootGt = s.clk.gt
        ∧ t.clm.claimA = (if a then 1 else 0) ∧ t.clm.claimB = (if a then 0 else 1)
        ∧ (∀ r, r < 11 → ∃ g, (t.rail r).sent = (s.rail r).sent ++ [((s.rail r).seq, g, 1)] ∧ railGood g = true ∧ railTyp g = 1
            ∧ railTarget g = s.railCell r (if s.pow.floor then 1 else 0))
        ∧ (∀ i m, i < 4 → m = 30 ∨ m = 31 → (s.mover i m).st = .disabled → (t.mover i m).en = true)
        ∧ (s.err = {} → t.err.log.map (fun e => (e.kind, e.source, e.typ))
            = (if a then [] else [(0xB, 0, 0x31)]) ++ (if b then [] else [(0xB, 1, 0x31)]))
      ∃ t, exec (.fwVerifyDone a b agree) s = .next t
        ∧ (a = false → b = false → ∃ k, rejected t k)
        ∧ (a = true ∨ b = true →
          (¬ header → rejected t 1) ∧ (header → ¬ size → rejected t 2) ∧ (header → size → ¬ known → rejected t 3) ∧ (header → size → known → ¬ signed → rejected t 4)
          ∧ (header → size → known → signed → a = true → b = true → agree = false → rejected t 5)
          ∧ (header → size → known → signed → (a = true → b = true → agree = true) → accepted t)))
    ∧ (∀ (r : Fin 13) (f : W32), s.top.st = .boot → s.top.bootStep = 0 → s.top.hbmOff = true → railGood f = true → railTyp f = 9 →
        (s.rail r).settling = some (railSeq f) → (s.rail r).sent = [] → (s.rail r).st = .slewing → (∀ k, k < 11 → k ≠ r.val → (s.rail k).still = true) →
        ∃ t, exec (.transitionDone r f) s = .next t ∧ t.top = { s.top with bootStep := 1 } ∧ (t.rail r).st = .regulating ∧ (t.rail r).targetNow = railTarget f)
    ∧ (∀ x, (s.top.st ≠ .boot ∨ s.top.bootStep ≠ 1 ∨ s.top.hbmOff = false) → exec (.hbmTrainingComplete x) s = .next s)
    ∧ (∀ x : BootTests, s.top.st = .boot → s.top.bootStep = 1 → s.top.hbmOff = true → ∃ t, exec (.hbmTrainingComplete x) s = .next t
        ∧ (∀ n, n < 24 → (up t n ↔ (∀ r, (n, r) ∉ x.failedStacks) ∧ s.mem.badStacks.getLsbD n = false))
        ∧ (∀ u, u < 1024 → u ∈ x.tiles → (t.tile u).st = .retired) ∧ (∀ u, u ∉ x.tiles → t.tile u = s.tile u)
        ∧ (∀ a ∈ x.loam.pages, ∀ b, targetOf a = .loam b → Tab.look false t.mem.badPages (a - a % 65536) = true)
        ∧ ((∃ b, b < 4 ∧ ∀ k, k < 6 → ¬ up t (6 * b + k)) → Claims.Faulted s t 0xA)
        ∧ ((∀ b, b < 4 → ∃ k, k < 6 ∧ up t (6 * b + k)) → t.top.st = .boot ∧ t.top.hbmOff = false ∧ t.top.bootStep = 4
          ∧ t.top.pages = BitVec.ofNat 32 t.loadable ∧ (∃ e : W64, t.rfw.wire = s.rfw.wire ++ [e, e] ∧ e.toNat / 2 ^ 60 = 6)
          ∧ (∀ k, k < 24 → (t.expander k).en = t.top.hbmUp.getLsbD k ∧ (t.expander k).st = if t.top.hbmUp.getLsbD k then .idle else .unavailable)
          ∧ (∀ i m, i < 4 → m < 30 → (s.mover i m).st = .disabled → (t.mover i m).en = true)
          ∧ (s.err = {} → x.tiles = [] → x.loam = { pages := [], rows := [] } → (x.failedStacks.map (·.1)).Nodup → (∀ p ∈ x.failedStacks, p.1 < 24) →
              t.err.log.map (fun e => (e.kind, e.source, e.typ, e.data)) = x.failedStacks.map fun p => (5, BitVec.ofNat 32 p.1, 0x23, [if p.2 then 1 else 0]))))
    ∧ (∀ tiles x, let done := s.top.st = .boot ∧ s.top.bootStep = 6 ∧ ∀ r, r < 11 → (s.rail r).still = true;
        (¬ done → exec (.bootComplete tiles x) s = .next s)
        ∧ (done → ∃ t, exec (.bootComplete tiles x) s = .next t
          ∧ (s.top.pinOpen = false → s.reserveLow = false → t.top.st = .ready ∧ t.top.prev = .boot ∧ t.top.cause = 3)
          ∧ (s.top.pinOpen = true → t.top.st = .drain ∧ t.top.prev = .ready ∧ t.top.cause = 7)
          ∧ (s.top.pinOpen = false → s.reserveLow = true → t.top.st = .drain ∧ t.top.prev = .ready ∧ t.top.cause = 8 ∧ t.pow.fwForce = true)
          ∧ (s.top.tested = true → ∀ u, t.tile u = s.tile u)
          ∧ (s.top.tested = false →
            (∀ u, u < 1024 → (u ∈ tiles → (t.tile u).st = .retired) ∧ (u ∉ tiles → t.tile u = s.tile u))
            ∧ ∀ a ∈ x.pages, ∀ b, targetOf a = .loam b → Tab.look false t.mem.badPages (a - a % 65536) = true)))
    ∧ (let late := s.top.st = .boot ∧ 1562500000 ≤ (s.clk.gt - s.top.bootGt).toNat;
        (¬ late → exec .bootTimeout s = .next s)
        ∧ (late → ∃ t, exec .bootTimeout s = .next t ∧ Claims.Faulted s t 0xA
          ∧ (s.err = {} → t.err.log.map (fun e => (e.kind, e.typ, e.data)) = [(0xD, 0x43, [BitVec.ofNat 32 s.top.bootStep])])))

/-- (1) R20, R25, R277, R279, R282: 50 V with the control rails brings HELD out of OFF; the loss of the node, or of both control rails, is OFF,
and of one stops its cluster, with CTLA the Bursen link too. The PLL's lock starts GT; its loss is fatal. A read of TIME_GT_LO latches the
high word for its requester. (2) R285–R290, R144: GO begins a verification in HELD. A rejected image keeps HELD with its reason and wipes
the window; an accepted one starts BOOT: the first claim, the rails sent to the voltage table, movers 30 and 31 enabled. The last rail at
its target ends the first step. Training, with the built-in tests before it, makes available the stacks that neither failed nor are retired,
and enumeration follows; a bolt without one is fatal. BOOT ends in READY once every step is done, and in DRAIN where a trigger still holds;
after 10 s it is fatal. -/
def Obligations.PowerAndBoot : Prop :=
  Claims.PowerTransitions ∧ Claims.Boot

/-- R25, R28, R283, R284, R387–R390, R404: a module reset completes every handle RESET_LOST, clears memory but the error log, contexts, cadences and slots, and starts
BOOT with CAUSE 0xC. DRAIN is entered with its causes and left once all work has completed and every cause is gone. The sense pin, a withdrawal, and
the converter's shut-off act as said. -/
def Obligations.ResetAndDrain : Prop :=
  ∀ (s : State), s.Inv → s.clm.watchdog = false →
    let clear : Prop := ∀ n, (s.slotOf n).st = .outstanding → (s.slotOf n).op = .drain
    let since (g : W64) (n : Nat) : Prop := n ≤ (s.clk.gt - g).toNat
    let ready (t : State) : Prop := t.top.st = .ready ∧ t.top.prev = .drain ∧ t.top.cause = 9 ∧ t.top.drainCauses = []
    let drains (t : State) (cause : Nat) : Prop := t.top.st = .drain ∧ cause ∈ t.top.drainCauses
      ∧ (s.top.st = .drain → t.top.cause = s.top.cause ∧ t.top.transitions = s.top.transitions)
      ∧ (s.top.st ≠ .drain → t.top.prev = s.top.st ∧ t.top.cause = BitVec.ofNat 4 cause ∧ t.top.transitions = s.top.transitions + 1)
    let record (n : Nat) : List W64 := [BitVec.ofNat 64 (0xC * 2 ^ 48 + (s.slotOf n).opcode.toNat * 2 ^ 40 + 6 * 2 ^ 32 + (s.slotOf n).gen.toNat * 4096 + n), (s.slotOf n).tag,
      BitVec.ofNat 64 (s.clk.gt.toNat % 2 ^ 32 * 2 ^ 32 + (s.slotOf n).gtAccept.toNat)] ++ List.replicate 5 0
    let restarts (t : State) (who : W32) : Prop := t.top.st = .boot ∧ t.top.prev = s.top.st ∧ t.top.cause = 0xC ∧ t.top.transitions = s.top.transitions + 1
      ∧ t.ctxs = [] ∧ t.cads = [] ∧ t.mmu = {} ∧ t.clk.gt = s.clk.gt ∧ t.trust = s.trust ∧ t.clm = s.clm ∧ t.gz.joined = false ∧ t.cmd.areaValid = false
      ∧ (∀ n, t.slotOf n = { gen := (s.slotOf n).gen }) ∧ (∀ a, s.inErrorLog a = false → Tab.look 0 t.mem.phys a = 0)
      ∧ (∀ u, u < 1024 → t.tile u = { st := if (s.tile u).st = .retired ∨ (s.tile u).retireDue = true then .retired else .reset
                                      sys := { cycleZero := s.clk.tileCycles }, events := (s.tile u).events })
      ∧ (s.err = {} → t.err.log.map (fun e => (e.kind, e.typ, e.data)) = [(0xD, 0xA, [0xC, who])])
      ∧ (s.cmd.link = .up → s.cmd.areaRefused = false → s.cmd.cache = [] → ∀ n, n < 4096 → (s.slotOf n).st = .outstanding →
          Tab.readN 0 t.mem.host (s.cmd.area + 64 * n) 64 = (record n).flatMap fun w => toLe 8 w.toNat)
    (∀ x : Exchange, s.cmd.link = .up → s.fwRuns = true → s.accepts 0x16 = true → lineOpcode 0x16 x = 0x16 → fieldsClear x [] = true → x.secure = true → s.trust.sramBad = false →
        ∃ t, exec (.resetModule x) s = .next t ∧ restarts t 0 ∧ s.Replied t 0 0 0 true)
    ∧ ((s.top.st.firmware = false ∨ s.top.ctlB = false) → exec .servicePortModuleReset s = .next s)
    ∧ (s.top.st.firmware = true → s.top.ctlB = true → s.trust.sramBad = true → ∃ t, exec .servicePortModuleReset s = .next t ∧ t.top.st = .faulted ∧ t.top.prev = .boot
        ∧ t.top.cause = 0xA)
    ∧ (s.top.st.firmware = true → s.top.ctlB = true → s.trust.sramBad = false → ∃ t, exec .servicePortModuleReset s = .next t ∧ restarts t 1)
    ∧ (∀ (x : Exchange) (n : Nat), s.Passes 0x15 x [] false → n < 4096 → s.freeSlot = some n → s.cads = [] →
        ∃ t, exec (.drain x) s = .next t ∧ s.Accepted t 0x15 n x ∧ (t.slotOf n).st = .outstanding ∧ drains t 6)
    ∧ ((s.top.st ≠ .drain ∨ ¬ clear) → exec .drainComplete s = .next s)
    ∧ (s.top.st = .drain → clear → ∃ t, exec .drainComplete s = .next t ∧ (∀ n, (s.slotOf n).st = .outstanding → s.Completed t n 0 0 [])
        ∧ ((∀ c ∈ s.top.drainCauses, c = 6) → ready t) ∧ ((∃ c ∈ s.top.drainCauses, c ≠ 6) → t.top = s.top))
    ∧ (s.cads = [] → ∃ t, exec .firstBreakOpen s = .next t ∧ t.top.pinOpen = true ∧ (s.top.pinOpen = false → t.top.pinGt = s.clk.gt)
        ∧ (s.top.st ∈ [.ready, .running, .drain] → drains t 7) ∧ (s.top.st ∉ [.ready, .running, .drain] → t.top.st = s.top.st))
    ∧ (∃ t, exec .firstBreakClose s = .next t ∧ t.top.pinOpen = false
        ∧ (s.top.st = .drain → clear → ∀ n, (s.slotOf n).st = .outstanding → s.Completed t n 0 0 [])
        ∧ (s.top.st = .drain → clear → (∀ c ∈ s.top.drainCauses, c = 6 ∨ c = 7) → ready t)
        ∧ ((s.top.st ≠ .drain ∨ ¬ clear) → t.cmd = s.cmd)
        ∧ (s.top.st ≠ .drain ∨ ¬ clear ∨ (∃ c ∈ s.top.drainCauses, c ≠ 6 ∧ c ≠ 7) → t.top.st = s.top.st ∧ 7 ∉ t.top.drainCauses))
    ∧ (let out := s.top.pinOpen = true ∧ s.top.busLost = true ∧ s.top.withdrawn = false ∧ since s.top.pinGt 15625000 ∧ since s.top.busGt 15625000 ∧ s.top.st.firmware = true;
        (¬ out → exec .withdrawn s = .next s)
        ∧ (out → s.Still → (∀ c, (s.ctx c).started = false) → s.cads = [] → ∃ t, exec .withdrawn s = .next t ∧ t.top = { s.top with withdrawn := true }
          ∧ t.pow.floor = true ∧ t.pow.fwForce = true
          ∧ ∀ n, (s.slotOf n).st = .outstanding → if (s.slotOf n).op ∈ [.start, .arm, .period, .drain] then t.slotOf n = s.slotOf n else s.Completed t n 2 7 []))
    ∧ (let off := s.top.busLost = true ∧ since s.top.busGt 156250000 ∧ s.top.st.firmware = true ∧ (s.top.pinOpen = true ∧ clear ∧ since s.top.pinGt 156250000 ∨ s.top.st = .faulted);
        (¬ off → exec .converterShutoffTimer s = .next s)
        ∧ (off → ∃ t, exec .converterShutoffTimer s = .next t ∧ t.top.st = .off ∧ Claims.Cold s t ∧ ∀ r, (t.rail r).st = .off))

/-! ### The rails (R293–R301, R315) -/

/-- R294–R298, R300, R315: a controller answers NAK to a frame it does not apply and ACK to one it applies; a new target supersedes one in progress,
a settled one answers TRANSITION_DONE, a load step cancels the shed. An overcurrent raises the alert and forces Floor. A write of RAIL_TGT sends the commands
of its bits, SET_TARGET with its code raised to the table's cell; SHED and UNSHED together send neither. A reserved SLEW code leaves the field (log entry 165).
-/
def Claims.RailControllers : Prop :=
  ∀ (s : State) (r : Fin 13), s.Inv →
    let x := s.rail r
    let gives (c : Instr) (y : Rail) : Prop := exec c s = .next (s.setRail r y)
    let line (typ : Nat) (q : BitVec 4) (low : Nat) : W32 := railFrame (typ * 2 ^ 22 + q.toNat * 2 ^ 18 + low)
    (∀ f : W32, let q := BitVec.ofNat 4 (f.toNat / 2 ^ 24)
      let code := f.extractLsb' 15 9
      let typ := (f.extractLsb' 28 4).toNat
      (railGood f = false → gives (.setTarget r f) { x with back := x.back ++ [line 0xD 0 0] } ∧ gives (.shed r f) { x with back := x.back ++ [line 0xD 0 0] }
        ∧ gives (.unshed r f) { x with back := x.back ++ [line 0xD 0 0] })
      ∧ (railGood f = true →
        ((typ = 0 ∨ 3 < typ) → ∀ c ∈ [Instr.setTarget r f, .shed r f, .unshed r f], gives c { x with back := x.back ++ [line 0xD q 0] })
        ∧ ((typ = 2 ∨ typ = 3) → exec (.setTarget r f) s = .next s) ∧ ((typ = 1 ∨ typ = 3) → exec (.shed r f) s = .next s)
        ∧ ((typ = 1 ∨ typ = 2) → exec (.unshed r f) s = .next s)
        ∧ (typ = 1 → 280 < code.toNat → gives (.setTarget r f) { x with back := x.back ++ [line 0xD q 0] })
        ∧ (typ = 1 → code.toNat ≤ 280 → gives (.setTarget r f) { x with moving := some (q, code)
                                                                        back := x.back ++ [line 8 q 0] ++ match x.moving with | some m => [line 0xA m.1 0] | none => [] })
        ∧ (typ = 2 → (∃ g ∈ x.back, g.extractLsb' 28 4 = 0xC) → gives (.shed r f) { x with back := x.back ++ [line 0xC q 0] })
        ∧ (typ = 2 → (∀ g ∈ x.back, g.extractLsb' 28 4 ≠ 0xC) → gives (.shed r f) { x with back := x.back ++ [line 8 q 0], shedSeq := some q })
        ∧ (typ = 3 → gives (.unshed r f) { x with back := x.back ++ [line 8 q 0], shedSeq := none })))
    ∧ (x.moving = none → exec (.targetSettled r) s = .next s)
    ∧ (∀ q code, x.moving = some (q, code) → gives (.targetSettled r) { x with back := x.back ++ [line 9 q (code.toNat * 2 ^ 9)], moving := none, settled := code })
    ∧ gives (.loadStep r) { x with back := x.back ++ [line 0xC (x.shedSeq.getD 0) 0], shedSeq := none }
    ∧ (∃ t, exec (.phaseOvercurrent r) s = .next t ∧ (t.rail r).alert = true ∧ (t.rail r).back = x.back ++ [line 0xE 0 (2 ^ 20)]
      ∧ t.pow.source = s.pow.source ||| BitVec.ofNat 13 (2 ^ r.val) ∧ t.pow.floor = true
      ∧ (s.pow.floor = true → t.pow.floorCount = s.pow.floorCount ∧ ∀ k, (t.rail k).sent = (s.rail k).sent)
      ∧ (s.pow.floor = false → t.pow.floorCount = s.pow.floorCount + 1 ∧ (s.fwRuns = true → ∀ k, k < 8 → (s.rail k).st ≠ .off →
          ∃ g, (t.rail k).sent = (s.rail k).sent ++ [((s.rail k).seq, g, 1)] ∧ railGood g = true ∧ g.extractLsb' 28 4 = 1 ∧ g.extractLsb' 15 9 = s.railCell k 1)))
    ∧ (∀ (v : W32) (p : Path) (c : Instr), c ∈ [.railTgtGo r v p, .railTgtShed r v p, .railTgtUnshed r v p] → s.pathUp p = true →
      (pathSecure p = false → exec c s = .next { s with clm := { s.clm with secureDenied := s.clm.secureDenied + 1 } })
      ∧ (pathSecure p = true → s.mayDrive p = false → exec c s = .next { s with clm := { s.clm with outputRefused := s.clm.outputRefused + 1 } }))
    ∧ (∀ (v : W32) (p : Path), s.pathUp p = true → pathSecure p = true → s.mayDrive p = true → v.extractLsb' 29 3 = 0 →
      let code := v.extractLsb' 0 9
      let cell := s.railCell r (if s.pow.floor then 1 else 0)
      let wrote (t : State) : Prop := (t.rail r).target = code ∧ (t.rail r).active = v.extractLsb' 20 6 ∧ (t.rail r).slew = (if (v.extractLsb' 26 3).toNat ≤ 4 then v.extractLsb' 26 3 else x.slew)
        ∧ (∀ k, k ≠ r.val → t.rail k = s.rail k) ∧ t.tiles = s.tiles ∧ t.mem.host = s.mem.host
      let sent (t : State) (typ : Nat) : Prop := ∃ g, (t.rail r).sent = x.sent ++ [(x.seq, g, 1)] ∧ (t.rail r).seq = x.seq + 1 ∧ railGood g = true
        ∧ (g.extractLsb' 28 4).toNat = typ ∧ g.extractLsb' 24 4 = x.seq ∧ (typ = 2 → g.extractLsb' 6 6 = v.extractLsb' 20 6)
        ∧ (typ = 1 → g.extractLsb' 15 9 = (if r.val < 8 ∧ code < cell then cell else code) ∧ g.extractLsb' 12 3 = (t.rail r).slew)
      (∃ t, exec (.railTgtGo r v p) s = .next t ∧ wrote t ∧ sent t 1 ∧ (t.rail r).go = true ∧ (t.rail r).raises = x.raises + (if r.val < 8 ∧ code < cell then 1 else 0)
        ∧ (s.err = {} → t.err.log.map (fun e => (e.kind, e.typ, e.data)) = if r.val < 8 ∧ code < cell then [(9, 7, [code.setWidth 32, cell.setWidth 32])] else []))
      ∧ (∃ t, exec (.railTgtShed r v p) s = .next t ∧ wrote t ∧ sent t 2 ∧ (t.rail r).shedBit = true)
      ∧ (∃ t, exec (.railTgtUnshed r v p) s = .next t ∧ wrote t ∧ sent t 3 ∧ (t.rail r).unshedBit = true)
      ∧ ∃ t, exec (.railTgtShed r (v ||| 0x20000000) p) s = .next t ∧ wrote t ∧ (t.rail r).sent = x.sent ∧ (t.rail r).seq = x.seq)
    ∧ gives (.railViRead r) { x with pLatch := BitVec.ofNat 32 (x.window.toNat * 2 ^ 24 + x.pout % 2 ^ 24) }

/-- R295–R301, R315, Table 13-4: what the power block does with each frame of a controller, which it logs: an answer ends its command and shows in RAIL_STAT, telemetry sets
the readings, ALERT latches its source and forces Floor, in BOOT a rail fault is fatal. A NAK concerns the command of its number, or the oldest where the controller could read none. A command is sent at most three
times; then its link is down. -/
def Claims.RailAnswers : Prop :=
  ∀ (s : State) (r : Fin 13) (f : W32), s.Inv →
    let x := s.rail r
    let q := f.extractLsb' 24 4
    let y : Rail := { x with back := if x.back.head? = some f then x.back.drop 1 else x.back, log := ((f, s.clk.gt.setWidth 32) :: x.log).take 64 }
    let gives (c : Instr) (z : Rail) : Prop := exec c s = .next (s.setRail r z)
    let all := if r.val < 4 then 32 else if r.val < 8 then 8 else if r.val < 10 then 12 else if r.val = 10 then 16 else 4
    let known := railGood f = true
    let typ := (f.extractLsb' 28 4).toNat
    let rest := x.sent.filter fun c => decide (c.1 ≠ q)
    let field := (f.extractLsb' 6 20).toNat
    let sel := (f.extractLsb' 26 2).toNat
    let down (c : Instr) (n : BitVec 4) (g : W32) : Prop := ∃ t, exec c s = .next t ∧ (t.rail r).st = .linkDown ∧ (t.rail r).sent = [] ∧ (t.rail r).nakWait = none
      ∧ (s.top.st ≠ .boot ∨ g.extractLsb' 28 4 ≠ 1 → t.top = s.top ∧ (s.err = {} → t.err.log.map (fun e => (e.kind, e.typ, e.data)) = [(9, 0x28, [n.setWidth 32])]))
      ∧ (s.top.st = .boot → g.extractLsb' 28 4 = 1 → s.clm.watchdog = false → Claims.Faulted s t 0xD)
    (∀ p ∈ [(8, Instr.ack r f), (9, .transitionDone r f), (0xA, .superseded r f), (0xB, .telemetry r f), (0xC, .shedCancelled r f), (0xD, .nak r f), (0xE, .alert r f)],
        (p.1 = 9 → s.top.st ≠ .boot) → ¬ (known ∧ typ = p.1) → gives p.2 y)
    ∧ (known → typ = 8 →
      (x.sent.find? (fun c => decide (c.1 = q)) = none → gives (.ack r f) { y with last := 1, lastSeq := q })
      ∧ ∀ g n, x.sent.find? (fun c => decide (c.1 = q)) = some (q, g, n) →
        let k := (g.extractLsb' 6 6).toNat
        (g.extractLsb' 28 4 = 1 → gives (.ack r f) { y with last := 1, lastSeq := q, sent := rest, go := false, targetNow := g.extractLsb' 15 9, settling := some q
                                                            st := if x.st = .shed then .shed else .slewing, phases := if x.st = .shed then x.phases else all })
        ∧ (g.extractLsb' 28 4 = 2 → 1 ≤ k → k ≤ all → gives (.ack r f) { y with last := 1, lastSeq := q, sent := rest, shedBit := false, st := .shed, phases := k })
        ∧ (g.extractLsb' 28 4 = 2 → (k = 0 ∨ all < k) → ∃ n, 1 ≤ n ∧ n ≤ all ∧ ∃ t, exec (.ack r f) s = .next t
            ∧ t.rail r = { y with last := 1, lastSeq := q, sent := rest, shedBit := false, st := .shed, phases := n })
        ∧ (g.extractLsb' 28 4 = 3 → gives (.ack r f) { y with last := 1, lastSeq := q, sent := rest, unshedBit := false, phases := all
                                                              st := if x.settling.isSome then .slewing else .regulating }))
    ∧ (known → typ = 9 → s.top.st ≠ .boot →
      (x.settling ≠ some q → gives (.transitionDone r f) { y with last := 2, lastSeq := q })
      ∧ (x.settling = some q → gives (.transitionDone r f) { y with last := 2, lastSeq := q, targetNow := f.extractLsb' 15 9, settling := none
                                                                    st := if x.st = .slewing then .regulating else x.st }))
    ∧ (known → typ = 0xA → gives (.superseded r f) { y with last := 3, lastSeq := q })
    ∧ (known → typ = 0xB →
      (sel = 0 → gives (.telemetry r f) { y with vout := min 65535 (field * 5 / 2) })
      ∧ (sel = 1 → gives (.telemetry r f) { y with iout := min 65535 (field / 10) })
      ∧ (sel = 2 → ∃ t, exec (.telemetry r f) s = .next t ∧ t.rail r = { y with pout := field * 10, window := BitVec.ofNat 8 (2 * s.clk.gt.toNat / 3125) }
          ∧ (∀ k, k ≠ r.val → t.rail k = s.rail k) ∧ t.pow.railEnergy = s.pow.railEnergy + field / 10)
      ∧ (sel = 3 → gives (.telemetry r f) y))
    ∧ (known → typ = 0xC →
      let z : Rail := { y with last := 5, lastSeq := q, phases := if x.st = .off then 0 else all
                               st := if x.st = .shed then (if x.settling.isSome then .slewing else .regulating) else x.st }
      ((∀ c ∈ x.sent, c.1 ≠ q) → gives (.shedCancelled r f) z)
      ∧ ∀ g n, x.sent.find? (fun c => decide (c.1 = q)) = some (q, g, n) →
        gives (.shedCancelled r f) (if g.extractLsb' 28 4 = 2 then { z with sent := rest, shedBit := false } else z))
    ∧ (known → typ = 0xD →
      let to_ := (x.sent.find? fun c => decide (c.1 = q)).or (if q = 0 then x.sent.head? else none)
      (to_ = none → gives (.nak r f) { y with last := 4, lastSeq := q })
      ∧ ∀ n g k, to_ = some (n, g, k) →
        (k < 3 → g.extractLsb' 28 4 = 1 → gives (.nak r f) { y with last := 4, lastSeq := q, nakWait := some n, go := false })
        ∧ (k < 3 → g.extractLsb' 28 4 = 2 → gives (.nak r f) { y with last := 4, lastSeq := q, nakWait := some n, shedBit := false })
        ∧ (k < 3 → g.extractLsb' 28 4 = 3 → gives (.nak r f) { y with last := 4, lastSeq := q, nakWait := some n, unshedBit := false })
        ∧ (3 ≤ k → down (.nak r f) n g))
    ∧ (known → typ = 0xE → ∃ t, exec (.alert r f) s = .next t ∧ (t.rail r).alert = true ∧ (t.rail r).alertCause = f.extractLsb' 26 2
        ∧ (t.rail r).st = (if sel = 3 then .fault else x.st) ∧ t.pow.source = s.pow.source ||| BitVec.ofNat 13 (2 ^ r.val) ∧ t.pow.floor = true
        ∧ (s.pow.floor = false → t.pow.floorCount = s.pow.floorCount + 1) ∧ (s.top.st ≠ .boot ∨ sel ≠ 3 → t.top = s.top)
        ∧ (s.top.st = .boot → sel = 3 → s.clm.watchdog = false → Claims.Faulted s t 0xD))
    ∧ (x.sent = [] → exec (.railResendTimeout r) s = .next s)
    ∧ ∀ n g k, ((x.nakWait.bind x.answered).or x.sent.head?) = some (n, g, k) →
      (k < 3 → gives (.railResendTimeout r) { x with sent := x.sent.map (fun c => if c.1 = n then (n, g, k + 1) else c), nakWait := none, log := ((g, s.clk.gt.setWidth 32) :: x.log).take 64 })
      ∧ (3 ≤ k → down (.railResendTimeout r) n g)

/-- (1) R294–R298, R300, R315: a controller answers NAK to a frame it does not apply and ACK to one it applies; a new target supersedes one in
progress, a settled one answers TRANSITION_DONE, a load step cancels the shed. An overcurrent raises the alert and forces Floor. A write of
RAIL_TGT sends the commands of its bits, SET_TARGET with its code raised to the table's cell; SHED and UNSHED together send neither. A
reserved SLEW code leaves the field (log entry 165). (2) R295–R301, R315, Table 13-4: what the power block does with each frame of a
controller, which it logs: an answer ends its command and shows in RAIL_STAT, telemetry sets the readings, ALERT latches its source and
forces Floor, in BOOT a rail fault is fatal. A NAK concerns the command of its number, or the oldest where the controller could read none. A
command is sent at most three times; then its link is down. -/
def Obligations.Rails : Prop :=
  Claims.RailControllers ∧ Claims.RailAnswers

/-! ### Power governance (R301–R318) -/

/-- R301, R302, R318: a window gives its voltage and powers and clears the alert lines. At a governor window's end each tile's activity, ballast and limits follow the
rule, and the ballast is counted. Every 10 ms the load energy is shared out to contexts, ballast and the unattributed account, with nothing lost; a refit
moves no coefficient by more than a tenth. -/
def Claims.Measurement : Prop :=
  ∀ (s : State), s.Inv → s.top.busLost = false →
    (∀ vin pin conv, (s.clk.locked = false ∨ 2 ≤ 2 * s.clk.gt.toNat % 3125 ∨ s.top.st = .off) → exec (.measurementWindow vin pin conv) s = .next s)
    ∧ (∀ vin pin conv, s.clk.locked = true → 2 * s.clk.gt.toNat % 3125 < 2 → s.top.st ≠ .off → let p := min pin 65535
        ∃ t, exec (.measurementWindow vin pin conv) s = .next t ∧ t.top = { s.top with vin := min vin 65535 } ∧ t.pow.window = 2 * s.clk.gt.toNat / 3125 ∧ t.pow.pin = p
          ∧ t.pow.conv = conv ∧ t.pow.loads = ((p + conv) :: s.pow.loads).take 200000 ∧ (∀ r, t.rail r = { s.rail r with alert := false })
          ∧ t.gvn.eInput = s.gvn.eInput + (p : Rat) ∧ t.gvn.eLoad = s.gvn.eLoad + ((p + conv : Int) : Rat) ∧ t.pow.loadEnergy = s.pow.loadEnergy + ((p + conv : Int) : Rat))
    ∧ ((s.clk.locked = false ∨ 4 ≤ 4 * s.clk.gt.toNat % 625 ∨ s.top.railsOff = true) → exec .governorWindow s = .next s)
    ∧ (s.clk.locked = true → 4 * s.clk.gt.toNat % 625 < 4 → s.top.railsOff = false → ∃ t, exec .governorWindow s = .next t ∧ SameMemory s t ∧ ∀ u, u < 1024 →
        let g := s.gov u
        let n := if s.pow.floor then 625 else 2500
        let cap := min g.ceil s.pow.level
        let now := if s.pow.floor then min g.hi (min cap 32) else g.hi
        let real := min 256 ((g.spent * 128 + n) / (2 * n))
        let low := if (s.tile u).st = .retired then 0 else min g.lo now
        let act := max real low
        let hi := if s.pow.floor then min cap 32 else max (min cap (act + if g.stagger = 0 then s.pow.up else 0)) (act - s.pow.down)
        t.gov u = { g with act := act, hi := hi, lo := if s.pow.floor then min g.ballast hi else min hi (max g.ballast (act - s.pow.down))
                           stagger := g.stagger - 1, fresh := false, spent := 0, excess := g.spent * 64 + g.excess - now * n }
        ∧ { t.tile u with events := (s.tile u).events } = s.tile u ∧ (∀ e, e ≠ 11 → Tab.look 0 (t.tile u).events e = Tab.look 0 (s.tile u).events e)
        ∧ Tab.look 0 (t.tile u).events 11 = Tab.look 0 (s.tile u).events 11 + if real < low then low * n / 64 - g.spent else 0)
    ∧ ((s.clk.locked = false ∨ s.clk.gt.toNat % 1562500 ≠ 0 ∨ s.fwRuns = false) → exec .energyAttribution s = .next s)
    ∧ (s.clk.locked = true → s.clk.gt.toNat % 1562500 = 0 → s.fwRuns = true → ∃ t, exec .energyAttribution s = .next t ∧ t.pow.railEnergy = 0 ∧ t.pow.loadEnergy = 0
        ∧ (∀ u e, Tab.look 0 (t.tile u).events e = 0) ∧ (∀ c, { t.ctx c with energy := (s.ctx c).energy } = s.ctx c)
        ∧ (t.gvn.eBallast - s.gvn.eBallast) + (t.gvn.eUnattr - s.gvn.eUnattr) + ((List.range 16).map fun c => (t.ctx c).energy - (s.ctx c).energy).sum = s.pow.loadEnergy
        ∧ (s.pow.railEnergy ≠ 0 → ∀ c, c < 16 → (t.ctx c).energy = (s.ctx c).energy
            + s.pow.loadEnergy / s.pow.railEnergy * (((s.ctx c).groups.flatMap fun g => (List.range 16).map fun k => 16 * g.phys + k).map s.tileEnergy).sum))
    ∧ ((s.clk.locked = false ∨ s.clk.gt.toNat % 156250000 ≠ 0 ∨ s.fwRuns = false) → exec .coefficientRefit s = .next s)
    ∧ (s.clk.locked = true → s.clk.gt.toNat % 156250000 = 0 → s.fwRuns = true → ∃ t, exec .coefficientRefit s = .next t ∧ t.gvn.refits = s.gvn.refits + 1
        ∧ ∀ e, e < 13 → let a := s.coefficient e
          let d := (if a < 0 then -a else a) / 10
          a - d ≤ t.coefficient e ∧ t.coefficient e ≤ a + d)

/-- R305–R307, R311–R314: an accepted envelope binds at the next pace tick, whose control step keeps the setpoint inside the envelope and its slope, follows the
temperatures, writes the levels and sends every other member the level for two ticks later. Levels received are kept for their tick; at the cut-off the least arms GOV_PACE, which
applies at its tt. A late step is skipped; 1 s without a refresh binds the stored envelope. -/
def Claims.Pace : Prop :=
  ∀ (s : State), s.Inv →
    let gt := s.clk.gt.toNat
    let gv (g : Govern) : State := { s with gvn := g }
    (∀ (x : Exchange) (n : Nat), s.Passes 0x0F x [2 ^ 32 - 1, 2 ^ 32 - 1] true → n < 4096 → s.freeSlot = some n →
      let w := (x.par.getD 0 0).toNat
      let slope := (x.par.getD 1 0).toNat
      let ok := w % 65536 ≤ 4600 ∧ w / 65536 ≤ w % 65536 ∧ (slope = 0 ∨ 10 ≤ slope)
      (¬ ok → ∃ t, exec (.powerEnvelope x) s = .next t ∧ s.Replied t 2 3 0 ∧ { t with cmd := s.cmd } = s)
      ∧ (ok → ∃ t, exec (.powerEnvelope x) s = .next t ∧ s.Accepted t 0xF n x ∧ (t.slotOf n).st = .outstanding ∧ t.gvn = { s.gvn with
          nextEnv := some { floor := w / 65536, ceiling := w % 65536, slope := slope }, envSlots := s.gvn.envSlots ++ [n], refreshGt := s.clk.gt.setWidth 32 }))
    ∧ ((s.clk.locked = false ∨ gt % 15625 ≠ 0 ∨ s.top.st.firmware = false) → exec .paceTick s = .next s)
    ∧ (s.clk.locked = true → gt % 15625 = 0 → s.top.st.firmware = true → s.fwRuns = false → ∃ t, exec .paceTick s = .next t ∧ t.gvn.stepDone = false
        ∧ t.gvn.tick = gt / 15625 ∧ t.pow = s.pow ∧ t.gz = s.gz)
    ∧ (s.clk.locked = true → gt % 15625 = 0 → s.fwRuns = true → s.top.busLost = false → ∃ t, exec .paceTick s = .next t ∧ t.gvn.stepDone = true ∧ t.gvn.tick = gt / 15625
        ∧ t.gvn.nextEnv = none ∧ (∀ e, s.gvn.nextEnv = some e → t.gvn.env = e ∧ t.gvn.storedBinds = false
            ∧ ∀ n ∈ s.gvn.envSlots, (s.slotOf n).st = .outstanding → s.Completed t n 0 0 [(s.clk.gt.setWidth 32).setWidth 64])
        ∧ (s.gvn.nextEnv = none → t.gvn.env = if s.gvn.storedBinds then s.pow.stored else s.gvn.env)
        ∧ (let e := t.gvn.env; let p := s.gvn.pinSet; let step : Rat := (e.slope : Rat) / 10000
            (e.floor ≤ e.ceiling → e.slope = 0 → (e.floor : Rat) ≤ t.gvn.pinSet ∧ t.gvn.pinSet ≤ e.ceiling)
            ∧ (e.slope ≠ 0 → (e.floor : Rat) ≤ p → p ≤ e.ceiling → (e.floor : Rat) ≤ t.gvn.pinSet ∧ t.gvn.pinSet ≤ e.ceiling ∧ p - step ≤ t.gvn.pinSet ∧ t.gvn.pinSet ≤ p + step))
        ∧ (∀ b, b < 4 → t.thermal b = if 1000 ≤ s.heat b then s.thermal b - 16 else if s.heat b < 970 then min 256 (s.thermal b + 8) else s.thermal b)
        ∧ (∀ u, u < 1024 → (t.gov u).ceil = t.localLevel (u / 256))
        ∧ (s.gz.joined = false → t.pow.level = 256 ∧ t.pow.paceArmed = false ∧ t.gz.paceSent = s.gz.paceSent)
        ∧ (s.gz.joined = true → t.pow.level = s.pow.level ∧ ∃ w : W64, t.gz.paceSent = s.gz.paceSent ++ [(w, s.gvn.paceSeq.setWidth 64)]
            ∧ w.extractLsb' 32 32 = BitVec.ofNat 32 (gt / 15625 + 2) ∧ (w.extractLsb' 0 9).toNat = t.sustainable ∧ t.gvn.paceSeq = s.gvn.paceSeq + 1
            ∧ ∀ m, m < 64 → s.gz.members.getLsbD m = true → m ≠ s.gz.me.toNat → s.Sent t { s.packet 0x32 3 (BitVec.ofNat 6 m) with
                len := 16, payload := toLe 8 w.toNat ++ toLe 8 s.gvn.paceSeq.toNat }))
    ∧ (let late := s.top.st.firmware = true ∧ s.gvn.stepDone = false ∧ s.gvn.tick * 15625 + 7813 ≤ gt;
        (¬ late → exec .controlStepTimeout s = .next s) ∧ (late → exec .controlStepTimeout s = .next (gv { s.gvn with stepDone := true, skipped := s.gvn.skipped + 1 })))
    ∧ (s.gz.arrived = [] → ∀ (m : Fin 64) (lo hi : W64), let lvl := (lo.extractLsb' 0 9).toNat
      let cur := (gt + 1562) / 15625 + 1
      let ahead := (lo.extractLsb' 32 32 - BitVec.ofNat 32 cur).toInt
      let keep (k : Nat) : State := gv { s.gvn with received := Tab.put 0 s.gvn.received (64 * k + m) (lvl + 1) }
      let heard := s.gz.joined = true ∧ s.gz.members.getLsbD m = true ∧ m.val ≠ s.gz.me.toNat ∧ lvl ≤ 256
      (¬ heard → exec (.pace m lo hi) s = .next s)
      ∧ (heard → 0 ≤ ahead → exec (.pace m lo hi) s = .next (keep (cur + ahead.toNat)))
      ∧ (heard → ahead < 0 → Tab.look 0 s.gvn.received (64 * cur + m) = 0 → exec (.pace m lo hi) s = .next (keep cur))
      ∧ (heard → ahead < 0 → Tab.look 0 s.gvn.received (64 * cur + m) ≠ 0 → exec (.pace m lo hi) s = .next s))
    ∧ (let now := s.clk.locked = true ∧ (gt + 1562) % 15625 = 0 ∧ s.fwRuns = true ∧ s.gz.joined = true;
      let j := (gt + 1562) / 15625
      let of (m : Nat) : Nat := if Tab.look 0 s.gvn.received (64 * j + m) = 0 then Tab.look 0 s.gvn.received (64 * (j - 1) + m) else Tab.look 0 s.gvn.received (64 * j + m)
      let own := if Tab.look 0 s.gvn.sentLevel j = 0 then s.sustainable + 1 else Tab.look 0 s.gvn.sentLevel j
      let peer (m : Nat) : Prop := m < 64 ∧ s.gz.members.getLsbD m = true ∧ m ≠ s.gz.me.toNat ∧ of m ≠ 0
      (¬ now → exec .paceCutoff s = .next s)
      ∧ (now → ∃ t, exec .paceCutoff s = .next t ∧ t.pow = { s.pow with next := t.pow.next, paceArmed := true, paceAt := BitVec.ofNat 32 (15625 * j) }
        ∧ t.pow.next + 1 ≤ own ∧ (∀ m, peer m → t.pow.next + 1 ≤ of m) ∧ (t.pow.next + 1 = own ∨ ∃ m, peer m ∧ t.pow.next + 1 = of m)))
    ∧ ((s.pow.paceArmed = false ∨ s.clk.gt.setWidth 32 ≠ s.pow.paceAt) → exec .paceApply s = .next s)
    ∧ (s.pow.paceArmed = true → s.clk.gt.setWidth 32 = s.pow.paceAt → exec .paceApply s = .next { s with pow := { s.pow with level := s.pow.next, paceArmed := false } })
    ∧ (let lost := s.fwRuns = true ∧ s.gvn.storedBinds = false ∧ s.gvn.nextEnv = none ∧ 156250000 ≤ (s.clk.gt.setWidth 32 - s.gvn.refreshGt).toNat;
      (¬ lost → exec .envelopeTimeout s = .next s)
      ∧ (lost → ∃ t, exec .envelopeTimeout s = .next t ∧ t.gvn = { s.gvn with storedBinds := true }
        ∧ (s.err = {} → t.err.log.map (fun e => (e.kind, e.typ, e.data)) = [(0xD, 0x2A, [s.gvn.refreshGt])])))

/-- (1) R301, R302, R318: a window gives its voltage and powers and clears the alert lines. At a governor window's end each tile's activity,
ballast and limits follow the rule, and the ballast is counted. Every 10 ms the load energy is shared out to contexts, ballast and the
unattributed account, with nothing lost; a refit moves no coefficient by more than a tenth. (2) R305–R307, R311–R314: an accepted envelope
binds at the next pace tick, whose control step keeps the setpoint inside the envelope and its slope, follows the temperatures, writes the
levels and sends every other member the level for two ticks later. Levels received are kept for their tick; at the cut-off the least arms
GOV_PACE, which applies at its tt. A late step is skipped; 1 s without a refresh binds the stored envelope. -/
def Obligations.MeasurementAndPace : Prop :=
  Claims.Measurement ∧ Claims.Pace

/-- R299, R313, R315–R317: a sensor's reading moves the band of its bolt. At 100 °C (90 °C for a stack) the bolt's level drops to three quarters at once, with the levels
written and the ballast gone; at 110 °C (105 °C) Floor is forced; at 120 °C every rail but the control rails is off and the module is FAULTED. FW_FORCE forces Floor;
CLEAR ends it only with every cause gone and the rails at their Run cells. -/
def Claims.ThermalAndFloor : Prop :=
  ∀ (s : State), s.Inv →
    let throttled (t : State) (b : Nat) : Prop := t.thermal b = s.localLevel b * 3 / 4 ∧ Tab.look false t.gvn.throttled b = true
      ∧ (∀ u, u < 1024 → u / 256 = b → (t.gov u).ceil = s.localLevel b * 3 / 4 ∧ (t.gov u).ballast = 0)
      ∧ (s.gz.joined = true → t.gz.paceSent.length = s.gz.paceSent.length + 1)
    (∀ (b : Fin 4) (n : Fin 64) (c : Int), s.top.st = .off → exec (.junctionSensorReading b n c) s = .next s)
    ∧ (∀ (h : Fin 24) (c : Int), s.top.st = .off → exec (.hbmTemperatureReport h c) s = .next s)
    ∧ (s.top.st ≠ .off → ∀ (b : Fin 4) (n : Fin 64) (c : Int), ∃ t, exec (.junctionSensorReading b n c) s = .next t
      ∧ (let now : State := { s with gvn := { s.gvn with junction := Tab.put 0 s.gvn.junction (64 * b.val + n.val) c } }
        let hot := now.junctionMax b
        let old := Tab.look 0 s.gvn.band b
        let band (x : Int) : Nat := if x < 500 then 0 else if x < 750 then 1 else if x < 950 then 2 else 3
        t.gvn.junction = now.gvn.junction ∧ Tab.look 0 t.gvn.band b = if old < band hot then band hot else min old (band (hot + 19)))
      ∧ (c < 1000 → t.pow.floor = s.pow.floor ∧ t.top = s.top ∧ t.gvn.thermalLvl = s.gvn.thermalLvl)
      ∧ (1000 ≤ c → s.fwRuns = true → Tab.look false s.gvn.throttled b = false → throttled t b)
      ∧ (1100 ≤ c → t.pow.floor = true ∧ t.pow.thermal = true)
      ∧ (c < 1200 → t.top = s.top)
      ∧ (1200 ≤ c → s.top.railsOff = false → t.top.railsOff = true ∧ (∀ r, r < 11 → (t.rail r).st = .off) ∧ (∀ r, 11 ≤ r → (t.rail r).st = (s.rail r).st)
          ∧ (s.clm.watchdog = false → s.top.st ∈ [.boot, .ready, .running, .drain] → Claims.Faulted s t 0xB)))
    ∧ (s.top.st ≠ .off → ∀ (h : Fin 24) (c : Int), ∃ t, exec (.hbmTemperatureReport h c) s = .next t ∧ t.gvn.hbmTemp = Tab.put 0 s.gvn.hbmTemp h c ∧ t.top = s.top
      ∧ (c < 900 → t = { s with gvn := { s.gvn with hbmTemp := Tab.put 0 s.gvn.hbmTemp h c } })
      ∧ (900 ≤ c → s.fwRuns = true → Tab.look false s.gvn.throttled (h.val / 6) = false → throttled t (h.val / 6))
      ∧ (1050 ≤ c → s.fwRuns = true → t.pow.floor = true ∧ t.pow.fwForce = true ∧ t.pow.firmware = true))
    ∧ ∀ p : Path, s.pathUp p = true →
      (pathSecure p = false → ∀ c ∈ [Instr.fwForce p, .floorClear p], exec c s = .next { s with clm := { s.clm with secureDenied := s.clm.secureDenied + 1 } })
      ∧ (pathSecure p = true → s.mayDrive p = false → ∀ c ∈ [Instr.fwForce p, .floorClear p],
          exec c s = .next { s with clm := { s.clm with outputRefused := s.clm.outputRefused + 1 } })
      ∧ (pathSecure p = true → s.mayDrive p = true →
        (∃ t, exec (.fwForce p) s = .next t ∧ t.pow.fwForce = true ∧ t.pow.firmware = true ∧ t.pow.floor = true ∧ 0 ∈ t.gvn.forcedBy ∧ t.top = s.top)
        ∧ (let gone := s.pow.fwForce = false ∧ (∀ x ∈ s.pow.rails, x.alert = false) ∧ (∀ q ∈ s.gvn.junction, q.2 < 1050)
            ∧ ∀ r, r < 8 → (s.rail r).still = true ∧ s.railCell r 0 ≤ (s.rail r).targetNow;
          (gone → exec (.floorClear p) s = .next { s with pow := { s.pow with floor := false } })
          ∧ (¬ gone → exec (.floorClear p) s = .next { s with pow := { s.pow with clearRefused := s.pow.clearRefused + 1 } })))

/-! ### The tray bus, the converter and the pack (R310, R322, R323, R389, R391) -/

/-- R310, R322, R323, R389, R391: when the bus goes, p_in is 0 and the converter holds the node, or the module is OFF; when it is back p_in restarts and the held-reserve
cause is gone, after 1 ms the converter leaves NODE, after 1 s firmware's Floor for it ends. The held reserve without the bus forces Floor and a drain. The stack's
limits and the pack's interlock stop the converter; the interlock's closing is a change of ring state, so that enumeration is due 1 s later (log entry 120). -/
def Claims.TrayBus : Prop :=
  ∀ (s : State), s.Inv →
    let off (t : State) : Prop := t.top.st = .off ∧ Claims.Cold s t
    let since (n : Nat) : Prop := n ≤ (s.clk.gt - s.top.busGt).toNat
    let n := match Config.variant with | .full => 24 | .light => 12
    let reserve : Rat := match Config.variant with | .full => 6000 | .light => 3000
    let holds := s.res.convEn = true ∧ s.res.interlock = true ∧ s.res.disStop = false ∧ s.res.zLow = false
    let clear : Prop := ∀ k, (s.slotOf k).st = .outstanding → (s.slotOf k).op = .drain
    (∀ c ∈ [Instr.busUndervoltage, .busOvervoltage, .inputOvercurrent],
      (s.top.busLost = true ∨ s.top.st = .off → exec c s = .next s)
      ∧ (s.top.busLost = false → s.top.st ≠ .off →
        (¬ holds → ∃ t, exec c s = .next t ∧ off t)
        ∧ (holds → ∃ t, exec c s = .next t ∧ t.top = { s.top with busLost := true, busGt := s.clk.gt } ∧ t.gvn.pinSet = 0 ∧ t.res.pinTarget = 0 ∧ t.res.mode = .node)))
    ∧ (s.top.busLost = false → exec .busReturn s = .next s)
    ∧ (s.top.busLost = true → ∃ t, exec .busReturn s = .next t ∧ t.top.busLost = false ∧ t.top.busGt = s.clk.gt ∧ t.gvn.pinSet = (s.pow.pin : Rat) / 10
      ∧ 8 ∉ t.top.drainCauses ∧ ((s.top.st ≠ .drain ∨ ¬ clear) → t.cmd = s.cmd ∧ t.top.st = s.top.st)
      ∧ (s.top.st = .drain → clear → (s.clm.watchdog = false → ∀ k, (s.slotOf k).st = .outstanding → s.Completed t k 0 0 [])
        ∧ ((∀ c ∈ s.top.drainCauses, c = 6 ∨ c = 8) → s.clm.watchdog = false → t.top.st = .ready ∧ t.top.prev = .drain ∧ t.top.cause = 9 ∧ t.top.drainCauses = [])
        ∧ ((∃ c ∈ s.top.drainCauses, c ≠ 6 ∧ c ≠ 8) → t.top.st = .drain)))
    ∧ ((s.top.busLost = true ∨ ¬ since 156250000 ∨ 2 ∉ s.gvn.forcedBy) → exec .busStableTimer s = .next s)
    ∧ (s.top.busLost = false → since 156250000 → 2 ∈ s.gvn.forcedBy → let l := s.gvn.forcedBy.filter fun k => decide (k ≠ 2)
        exec .busStableTimer s = .next { s with gvn := { s.gvn with forcedBy := l }, pow := { s.pow with fwForce := decide (l ≠ []) } })
    ∧ ((s.top.busLost = true ∨ s.res.mode ≠ .node ∨ ¬ since 156250) → exec .nodeExit s = .next s)
    ∧ (s.top.busLost = false → s.res.mode = .node → since 156250 → s.top.st ≠ .off → ∃ t, exec .nodeExit s = .next t ∧ t.top = s.top
      ∧ (s.res.convEn = false ∨ s.res.interlock = false → t.res.mode = .off)
      ∧ (s.res.convEn = true → s.res.interlock = true → (s.res.chgStop = true ∨ s.res.disStop = true → t.res.mode = .stop)
        ∧ (s.res.chgStop = false → s.res.disStop = false → t.res.mode = .track ∨ t.res.mode = .limit)))
    ∧ ((s.top.busLost = false ∨ reserve < s.res.rep ∨ s.top.st.firmware = false) → exec .heldReserveBoundary s = .next s)
    ∧ (s.top.busLost = true → s.res.rep ≤ reserve → s.top.st.firmware = true → s.clm.watchdog = false → s.cads = [] → ∃ t, exec .heldReserveBoundary s = .next t
      ∧ t.pow.floor = true ∧ t.pow.fwForce = true ∧ 2 ∈ t.gvn.forcedBy ∧ (s.top.st ∈ [.ready, .running] → t.top.st = .drain ∧ t.top.prev = s.top.st ∧ t.top.cause = 8)
      ∧ (s.top.st = .drain → 8 ∈ t.top.drainCauses ∧ t.top.cause = s.top.cause) ∧ (s.top.st ∉ [.ready, .running] → t.top.st = s.top.st))
    ∧ (∀ mv, s.top.st ≠ .off → s.top.busLost = false → ∃ t, exec (.stackLimit mv) s = .next t ∧ t.top = s.top
      ∧ t.res.chgStop = (if n * 3780 ≤ mv then true else if mv ≤ n * 3740 then false else s.res.chgStop)
      ∧ t.res.disStop = (if mv ≤ n * 2200 then true else if n * 2250 ≤ mv then false else s.res.disStop)
      ∧ (s.res.convEn = true → s.res.interlock = true → s.res.mode ≠ .node → (t.res.mode = .stop ↔ t.res.chgStop = true ∨ t.res.disStop = true)))
    ∧ (∀ mv, s.top.st ≠ .off → s.top.busLost = true → mv ≤ n * 2200 → ∃ t, exec (.stackLimit mv) s = .next t ∧ off t)
    ∧ (s.top.st = .off → exec .packInterlockOpen s = .next { s with res := { s.res with interlock := false } })
    ∧ (s.top.st ≠ .off → s.top.busLost = true → ∃ t, exec .packInterlockOpen s = .next t ∧ t.top.st = .off ∧ t.res.interlock = false)
    ∧ (s.top.st ≠ .off → s.top.busLost = false → ∃ t, exec .packInterlockOpen s = .next t ∧ t.top = s.top ∧ t.res.interlock = false ∧ t.res.ring = .down
        ∧ t.res.convEn = false ∧ t.res.mode = .off)
    ∧ (s.top.st.firmware = false → exec .packInterlockClose s = .next { s with res := { s.res with interlock := true } })
    ∧ (s.top.st.firmware = true →
        exec .packInterlockClose s = .next { s with res := { s.res with interlock := true, enumDue := some (s.res.enumDue.getD s.clk.gt) } })

/-- (1) R299, R313, R315–R317: a sensor's reading moves the band of its bolt. At 100 °C (90 °C for a stack) the bolt's level drops to three
quarters at once, with the levels written and the ballast gone; at 110 °C (105 °C) Floor is forced; at 120 °C every rail but the control
rails is off and the module is FAULTED. FW_FORCE forces Floor; CLEAR ends it only with every cause gone and the rails at their Run cells.
(2) R310, R322, R323, R389, R391: when the bus goes, p_in is 0 and the converter holds the node, or the module is OFF; when it is back p_in
restarts and the held-reserve cause is gone, after 1 ms the converter leaves NODE, after 1 s firmware's Floor for it ends. The held reserve
without the bus forces Floor and a drain. The stack's limits and the pack's interlock stop the converter; the interlock's closing is a
change of ring state, so that enumeration is due 1 s later (log entry 120). -/
def Obligations.ThermalAndTrayBus : Prop :=
  Claims.ThermalAndFloor ∧ Claims.TrayBus

/-! ### The ring (R324–R331) -/

/-- R324–R328, Tables 14-3, 14-5, 14-15: a monitor forwards a request not for it with one hop fewer, and a broadcast as its type says, a wrong CRC staying wrong (log entry 190);
it counts and answers NAK to a bad CRC, a reserved TYPE or another reserved field; else it answers READ and READBLOCK with its registers and WRITE with ACK, converts once per TAG, pauses its bleeding and resumes it, and
takes its hop index. A silent link opens its switches. -/
def Claims.Monitors : Prop :=
  ∀ (s : State) (m : Fin 4) (f : W64), s.Inv →
    let typ := (f.extractLsb' 60 4).toNat
    let hops := (f.extractLsb' 56 4).toNat
    let a := (f.extractLsb' 48 8).toNat
    let v := (f.extractLsb' 16 32).toNat
    let tag := (f.extractLsb' 8 8).toNat
    let x : Monitor := { s.monitor m with clocked := true }
    let gives (c : Instr) (y : Monitor) (l : List W64) : Prop :=
      exec c s = .next { (s.setMonitor m y) with rfw := { s.rfw with wire := s.rfw.wire ++ l } }
    let on (g : W64) : List W64 := if hops = 15 then [g] else []
    let unknown := typ = 0 ∨ 10 < typ
    let passed (g h : W64) : Prop := (ringGood f = true → h = g) ∧ (ringGood f = false → ringGood h = false ∧ h >>> 8 = g >>> 8)
    let here := ringGood f = true ∧ (hops = 0 ∨ hops = 15)
    let volt (k : Nat) : Nat := (Tab.look 0 x.volts k).toNat
    let temp (k : Nat) : Nat := (Tab.look 0 x.temps k).toNat
    (∀ (volts : List Nat) (temps : List Int) (e1 : Bool),
      ∀ p ∈ [(1, Instr.ringRead m f, f, decide (v ≠ 0)), (2, .ringWrite m f, f, false), (3, .sample m f volts temps, ringFrame 3 hops 0 (v - 400) tag, decide (a ≠ 0 ∨ 2 ^ 20 ≤ v)),
          (4, .pause m f, f, decide (a ≠ 0 ∨ v ≠ 0)), (5, .resume m f, f, decide (a ≠ 0 ∨ v ≠ 0)),
          (6, .enum m f e1, ringFrame 6 hops 0 ((v + 1) % 16) tag, decide (a ≠ 0 ∨ 16 ≤ v)), (7, .readblock m f, f, decide (a ≠ 0 ∨ v ≠ 0))],
        (ringGood f = true → typ ≠ p.1 → ¬ unknown → exec p.2.1 s = .next s)
        ∧ (ringGood f = false ∨ typ = p.1 ∨ unknown → hops ≠ 0 → hops ≠ 15 → ∃ h, passed (ringFrame typ (hops - 1) a v tag) h
          ∧ exec p.2.1 s = .next { s with rfw := { s.rfw with wire := s.rfw.wire ++ [h] } })
        ∧ (hops = 0 ∨ hops = 15 → ringGood f = false ∨ unknown ∨ typ = p.1 ∧ p.2.2.2 = true → ∃ h, passed p.2.2.1 h
          ∧ gives p.2.1 { x with naks := x.naks + 1 } (on h ++ [ringFrame 0xA 0 a 0 tag])))
    ∧ (here → typ = 1 → v = 0 →
      let value := if a = 0 then x.corner.toNat * 2 ^ 30 + x.bleed.toNat
        else if a = 4 then (if x.paused then 2 ^ 31 else 0) + (if x.nvBusy then 2 ^ 30 else 0) + x.naks.toNat * 65536 + x.tag.toNat * 256
        else if a ∈ [0x10, 0x14, 0x18, 0x1C, 0x20, 0x24] then volt ((a - 0x10) / 4)
        else if a ∈ [0x28, 0x2C] then temp ((a - 0x28) / 4)
        else if a = 0x40 then x.nvAddr.toNat * 4 else if a = 0x44 then (Tab.look 0 x.nv x.nvAddr.toNat).toNat else 0
      gives (.ringRead m f) (if a = 0x44 then { x with nvAddr := x.nvAddr + 1 } else x) (on f ++ [ringFrame 8 0 a value tag]))
    ∧ (here → typ = 2 →
      let word : Monitor := if x.nvAddr.toNat < 16 then x else { x with nv := Tab.put 0 x.nv x.nvAddr.toNat (BitVec.ofNat 32 v) }
      let y : Monitor := if a = 0 then { x with corner := BitVec.ofNat 2 (v / 2 ^ 30), bleed := BitVec.ofNat 6 v }
        else if a = 4 then { x with naks := BitVec.ofNat 8 (v / 65536) }
        else if a = 0x40 then { x with nvAddr := BitVec.ofNat 9 (v / 4) }
        else if a = 0x44 then { word with nvAddr := x.nvAddr + 1 } else x
      gives (.ringWrite m f) y (on f ++ [ringFrame 9 0 a 0 tag]))
    ∧ (here → typ = 7 → a = 0 → v = 0 → gives (.readblock m f) x (on f ++ [ringFrame 8 0 0 (volt 1 * 65536 + volt 0) tag,
        ringFrame 8 0 0 (volt 3 * 65536 + volt 2) tag, ringFrame 8 0 0 (volt 5 * 65536 + volt 4) tag, ringFrame 8 0 0 (temp 1 * 65536 + temp 0) tag]))
    ∧ (here → typ = 4 → a = 0 → v = 0 → gives (.pause m f) { x with paused := true } (on f))
    ∧ (here → typ = 5 → a = 0 → v = 0 → gives (.resume m f) { x with paused := false } (on f))
    ∧ (∀ (volts : List Nat) (temps : List Int), here → typ = 3 → a = 0 → v < 2 ^ 20 → volts.length = 6 → temps.length = 2 →
      let again := on (ringFrame 3 hops 0 (v - 400) tag)
      (x.sampled = some (BitVec.ofNat 8 tag) → gives (.sample m f volts temps) x again)
      ∧ (x.sampled ≠ some (BitVec.ofNat 8 tag) → ∃ y, gives (.sample m f volts temps) y again ∧ y.sampled = some (BitVec.ofNat 8 tag) ∧ y.tag = BitVec.ofNat 8 tag
        ∧ (∀ k, k < 6 → Tab.look 0 y.volts k = BitVec.ofNat 16 (volts.getD k 0)) ∧ (∀ k, k < 2 → Tab.look 0 y.temps k = BitVec.ofInt 16 (temps.getD k 0))
        ∧ { y with sampled := x.sampled, tag := x.tag, volts := x.volts, temps := x.temps } = x))
    ∧ (here → typ = 6 → a = 0 → v < 16 → let again := on (ringFrame 6 hops 0 ((v + 1) % 16) tag)
      gives (.enum m f false) { x with hop0 := v, seen0 := true, reachable := true } again
      ∧ gives (.enum m f true) { x with hop1 := v, seen1 := true, reachable := true } again)
    ∧ exec (.monitorLinkSilent m) s = .next (s.setMonitor m { s.monitor m with clocked := false })

/-- R326–R328, R331, R344, Table 14-4: the manager ends a request at its answer and sends the next; unanswered, it asks again from the same end, then from the other, then gives the
monitor up. A sweep numbers itself, takes its settle time (R329), latches the stack and broadcasts; an overdue broadcast breaks the ring and splits the sweep. A change of the
ring's state, and each enumeration that leaves it partial or down, has it enumerated 1 s later; that sets RING by what ENUM reached from each end. -/
def Claims.RingManager : Prop :=
  ∀ (s : State), s.Inv →
    let n := match Config.variant with | .full => 4 | .light => 2
    let enum : W64 := ringFrame 6 15 0 0 0
    let part (f : W64) (i k : Nat) : Nat := (f.extractLsb' i k).toNat
    let other (m : Nat) : Nat := if (s.monitor m).from0 = true then n - 1 - m else m
    let due : Option W64 := some (s.res.enumDue.getD s.clk.gt)
    let next (t : State) (l : List (Nat × W64)) : Prop := t.rfw.block = [] ∧ match l with
      | [] => t.rfw.req = none ∧ t.rfw.todo = [] ∧ t.rfw.wire = s.rfw.wire
      | (m, g) :: r => t.rfw.req = some (g, m, 1) ∧ t.rfw.todo = r ∧ t.rfw.wire = s.rfw.wire ++ [g]
    let retries (c : Instr) : Prop := ∀ q m k, s.rfw.req = some (q, m, k) →
      let again (g : W64) : Prop := exec c s = .next { s with rfw := { s.rfw with req := some (g, m, k + 1), block := [], wire := s.rfw.wire ++ [g] } }
      (k = 1 → again q) ∧ (k = 2 → again (ringFrame (part q 60 4) (other m) (part q 48 8) (part q 16 32) (part q 8 8)))
      ∧ (2 < k → ∃ t, exec c s = .next t ∧ (t.monitor m).reachable = false ∧ (∀ j, j ≠ m → (t.monitor j).reachable = (s.monitor j).reachable)
          ∧ next t (s.rfw.todo.filter fun p => decide (p.1 ≠ m)) ∧ t.res.readback = (s.res.readback.filter fun j => decide (j ≠ m)) ∧ t.res.enumDue = due)
    (s.rfw.req = none → exec .ringRequestTimeout s = .next s ∧ ∀ f, exec (.reply f) s = .next s ∧ exec (.ringAck f) s = .next s ∧ exec (.ringNak f) s = .next s)
    ∧ (∀ q m k, s.rfw.req = some (q, m, k) → ∀ f, let same := ringGood f = true ∧ part f 8 8 = part q 8 8
      (¬ (same ∧ part f 60 4 = 8) → exec (.reply f) s = .next s) ∧ (¬ (same ∧ part f 60 4 = 9 ∧ part q 60 4 = 2) → exec (.ringAck f) s = .next s)
      ∧ (¬ (same ∧ part f 60 4 = 0xA) → exec (.ringNak f) s = .next s)
      ∧ (same → part f 60 4 = 0xA → retries (.ringNak f))
      ∧ (same → part f 60 4 = 9 → part q 60 4 = 2 → ∃ t, exec (.ringAck f) s = .next t ∧ next t s.rfw.todo ∧ t.res = s.res)
      ∧ (same → part f 60 4 = 8 → part q 60 4 = 1 → ∃ t, exec (.reply f) s = .next t ∧ next t s.rfw.todo ∧ t.res = s.res)
      ∧ (same → part f 60 4 = 8 → part q 60 4 = 7 → let l := s.rfw.block ++ [BitVec.ofNat 32 (part f 16 32)]
        (l.length < 4 → exec (.reply f) s = .next { s with rfw := { s.rfw with block := l } })
        ∧ (4 ≤ l.length → ∃ t, exec (.reply f) s = .next t ∧ next t s.rfw.todo ∧ t.res = { s.res with readback := s.res.readback.filter fun j => decide (j ≠ m) }
          ∧ (∀ j, j < 6 → Tab.look none t.rfw.gotV (6 * m + j) = some (((l.getD (j / 2) 0).extractLsb' (16 * (j % 2)) 16).toNat))
          ∧ ∀ j, j < 2 → Tab.look none t.rfw.gotT (2 * m + j) = some (((l.getD 3 0).extractLsb' (16 * j) 16).toInt))))
    ∧ retries .ringRequestTimeout
    ∧ (∀ x, (s.top.st.firmware = false ∨ s.clk.gt.toNat % (156250 * s.res.sweepMs) ≠ 0 ∨ s.res.ring = .down) → exec (.sweepTick x) s = .next s)
    ∧ (∀ x, s.top.st.firmware = true → s.clk.gt.toNat % (156250 * s.res.sweepMs) = 0 → s.res.ring ≠ .down →
      let tag := (s.res.tag + 1).toNat
      let all := [ringFrame 4 15 0 0 tag, ringFrame 3 15 0 (400 * (n + 3)) tag, ringFrame 5 15 0 0 tag]
      let there := (List.range n).filter fun m => (s.monitor m).reachable
      let corner (m : Nat) : Nat := if (s.monitor m).corner = 0 then 1600 else if (s.monitor m).corner = 1 then 400 else 100
      let adjacent := ∃ i, i + 1 < 6 * n ∧ s.bleeds i = true ∧ s.bleeds (i + 1) = true
      let sent := s.rfw.wire ++ (if s.res.ring = .whole then all else all ++ all)
      let keep := s.rfw.todo.filter fun p => decide (part p.2 60 4 ≠ 7)
      ∃ t reads, exec (.sweepTick x) s = .next t ∧ t.res.tag = s.res.tag + 1 ∧ t.res.sample = some x ∧ t.res.last = some x ∧ t.res.sample2 = none ∧ t.res.splitMons = []
        ∧ t.res.readback = there ∧ t.rfw.gotV = [] ∧ t.rfw.gotT = []
        ∧ (∃ b, s.res.settleUs ≤ b ∧ (∀ m, m < n → corner m ≤ b) ∧ (b = s.res.settleUs ∨ ∃ m, m < n ∧ b = corner m)
          ∧ (adjacent → t.res.settled = min 2000 (2 * b)) ∧ (¬ adjacent → t.res.settled = min 2000 b))
        ∧ reads.map Prod.fst = there
        ∧ (∀ p ∈ reads, p.2 = ringFrame 7 (if (s.monitor p.1).from0 = true then p.1 else n - 1 - p.1) 0 0 tag)
        ∧ (s.rfw.req ≠ none → t.rfw.req = s.rfw.req ∧ t.rfw.todo = reads ++ keep ∧ t.rfw.wire = sent)
        ∧ (s.rfw.req = none → match reads ++ keep with
          | [] => t.rfw.req = none ∧ t.rfw.todo = [] ∧ t.rfw.wire = sent
          | (m, g) :: r => t.rfw.req = some (g, m, 1) ∧ t.rfw.todo = r ∧ t.rfw.wire = sent ++ [g]))
    ∧ (∀ x, let missed := (List.range n).filter fun m => (s.monitor m).reachable && decide ((s.monitor m).sampled ≠ some s.res.tag)
      let split := s.res.sample.isSome = true ∧ s.res.sample2 = none ∧ missed ≠ []
      (s.res.ring ≠ .whole → ¬ split → exec (.ringBrokenDetect x) s = .next s)
      ∧ ∃ t, exec (.ringBrokenDetect x) s = .next t ∧ t.res.ring = (if s.res.ring = .whole then .broken else s.res.ring)
        ∧ t.res.enumDue = (if s.res.ring = .whole then due else s.res.enumDue)
        ∧ (split → t.res.sample2 = some x ∧ t.res.splitMons = missed ∧ t.res.splits = s.res.splits + 1
          ∧ t.rfw.wire = s.rfw.wire ++ [ringFrame 3 15 0 6000 s.res.tag.toNat] ∧ (∀ m ∈ missed, (t.monitor m).from0 = false)
          ∧ t.rfw.todo = s.rfw.todo.map fun p => if p.1 ∈ missed then (p.1, ringFrame (part p.2 60 4) (n - 1 - p.1) (part p.2 48 8) (part p.2 16 32) (part p.2 8 8)) else p)
        ∧ (¬ split → t.res.sample2 = s.res.sample2 ∧ t.res.splits = s.res.splits ∧ t.rfw = s.rfw))
    ∧ (s.top.st.firmware = false → exec .enumeration s = .next s)
    ∧ (∀ g, s.top.st.firmware = true → s.res.enumDue = some g → (s.clk.gt - g).toNat < 156250000 → exec .enumeration s = .next s)
    ∧ (∀ g, s.top.st.firmware = true → s.res.enumDue = some g → 156250000 ≤ (s.clk.gt - g).toNat →
        ∃ t, exec .enumeration s = .next t ∧ t.rfw = { s.rfw with wire := s.rfw.wire ++ [enum, enum] } ∧ t.top = s.top ∧ t.res.enumDue = none ∧ t.res.ring = s.res.ring
        ∧ ∀ m, { t.monitor m with seen0 := (s.monitor m).seen0, seen1 := (s.monitor m).seen1 } = s.monitor m ∧ (t.monitor m).seen0 = false ∧ (t.monitor m).seen1 = false)
    ∧ (s.top.st.firmware = true → s.top.busLost = false → s.res.enumDue = none → ∃ t, exec .enumeration s = .next t ∧ (s.top.st ≠ .boot → t.top = s.top)
      ∧ (s.top.st = .boot → s.top.bootStep = 4 → t.top = { s.top with bootStep := if s.res.first = false ∨ t.res.ring = .partialRing ∨ t.res.ring = .down then 6 else 5 })
      ∧ (∀ m, m < 4 → (t.monitor m).reachable = ((s.monitor m).seen0 || (s.monitor m).seen1) ∧ (t.monitor m).from0 = (s.monitor m).seen0)
      ∧ (let both (m : Nat) : Prop := (s.monitor m).seen0 = (s.monitor m).seen1
        let counts (k : Nat) : Prop := (∀ m, m < 4 → (s.monitor m).seen0 = true → (s.monitor m).hop0 < k) ∧ ∃ m, m < 4 ∧ (s.monitor m).seen0 = true ∧ (s.monitor m).hop0 + 1 = k
        let some_ := ∃ m, m < 4 ∧ ((s.monitor m).seen0 = true ∨ (s.monitor m).seen1 = true)
        let same := ∀ m, m < 4 → both m
        let covers := ∀ m, m < n → (s.monitor m).seen0 = true ∨ (s.monitor m).seen1 = true
        (¬ some_ → t.res.ring = .down) ∧ (some_ → same → counts n → t.res.ring = .whole)
        ∧ (some_ → same → ¬ counts n → t.res.ring = .down ∧ (s.err = {} → t.err.log.map (fun e => (e.kind, e.typ)) = [(0xA, 0x2E)]))
        ∧ (some_ → ¬ same → covers → t.res.ring = .broken) ∧ (some_ → ¬ same → ¬ covers → t.res.ring = .partialRing)
        ∧ (some_ → same → counts n → covers → (∀ m, m < n → ∃ l b, (s.monitor m).record = .valid l b) → t.res.ident = .own)
        ∧ (some_ → same → counts n → covers → (∀ m, m < n → (s.monitor m).record = .blank) → t.res.ident = .blank ∧ t.res.needsLearn = true))
      ∧ ((t.res.ring = .whole ∨ t.res.ring = .broken) → t.res.enumDue = none
        ∧ (t.res.convEn = true ↔ s.res.interlock = true ∧ s.res.tempOff = false ∧ s.res.unmeasured = false ∧ s.res.under = [] ∧ s.res.shutOff = false))
      ∧ ((t.res.ring = .down ∨ t.res.ring = .partialRing) → t.res.convEn = false ∧ t.res.enumDue = due))

/-- (1) R324–R328, Tables 14-3, 14-5, 14-15: a monitor forwards a request not for it with one hop fewer, and a broadcast as its type says, a
wrong CRC staying wrong (log entry 190); it counts and answers NAK to a bad CRC, a reserved TYPE or another reserved field; else it answers
READ and READBLOCK with its registers and WRITE with ACK, converts once per TAG, pauses its bleeding and resumes it, and takes its hop
index. A silent link opens its switches. (2) R326–R328, R331, R344, Table 14-4: the manager ends a request at its answer and sends the next;
unanswered, it asks again from the same end, then from the other, then gives the monitor up. A sweep numbers itself, takes its settle time
(R329), latches the stack and broadcasts; an overdue broadcast breaks the ring and splits the sweep. A change of the ring's state, and each
enumeration that leaves it partial or down, has it enumerated 1 s later; that sets RING by what ENUM reached from each end. -/
def Obligations.MonitorsAndRing : Prop :=
  Claims.Monitors ∧ Claims.RingManager

/-! ### The reservoir's estimator and its commands (R323, R332–R339, R343) -/

/-- R323, R330, R332–R335, R392: after readback each measured cell's corrected voltage starts or drives its filter, the reported state of reserve follows the current, the limits and the
ends of charge and discharge follow the voltages, cells bleed as R330 says, a cell below 2.0 V is a fault, and the converter runs only with every condition met; a cell
unmeasured for 50 ms stops it. -/
def Claims.Estimator : Prop :=
  ∀ (s : State), s.Inv → s.top.busLost = false →
    let n := match Config.variant with | .full => 24 | .light => 12
    let reserve : Rat := match Config.variant with | .full => 6000 | .light => 3000
    let volts (i : Nat) : Option Nat := Tab.look none s.rfw.gotV i
    (∀ c : Fin 24, let late := s.top.st.firmware = true ∧ c.val < n ∧ 7812500 ≤ (s.clk.gt - (s.cell c).seen).toNat ∧ s.res.unmeasured = false
      (¬ late → exec (.cellUnmeasuredTimeout c) s = .next s)
      ∧ (late → ∃ t, exec (.cellUnmeasuredTimeout c) s = .next t ∧ t.res.convEn = false ∧ t.res.mode = .off ∧ t.res.unmeasured = true ∧ t.top = s.top
        ∧ (s.err = {} → t.err.log.map (fun e => (e.kind, e.source, e.typ, e.data)) = [(0xA, 0xFF, 0x2C, [6])])))
    ∧ ((s.res.sample = none ∨ s.res.readback ≠ []) → s.top.st ≠ .boot → exec .estimatorUpdate s = .next s)
    ∧ ∀ x, s.res.sample = some x → s.res.readback = [] → ∃ t, exec .estimatorUpdate s = .next t
      ∧ t.top = (if s.top.st = .boot ∧ s.top.bootStep = 5 then { s.top with bootStep := 6 } else s.top)
      ∧ t.res.sample = none ∧ t.res.sample2 = none ∧ t.res.splitMons = [] ∧ t.res.first = false ∧ t.res.lastSweep = s.clk.gt ∧ t.res.charge = x.charge
      ∧ (let dt : Rat := ((s.clk.gt - s.res.lastSweep).toNat : Rat) * 64 / 10000000000
        let split := s.res.sample2.isSome
        let amps : Rat := if dt = 0 then 0 else ((x.charge - s.res.charge : Int) : Rat) / 1000000 / dt
        let rest := s.res.first = false ∧ -1 / 2 ≤ amps ∧ amps ≤ 1 / 2
        let raw := t.res.raw
        (∀ i, i < n → volts i = none → { t.cell i with cap := (s.cell i).cap, learned := (s.cell i).learned, bleeding := (s.cell i).bleeding } = s.cell i)
        ∧ (∀ i v, i < n → volts i = some v →
          let c := s.cell i
          let m := i / 6
          let temp := (Tab.look none s.rfw.gotT (2 * m + i % 6 / 3)).getD c.temp
          let y := if m ∈ s.res.splitMons then s.res.sample2.getD x else x
          let esr := c.esr.getD (4 * (if temp < 150 then 0 else if temp < 300 then 1 else if temp < 450 then 2 else 3) + s.sorBand) 0
          let z : Rat := (v : Rat) / 10000 - (y.milliamps.getD (s.monitor m).corner.toNat 0 : Int) / 1000 * ((esr : Rat) / 1000000)
          let a := Config.expNeg (dt / 4)
          let p11 := c.p11 + 9 / 100000000 * dt * 100
          let p12 := a * c.p12
          let p22 := a * a * c.p22 + 4 / 1000000 * dt * 100
          let w := p11 + 2 * p12 + p22 + 1 / 1000000 * (if split then 4 else 1)
          let h1 := p11 + p12
          let h2 := p12 + p22
          let e := z - c.vb - a * c.vr
          let u := t.cell i
          u.temp = temp ∧ u.seen = s.clk.gt ∧ u.z = z
          ∧ (s.res.first = true ∨ c.p11 = 0 ∧ c.p22 = 0 → u.vb = z ∧ u.vr = 0 ∧ u.p11 = 25 / 1000000 ∧ u.p22 = 25 / 1000000 ∧ u.p12 = 0)
          ∧ (s.res.first = false → ¬ (c.p11 = 0 ∧ c.p22 = 0) → u.vb = c.vb + h1 / w * e ∧ u.vr = a * c.vr + h2 / w * e
              ∧ u.p11 = p11 - h1 / w * h1 ∧ u.p12 = p12 - h1 / w * h2 ∧ u.p22 = p22 - h2 / w * h2))
        ∧ t.res.rep = (if s.res.first then raw else if amps < -1 / 2 then min s.res.rep raw else if 1 / 2 < amps then raw
            else if 1562500000 ≤ (s.clk.gt - s.res.restSince.getD s.res.lastSweep).toNat then raw else min s.res.rep raw)
        ∧ (rest → t.res.restSince = some (s.res.restSince.getD s.res.lastSweep)) ∧ (¬ rest → t.res.restSince = none))
      ∧ (let some_ (p : Cell → Prop) : Prop := ∃ i, i < n ∧ volts i ≠ none ∧ p (t.cell i)
        (t.res.zHigh = true ↔ some_ fun c => 385 / 100 ≤ c.z) ∧ (t.res.zLow = true ↔ some_ fun c => c.z ≤ 215 / 100)
        ∧ (t.res.hot = true ↔ some_ fun c => 550 ≤ c.temp) ∧ (t.res.tempOff = true ↔ some_ fun c => 650 ≤ c.temp ∨ c.temp ≤ -200)
        ∧ (∀ i, i ∈ t.res.under ↔ i < n ∧ volts i ≠ none ∧ (t.cell i).z < 2 ∨ (n ≤ i ∨ volts i = none) ∧ i ∈ s.res.under)
        ∧ (s.err = {} → ∀ i, i < n → volts i ≠ none → (t.cell i).z < 2 → i ∉ s.res.under → ∃ e ∈ t.err.log, e.kind = 0xA ∧ e.source = BitVec.ofNat 32 i ∧ e.typ = 0x2E)
        ∧ (s.res.eoc = false → (t.res.eoc = true ↔ some_ fun c => 375 / 100 ≤ c.z)) ∧ (s.res.eoc = true → (t.res.eoc = true ↔ some_ fun c => 373 / 100 < c.z))
        ∧ (s.res.eod = false → (t.res.eod = true ↔ t.res.rep ≤ reserve)) ∧ (s.res.eod = true → (t.res.eod = true ↔ t.res.rep < reserve + 200))
        ∧ t.res.chgLim = (if s.res.eoc = t.res.eoc then s.res.chgLim else if t.res.eoc then 0 else s.res.chgKeep)
        ∧ t.res.disLim = (if s.res.eod = t.res.eod then s.res.disLim else if t.res.eod then 0 else s.res.disKeep)
        ∧ (t.res.unmeasured = true ↔ s.res.unmeasured = true ∧ ∃ i, i < n ∧ volts i = none)
        ∧ (t.res.convEn = true ↔ s.res.interlock = true ∧ t.res.tempOff = false ∧ t.res.unmeasured = false ∧ t.res.under = [] ∧ s.res.shutOff = false
            ∧ (s.res.ring = .whole ∨ s.res.ring = .broken) ∧ (s.res.convEn = true ∨ ∀ i, i < n → volts i ≠ none)))
      ∧ (let bled (i : Nat) : Prop := (t.cell i).bleeding = true
        (s.res.bleedEn = false ∨ t.rfw.learn ≠ none ∨ t.res.rep < t.windowEnergy / 5 → ∀ i, i < n → ¬ bled i)
        ∧ (s.res.bleedEn = true → t.res.mode = s.res.mode → t.rfw.learn = none → t.windowEnergy / 5 ≤ t.res.rep →
          (∀ i, i < n → (∃ j, j < n ∧ 1 / 100 < (t.cell i).vb - (t.cell j).vb) ∨ (s.cell i).bleeding = true ∧ (∃ j, j < n ∧ 3 / 1000 < (t.cell i).vb - (t.cell j).vb) →
            bled i ∨ ∃ m, 6 * m < n ∧ (s.monitor m).corner = 0)
          ∧ (∀ i, i < n → bled i → (∃ j, j < n ∧ 1 / 100 < (t.cell i).vb - (t.cell j).vb)
              ∨ (s.cell i).bleeding = true ∧ (∃ j, j < n ∧ 3 / 1000 < (t.cell i).vb - (t.cell j).vb))
          ∧ ((∃ m, 6 * m < n ∧ (s.monitor m).corner = 0) → ∀ i, i + 1 < n → ¬ (bled i ∧ bled (i + 1)))))

/-- R337–R339: a rest point is a span of 30 s without current, every cell warm. It opens the commanded cycle and sets its learn target, or, once the target has been reached,
closes it; without one it closes the cycle that its predecessor opened. A swing of 192 C learns each cell's capacitance that lies in range. What Table 14-6 names
ends a commanded cycle ABORTED with its code. -/
def Claims.Learning : Prop :=
  ∀ (s : State) (x : StackSample), s.Inv → s.top.busLost = false → s.clm.watchdog = false → s.res.sample = some x → s.res.readback = [] → s.res.first = false →
    let n := match Config.variant with | .full => 24 | .light => 12
    let reserve : Rat := match Config.variant with | .full => 6000 | .light => 3000
    let volts (i : Nat) : Option Nat := Tab.look none s.rfw.gotV i
    let size (r : Rat) : Rat := if r < 0 then -r else r
    let dt : Rat := ((s.clk.gt - s.res.lastSweep).toNat : Rat) * 64 / 10000000000
    let amps : Rat := if dt = 0 then 0 else ((x.charge - s.res.charge : Int) : Rat) / 1000000 / dt
    let since := s.res.restLearn.getD (s.res.lastSweep, false)
    let gone (a : W64) : Nat := (s.clk.gt - a).toNat
    let word (a b : W64) : W64 := BitVec.ofNat 64 (b.toNat % 2 ^ 32 * 2 ^ 32 + a.toNat % 2 ^ 32)
    ∃ t, exec .estimatorUpdate s = .next t
      ∧ (let cold := ∃ i, i < n ∧ volts i ≠ none ∧ ((t.cell i).temp < 100 ∨ 450 < (t.cell i).temp)
        let still := -1 / 2 ≤ amps ∧ amps ≤ 1 / 2 ∧ ¬ cold
        let point := still ∧ since.2 = false ∧ 4687500000 ≤ gone since.1
        let here : RestPoint := { gt := s.clk.gt, charge := x.charge, vbs := (List.range n).map fun i => (t.cell i).vb }
        let late := 50 / 1000 < dt
        let split := s.res.sample2.isSome = true
        let bled := ∃ i, i < n ∧ s.bleeds i = true
        let w := t.windowEnergy
        let same (i : Nat) : Prop := (t.cell i).cap = (s.cell i).cap ∧ (t.cell i).learned = (s.cell i).learned
        (¬ still → t.res.restLearn = none) ∧ (still → ¬ point → t.res.restLearn = some since) ∧ (point → t.res.restLearn = some (since.1, true))
        ∧ (∀ l a, s.rfw.learn = some l → l.atA = some a →
          let ended (code : Nat) : Prop := t.rfw.learn = none ∧ ∀ k, l.slot = some k → (s.slotOf k).st = .outstanding →
            s.Completed t k 2 code [BitVec.ofNat 64 code, 0, 0, word a.gt 0]
          (cold → ended 1) ∧ (¬ cold → late → ended 3) ∧ (¬ cold → ¬ late → split → ended 4) ∧ (¬ cold → ¬ late → ¬ split → bled → ended 6))
        ∧ (t.res.mode = s.res.mode → ∀ l, s.rfw.learn = some l → l.atA = none →
          (¬ point → t.rfw.learn = some l)
          ∧ (point → t.rfw.learn = some { l with atA := some here, above := decide (t.res.rep < w / 2)
                                                 target := if w / 2 ≤ t.res.rep then reserve + w / 20 else w * 19 / 20 }))
        ∧ (t.res.mode = s.res.mode → ¬ cold → ¬ late → ¬ split → ¬ bled → ∀ a : RestPoint,
          let reached (l : Learn) : Prop := l.reached = true ∨ (if l.above then l.target ≤ t.res.rep else t.res.rep ≤ l.target)
          let q := (x.charge - a.charge).natAbs / 1000
          let fast := 40 * ((a.amps : Rat) + 1) < a.ampSum + size amps
          let value (i : Nat) : Rat := size (((x.charge - a.charge : Int) : Rat) / 1000000 - (gone a.gt : Rat) * 64 / 10000000000 * 2 / 10000)
            / size ((t.cell i).vb - a.vbs.getD i 0)
          let learns (i : Nat) : Prop := 150 ≤ value i ∧ value i ≤ 360
          let closes := (∃ l, s.rfw.learn = some l ∧ l.atA = some a ∧ reached l) ∨ s.rfw.learn = none ∧ s.rfw.auto = some a ∧ s.rfw.autoDq = false
          (point → closes → t.rfw.learn = none ∧ t.rfw.auto = some here ∧ t.rfw.autoDq = false ∧ (q < 192000 ∨ fast → ∀ i, i < n → same i)
            ∧ (192000 ≤ q → ¬ fast → ((∀ i, i < n → learns i) → t.res.needsLearn = false)
              ∧ ∀ i, i < n → (learns i → (t.cell i).cap = (value i * 100).floor.toNat ∧ (t.cell i).learned = true) ∧ (¬ learns i → same i)))
          ∧ (point → ∀ l k, s.rfw.learn = some l → l.atA = some a → reached l → l.slot = some k → (s.slotOf k).st = .outstanding →
            let done (status code : Nat) : Prop := ∃ v, s.Completed t k status code [BitVec.ofNat 64 code, BitVec.ofNat 64 q, v, word a.gt s.clk.gt]
            (q < 192000 → done 2 0) ∧ (192000 ≤ q → fast → done 2 2) ∧ (192000 ≤ q → ¬ fast → (∀ i, i < n → learns i) → done 0 0)
              ∧ (192000 ≤ q → ¬ fast → (∃ i, i < n ∧ ¬ learns i) → done 2 7))))

/-- R230, R339, R343: RESERVOIR_LEARN is refused while a cycle runs, with the ring not WHOLE or BROKEN, or the converter off; else it begins a cycle toward its target with
no bleeding. RESERVOIR_RESTORE is refused on a Light module, PEER_LOST where the host refuses the read (log entry 188), DENIED over a pack's own records or where a serial
differs, a FAULT where the image is not well formed; else the volatile copy is taken. -/
def Claims.ReservoirCommands : Prop :=
  ∀ (s : State) (x : Exchange) (n : Nat), s.Inv → n < 4096 → s.freeSlot = some n →
    let refused (t : State) (d : Nat) : Prop := s.Replied t 2 d 0 ∧ { t with cmd := s.cmd } = s
    let reserve : Rat := match Config.variant with | .full => 6000 | .light => 3000
    let cells := match Config.variant with | .full => 24 | .light => 12
    let w := s.windowEnergy
    (s.Passes 0x12 x [] true →
      let ok := s.rfw.learn = none ∧ (s.res.ring = .whole ∨ s.res.ring = .broken) ∧ s.res.convEn = true
      (¬ ok → ∃ t, exec (.reservoirLearn x) s = .next t ∧ refused t 9)
      ∧ (ok → ∃ t, exec (.reservoirLearn x) s = .next t ∧ s.Accepted t 0x12 n x ∧ (t.slotOf n).st = .outstanding ∧ t.rfw.auto = none
        ∧ t.rfw.learn = some { slot := some n, atA := none, reached := false, above := decide (s.res.rep < w / 2)
                               target := if w / 2 ≤ s.res.rep then reserve + w / 20 else w * 19 / 20 }
        ∧ ∀ i, i < cells → (t.cell i).bleeding = false))
    ∧ (s.Passes 0x13 x [2 ^ 48 - 1, 0xFFFF] true → ∃ t, exec (.reservoirRestore x) s = .next t
      ∧ match Config.variant with
        | .light => refused t 10
        | .full =>
          let len := (x.par.getD 1 0).toNat
          let l := Tab.readN 0 s.mem.host (x.par.getD 0 0).toNat len
          let serial (m : Nat) : W64 := BitVec.ofNat 64 (ofLe ((l.drop (8 + 8 * m)).take 8))
          let good := 64 + 992 * 4 ≤ len ∧ restoreGood l = true
          let differs := ∃ m v, m < 4 ∧ Tab.look none s.rfw.serials m = some v ∧ v ≠ serial m
          let own := s.res.ident = .own ∨ s.res.ident = .blank
          s.Accepted t 0x13 n x ∧ (x.refused = true → s.Completed t n 5 0 [] ∧ t.res = s.res) ∧ (x.refused = false → own → s.Completed t n 9 0 [] ∧ t.res = s.res)
          ∧ (x.refused = false → s.cmd.cache = [] → ¬ own → ¬ good → s.Completed t n 1 0 [] ∧ t.res = s.res)
          ∧ (x.refused = false → s.cmd.cache = [] → ¬ own → good → differs → s.Completed t n 9 0 [] ∧ t.res = s.res)
          ∧ (x.refused = false → s.cmd.cache = [] → ¬ own → good → ¬ differs → s.Completed t n 0 0 [] ∧ (t.res.ident = .host ↔ ∀ m, m < 4 → Tab.look none s.rfw.serials m ≠ none)
            ∧ (t.res.ident = .host ∨ t.res.ident = .hostUnverified)
            ∧ ∀ m j, m < 4 → j < 6 → (t.cell (6 * m + j)).cap = ofLe ((l.drop (64 + 992 * m + 0x10 + 2 * j)).take 2)))

/-- (1) R323, R330, R332–R335, R392: after readback each measured cell's corrected voltage starts or drives its filter, the reported state of
reserve follows the current, the limits and the ends of charge and discharge follow the voltages, cells bleed as R330 says, a cell below 2.0
V is a fault, and the converter runs only with every condition met; a cell unmeasured for 50 ms stops it. (2) R337–R339: a rest point is a
span of 30 s without current, every cell warm. It opens the commanded cycle and sets its learn target, or, once the target has been reached,
closes it; without one it closes the cycle that its predecessor opened. A swing of 192 C learns each cell's capacitance that lies in range.
What Table 14-6 names ends a commanded cycle ABORTED with its code. (3) R230, R339, R343: RESERVOIR_LEARN is refused while a cycle runs,
with the ring not WHOLE or BROKEN, or the converter off; else it begins a cycle toward its target with no bleeding. RESERVOIR_RESTORE is
refused on a Light module, PEER_LOST where the host refuses the read (log entry 188), DENIED over a pack's own records or where a serial
differs, a FAULT where the image is not well formed; else the volatile copy is taken. -/
def Obligations.EstimatorAndReservoir : Prop :=
  Claims.Estimator ∧ Claims.Learning ∧ Claims.ReservoirCommands

/-! ### The clusters, the windows, errors and registers (R346–R378, R382) -/

/-- R346–R355: a heartbeat and a claim are their owner's alone, counted else; a claim stands only above both, and a change of the active cluster is counted. A standby whose peer
is silent for 20,000 cc takes over with the next claim and writes the records put since the last checkpoint again; after 625,000 cc the watchdog forces Floor and nothing is
driven any more. A requester without its control rail or its link reaches no register (R20, R224). -/
def Claims.Clusters : Prop :=
  ∀ (s : State), s.Inv →
    let k (c : Clm) : State := { s with clm := c }
    let c := s.clm
    let activeB := c.claimA < c.claimB
    let age (b : Bool) : Nat := if b then c.ageB.toNat else c.ageA.toNat
    let silent (b : Bool) (n : Nat) : Prop := n ≤ age b ∧ age b < 2 ^ 32 - 1
    let active : Bool := decide activeB
    (∀ (b : Bool) (v : W32) (p : Path),
      let mine := p = if b then .aelconB else .aelconA
      (s.pathUp p = false → ∀ i ∈ [Instr.clmHbWrite b v p, .clmClaimHiWrite b v p, .clmClaimLoRead b p], exec i s = .next s)
      ∧ (s.pathUp p = true → (pathSecure p = false → exec (.clmHbWrite b v p) s = .next (k { c with secureDenied := c.secureDenied + 1 })
        ∧ exec (.clmClaimHiWrite b v p) s = .next (k { c with secureDenied := c.secureDenied + 1 }) ∧ exec (.clmClaimLoRead b p) s = .next s)
      ∧ (pathSecure p = true → exec (.clmClaimLoRead b p) s
          = .next (k (if b then { c with hiLatchB := c.claimB.extractLsb' 32 32 } else { c with hiLatchA := c.claimA.extractLsb' 32 32 })))
      ∧ (pathSecure p = true → ¬ mine → exec (.clmHbWrite b v p) s = .next (k { c with hbRefused := c.hbRefused + 1 })
        ∧ exec (.clmClaimHiWrite b v p) s = .next (k { c with claimRefused := c.claimRefused + 1 }))
      ∧ (mine → exec (.clmHbWrite b v p) s = .next (k (if b then { c with hbB := v, ageB := 0 } else { c with hbA := v, ageA := 0 })))
      ∧ (mine → let w : W64 := v ++ (if b then c.loB else c.loA)
        (¬ (c.claimA < w ∧ c.claimB < w) → exec (.clmClaimHiWrite b v p) s = .next (k { c with claimRefused := c.claimRefused + 1 }))
        ∧ (c.claimA < w → c.claimB < w → exec (.clmClaimHiWrite b v p) s = .next (k { c with
            claimA := if b then c.claimA else w, claimB := if b then w else c.claimB, switches := if active = b then c.switches else c.switches + 1 })))))
    ∧ (let lost := s.top.st.firmware = true ∧ c.watchdog = false ∧ (if active then c.deadA else c.deadB) = false ∧ silent active 20000;
      (¬ lost → exec .clusterLost s = .next s)
      ∧ (lost → (if active then c.claimB else c.claimA) ≠ BitVec.allOnes 64 → ∃ t, exec .clusterLost s = .next t
        ∧ t.clm = (if active then { c with claimA := c.claimB + 1, switches := c.switches + 1, hbA := c.hbA + 1, ageA := 0 }
            else { c with claimB := c.claimA + 1, switches := c.switches + 1, hbB := c.hbB + 1, ageB := 0 })
        ∧ (s.err = {} → t.err.log.map (fun e => (e.kind, e.source, e.typ)) = [(0xB, if active then 0 else 1, 0x30)])
        ∧ (s.cmd.link = .up → s.cmd.areaRefused = false → s.cmd.cache = [] → ∀ n ∈ s.cmd.unsaved, n < 4096 → (s.slotOf n).st = .complete → (s.slotOf n).record.length = 8 →
            Tab.readN 0 t.mem.host (s.cmd.area + 64 * n) 64 = (s.slotOf n).record.flatMap fun w => toLe 8 w.toNat)))
    ∧ (let lost := s.fwRuns = true ∧ silent (!active) 20000;
      (¬ lost → exec .standbyLost s = .next s)
      ∧ (lost → ∃ t, exec .standbyLost s = .next t ∧ t.clm = c
        ∧ (s.err = {} → t.err.log.map (fun e => (e.kind, e.source, e.typ, e.data)) = [(0xB, if active then 0 else 1, 0x2F, [BitVec.ofNat 32 (age (!active))])])))
    ∧ (let fires := s.top.st.firmware = true ∧ c.watchdog = false ∧ silent active 625000;
      (¬ fires → exec .claimWatchdog s = .next s)
      ∧ (fires → ∃ t, exec .claimWatchdog s = .next t ∧ t.clm = { c with watchdog := true } ∧ t.pow.floor = true ∧ t.pow.firmware = true ∧ t.top = s.top
        ∧ t.pow.rails = s.pow.rails ∧ t.fwRuns = false ∧ ∀ p, t.mayDrive p = false))
    ∧ exec (.clusterError false) s = .next (k { c with deadA := true }) ∧ exec (.clusterError true) s = .next (k { c with deadB := true })

/-- R362–R364: a pair is written by its owner on a secure path, and a write while an access is pending sets LOST and does nothing else. A read of IXA starts an access,
one of IXD posts a write; the answer completes it with the data or the next address, a NAK or a timeout shows in STATUS and is reported; AUTO starts the next
read at a read of IXD. -/
def Claims.Windows : Prop :=
  ∀ (s : State) (w : Window) (n : Fin 3) (p : Path), s.Inv →
    let j := match w with | .rail => 4 | .cmw => 6 | .exp => 9 | .gz => 10
    let x := s.pair j n
    let gives (c : Instr) (y : Pair) : Prop := exec c s = .next (s.setPair j n y)
    let owner := match n.val with | 0 => p = .aelconA | 1 => p = .aelconB | _ => p ∈ [.bursen, .bursenSecure, .service]
    let step := BitVec.ofNat 22 (4 * x.stride.toNat)
    let fails (c : Instr) (st : BitVec 2) : Prop := ∃ t, exec c s = .next t ∧ t.pair j n = { x with rd := false, status := st, pend := none }
      ∧ (s.err = {} → t.err.log.map (fun e => (e.typ, e.data.drop 1)) = [(6, [st.setWidth 32])])
    (∀ v : W32,
      (∀ c ∈ [Instr.ixaReadStart w n v p, .ixdWrite w n v p, .ixdRead w n p], s.pathUp p = false → exec c s = .next s)
      ∧ (∀ c ∈ [Instr.ixaReadStart w n v p, .ixdWrite w n v p], s.pathUp p = true →
        (pathSecure p = false → exec c s = .next { s with clm := { s.clm with secureDenied := s.clm.secureDenied + 1 } })
        ∧ (pathSecure p = true → ¬ owner → exec c s = .next { s with clm := { s.clm with windowDenied := s.clm.windowDenied + 1 } }))
      ∧ (s.pathUp p = true → pathSecure p = true → owner →
        (x.status = 1 → gives (.ixaReadStart w n v p) { x with lost := !v.getLsbD 29 } ∧ gives (.ixdWrite w n v p) { x with lost := true })
        ∧ (x.status ≠ 1 → gives (.ixdWrite w n v p) { x with status := 1, pend := some (some v) }
          ∧ gives (.ixaReadStart w n v p) { x with rd := true, auto := v.getLsbD 30, lost := x.lost && !v.getLsbD 29, stride := v.extractLsb' 22 4
                                                   addr := v.extractLsb' 0 22, status := 1, pend := some none })))
    ∧ (pathSecure p = false → exec (.ixdRead w n p) s = .next s)
    ∧ (s.pathUp p = true → pathSecure p = true → ¬ owner → exec (.ixdRead w n p) s = .next { s with clm := { s.clm with windowDenied := s.clm.windowDenied + 1 } })
    ∧ (pathSecure p = true → owner → (x.status ≠ 0 ∨ x.auto = false) → exec (.ixdRead w n p) s = .next s)
    ∧ (s.pathUp p = true → pathSecure p = true → owner → x.status = 0 → x.auto = true → gives (.ixdRead w n p) { x with addr := x.addr + step, rd := true, status := 1, pend := some none })
    ∧ (x.status ≠ 1 → exec (.ixTimeout w n) s = .next s) ∧ (x.status = 1 → fails (.ixTimeout w n) 3)
    ∧ (x.pend = none → ∀ v, exec (.ixTargetAnswer w n v) s = .next s)
    ∧ ∀ (v : W32), let a := x.addr.toNat
      let got (d : W32) : Prop := gives (.ixTargetAnswer w n v) { x with rd := false, status := 0, pend := none, data := d }
      (∀ u, x.pend = some (some u) → (w = .rail ∨ w = .gz ∨ w = .exp ∧ s.top.st ≠ .boot) → fails (.ixTargetAnswer w n v) 2)
      ∧ (∀ u, x.pend = some (some u) → w = .exp → s.top.st = .boot → a < 24 * 0x10000 → a % 4 = 0 → ∃ t, exec (.ixTargetAnswer w n v) s = .next t
          ∧ Tab.look none t.mem.modes a = some u ∧ t.pair j n = { x with rd := false, status := 0, pend := none, addr := x.addr + step })
      ∧ (x.pend = some none →
        (w = .gz → a < 34 * 0x1000 → a % 0x1000 < 12 → a % 4 = 0 → got v)
        ∧ (w = .exp → a < 24 * 0x10000 → a % 4 = 0 → got ((Tab.look none s.mem.modes a).getD v))
        ∧ (w = .rail → a < 13 * 0x400 → a % 0x400 < 0x200 → a % 4 = 0 → ∀ q, (s.rail (a / 0x400)).log[a % 0x400 / 8]? = some q → got (if a % 8 = 0 then q.1 else q.2)))
      ∧ (w = .cmw → a < 0x200 → s.res.ring ≠ .down →
        let m := s.monitor (a / 0x100)
        (m.reachable = false → x.pend ≠ none → exec (.ixTargetAnswer w n v) s = .next s)
        ∧ (m.reachable = true → x.pend = some none → ∃ t, exec (.ixTargetAnswer w n v) s = .next t ∧ (t.pair j n).status = 0
            ∧ (t.pair j n).data = BitVec.ofNat 32 (m.readReg (a % 0x100)).1 ∧ t.monitor (a / 0x100) = (m.readReg (a % 0x100)).2)
        ∧ (m.reachable = true → ∀ u, x.pend = some (some u) → ∃ t, exec (.ixTargetAnswer w n v) s = .next t ∧ (t.pair j n).status = 0
            ∧ (t.pair j n).addr = x.addr + step ∧ t.monitor (a / 0x100) = m.writeReg (a % 0x100) u.toNat))

/-- (1) R346–R355: a heartbeat and a claim are their owner's alone, counted else; a claim stands only above both, and a change of the active
cluster is counted. A standby whose peer is silent for 20,000 cc takes over with the next claim and writes the records put since the last
checkpoint again; after 625,000 cc the watchdog forces Floor and nothing is driven any more. A requester without its control rail or its
link reaches no register (R20, R224). (2) R362–R364: a pair is written by its owner on a secure path, and a write while an access is pending
sets LOST and does nothing else. A read of IXA starts an access, one of IXD posts a write; the answer completes it with the data or the next
address, a NAK or a timeout shows in STATUS and is reported; AUTO starts the next read at a read of IXD. -/
def Obligations.ClustersAndWindows : Prop :=
  Claims.Clusters ∧ Claims.Windows

/-- R142, R143, R145, R367–R377, R382: a report opens an entry, coalesces with a recent one of its source and type, or is held back by its source's rate; a fatal one is FAULTED.
A second's end reports what was held back. GET moves forward, at most to PUT, and the overflow it makes room for is written first. A scrub finding an uncorrectable
word marks it, repairs the row of Loam and retires the page or tile; a correctable one leaves the data; one that meets a marked word reports it again, at most once an hour.
LOCK is set. -/
def Obligations.ErrorHandling : Prop :=
  ∀ (s : State), s.Inv → s.Still →
    let types (t : State) : List (Nat × Nat) := t.err.log.map fun e => (e.kind.toNat, e.typ.toNat)
    let data (t : State) : Prop := (∀ a, s.inErrorLog a = false → Tab.look 0 t.mem.phys a = Tab.look 0 s.mem.phys a) ∧ ∀ u k, Tab.look 0 (t.tile u).silt k = Tab.look 0 (s.tile u).silt k
    let plain (y : Nat) : Prop := y ∈ [4, 5, 6, 7, 8, 9, 0xA, 0x13, 0x14, 0x15, 0x16, 0x17, 0x18, 0x23, 0x24, 0x25, 0x26, 0x27, 0x28, 0x29, 0x2A, 0x2B, 0x2C, 0x2D, 0x2E, 0x2F, 0x30, 0x31]
    let sev (y : Nat) : Nat := if y ≤ 0xA then 0 else if y < 0x18 then 2 else 1
    (∀ r : Report, (r.typ.toNat = 0 ∨ 0xA < r.typ.toNat ∧ r.typ.toNat < 0x10 ∨ 0x18 < r.typ.toNat ∧ r.typ.toNat < 0x20 ∨ 0x33 < r.typ.toNat ∧ r.typ.toNat < 0x40 ∨ 0x46 < r.typ.toNat) →
        exec (.errorReport r) s = .next s)
    ∧ (∀ r : Report, plain r.typ.toNat → s.err = {} → s.cmd.areaValid = false → ∃ t, exec (.errorReport r) s = .next t ∧ data t ∧ t.err.put = 1
      ∧ t.err.log = [{ kind := r.kind, sev := BitVec.ofNat 2 (sev r.typ.toNat), typ := r.typ, seq := 0, ctx := r.context, source := r.source, gtFirst := s.clk.gt.setWidth 32
                       gtLast := s.clk.gt.setWidth 32, first := s.clk.gt, count := 1, data := r.data }])
    ∧ (∀ (r : Report) (e : LogEntry), plain r.typ.toNat → sev r.typ.toNat ≤ 1 → s.err.log = [e] → e.kind = r.kind → e.source = r.source → e.typ = r.typ → e.seq = s.err.get →
        s.err.put = s.err.get + 1 → (s.clk.gt - e.first).toNat < 156250000 → e.count ≠ 0xFFFFFFFF → ∃ t, exec (.errorReport r) s = .next t ∧ data t ∧ t.err.put = s.err.put
          ∧ t.err.log = [{ e with count := e.count + 1, gtLast := s.clk.gt.setWidth 32 }])
    ∧ (∀ (r : Report) (q : Rate), plain r.typ.toNat → s.err.log = [] → s.err.rates = [q] → q.kind = r.kind → q.source = r.source → (s.clk.gt - q.since).toNat < 156250000 →
        (match sev r.typ.toNat with | 0 => q.corrected = 4 | 1 => q.deferred = 16 | _ => q.contained = 64) →
        ∃ t, exec (.errorReport r) s = .next t ∧ t.err.log = [] ∧ t.err.supp = s.err.supp + 1 ∧ ∃ q', t.err.rates = [q'] ∧ q'.suppressed = q.suppressed + 1
          ∧ q'.firstType = if q.suppressed = 0 then r.typ else q.firstType)
    ∧ (∀ r : Report, 0x40 ≤ r.typ.toNat → r.typ.toNat ≤ 0x46 → s.clm.watchdog = false → s.top.st ∈ [.boot, .ready, .running, .drain] →
        ∃ t, exec (.errorReport r) s = .next t ∧ Claims.Faulted s t (if r.typ = 0x45 then 0xB else if r.typ = 0x46 then 0xD else 0xA))
    ∧ ((∀ q ∈ s.err.rates, (s.clk.gt - q.since).toNat < 156250000) → exec .rateLimitSecondEnd s = .next s)
    ∧ (∀ q : Rate, s.err = { rates := [q] } → 156250000 ≤ (s.clk.gt - q.since).toNat → ∃ t, exec .rateLimitSecondEnd s = .next t ∧ t.err.rates = []
        ∧ t.err.log.map (fun e => (e.kind, e.source, e.typ, e.data)) = if q.suppressed = 0 then [] else [(q.kind, q.source, 0x32, [q.firstType.setWidth 32, BitVec.ofNat 32 q.suppressed])])
    ∧ (∀ (v : W32) (p : Path), s.pathUp p = false → exec (.errLogGetWrite v p) s = .next s ∧ exec (.policyLock p) s = .next s)
    ∧ (∀ (v : W32) (p : Path), s.pathUp p = true → let ahead := (v - s.err.get).toInt
      (ahead < 0 → exec (.errLogGetWrite v p) s = .next s)
      ∧ (0 ≤ ahead → s.err.lostNow = 0 → exec (.errLogGetWrite v p) s = .next { s with err := { s.err with
          get := if (s.err.put - s.err.get).toNat < (v - s.err.get).toNat then s.err.put else v } })
      ∧ (s.err.log = [] → s.err.lostNow ≠ 0 → s.err.put = s.err.get + 1023 → v = s.err.get + 1 → ∃ t, exec (.errLogGetWrite v p) s = .next t ∧ t.err.get = v ∧ t.err.lostNow = 0
        ∧ t.err.log.map (fun e => (e.kind, e.typ, e.data)) = [(0xD, 0x33, [BitVec.ofNat 32 s.err.lostNow, s.err.lostGt])]))
    ∧ (∀ p, s.pathUp p = true → exec (.policyLock p) s = .next (if pathSecure p then { s with trust := { s.trust with lock := true } }
        else { s with clm := { s.clm with secureDenied := s.clm.secureDenied + 1 } }))
    ∧ ∀ a, ((∀ u k, targetOf a = .silt u k → (s.tile u).siltBad = []) → exec (.patrolScrub a .clean) s = .next s)
      ∧ (∀ u k f, targetOf a = .silt u k → Tab.look false (s.tile u).siltBad (k - k % 8) = true →
          let lately := ∃ g, (a - a % 8, g) ∈ s.err.scrubbed ∧ (s.clk.gt - g).toNat < 3600 * 156250000
          (lately → exec (.patrolScrub a f) s = .next s)
          ∧ (s.err = {} → ∃ t, exec (.patrolScrub a f) s = .next t ∧ data t ∧ types t = [(0, 0x10)] ∧ (a - a % 8, s.clk.gt) ∈ t.err.scrubbed ∧ t.tiles = s.tiles))
      ∧ (targetOf a = .nowhere → ∀ f, exec (.patrolScrub a f) s = .next s)
      ∧ (∀ f, (f = .correctable ∨ f = .raced) → s.err = {} →
        (∀ b, targetOf a = .loam b → ∃ t, exec (.patrolScrub a f) s = .next t ∧ data t ∧ types t = [(4, 2)] ∧ t.mem.bad = [])
        ∧ (∀ b, targetOf a = .hbm b → s.stackUp b = true → ∃ t, exec (.patrolScrub a f) s = .next t ∧ data t ∧ types t = [(5, 3)] ∧ t.mem.bad = [])
        ∧ (∀ u k, targetOf a = .silt u k → (s.tile u).siltBad = [] → ∃ t, exec (.patrolScrub a f) s = .next t ∧ data t ∧ types t = [(0, 1)] ∧ (t.tile u).siltBad = []))
      ∧ (s.err = {} → s.mem.badPages = [] →
        (∀ b, targetOf a = .loam b → ∃ t, exec (.patrolScrub a .uncorrectable) s = .next t ∧ types t = [(4, 0x11), (4, 0x20), (4, 4)]
          ∧ Tab.look false t.mem.bad (a - a % 8) = true ∧ Tab.look false t.mem.badPages (a - a % 65536) = true)
        ∧ (∀ b, targetOf a = .hbm b → s.stackUp b = true → s.inErrorLog (a - a % 32) = false → ∃ t, exec (.patrolScrub a .uncorrectable) s = .next t ∧ types t = [(5, 0x12), (5, 0x20)]
          ∧ Tab.look false t.mem.bad (a - a % 32) = true ∧ Tab.look false t.mem.badPages (a - a % 65536) = true ∧ t.top.hbmUp = s.top.hbmUp)
        ∧ (∀ u k, targetOf a = .silt u k → (s.tile u).siltBad = [] → (s.tile u).st ≠ .retired → (s.tile u).retireDue = false → (s.tile u).resetting = false → s.ctxs = [] → s.cads = [] →
            ∃ t, exec (.patrolScrub a .uncorrectable) s = .next t ∧ types t = [(0, 0x10), (0, 0x21)] ∧ (t.tile u).retireDue = true ∧ (t.tile u).st = .reset ∧ (t.tile u).resetting = true))

/-- R12, R356–R361: a register write outside CSR space, in OFF, or where no register stands does nothing; one to a secure register on a non-secure path does nothing but
count. A register that is read and written reads as written. -/
def Obligations.RegisterWrites : Prop :=
  ∀ (s : State) (v : W32), s.Inv → s.Still →
    let at_ (off : Nat) : Nat := csrBase + off
    let block (off : Nat) : Nat := off / 0x1000000
    let place (off : Nat) : Nat := off % 0x1000000 / 4 * 4
    (∀ a p, (∀ o, targetOf a ≠ .csr o) → exec (.registerWrite a v p) s = .next s)
    ∧ (∀ a p, s.top.st = .off ∨ s.pathUp p = false → exec (.registerWrite a v p) s = .next s)
    ∧ (∀ off p, off < 0x10_0000_0000 → regHere (block off) (place off) = false → exec (.registerWrite (at_ off) v p) s = .next s)
    ∧ (s.top.st ≠ .off → ∀ off p, off < 0x10_0000_0000 → regHere (block off) (place off) = true → regSecure (block off) (place off) = true → pathSecure p = false → s.pathUp p = true →
        exec (.registerWrite (at_ off) v p) s = .next { s with clm := { s.clm with secureDenied := s.clm.secureDenied + 1 } })
    ∧ (s.top.st ≠ .off → s.cmd.link = .up → ∀ off mask, (off, mask) ∈
          ((List.range 16).map fun k => (0x7000080 + 4 * k, 0xC0000FFF)) ++ ((List.range 64).map fun k => (0x7000100 + 4 * k, 0x1FFFFFFF))
          ++ [(0xA000400, 0xFFFFFFFF), (0xE00000C, 0xFFFFFFFF), (0xE000010, 0xE000FFFF), (0x10000030, 0xFFFFFFFF), (0x1000000, 0xFFFF)]
          ++ ((List.range 64).map fun k => (0xA000804 + 0x100 * (k / 16) + 16 * (k % 16), 0xFFFFFFFF)) →
        ∃ t, exec (.registerWrite (at_ off) v .bursenSecure) s = .next t ∧ (t.csrRead off .bursenSecure (pathWho .bursenSecure)).1 &&& mask = v &&& mask
          ∧ t.tiles = s.tiles ∧ SameMemory s t ∧ t.top = s.top ∧ t.cmd = s.cmd)

/-- R203–R205: DOMAIN_JOIN is DENIED to a member or while joining; else the ports that have trained to the domain are UP and those of another domain wait in TRAINING, and once
all have trained the module asks for admission, which a neighbour of the same index makes DENIED, or with the root bit and nobody there becomes coordinator with epoch 1. The
request goes to the lowest member that the host expects, by the first port that is UP (log entry 181). DOMAIN_LEAVE is DENIED to no member; else the queues drain and the notice goes out, at the coordinator itself as
an epoch without it. -/
def Obligations.JoinAndLeave : Prop :=
  ∀ (s : State) (x : Exchange) (n : Nat), s.Inv → s.Still → n < 4096 → s.freeSlot = some n → s.gz.sent = [] → s.gz.txns = [] →
    let w (k : Nat) : Nat := (x.par.getD k 0).toNat
    let root := w 1 / 256 % 2 = 1
    let me := w 1 % 64
    let trained := ∀ p, p < 32 → (s.port p).en = true → (s.port p).st = .training → (s.port p).peerValid = true
    let there (p : Nat) : Prop := p < 32 ∧ (s.port p).peerValid = true ∧ (s.port p).peerDomain = BitVec.ofNat 32 (w 0) ∧ (s.port p).st ∈ [.training, .up]
    let someone := ∃ p, there p
    let taken := ∃ p, there p ∧ (s.port p).peerMember.toNat = me
    (s.Passes 0x10 x [2 ^ 32 - 1, 0x13F, 2 ^ 64 - 1] false → ∃ t, exec (.domainJoin x) s = .next t ∧ s.Accepted t 0x10 n x
      ∧ (s.gz.joined = true ∨ s.gz.joining ≠ none → s.Completed t n 9 0 [] ∧ t.gz = s.gz)
      ∧ (s.gz.joined = false → s.gz.joining = none → t.gz.domain = BitVec.ofNat 32 (w 0) ∧ t.gz.me.toNat = me
        ∧ (∀ p, there p → (t.port p).st = .up)
        ∧ (∀ p, p < 32 → (s.port p).peerValid = true → (s.port p).st = .up → (s.port p).peerDomain ≠ BitVec.ofNat 32 (w 0) → (t.port p).st = .training)
        ∧ (¬ trained → t.gz.joining = some n ∧ t.gz.memberSent = s.gz.memberSent ∧ (t.slotOf n).st = .outstanding)
        ∧ (trained → taken → t.gz.joining = none ∧ t.gz.joined = false ∧ t.gz.memberSent = s.gz.memberSent ∧ s.Completed t n 9 0 [])
        ∧ (trained → someone → ¬ taken → t.gz.joining = some n ∧ t.gz.joinAsked = true ∧ t.gz.memberSent = s.gz.memberSent ++ [.admission t.gz.me.toFin]
          ∧ ∀ p d, there p → (∀ q, q < p → ¬ there q) → d < 64 → d ≠ me → (w 2).testBit d = true → (∀ e, e < d → (w 2).testBit e = true → e = me) →
              ∃ k ∈ (t.port p).holds, k.typ = 0x30 ∧ k.cls = 3 ∧ k.dst.toNat = d)
        ∧ (trained → ¬ someone → ¬ root → t.gz.joining = some n ∧ t.gz.joined = false ∧ t.gz.memberSent = s.gz.memberSent)
        ∧ (trained → ¬ someone → root → t.gz.joined = true ∧ t.gz.coord = true ∧ t.gz.epoch = 1 ∧ t.gz.members = BitVec.ofNat 64 (2 ^ me) ∧ t.gz.joining = none
          ∧ t.clk.root = true ∧ s.Completed t n 0 0 [BitVec.ofNat 64 (2 ^ me), 1])))
    ∧ (s.Passes 0x11 x [] false → ∃ t, exec (.domainLeave x) s = .next t ∧ s.Accepted t 0x11 n x
      ∧ (s.gz.joined = false ∨ s.gz.leaving ≠ none → s.Completed t n 9 0 [] ∧ t.gz = s.gz)
      ∧ (s.gz.joined = true → s.gz.leaving = none → s.gz.leaveSent = false → s.gz.fq = [] →
        let rest := s.gz.members &&& ~~~ (BitVec.ofNat 64 (2 ^ s.gz.me.toNat))
        (s.gz.coord = false → t.gz.leaving = some n ∧ t.gz.memberSent = s.gz.memberSent ++ [.leave s.gz.me.toFin] ∧ (t.slotOf n).st = .outstanding)
        ∧ (s.gz.coord = true → t.gz.joined = false ∧ t.gz.memberSent = s.gz.memberSent ++ [.epoch s.gz.me.toFin (s.gz.epoch + 1) rest] ∧ t.gz.routes = [] ∧ t.gz.exports = []
          ∧ s.Completed t n 0 0 [(s.gz.epoch + 1).setWidth 64])))

/-! ### The whole machine -/

/-- No command stops: each of the table's, with whatever operands, answers a next state in every state. Beside it the effects of four that firmware's service of the fault
queues needs. R158, R159: the first held record of a requester other than an engine, in a queue with none posted, is posted under the next SEQ, and PUT advances. R159: a secure write of
MMU_FQ_GET moves GET. R159, R162, R165: the scan of a queue with one record, of an absent page of a demand-filled region, begins its fill with a free page of the region and leaves
the record posted. R163: 100 µs after a refusal, and not before, the context's end is due, and one that no other stop holds begins it with the refused record. -/
def Obligations.EveryCommandCompletes : Prop :=
  (∀ (c : Instr) (s : State), ∃ t, exec c s = .next t)
  ∧ (∀ (s : State) (b : Fin 4) (r : FaultRecord) (l : List FaultRecord) (base : Nat), s.Inv → Tab.look [] s.mmu.held b = r :: l → (∀ t e, r.who ≠ .engine t e) →
      Tab.look [] s.mmu.posted b = [] → s.reserve b = some base → s.here base → ∃ u, exec (.faultRecordPost b 0) s = .next u
        ∧ Tab.look [] u.mmu.posted b = [{ r with gtLow := s.clk.gt.setWidth 32, seq := Tab.look 0 s.mmu.fqSeq b }] ∧ Tab.look [] u.mmu.held b = l
        ∧ Tab.look 0 u.mmu.fqPut b = Tab.look 0 s.mmu.fqPut b + 1 ∧ Tab.look 0 u.mmu.fqSeq b = Tab.look 0 s.mmu.fqSeq b + 1)
  ∧ (∀ (s : State) (b : Fin 4) (v : W32) (p : Path), s.Inv → s.pathUp p = true → pathSecure p = true → ∃ u, exec (.mmuFqGetWrite b v p) s = .next u
      ∧ Tab.look 0 u.mmu.fqGet b = v.setWidth 11 ∧ { u with mmu := s.mmu } = s
      ∧ Tab.look [] u.mmu.posted b = (Tab.look [] s.mmu.posted b).drop (v.setWidth 11 - Tab.look 0 s.mmu.fqGet b).toNat)
  ∧ (∀ (s : State) (b t p : Nat) (r : FaultRecord) (g : Region), s.Inv → s.Calm 1024 → s.top.st.serves = true → b < 4 → Tab.look [] s.mmu.posted b = [r] →
      (∀ d, d ≠ b → Tab.look [] s.mmu.posted d = []) → Tab.look [] s.mmu.answered b = [] → s.mmu.fills = [] →
      let x := s.ctx r.ctx
      let page := r.va.toNat / 65536 * 65536
      r.kind = 0 → r.who = .slot3 t → s.ctxHasTile r.ctx t = true → x.st = .running → x.refusal = none → x.demandRegion r.va.toNat = some g → x.present page = false →
      x.pool.find? (fun q => decide (q.1 = g.va) && !Tab.look false s.mem.badPages q.2) = some (g.va, p) →
      ∃ u, exec .faultQueueScan s = .next u ∧ Tab.look [] u.mmu.posted b = [r] ∧ (u.ctx r.ctx).pool = x.pool.filter (fun q => decide (q.2 ≠ p))
        ∧ ∃ f, u.mmu.fills = [f] ∧ f.ctx = r.ctx ∧ f.va = page ∧ f.page = p ∧ f.host = g.host + (page - g.va))
  ∧ (∀ (s : State) (c : Fin 16) (r : FaultRecord) (g : W64), s.Inv → (s.ctx c).refusal = some (r, g) → (s.ctx c).due = none → (s.ctx c).ending = none →
      ((s.clk.gt - g).toNat < 15625 → exec (.contextRefusalStop c) s = .next s)
      ∧ (15625 ≤ (s.clk.gt - g).toNat → (∀ d, d ≠ c.val → s.ctx d = {}) → s.cads = [] → (s.ctx c).st = .running → (s.ctx c).saveSlot = none →
          (s.ctx c).stopping = false → (s.ctx c).stopDue = false → (s.ctx c).released = false → (∃ t ∈ (s.ctx c).tiles, (s.tile t).st ≠ .retired) →
          ∃ u, exec (.contextRefusalStop c) s = .next u ∧ (u.ctx c).ending = some r.words ∧ (u.ctx c).due = none))

/-- The model's own (log entry 2): the command at the front of the queue is run on the state with the queue's rest; with none waiting, one tick of global
time passes: GT advances by one but for a withheld tick, a tile clock by 16 cycles, 4 in Floor, the heartbeat ages by 4, saturating. Firmware then writes the reports that wait,
each handle completing OK with the bytes written, or PEER_LOST with none where the link is not UP or the host refuses (log entry 186). -/
def Obligations.StepRunsFront : Prop :=
  (∀ (s : State) (c : Instr) (rest : List Instr), s.pending = c :: rest → step s = exec c { s with pending := rest })
  ∧ ∀ (s : State), s.pending = [] →
    let age (a : W32) : W32 := BitVec.ofNat 32 (min (a.toNat + 4) (2 ^ 32 - 1))
    (s.clk.locked = false → step s = .next s)
    ∧ (s.clk.locked = true →
      let u : State := { s with
        clk := { s.clk with gt := if s.clk.withhold then s.clk.gt else s.clk.gt + 1, withhold := false
                            tileCycles := s.clk.tileCycles + (if s.pow.floor then 4 else 16) }
        clm := { s.clm with ageA := age s.clm.ageA, ageB := age s.clm.ageB } }
      (s.cmd.reports = [] → step s = .next u)
      ∧ ∃ t, step s = .next t ∧ t.clk = u.clk ∧ t.clm = u.clm ∧ t.tiles = s.tiles ∧ t.top = s.top ∧ t.cmd.reports = []
        ∧ ∀ r ∈ s.cmd.reports, (s.slotOf r.slot).st = .outstanding → s.clm.watchdog = false → (∀ q ∈ s.cmd.reports, q.slot = r.slot → q = r) →
          let goes := s.cmd.link = .up ∧ r.refused = false
          (goes → u.Completed t r.slot 0 0 [BitVec.ofNat 64 r.bytes.length]) ∧ (¬ goes → u.Completed t r.slot 5 0 [0])
          ∧ (goes → s.cmd.reports = [r] → s.cmd.cache = [] → r.buf + r.bytes.length ≤ 2 ^ 48 → ∀ k, k < r.bytes.length →
              (∀ j, j < 64 → r.buf + k ≠ s.cmd.area + 64 * r.slot + j) → Tab.look 0 t.mem.host (r.buf + k) = r.bytes.getD k 0))

/-- R13, R24, R60, R236, R305, R348: the values the spec gives for reset: HELD reached from OFF with no cause, GT at zero and not locked, no claim and no heartbeat yet, every tile in
RESET at its boundary values, every port, mover, context, cadence and slot unused, the envelope and the governors at their defaults, nothing logged. -/
def Obligations.ResetValues : Prop :=
  let s := State.reset
  s.pending = [] ∧ s.topState = BitVec.ofNat 32 (variantCode Config.variant * 2 ^ 15 + 1) ∧ s.clk.gt = 0 ∧ s.clk.locked = false
  ∧ (s.clm.claimA = 0 ∧ s.clm.claimB = 0 ∧ s.clm.ageA = 0xFFFFFFFF ∧ s.clm.ageB = 0xFFFFFFFF ∧ s.clm.watchdog = false)
  ∧ (∀ t, (s.tile t).st = .reset ∧ (s.tile t).sys.tstatus = 0x11 ∧ (s.tile t).sys.vl = 64 ∧ (s.tile t).sys.ttimer = BitVec.allOnes 64 ∧ ∀ n, (s.tile t).getS n = 0)
  ∧ (∀ p, (s.port p).st = .disabled ∧ (s.port p).en = false) ∧ (∀ b m, (s.mover b m).en = false ∧ (s.mover b m).st = .disabled) ∧ (∀ c, (s.ctx c).st = .unloaded)
  ∧ (∀ k, (s.cad k).st = .disarmed) ∧ (∀ n, (s.slotOf n).st = .free ∧ (s.slotOf n).gen = 0) ∧ s.gz.joined = false ∧ s.cmd.areaValid = false
  ∧ (s.pow.level = 256 ∧ s.pow.up = 8 ∧ s.pow.down = 8 ∧ s.pow.floor = false ∧ s.pow.stored = { floor := 0, ceiling := 2000, slope := 200 } ∧ ∀ t, (s.gov t).ceil = 256)
  ∧ s.err = {} ∧ s.trust.unsignedPriv = 7 ∧ s.trust.lock = false ∧ s.mem.phys = []

/-- The model's own: the state after reset meets the invariant. -/
def Obligations.ResetMeetsInvariant : Prop := State.reset.Inv

/-- The model's own: whatever command waits, and at every tick, a step from a state whose memories, register files and parts are in canonical form leaves them so, and
there are thirteen rails. -/
def Obligations.StepKeepsInvariant : Prop := ∀ s t : State, s.Inv → step s = .next t → t.Inv
end

