-- ==== Sys2Proof/Laws/Fields.lean ====
section
/-!
SUPPORT. The fields of a syllable built from its header and its operand field (Tables 3-1 and 3-3).
-/

namespace Sys2Proof.Machine

theorem syllable_toNat {kind op : Nat} (hk : kind < 16) (ho : op < 256) (g : BitVec 4) (f : BitVec 48) :
    (syllable kind op g f).toNat = kind * 2 ^ 60 + op * 2 ^ 52 + g.toNat * 2 ^ 48 + f.toNat := by
  have := g.isLt; have := f.isLt
  simp only [syllable, BitVec.toNat_ofNat]
  omega

theorem sKind_syllable {kind op : Nat} (hk : kind < 16) (ho : op < 256) (g : BitVec 4) (f : BitVec 48) :
    sKind (syllable kind op g f) = kind := by
  have := g.isLt; have := f.isLt
  simp only [sKind, wf, fld, syllable_toNat hk ho]; omega

theorem sOp_syllable {kind op : Nat} (hk : kind < 16) (ho : op < 256) (g : BitVec 4) (f : BitVec 48) :
    sOp (syllable kind op g f) = op := by
  have := g.isLt; have := f.isLt
  simp only [sOp, wf, fld, syllable_toNat hk ho]; omega

theorem sGuard_syllable {kind op : Nat} (hk : kind < 16) (ho : op < 256) (g : BitVec 4) (f : BitVec 48) :
    sGuard (syllable kind op g f) = g.toNat := by
  have := g.isLt; have := f.isLt
  simp only [sGuard, wf, fld, syllable_toNat hk ho]; omega

/-- A field within the operand field is that of the operand field. -/
theorem wf_syllable {kind op : Nat} (hk : kind < 16) (ho : op < 256) (g : BitVec 4) (f : BitVec 48) (lo n : Nat) (h : lo + n ≤ 48) :
    wf (syllable kind op g f) lo n = (f.extractLsb' lo n).toNat := by
  have e : kind * 2 ^ 60 + op * 2 ^ 52 + g.toNat * 2 ^ 48 + f.toNat
      = f.toNat + 2 ^ lo * (2 ^ n * (2 ^ (48 - lo - n) * (kind * 2 ^ 12 + op * 2 ^ 4 + g.toNat))) := by
    have h1 : 2 ^ lo * (2 ^ n * (2 ^ (48 - lo - n) * (kind * 2 ^ 12 + op * 2 ^ 4 + g.toNat)))
        = 2 ^ (lo + n + (48 - lo - n)) * (kind * 2 ^ 12 + op * 2 ^ 4 + g.toNat) := by
      rw [Nat.pow_add, Nat.pow_add]; ac_rfl
    rw [h1, show lo + n + (48 - lo - n) = 48 by omega]; omega
  simp only [wf, fld, syllable_toNat hk ho, BitVec.extractLsb'_toNat, Nat.shiftRight_eq_div_pow]
  rw [e, Nat.add_mul_div_left _ _ (Nat.two_pow_pos lo), Nat.add_mul_mod_self_left]

theorem fRD_syllable {kind op : Nat} (hk : kind < 16) (ho : op < 256) (g : BitVec 4) (f : BitVec 48) :
    fRD (syllable kind op g f) = opRD f := wf_syllable hk ho g f 42 6 (by decide)
theorem fRA_syllable {kind op : Nat} (hk : kind < 16) (ho : op < 256) (g : BitVec 4) (f : BitVec 48) :
    fRA (syllable kind op g f) = opRA f := wf_syllable hk ho g f 36 6 (by decide)
theorem fRB_syllable {kind op : Nat} (hk : kind < 16) (ho : op < 256) (g : BitVec 4) (f : BitVec 48) :
    fRB (syllable kind op g f) = opRB f := wf_syllable hk ho g f 30 6 (by decide)
theorem fImm_syllable {kind op : Nat} (hk : kind < 16) (ho : op < 256) (g : BitVec 4) (f : BitVec 48) :
    fImm (syllable kind op g f) = (f.extractLsb' 0 32).toNat := wf_syllable hk ho g f 0 32 (by decide)

/-- A 32-bit value read as a two's-complement number and widened is its sign extension. -/
theorem ofInt_sx32 (v : BitVec 32) : BitVec.ofInt 64 (sx 32 v.toNat) = v.signExtend 64 := by
  unfold BitVec.signExtend
  congr 1
  have h := v.isLt
  rw [BitVec.toInt_eq_toNat_cond]
  unfold sx
  have : v.toNat % 2 ^ 32 = v.toNat := Nat.mod_eq_of_lt h
  rw [this]
  split <;> split <;> omega

theorem fImmS_syllable {kind op : Nat} (hk : kind < 16) (ho : op < 256) (g : BitVec 4) (f : BitVec 48) :
    fImmS (syllable kind op g f) = opImm f := by
  unfold fImmS
  rw [fImm_syllable hk ho, ofInt_sx32]
  rfl

end Sys2Proof.Machine
end

