-- ==== Sys2Proof/Laws/Tab.lean ====
section
/-!
SUPPORT. The laws of sparse maps: what a write reads back as, what it leaves alone, and that every operation keeps the canonical form.
-/

namespace Sys2Proof

variable {α : Type} [DecidableEq α] (d : α)

theorem Tab.wfFrom_mono {lo lo' : Nat} {m : Tab α} (h : Tab.wfFrom d lo m = true) (hl : lo' ≤ lo) : Tab.wfFrom d lo' m = true := by
  cases m with
  | nil => rfl
  | cons p r =>
    obtain ⟨k, v⟩ := p
    simp only [Tab.wfFrom, Bool.and_eq_true, decide_eq_true_eq] at h ⊢
    exact ⟨⟨by omega, h.1.2⟩, h.2⟩

/-- A key below the first bound of a canonical map reads as the unlisted value. -/
theorem Tab.look_below {lo k : Nat} {m : Tab α} (h : Tab.wfFrom d lo m = true) (hk : k < lo) : Tab.look d m k = d := by
  induction m generalizing lo with
  | nil => rfl
  | cons p r ih =>
    obtain ⟨j, v⟩ := p
    simp only [Tab.wfFrom, Bool.and_eq_true, decide_eq_true_eq] at h
    rw [Tab.look, if_neg (by omega)]
    exact ih h.2 (by omega)

omit [DecidableEq α] in
@[simp] theorem Tab.look_nil (k : Nat) : Tab.look d ([] : Tab α) k = d := rfl

/-- Reading after a write, in a canonical map: the value written at its key, every other key as before. -/
theorem Tab.look_put {lo : Nat} {m : Tab α} (h : Tab.wfFrom d lo m = true) (k : Nat) (v : α) (j : Nat) :
    Tab.look d (Tab.put d m k v) j = if j = k then v else Tab.look d m j := by
  induction m generalizing lo with
  | nil =>
    simp only [Tab.put]
    split <;> split <;> simp_all [Tab.look]
    omega
  | cons p r ih =>
    obtain ⟨i, u⟩ := p
    simp only [Tab.wfFrom, Bool.and_eq_true, decide_eq_true_eq] at h
    obtain ⟨⟨h1, h2⟩, h3⟩ := h
    simp only [Tab.put]
    by_cases hki : k < i
    · rw [if_pos hki]
      by_cases hv : v = d
      · rw [if_pos hv]
        by_cases hj : j = k
        · subst hj; subst hv
          rw [if_pos rfl, Tab.look, if_neg (by omega)]
          exact Tab.look_below _ h3 (by omega)
        · rw [if_neg hj]
      · rw [if_neg hv, Tab.look]
        by_cases hj : j = k
        · rw [if_pos hj.symm, if_pos hj]
        · rw [if_neg (Ne.symm hj), if_neg hj]
    · rw [if_neg hki]
      by_cases hk : k = i
      · rw [if_pos hk]
        by_cases hv : v = d
        · rw [if_pos hv]
          by_cases hj : j = k
          · rw [if_pos hj, hv]
            exact Tab.look_below _ h3 (by omega)
          · rw [if_neg hj, Tab.look, if_neg (by omega)]
        · rw [if_neg hv, Tab.look]
          by_cases hj : j = k
          · rw [if_pos hj.symm, if_pos hj]
          · rw [if_neg (Ne.symm hj), if_neg hj, Tab.look, if_neg (by omega)]
      · rw [if_neg hk, Tab.look, Tab.look]
        by_cases hij : i = j
        · rw [if_pos hij, if_pos hij, if_neg (by omega)]
        · rw [if_neg hij, if_neg hij]; exact ih h3

/-- Reading back the key just written needs no canonical form, unless the unlisted value is written. -/
theorem Tab.look_put_self {m : Tab α} (hm : Tab.wf d m = true) (k : Nat) (v : α) : Tab.look d (Tab.put d m k v) k = v := by
  rw [Tab.look_put d hm]; simp

theorem Tab.look_put_ne {m : Tab α} (hm : Tab.wf d m = true) {k j : Nat} (h : j ≠ k) (v : α) :
    Tab.look d (Tab.put d m k v) j = Tab.look d m j := by
  rw [Tab.look_put d hm]; simp [h]

theorem Tab.put_wfFrom {lo : Nat} {m : Tab α} (h : Tab.wfFrom d lo m = true) (k : Nat) (hk : lo ≤ k) (v : α) :
    Tab.wfFrom d lo (Tab.put d m k v) = true := by
  induction m generalizing lo with
  | nil =>
    simp only [Tab.put]
    split
    · rfl
    · simp [Tab.wfFrom, *]
  | cons p r ih =>
    obtain ⟨i, u⟩ := p
    have h' := h
    simp only [Tab.wfFrom, Bool.and_eq_true, decide_eq_true_eq] at h
    obtain ⟨⟨h1, h2⟩, h3⟩ := h
    simp only [Tab.put]
    by_cases hki : k < i
    · rw [if_pos hki]
      by_cases hv : v = d
      · rw [if_pos hv]; exact h'
      · rw [if_neg hv]
        simp only [Tab.wfFrom, Bool.and_eq_true, decide_eq_true_eq]
        exact ⟨⟨hk, hv⟩, ⟨by omega, h2⟩, h3⟩
    · rw [if_neg hki]
      by_cases hk' : k = i
      · rw [if_pos hk']
        by_cases hv : v = d
        · rw [if_pos hv]; exact Tab.wfFrom_mono d h3 (by omega)
        · rw [if_neg hv]
          simp only [Tab.wfFrom, Bool.and_eq_true, decide_eq_true_eq]
          subst hk'
          exact ⟨⟨hk, hv⟩, h3⟩
      · rw [if_neg hk']
        simp only [Tab.wfFrom, Bool.and_eq_true, decide_eq_true_eq]
        exact ⟨⟨h1, h2⟩, ih h3 (by omega)⟩

/-- A write keeps the canonical form. -/
theorem Tab.put_wf {m : Tab α} (h : Tab.wf d m = true) (k : Nat) (v : α) : Tab.wf d (Tab.put d m k v) = true :=
  Tab.put_wfFrom d h k (Nat.zero_le _) v

/-- Writing a run of values keeps the canonical form. -/
theorem Tab.writeN_wf {m : Tab α} (h : Tab.wf d m = true) (k : Nat) (l : List α) : Tab.wf d (Tab.writeN d m k l) = true := by
  induction l generalizing m k with
  | nil => exact h
  | cons v r ih => exact ih (Tab.put_wf d h k v) (k + 1)

/-- A fold of writes keeps the canonical form. -/
theorem Tab.foldl_put_wf {β : Type} {m : Tab α} (h : Tab.wf d m = true) (l : List β) (key : β → Nat) (val : Tab α → β → α) :
    Tab.wf d (l.foldl (fun m b => Tab.put d m (key b) (val m b)) m) = true := by
  induction l generalizing m with
  | nil => exact h
  | cons b r ih => exact ih (Tab.put_wf d h (key b) _)

/-- What a run of written values reads as: inside the run its value, outside it as before. -/
theorem Tab.look_writeN {m : Tab α} (h : Tab.wf d m = true) (k : Nat) (l : List α) (j : Nat) :
    Tab.look d (Tab.writeN d m k l) j = if k ≤ j ∧ j < k + l.length then l.getD (j - k) d else Tab.look d m j := by
  induction l generalizing m k with
  | nil => rw [if_neg (fun q => by have := q.2; simp only [List.length_nil] at this; omega)]; rfl
  | cons v r ih =>
    rw [Tab.writeN, ih (Tab.put_wf d h k v) (k + 1), Tab.look_put d h]
    simp only [List.length_cons]
    by_cases h1 : j = k
    · subst h1; rw [if_neg (by omega), if_pos rfl, if_pos (by omega), Nat.sub_self]; rfl
    · by_cases h2 : k + 1 ≤ j ∧ j < k + 1 + r.length
      · rw [if_pos h2, if_pos (by omega)]
        have : j - k = (j - (k + 1)) + 1 := by omega
        rw [this]; simp
      · rw [if_neg h2, if_neg h1, if_neg (by omega)]

theorem Tab.wfFrom_mapAll {lo : Nat} {m : Tab α} (h : Tab.wfFrom d lo m = true) (f : Nat → α → α) :
    Tab.wfFrom d lo (Tab.mapAll d f m) = true := by
  induction m generalizing lo with
  | nil => rfl
  | cons p r ih =>
    obtain ⟨k, v⟩ := p
    simp only [Tab.wfFrom, Bool.and_eq_true, decide_eq_true_eq] at h
    simp only [Tab.mapAll]
    split
    · exact Tab.wfFrom_mono d (ih h.2) (by omega)
    · simp only [Tab.wfFrom, Bool.and_eq_true, decide_eq_true_eq]
      exact ⟨⟨h.1.1, by assumption⟩, ih h.2⟩

/-- Changing every listed value keeps the canonical form. -/
theorem Tab.mapAll_wf {m : Tab α} (h : Tab.wf d m = true) (f : Nat → α → α) : Tab.wf d (Tab.mapAll d f m) = true :=
  Tab.wfFrom_mapAll d h f

/-- Keeping some of the entries keeps the canonical form. -/
theorem Tab.wfFrom_filter {lo : Nat} {m : Tab α} (h : Tab.wfFrom d lo m = true) (f : Nat × α → Bool) :
    Tab.wfFrom d lo (m.filter f) = true := by
  induction m generalizing lo with
  | nil => rfl
  | cons p r ih =>
    obtain ⟨k, v⟩ := p
    simp only [Tab.wfFrom, Bool.and_eq_true, decide_eq_true_eq] at h
    rw [List.filter_cons]
    split
    · simp only [Tab.wfFrom, Bool.and_eq_true, decide_eq_true_eq]
      exact ⟨h.1, ih h.2⟩
    · exact Tab.wfFrom_mono d (ih h.2) (by omega)

theorem Tab.filter_wf {m : Tab α} (h : Tab.wf d m = true) (f : Nat × α → Bool) : Tab.wf d (m.filter f) = true :=
  Tab.wfFrom_filter d h f

/-! ### Equal contents are equal data -/

theorem Tab.extFrom {lo : Nat} {m m' : Tab α} (h : Tab.wfFrom d lo m = true) (h' : Tab.wfFrom d lo m' = true)
    (he : ∀ k, Tab.look d m k = Tab.look d m' k) : m = m' := by
  induction m generalizing lo m' with
  | nil =>
    cases m' with
    | nil => rfl
    | cons p r =>
      obtain ⟨j, u⟩ := p
      have e := he j
      simp only [Tab.wfFrom, Bool.and_eq_true, decide_eq_true_eq] at h'
      simp only [Tab.look, if_true] at e
      exact absurd e.symm h'.1.2
  | cons p r ih =>
    obtain ⟨i, v⟩ := p
    simp only [Tab.wfFrom, Bool.and_eq_true, decide_eq_true_eq] at h
    cases m' with
    | nil =>
      have e := he i
      simp only [Tab.look, if_true] at e
      exact absurd e h.1.2
    | cons p' r' =>
      obtain ⟨j, u⟩ := p'
      simp only [Tab.wfFrom, Bool.and_eq_true, decide_eq_true_eq] at h'
      have hij : i = j := by
        refine Decidable.byContradiction fun hne => ?_
        rcases Nat.lt_or_gt_of_ne hne with hl | hl
        · have e := he i
          rw [Tab.look, if_pos rfl, Tab.look, if_neg (by omega), Tab.look_below d h'.2 (by omega)] at e
          exact h.1.2 e
        · have e := he j
          rw [Tab.look, if_neg (by omega), Tab.look, if_pos rfl, Tab.look_below d h.2 (by omega)] at e
          exact h'.1.2 e.symm
      subst hij
      have hv : v = u := by
        have e := he i
        simpa [Tab.look] using e
      subst hv
      have hr : r = r' := by
        apply ih h.2 h'.2
        intro k
        by_cases hk : k = i
        · subst hk
          rw [Tab.look_below d h.2 (by omega), Tab.look_below d h'.2 (by omega)]
        · have e := he k
          rwa [Tab.look, Tab.look, if_neg (by omega), if_neg (by omega)] at e
      rw [hr]

theorem Tab.ext {m m' : Tab α} (h : Tab.wf d m = true) (h' : Tab.wf d m' = true) (he : ∀ k, Tab.look d m k = Tab.look d m' k) :
    m = m' := Tab.extFrom d h h' he

/-- The last of two writes to one key stands. -/
theorem Tab.put_put {m : Tab α} (h : Tab.wf d m = true) (k : Nat) (v w : α) :
    Tab.put d (Tab.put d m k v) k w = Tab.put d m k w := by
  apply Tab.ext d (Tab.put_wf d (Tab.put_wf d h k v) k w) (Tab.put_wf d h k w)
  intro j
  rw [Tab.look_put d (Tab.put_wf d h k v), Tab.look_put d h, Tab.look_put d h]
  split <;> rfl

/-- Writing what a key reads as changes nothing. -/
theorem Tab.put_look {m : Tab α} (h : Tab.wf d m = true) (k : Nat) : Tab.put d m k (Tab.look d m k) = m := by
  apply Tab.ext d (Tab.put_wf d h k _) h
  intro j
  rw [Tab.look_put d h]
  split <;> simp_all

/-- Writes to two keys commute. -/
theorem Tab.put_comm {m : Tab α} (h : Tab.wf d m = true) {j k : Nat} (hne : j ≠ k) (v w : α) :
    Tab.put d (Tab.put d m j v) k w = Tab.put d (Tab.put d m k w) j v := by
  apply Tab.ext d (Tab.put_wf d (Tab.put_wf d h j v) k w) (Tab.put_wf d (Tab.put_wf d h k w) j v)
  intro i
  rw [Tab.look_put d (Tab.put_wf d h j v), Tab.look_put d h, Tab.look_put d (Tab.put_wf d h k w), Tab.look_put d h]
  by_cases h1 : i = k
  · subst h1; simp [Ne.symm hne]
  · simp [h1]

end Sys2Proof
end

