-- ==== Sys2Proof/Laws/State.lean ====
section
/-!
SUPPORT. What each named update of the state leaves alone, and what reading a part after its update gives.
-/

namespace Sys2Proof.Machine

/-! ### `State.setTile` -/

@[simp] theorem State.setTile_pending (s : State) (t : Nat) (x : Tile) : (s.setTile t x).pending = s.pending := rfl
@[simp] theorem State.setTile_top (s : State) (t : Nat) (x : Tile) : (s.setTile t x).top = s.top := rfl
@[simp] theorem State.setTile_clk (s : State) (t : Nat) (x : Tile) : (s.setTile t x).clk = s.clk := rfl
@[simp] theorem State.setTile_mem (s : State) (t : Nat) (x : Tile) : (s.setTile t x).mem = s.mem := rfl
@[simp] theorem State.setTile_mmu (s : State) (t : Nat) (x : Tile) : (s.setTile t x).mmu = s.mmu := rfl
@[simp] theorem State.setTile_eng (s : State) (t : Nat) (x : Tile) : (s.setTile t x).eng = s.eng := rfl
@[simp] theorem State.setTile_gz (s : State) (t : Nat) (x : Tile) : (s.setTile t x).gz = s.gz := rfl
@[simp] theorem State.setTile_cmd (s : State) (t : Nat) (x : Tile) : (s.setTile t x).cmd = s.cmd := rfl
@[simp] theorem State.setTile_ctxs (s : State) (t : Nat) (x : Tile) : (s.setTile t x).ctxs = s.ctxs := rfl
@[simp] theorem State.setTile_cads (s : State) (t : Nat) (x : Tile) : (s.setTile t x).cads = s.cads := rfl
@[simp] theorem State.setTile_pow (s : State) (t : Nat) (x : Tile) : (s.setTile t x).pow = s.pow := rfl
@[simp] theorem State.setTile_gvn (s : State) (t : Nat) (x : Tile) : (s.setTile t x).gvn = s.gvn := rfl
@[simp] theorem State.setTile_res (s : State) (t : Nat) (x : Tile) : (s.setTile t x).res = s.res := rfl
@[simp] theorem State.setTile_rfw (s : State) (t : Nat) (x : Tile) : (s.setTile t x).rfw = s.rfw := rfl
@[simp] theorem State.setTile_clm (s : State) (t : Nat) (x : Tile) : (s.setTile t x).clm = s.clm := rfl
@[simp] theorem State.setTile_pairs (s : State) (t : Nat) (x : Tile) : (s.setTile t x).pairs = s.pairs := rfl
@[simp] theorem State.setTile_err (s : State) (t : Nat) (x : Tile) : (s.setTile t x).err = s.err := rfl
@[simp] theorem State.setTile_trust (s : State) (t : Nat) (x : Tile) : (s.setTile t x).trust = s.trust := rfl
@[simp] theorem State.setTile_free (s : State) (t : Nat) (x : Tile) : (s.setTile t x).free = s.free := rfl

@[simp] theorem State.ctx_setTile (s : State) (t : Nat) (x : Tile) (c' : Nat) : (s.setTile t x).ctx c' = s.ctx c' := rfl
@[simp] theorem State.cad_setTile (s : State) (t : Nat) (x : Tile) (k' : Nat) : (s.setTile t x).cad k' = s.cad k' := rfl
@[simp] theorem State.mover_setTile (s : State) (t : Nat) (x : Tile) (b' m' : Nat) : (s.setTile t x).mover b' m' = s.mover b' m' := rfl
@[simp] theorem State.expander_setTile (s : State) (t : Nat) (x : Tile) (n' : Nat) : (s.setTile t x).expander n' = s.expander n' := rfl
@[simp] theorem State.ctr_setTile (s : State) (t : Nat) (x : Tile) (n' : Nat) : (s.setTile t x).ctr n' = s.ctr n' := rfl
@[simp] theorem State.port_setTile (s : State) (t : Nat) (x : Tile) (p' : Nat) : (s.setTile t x).port p' = s.port p' := rfl
@[simp] theorem State.fqueue_setTile (s : State) (t : Nat) (x : Tile) (b' q' : Nat) : (s.setTile t x).fqueue b' q' = s.fqueue b' q' := rfl
@[simp] theorem State.slotOf_setTile (s : State) (t : Nat) (x : Tile) (n' : Nat) : (s.setTile t x).slotOf n' = s.slotOf n' := rfl
@[simp] theorem State.rail_setTile (s : State) (t : Nat) (x : Tile) (r' : Nat) : (s.setTile t x).rail r' = s.rail r' := rfl
@[simp] theorem State.monitor_setTile (s : State) (t : Nat) (x : Tile) (m' : Nat) : (s.setTile t x).monitor m' = s.monitor m' := rfl
@[simp] theorem State.cell_setTile (s : State) (t : Nat) (x : Tile) (c' : Nat) : (s.setTile t x).cell c' = s.cell c' := rfl
@[simp] theorem State.gov_setTile (s : State) (t : Nat) (x : Tile) (t' : Nat) : (s.setTile t x).gov t' = s.gov t' := rfl

/-! ### `State.setCtx` -/

@[simp] theorem State.setCtx_pending (s : State) (c : Nat) (x : Ctx) : (s.setCtx c x).pending = s.pending := rfl
@[simp] theorem State.setCtx_top (s : State) (c : Nat) (x : Ctx) : (s.setCtx c x).top = s.top := rfl
@[simp] theorem State.setCtx_clk (s : State) (c : Nat) (x : Ctx) : (s.setCtx c x).clk = s.clk := rfl
@[simp] theorem State.setCtx_tiles (s : State) (c : Nat) (x : Ctx) : (s.setCtx c x).tiles = s.tiles := rfl
@[simp] theorem State.setCtx_mem (s : State) (c : Nat) (x : Ctx) : (s.setCtx c x).mem = s.mem := rfl
@[simp] theorem State.setCtx_mmu (s : State) (c : Nat) (x : Ctx) : (s.setCtx c x).mmu = s.mmu := rfl
@[simp] theorem State.setCtx_eng (s : State) (c : Nat) (x : Ctx) : (s.setCtx c x).eng = s.eng := rfl
@[simp] theorem State.setCtx_gz (s : State) (c : Nat) (x : Ctx) : (s.setCtx c x).gz = s.gz := rfl
@[simp] theorem State.setCtx_cmd (s : State) (c : Nat) (x : Ctx) : (s.setCtx c x).cmd = s.cmd := rfl
@[simp] theorem State.setCtx_cads (s : State) (c : Nat) (x : Ctx) : (s.setCtx c x).cads = s.cads := rfl
@[simp] theorem State.setCtx_pow (s : State) (c : Nat) (x : Ctx) : (s.setCtx c x).pow = s.pow := rfl
@[simp] theorem State.setCtx_gvn (s : State) (c : Nat) (x : Ctx) : (s.setCtx c x).gvn = s.gvn := rfl
@[simp] theorem State.setCtx_res (s : State) (c : Nat) (x : Ctx) : (s.setCtx c x).res = s.res := rfl
@[simp] theorem State.setCtx_rfw (s : State) (c : Nat) (x : Ctx) : (s.setCtx c x).rfw = s.rfw := rfl
@[simp] theorem State.setCtx_clm (s : State) (c : Nat) (x : Ctx) : (s.setCtx c x).clm = s.clm := rfl
@[simp] theorem State.setCtx_pairs (s : State) (c : Nat) (x : Ctx) : (s.setCtx c x).pairs = s.pairs := rfl
@[simp] theorem State.setCtx_err (s : State) (c : Nat) (x : Ctx) : (s.setCtx c x).err = s.err := rfl
@[simp] theorem State.setCtx_trust (s : State) (c : Nat) (x : Ctx) : (s.setCtx c x).trust = s.trust := rfl
@[simp] theorem State.setCtx_free (s : State) (c : Nat) (x : Ctx) : (s.setCtx c x).free = s.free := rfl

@[simp] theorem State.tile_setCtx (s : State) (c : Nat) (x : Ctx) (t' : Nat) : (s.setCtx c x).tile t' = s.tile t' := rfl
@[simp] theorem State.cad_setCtx (s : State) (c : Nat) (x : Ctx) (k' : Nat) : (s.setCtx c x).cad k' = s.cad k' := rfl
@[simp] theorem State.mover_setCtx (s : State) (c : Nat) (x : Ctx) (b' m' : Nat) : (s.setCtx c x).mover b' m' = s.mover b' m' := rfl
@[simp] theorem State.expander_setCtx (s : State) (c : Nat) (x : Ctx) (n' : Nat) : (s.setCtx c x).expander n' = s.expander n' := rfl
@[simp] theorem State.ctr_setCtx (s : State) (c : Nat) (x : Ctx) (n' : Nat) : (s.setCtx c x).ctr n' = s.ctr n' := rfl
@[simp] theorem State.port_setCtx (s : State) (c : Nat) (x : Ctx) (p' : Nat) : (s.setCtx c x).port p' = s.port p' := rfl
@[simp] theorem State.fqueue_setCtx (s : State) (c : Nat) (x : Ctx) (b' q' : Nat) : (s.setCtx c x).fqueue b' q' = s.fqueue b' q' := rfl
@[simp] theorem State.slotOf_setCtx (s : State) (c : Nat) (x : Ctx) (n' : Nat) : (s.setCtx c x).slotOf n' = s.slotOf n' := rfl
@[simp] theorem State.rail_setCtx (s : State) (c : Nat) (x : Ctx) (r' : Nat) : (s.setCtx c x).rail r' = s.rail r' := rfl
@[simp] theorem State.monitor_setCtx (s : State) (c : Nat) (x : Ctx) (m' : Nat) : (s.setCtx c x).monitor m' = s.monitor m' := rfl
@[simp] theorem State.cell_setCtx (s : State) (c : Nat) (x : Ctx) (c' : Nat) : (s.setCtx c x).cell c' = s.cell c' := rfl
@[simp] theorem State.gov_setCtx (s : State) (c : Nat) (x : Ctx) (t' : Nat) : (s.setCtx c x).gov t' = s.gov t' := rfl

/-! ### `State.setCad` -/

@[simp] theorem State.setCad_pending (s : State) (k : Nat) (x : Cad) : (s.setCad k x).pending = s.pending := rfl
@[simp] theorem State.setCad_top (s : State) (k : Nat) (x : Cad) : (s.setCad k x).top = s.top := rfl
@[simp] theorem State.setCad_clk (s : State) (k : Nat) (x : Cad) : (s.setCad k x).clk = s.clk := rfl
@[simp] theorem State.setCad_tiles (s : State) (k : Nat) (x : Cad) : (s.setCad k x).tiles = s.tiles := rfl
@[simp] theorem State.setCad_mem (s : State) (k : Nat) (x : Cad) : (s.setCad k x).mem = s.mem := rfl
@[simp] theorem State.setCad_mmu (s : State) (k : Nat) (x : Cad) : (s.setCad k x).mmu = s.mmu := rfl
@[simp] theorem State.setCad_eng (s : State) (k : Nat) (x : Cad) : (s.setCad k x).eng = s.eng := rfl
@[simp] theorem State.setCad_gz (s : State) (k : Nat) (x : Cad) : (s.setCad k x).gz = s.gz := rfl
@[simp] theorem State.setCad_cmd (s : State) (k : Nat) (x : Cad) : (s.setCad k x).cmd = s.cmd := rfl
@[simp] theorem State.setCad_ctxs (s : State) (k : Nat) (x : Cad) : (s.setCad k x).ctxs = s.ctxs := rfl
@[simp] theorem State.setCad_pow (s : State) (k : Nat) (x : Cad) : (s.setCad k x).pow = s.pow := rfl
@[simp] theorem State.setCad_gvn (s : State) (k : Nat) (x : Cad) : (s.setCad k x).gvn = s.gvn := rfl
@[simp] theorem State.setCad_res (s : State) (k : Nat) (x : Cad) : (s.setCad k x).res = s.res := rfl
@[simp] theorem State.setCad_rfw (s : State) (k : Nat) (x : Cad) : (s.setCad k x).rfw = s.rfw := rfl
@[simp] theorem State.setCad_clm (s : State) (k : Nat) (x : Cad) : (s.setCad k x).clm = s.clm := rfl
@[simp] theorem State.setCad_pairs (s : State) (k : Nat) (x : Cad) : (s.setCad k x).pairs = s.pairs := rfl
@[simp] theorem State.setCad_err (s : State) (k : Nat) (x : Cad) : (s.setCad k x).err = s.err := rfl
@[simp] theorem State.setCad_trust (s : State) (k : Nat) (x : Cad) : (s.setCad k x).trust = s.trust := rfl
@[simp] theorem State.setCad_free (s : State) (k : Nat) (x : Cad) : (s.setCad k x).free = s.free := rfl

@[simp] theorem State.tile_setCad (s : State) (k : Nat) (x : Cad) (t' : Nat) : (s.setCad k x).tile t' = s.tile t' := rfl
@[simp] theorem State.ctx_setCad (s : State) (k : Nat) (x : Cad) (c' : Nat) : (s.setCad k x).ctx c' = s.ctx c' := rfl
@[simp] theorem State.mover_setCad (s : State) (k : Nat) (x : Cad) (b' m' : Nat) : (s.setCad k x).mover b' m' = s.mover b' m' := rfl
@[simp] theorem State.expander_setCad (s : State) (k : Nat) (x : Cad) (n' : Nat) : (s.setCad k x).expander n' = s.expander n' := rfl
@[simp] theorem State.ctr_setCad (s : State) (k : Nat) (x : Cad) (n' : Nat) : (s.setCad k x).ctr n' = s.ctr n' := rfl
@[simp] theorem State.port_setCad (s : State) (k : Nat) (x : Cad) (p' : Nat) : (s.setCad k x).port p' = s.port p' := rfl
@[simp] theorem State.fqueue_setCad (s : State) (k : Nat) (x : Cad) (b' q' : Nat) : (s.setCad k x).fqueue b' q' = s.fqueue b' q' := rfl
@[simp] theorem State.slotOf_setCad (s : State) (k : Nat) (x : Cad) (n' : Nat) : (s.setCad k x).slotOf n' = s.slotOf n' := rfl
@[simp] theorem State.rail_setCad (s : State) (k : Nat) (x : Cad) (r' : Nat) : (s.setCad k x).rail r' = s.rail r' := rfl
@[simp] theorem State.monitor_setCad (s : State) (k : Nat) (x : Cad) (m' : Nat) : (s.setCad k x).monitor m' = s.monitor m' := rfl
@[simp] theorem State.cell_setCad (s : State) (k : Nat) (x : Cad) (c' : Nat) : (s.setCad k x).cell c' = s.cell c' := rfl
@[simp] theorem State.gov_setCad (s : State) (k : Nat) (x : Cad) (t' : Nat) : (s.setCad k x).gov t' = s.gov t' := rfl

/-! ### `State.setMover` -/

@[simp] theorem State.setMover_pending (s : State) (b m : Nat) (x : Mover) : (s.setMover b m x).pending = s.pending := rfl
@[simp] theorem State.setMover_top (s : State) (b m : Nat) (x : Mover) : (s.setMover b m x).top = s.top := rfl
@[simp] theorem State.setMover_clk (s : State) (b m : Nat) (x : Mover) : (s.setMover b m x).clk = s.clk := rfl
@[simp] theorem State.setMover_tiles (s : State) (b m : Nat) (x : Mover) : (s.setMover b m x).tiles = s.tiles := rfl
@[simp] theorem State.setMover_mem (s : State) (b m : Nat) (x : Mover) : (s.setMover b m x).mem = s.mem := rfl
@[simp] theorem State.setMover_mmu (s : State) (b m : Nat) (x : Mover) : (s.setMover b m x).mmu = s.mmu := rfl
@[simp] theorem State.setMover_gz (s : State) (b m : Nat) (x : Mover) : (s.setMover b m x).gz = s.gz := rfl
@[simp] theorem State.setMover_cmd (s : State) (b m : Nat) (x : Mover) : (s.setMover b m x).cmd = s.cmd := rfl
@[simp] theorem State.setMover_ctxs (s : State) (b m : Nat) (x : Mover) : (s.setMover b m x).ctxs = s.ctxs := rfl
@[simp] theorem State.setMover_cads (s : State) (b m : Nat) (x : Mover) : (s.setMover b m x).cads = s.cads := rfl
@[simp] theorem State.setMover_pow (s : State) (b m : Nat) (x : Mover) : (s.setMover b m x).pow = s.pow := rfl
@[simp] theorem State.setMover_gvn (s : State) (b m : Nat) (x : Mover) : (s.setMover b m x).gvn = s.gvn := rfl
@[simp] theorem State.setMover_res (s : State) (b m : Nat) (x : Mover) : (s.setMover b m x).res = s.res := rfl
@[simp] theorem State.setMover_rfw (s : State) (b m : Nat) (x : Mover) : (s.setMover b m x).rfw = s.rfw := rfl
@[simp] theorem State.setMover_clm (s : State) (b m : Nat) (x : Mover) : (s.setMover b m x).clm = s.clm := rfl
@[simp] theorem State.setMover_pairs (s : State) (b m : Nat) (x : Mover) : (s.setMover b m x).pairs = s.pairs := rfl
@[simp] theorem State.setMover_err (s : State) (b m : Nat) (x : Mover) : (s.setMover b m x).err = s.err := rfl
@[simp] theorem State.setMover_trust (s : State) (b m : Nat) (x : Mover) : (s.setMover b m x).trust = s.trust := rfl
@[simp] theorem State.setMover_free (s : State) (b m : Nat) (x : Mover) : (s.setMover b m x).free = s.free := rfl
@[simp] theorem State.setMover_eng_exp (s : State) (b m : Nat) (x : Mover) : (s.setMover b m x).eng.exp = s.eng.exp := rfl
@[simp] theorem State.setMover_eng_tables (s : State) (b m : Nat) (x : Mover) : (s.setMover b m x).eng.tables = s.eng.tables := rfl
@[simp] theorem State.setMover_eng_ctr (s : State) (b m : Nat) (x : Mover) : (s.setMover b m x).eng.ctr = s.eng.ctr := rfl
@[simp] theorem State.setMover_eng_ctrGrant (s : State) (b m : Nat) (x : Mover) : (s.setMover b m x).eng.ctrGrant = s.eng.ctrGrant := rfl

@[simp] theorem State.tile_setMover (s : State) (b m : Nat) (x : Mover) (t' : Nat) : (s.setMover b m x).tile t' = s.tile t' := rfl
@[simp] theorem State.ctx_setMover (s : State) (b m : Nat) (x : Mover) (c' : Nat) : (s.setMover b m x).ctx c' = s.ctx c' := rfl
@[simp] theorem State.cad_setMover (s : State) (b m : Nat) (x : Mover) (k' : Nat) : (s.setMover b m x).cad k' = s.cad k' := rfl
@[simp] theorem State.expander_setMover (s : State) (b m : Nat) (x : Mover) (n' : Nat) : (s.setMover b m x).expander n' = s.expander n' := rfl
@[simp] theorem State.ctr_setMover (s : State) (b m : Nat) (x : Mover) (n' : Nat) : (s.setMover b m x).ctr n' = s.ctr n' := rfl
@[simp] theorem State.port_setMover (s : State) (b m : Nat) (x : Mover) (p' : Nat) : (s.setMover b m x).port p' = s.port p' := rfl
@[simp] theorem State.fqueue_setMover (s : State) (b m : Nat) (x : Mover) (b' q' : Nat) : (s.setMover b m x).fqueue b' q' = s.fqueue b' q' := rfl
@[simp] theorem State.slotOf_setMover (s : State) (b m : Nat) (x : Mover) (n' : Nat) : (s.setMover b m x).slotOf n' = s.slotOf n' := rfl
@[simp] theorem State.rail_setMover (s : State) (b m : Nat) (x : Mover) (r' : Nat) : (s.setMover b m x).rail r' = s.rail r' := rfl
@[simp] theorem State.monitor_setMover (s : State) (b m : Nat) (x : Mover) (m' : Nat) : (s.setMover b m x).monitor m' = s.monitor m' := rfl
@[simp] theorem State.cell_setMover (s : State) (b m : Nat) (x : Mover) (c' : Nat) : (s.setMover b m x).cell c' = s.cell c' := rfl
@[simp] theorem State.gov_setMover (s : State) (b m : Nat) (x : Mover) (t' : Nat) : (s.setMover b m x).gov t' = s.gov t' := rfl

/-! ### `State.setExpander` -/

@[simp] theorem State.setExpander_pending (s : State) (n : Nat) (x : Expander) : (s.setExpander n x).pending = s.pending := rfl
@[simp] theorem State.setExpander_top (s : State) (n : Nat) (x : Expander) : (s.setExpander n x).top = s.top := rfl
@[simp] theorem State.setExpander_clk (s : State) (n : Nat) (x : Expander) : (s.setExpander n x).clk = s.clk := rfl
@[simp] theorem State.setExpander_tiles (s : State) (n : Nat) (x : Expander) : (s.setExpander n x).tiles = s.tiles := rfl
@[simp] theorem State.setExpander_mem (s : State) (n : Nat) (x : Expander) : (s.setExpander n x).mem = s.mem := rfl
@[simp] theorem State.setExpander_mmu (s : State) (n : Nat) (x : Expander) : (s.setExpander n x).mmu = s.mmu := rfl
@[simp] theorem State.setExpander_gz (s : State) (n : Nat) (x : Expander) : (s.setExpander n x).gz = s.gz := rfl
@[simp] theorem State.setExpander_cmd (s : State) (n : Nat) (x : Expander) : (s.setExpander n x).cmd = s.cmd := rfl
@[simp] theorem State.setExpander_ctxs (s : State) (n : Nat) (x : Expander) : (s.setExpander n x).ctxs = s.ctxs := rfl
@[simp] theorem State.setExpander_cads (s : State) (n : Nat) (x : Expander) : (s.setExpander n x).cads = s.cads := rfl
@[simp] theorem State.setExpander_pow (s : State) (n : Nat) (x : Expander) : (s.setExpander n x).pow = s.pow := rfl
@[simp] theorem State.setExpander_gvn (s : State) (n : Nat) (x : Expander) : (s.setExpander n x).gvn = s.gvn := rfl
@[simp] theorem State.setExpander_res (s : State) (n : Nat) (x : Expander) : (s.setExpander n x).res = s.res := rfl
@[simp] theorem State.setExpander_rfw (s : State) (n : Nat) (x : Expander) : (s.setExpander n x).rfw = s.rfw := rfl
@[simp] theorem State.setExpander_clm (s : State) (n : Nat) (x : Expander) : (s.setExpander n x).clm = s.clm := rfl
@[simp] theorem State.setExpander_pairs (s : State) (n : Nat) (x : Expander) : (s.setExpander n x).pairs = s.pairs := rfl
@[simp] theorem State.setExpander_err (s : State) (n : Nat) (x : Expander) : (s.setExpander n x).err = s.err := rfl
@[simp] theorem State.setExpander_trust (s : State) (n : Nat) (x : Expander) : (s.setExpander n x).trust = s.trust := rfl
@[simp] theorem State.setExpander_free (s : State) (n : Nat) (x : Expander) : (s.setExpander n x).free = s.free := rfl
@[simp] theorem State.setExpander_eng_mov (s : State) (n : Nat) (x : Expander) : (s.setExpander n x).eng.mov = s.eng.mov := rfl
@[simp] theorem State.setExpander_eng_tables (s : State) (n : Nat) (x : Expander) : (s.setExpander n x).eng.tables = s.eng.tables := rfl
@[simp] theorem State.setExpander_eng_ctr (s : State) (n : Nat) (x : Expander) : (s.setExpander n x).eng.ctr = s.eng.ctr := rfl
@[simp] theorem State.setExpander_eng_ctrGrant (s : State) (n : Nat) (x : Expander) : (s.setExpander n x).eng.ctrGrant = s.eng.ctrGrant := rfl

@[simp] theorem State.tile_setExpander (s : State) (n : Nat) (x : Expander) (t' : Nat) : (s.setExpander n x).tile t' = s.tile t' := rfl
@[simp] theorem State.ctx_setExpander (s : State) (n : Nat) (x : Expander) (c' : Nat) : (s.setExpander n x).ctx c' = s.ctx c' := rfl
@[simp] theorem State.cad_setExpander (s : State) (n : Nat) (x : Expander) (k' : Nat) : (s.setExpander n x).cad k' = s.cad k' := rfl
@[simp] theorem State.mover_setExpander (s : State) (n : Nat) (x : Expander) (b' m' : Nat) : (s.setExpander n x).mover b' m' = s.mover b' m' := rfl
@[simp] theorem State.ctr_setExpander (s : State) (n : Nat) (x : Expander) (n' : Nat) : (s.setExpander n x).ctr n' = s.ctr n' := rfl
@[simp] theorem State.port_setExpander (s : State) (n : Nat) (x : Expander) (p' : Nat) : (s.setExpander n x).port p' = s.port p' := rfl
@[simp] theorem State.fqueue_setExpander (s : State) (n : Nat) (x : Expander) (b' q' : Nat) : (s.setExpander n x).fqueue b' q' = s.fqueue b' q' := rfl
@[simp] theorem State.slotOf_setExpander (s : State) (n : Nat) (x : Expander) (n' : Nat) : (s.setExpander n x).slotOf n' = s.slotOf n' := rfl
@[simp] theorem State.rail_setExpander (s : State) (n : Nat) (x : Expander) (r' : Nat) : (s.setExpander n x).rail r' = s.rail r' := rfl
@[simp] theorem State.monitor_setExpander (s : State) (n : Nat) (x : Expander) (m' : Nat) : (s.setExpander n x).monitor m' = s.monitor m' := rfl
@[simp] theorem State.cell_setExpander (s : State) (n : Nat) (x : Expander) (c' : Nat) : (s.setExpander n x).cell c' = s.cell c' := rfl
@[simp] theorem State.gov_setExpander (s : State) (n : Nat) (x : Expander) (t' : Nat) : (s.setExpander n x).gov t' = s.gov t' := rfl

/-! ### `State.setCtr` -/

@[simp] theorem State.setCtr_pending (s : State) (n : Nat) (x : W32) : (s.setCtr n x).pending = s.pending := rfl
@[simp] theorem State.setCtr_top (s : State) (n : Nat) (x : W32) : (s.setCtr n x).top = s.top := rfl
@[simp] theorem State.setCtr_clk (s : State) (n : Nat) (x : W32) : (s.setCtr n x).clk = s.clk := rfl
@[simp] theorem State.setCtr_tiles (s : State) (n : Nat) (x : W32) : (s.setCtr n x).tiles = s.tiles := rfl
@[simp] theorem State.setCtr_mem (s : State) (n : Nat) (x : W32) : (s.setCtr n x).mem = s.mem := rfl
@[simp] theorem State.setCtr_mmu (s : State) (n : Nat) (x : W32) : (s.setCtr n x).mmu = s.mmu := rfl
@[simp] theorem State.setCtr_gz (s : State) (n : Nat) (x : W32) : (s.setCtr n x).gz = s.gz := rfl
@[simp] theorem State.setCtr_cmd (s : State) (n : Nat) (x : W32) : (s.setCtr n x).cmd = s.cmd := rfl
@[simp] theorem State.setCtr_ctxs (s : State) (n : Nat) (x : W32) : (s.setCtr n x).ctxs = s.ctxs := rfl
@[simp] theorem State.setCtr_cads (s : State) (n : Nat) (x : W32) : (s.setCtr n x).cads = s.cads := rfl
@[simp] theorem State.setCtr_pow (s : State) (n : Nat) (x : W32) : (s.setCtr n x).pow = s.pow := rfl
@[simp] theorem State.setCtr_gvn (s : State) (n : Nat) (x : W32) : (s.setCtr n x).gvn = s.gvn := rfl
@[simp] theorem State.setCtr_res (s : State) (n : Nat) (x : W32) : (s.setCtr n x).res = s.res := rfl
@[simp] theorem State.setCtr_rfw (s : State) (n : Nat) (x : W32) : (s.setCtr n x).rfw = s.rfw := rfl
@[simp] theorem State.setCtr_clm (s : State) (n : Nat) (x : W32) : (s.setCtr n x).clm = s.clm := rfl
@[simp] theorem State.setCtr_pairs (s : State) (n : Nat) (x : W32) : (s.setCtr n x).pairs = s.pairs := rfl
@[simp] theorem State.setCtr_err (s : State) (n : Nat) (x : W32) : (s.setCtr n x).err = s.err := rfl
@[simp] theorem State.setCtr_trust (s : State) (n : Nat) (x : W32) : (s.setCtr n x).trust = s.trust := rfl
@[simp] theorem State.setCtr_free (s : State) (n : Nat) (x : W32) : (s.setCtr n x).free = s.free := rfl
@[simp] theorem State.setCtr_eng_mov (s : State) (n : Nat) (x : W32) : (s.setCtr n x).eng.mov = s.eng.mov := rfl
@[simp] theorem State.setCtr_eng_exp (s : State) (n : Nat) (x : W32) : (s.setCtr n x).eng.exp = s.eng.exp := rfl
@[simp] theorem State.setCtr_eng_tables (s : State) (n : Nat) (x : W32) : (s.setCtr n x).eng.tables = s.eng.tables := rfl
@[simp] theorem State.setCtr_eng_ctrGrant (s : State) (n : Nat) (x : W32) : (s.setCtr n x).eng.ctrGrant = s.eng.ctrGrant := rfl

@[simp] theorem State.tile_setCtr (s : State) (n : Nat) (x : W32) (t' : Nat) : (s.setCtr n x).tile t' = s.tile t' := rfl
@[simp] theorem State.ctx_setCtr (s : State) (n : Nat) (x : W32) (c' : Nat) : (s.setCtr n x).ctx c' = s.ctx c' := rfl
@[simp] theorem State.cad_setCtr (s : State) (n : Nat) (x : W32) (k' : Nat) : (s.setCtr n x).cad k' = s.cad k' := rfl
@[simp] theorem State.mover_setCtr (s : State) (n : Nat) (x : W32) (b' m' : Nat) : (s.setCtr n x).mover b' m' = s.mover b' m' := rfl
@[simp] theorem State.expander_setCtr (s : State) (n : Nat) (x : W32) (n' : Nat) : (s.setCtr n x).expander n' = s.expander n' := rfl
@[simp] theorem State.port_setCtr (s : State) (n : Nat) (x : W32) (p' : Nat) : (s.setCtr n x).port p' = s.port p' := rfl
@[simp] theorem State.fqueue_setCtr (s : State) (n : Nat) (x : W32) (b' q' : Nat) : (s.setCtr n x).fqueue b' q' = s.fqueue b' q' := rfl
@[simp] theorem State.slotOf_setCtr (s : State) (n : Nat) (x : W32) (n' : Nat) : (s.setCtr n x).slotOf n' = s.slotOf n' := rfl
@[simp] theorem State.rail_setCtr (s : State) (n : Nat) (x : W32) (r' : Nat) : (s.setCtr n x).rail r' = s.rail r' := rfl
@[simp] theorem State.monitor_setCtr (s : State) (n : Nat) (x : W32) (m' : Nat) : (s.setCtr n x).monitor m' = s.monitor m' := rfl
@[simp] theorem State.cell_setCtr (s : State) (n : Nat) (x : W32) (c' : Nat) : (s.setCtr n x).cell c' = s.cell c' := rfl
@[simp] theorem State.gov_setCtr (s : State) (n : Nat) (x : W32) (t' : Nat) : (s.setCtr n x).gov t' = s.gov t' := rfl

/-! ### `State.setPort` -/

@[simp] theorem State.setPort_pending (s : State) (p : Nat) (x : Port) : (s.setPort p x).pending = s.pending := rfl
@[simp] theorem State.setPort_top (s : State) (p : Nat) (x : Port) : (s.setPort p x).top = s.top := rfl
@[simp] theorem State.setPort_clk (s : State) (p : Nat) (x : Port) : (s.setPort p x).clk = s.clk := rfl
@[simp] theorem State.setPort_tiles (s : State) (p : Nat) (x : Port) : (s.setPort p x).tiles = s.tiles := rfl
@[simp] theorem State.setPort_mem (s : State) (p : Nat) (x : Port) : (s.setPort p x).mem = s.mem := rfl
@[simp] theorem State.setPort_mmu (s : State) (p : Nat) (x : Port) : (s.setPort p x).mmu = s.mmu := rfl
@[simp] theorem State.setPort_eng (s : State) (p : Nat) (x : Port) : (s.setPort p x).eng = s.eng := rfl
@[simp] theorem State.setPort_ctxs (s : State) (p : Nat) (x : Port) : (s.setPort p x).ctxs = s.ctxs := rfl
@[simp] theorem State.setPort_cads (s : State) (p : Nat) (x : Port) : (s.setPort p x).cads = s.cads := rfl
@[simp] theorem State.setPort_pow (s : State) (p : Nat) (x : Port) : (s.setPort p x).pow = s.pow := rfl
@[simp] theorem State.setPort_gvn (s : State) (p : Nat) (x : Port) : (s.setPort p x).gvn = s.gvn := rfl
@[simp] theorem State.setPort_res (s : State) (p : Nat) (x : Port) : (s.setPort p x).res = s.res := rfl
@[simp] theorem State.setPort_rfw (s : State) (p : Nat) (x : Port) : (s.setPort p x).rfw = s.rfw := rfl
@[simp] theorem State.setPort_clm (s : State) (p : Nat) (x : Port) : (s.setPort p x).clm = s.clm := rfl
@[simp] theorem State.setPort_pairs (s : State) (p : Nat) (x : Port) : (s.setPort p x).pairs = s.pairs := rfl
@[simp] theorem State.setPort_err (s : State) (p : Nat) (x : Port) : (s.setPort p x).err = s.err := rfl
@[simp] theorem State.setPort_trust (s : State) (p : Nat) (x : Port) : (s.setPort p x).trust = s.trust := rfl
@[simp] theorem State.setPort_free (s : State) (p : Nat) (x : Port) : (s.setPort p x).free = s.free := rfl
@[simp] theorem State.setPort_gz_domain (s : State) (p : Nat) (x : Port) : (s.setPort p x).gz.domain = s.gz.domain := rfl
@[simp] theorem State.setPort_gz_joined (s : State) (p : Nat) (x : Port) : (s.setPort p x).gz.joined = s.gz.joined := rfl
@[simp] theorem State.setPort_gz_coord (s : State) (p : Nat) (x : Port) : (s.setPort p x).gz.coord = s.gz.coord := rfl
@[simp] theorem State.setPort_gz_me (s : State) (p : Nat) (x : Port) : (s.setPort p x).gz.me = s.gz.me := rfl
@[simp] theorem State.setPort_gz_epoch (s : State) (p : Nat) (x : Port) : (s.setPort p x).gz.epoch = s.gz.epoch := rfl
@[simp] theorem State.setPort_gz_members (s : State) (p : Nat) (x : Port) : (s.setPort p x).gz.members = s.gz.members := rfl
@[simp] theorem State.setPort_gz_coordinator (s : State) (p : Nat) (x : Port) : (s.setPort p x).gz.coordinator = s.gz.coordinator := rfl
@[simp] theorem State.setPort_gz_routes (s : State) (p : Nat) (x : Port) : (s.setPort p x).gz.routes = s.gz.routes := rfl
@[simp] theorem State.setPort_gz_heard (s : State) (p : Nat) (x : Port) : (s.setPort p x).gz.heard = s.gz.heard := rfl
@[simp] theorem State.setPort_gz_cutSince (s : State) (p : Nat) (x : Port) : (s.setPort p x).gz.cutSince = s.gz.cutSince := rfl
@[simp] theorem State.setPort_gz_joining (s : State) (p : Nat) (x : Port) : (s.setPort p x).gz.joining = s.gz.joining := rfl
@[simp] theorem State.setPort_gz_leaving (s : State) (p : Nat) (x : Port) : (s.setPort p x).gz.leaving = s.gz.leaving := rfl
@[simp] theorem State.setPort_gz_joinRoot (s : State) (p : Nat) (x : Port) : (s.setPort p x).gz.joinRoot = s.gz.joinRoot := rfl
@[simp] theorem State.setPort_gz_joinAsked (s : State) (p : Nat) (x : Port) : (s.setPort p x).gz.joinAsked = s.gz.joinAsked := rfl
@[simp] theorem State.setPort_gz_expected (s : State) (p : Nat) (x : Port) : (s.setPort p x).gz.expected = s.gz.expected := rfl
@[simp] theorem State.setPort_gz_selfLeave (s : State) (p : Nat) (x : Port) : (s.setPort p x).gz.selfLeave = s.gz.selfLeave := rfl
@[simp] theorem State.setPort_gz_leaveSent (s : State) (p : Nat) (x : Port) : (s.setPort p x).gz.leaveSent = s.gz.leaveSent := rfl
@[simp] theorem State.setPort_gz_gtLoadDue (s : State) (p : Nat) (x : Port) : (s.setPort p x).gz.gtLoadDue = s.gz.gtLoadDue := rfl
@[simp] theorem State.setPort_gz_sent (s : State) (p : Nat) (x : Port) : (s.setPort p x).gz.sent = s.gz.sent := rfl
@[simp] theorem State.setPort_gz_memberSent (s : State) (p : Nat) (x : Port) : (s.setPort p x).gz.memberSent = s.gz.memberSent := rfl
@[simp] theorem State.setPort_gz_paceSent (s : State) (p : Nat) (x : Port) : (s.setPort p x).gz.paceSent = s.gz.paceSent := rfl
@[simp] theorem State.setPort_gz_arrived (s : State) (p : Nat) (x : Port) : (s.setPort p x).gz.arrived = s.gz.arrived := rfl
@[simp] theorem State.setPort_gz_e2e (s : State) (p : Nat) (x : Port) : (s.setPort p x).gz.e2e = s.gz.e2e := rfl
@[simp] theorem State.setPort_gz_dups (s : State) (p : Nat) (x : Port) : (s.setPort p x).gz.dups = s.gz.dups := rfl
@[simp] theorem State.setPort_gz_txns (s : State) (p : Nat) (x : Port) : (s.setPort p x).gz.txns = s.gz.txns := rfl
@[simp] theorem State.setPort_gz_nextTxn (s : State) (p : Nat) (x : Port) : (s.setPort p x).gz.nextTxn = s.gz.nextTxn := rfl
@[simp] theorem State.setPort_gz_exports (s : State) (p : Nat) (x : Port) : (s.setPort p x).gz.exports = s.gz.exports := rfl
@[simp] theorem State.setPort_gz_exportMap (s : State) (p : Nat) (x : Port) : (s.setPort p x).gz.exportMap = s.gz.exportMap := rfl
@[simp] theorem State.setPort_gz_fq (s : State) (p : Nat) (x : Port) : (s.setPort p x).gz.fq = s.gz.fq := rfl
@[simp] theorem State.setPort_gz_collIn (s : State) (p : Nat) (x : Port) : (s.setPort p x).gz.collIn = s.gz.collIn := rfl
@[simp] theorem State.setPort_gz_suspects (s : State) (p : Nat) (x : Port) : (s.setPort p x).gz.suspects = s.gz.suspects := rfl
@[simp] theorem State.setPort_cmd_link (s : State) (p : Nat) (x : Port) : (s.setPort p x).cmd.link = s.cmd.link := rfl
@[simp] theorem State.setPort_cmd_snoopTimeouts (s : State) (p : Nat) (x : Port) : (s.setPort p x).cmd.snoopTimeouts = s.cmd.snoopTimeouts := rfl
@[simp] theorem State.setPort_cmd_cache (s : State) (p : Nat) (x : Port) : (s.setPort p x).cmd.cache = s.cmd.cache := rfl
@[simp] theorem State.setPort_cmd_hostHeld (s : State) (p : Nat) (x : Port) : (s.setPort p x).cmd.hostHeld = s.cmd.hostHeld := rfl
@[simp] theorem State.setPort_cmd_snoops (s : State) (p : Nat) (x : Port) : (s.setPort p x).cmd.snoops = s.cmd.snoops := rfl
@[simp] theorem State.setPort_cmd_areaValid (s : State) (p : Nat) (x : Port) : (s.setPort p x).cmd.areaValid = s.cmd.areaValid := rfl
@[simp] theorem State.setPort_cmd_areaSecure (s : State) (p : Nat) (x : Port) : (s.setPort p x).cmd.areaSecure = s.cmd.areaSecure := rfl
@[simp] theorem State.setPort_cmd_area (s : State) (p : Nat) (x : Port) : (s.setPort p x).cmd.area = s.cmd.area := rfl
@[simp] theorem State.setPort_cmd_vector (s : State) (p : Nat) (x : Port) : (s.setPort p x).cmd.vector = s.cmd.vector := rfl
@[simp] theorem State.setPort_cmd_intEn (s : State) (p : Nat) (x : Port) : (s.setPort p x).cmd.intEn = s.cmd.intEn := rfl
@[simp] theorem State.setPort_cmd_slots (s : State) (p : Nat) (x : Port) : (s.setPort p x).cmd.slots = s.cmd.slots := rfl
@[simp] theorem State.setPort_cmd_lastSlot (s : State) (p : Nat) (x : Port) : (s.setPort p x).cmd.lastSlot = s.cmd.lastSlot := rfl
@[simp] theorem State.setPort_cmd_resp (s : State) (p : Nat) (x : Port) : (s.setPort p x).cmd.resp = s.cmd.resp := rfl
@[simp] theorem State.setPort_cmd_heldRecords (s : State) (p : Nat) (x : Port) : (s.setPort p x).cmd.heldRecords = s.cmd.heldRecords := rfl
@[simp] theorem State.setPort_cmd_unsaved (s : State) (p : Nat) (x : Port) : (s.setPort p x).cmd.unsaved = s.cmd.unsaved := rfl
@[simp] theorem State.setPort_cmd_areaRefused (s : State) (p : Nat) (x : Port) : (s.setPort p x).cmd.areaRefused = s.cmd.areaRefused := rfl
@[simp] theorem State.setPort_cmd_reports (s : State) (p : Nat) (x : Port) : (s.setPort p x).cmd.reports = s.cmd.reports := rfl
@[simp] theorem State.setPort_cmd_msgs (s : State) (p : Nat) (x : Port) : (s.setPort p x).cmd.msgs = s.cmd.msgs := rfl
@[simp] theorem State.setPort_cmd_readData (s : State) (p : Nat) (x : Port) : (s.setPort p x).cmd.readData = s.cmd.readData := rfl
theorem State.setPort_cmd (s : State) {p : Nat} (h : p ≠ 32) (x : Port) : (s.setPort p x).cmd = s.cmd := by
  simp only [State.setPort, if_neg h]

@[simp] theorem State.tile_setPort (s : State) (p : Nat) (x : Port) (t' : Nat) : (s.setPort p x).tile t' = s.tile t' := rfl
@[simp] theorem State.ctx_setPort (s : State) (p : Nat) (x : Port) (c' : Nat) : (s.setPort p x).ctx c' = s.ctx c' := rfl
@[simp] theorem State.cad_setPort (s : State) (p : Nat) (x : Port) (k' : Nat) : (s.setPort p x).cad k' = s.cad k' := rfl
@[simp] theorem State.mover_setPort (s : State) (p : Nat) (x : Port) (b' m' : Nat) : (s.setPort p x).mover b' m' = s.mover b' m' := rfl
@[simp] theorem State.expander_setPort (s : State) (p : Nat) (x : Port) (n' : Nat) : (s.setPort p x).expander n' = s.expander n' := rfl
@[simp] theorem State.ctr_setPort (s : State) (p : Nat) (x : Port) (n' : Nat) : (s.setPort p x).ctr n' = s.ctr n' := rfl
@[simp] theorem State.fqueue_setPort (s : State) (p : Nat) (x : Port) (b' q' : Nat) : (s.setPort p x).fqueue b' q' = s.fqueue b' q' := rfl
@[simp] theorem State.slotOf_setPort (s : State) (p : Nat) (x : Port) (n' : Nat) : (s.setPort p x).slotOf n' = s.slotOf n' := rfl
@[simp] theorem State.rail_setPort (s : State) (p : Nat) (x : Port) (r' : Nat) : (s.setPort p x).rail r' = s.rail r' := rfl
@[simp] theorem State.monitor_setPort (s : State) (p : Nat) (x : Port) (m' : Nat) : (s.setPort p x).monitor m' = s.monitor m' := rfl
@[simp] theorem State.cell_setPort (s : State) (p : Nat) (x : Port) (c' : Nat) : (s.setPort p x).cell c' = s.cell c' := rfl
@[simp] theorem State.gov_setPort (s : State) (p : Nat) (x : Port) (t' : Nat) : (s.setPort p x).gov t' = s.gov t' := rfl

/-! ### `State.setFqueue` -/

@[simp] theorem State.setFqueue_pending (s : State) (b q : Nat) (x : FabQueue) : (s.setFqueue b q x).pending = s.pending := rfl
@[simp] theorem State.setFqueue_top (s : State) (b q : Nat) (x : FabQueue) : (s.setFqueue b q x).top = s.top := rfl
@[simp] theorem State.setFqueue_clk (s : State) (b q : Nat) (x : FabQueue) : (s.setFqueue b q x).clk = s.clk := rfl
@[simp] theorem State.setFqueue_tiles (s : State) (b q : Nat) (x : FabQueue) : (s.setFqueue b q x).tiles = s.tiles := rfl
@[simp] theorem State.setFqueue_mem (s : State) (b q : Nat) (x : FabQueue) : (s.setFqueue b q x).mem = s.mem := rfl
@[simp] theorem State.setFqueue_mmu (s : State) (b q : Nat) (x : FabQueue) : (s.setFqueue b q x).mmu = s.mmu := rfl
@[simp] theorem State.setFqueue_eng (s : State) (b q : Nat) (x : FabQueue) : (s.setFqueue b q x).eng = s.eng := rfl
@[simp] theorem State.setFqueue_cmd (s : State) (b q : Nat) (x : FabQueue) : (s.setFqueue b q x).cmd = s.cmd := rfl
@[simp] theorem State.setFqueue_ctxs (s : State) (b q : Nat) (x : FabQueue) : (s.setFqueue b q x).ctxs = s.ctxs := rfl
@[simp] theorem State.setFqueue_cads (s : State) (b q : Nat) (x : FabQueue) : (s.setFqueue b q x).cads = s.cads := rfl
@[simp] theorem State.setFqueue_pow (s : State) (b q : Nat) (x : FabQueue) : (s.setFqueue b q x).pow = s.pow := rfl
@[simp] theorem State.setFqueue_gvn (s : State) (b q : Nat) (x : FabQueue) : (s.setFqueue b q x).gvn = s.gvn := rfl
@[simp] theorem State.setFqueue_res (s : State) (b q : Nat) (x : FabQueue) : (s.setFqueue b q x).res = s.res := rfl
@[simp] theorem State.setFqueue_rfw (s : State) (b q : Nat) (x : FabQueue) : (s.setFqueue b q x).rfw = s.rfw := rfl
@[simp] theorem State.setFqueue_clm (s : State) (b q : Nat) (x : FabQueue) : (s.setFqueue b q x).clm = s.clm := rfl
@[simp] theorem State.setFqueue_pairs (s : State) (b q : Nat) (x : FabQueue) : (s.setFqueue b q x).pairs = s.pairs := rfl
@[simp] theorem State.setFqueue_err (s : State) (b q : Nat) (x : FabQueue) : (s.setFqueue b q x).err = s.err := rfl
@[simp] theorem State.setFqueue_trust (s : State) (b q : Nat) (x : FabQueue) : (s.setFqueue b q x).trust = s.trust := rfl
@[simp] theorem State.setFqueue_free (s : State) (b q : Nat) (x : FabQueue) : (s.setFqueue b q x).free = s.free := rfl
@[simp] theorem State.setFqueue_gz_ports (s : State) (b q : Nat) (x : FabQueue) : (s.setFqueue b q x).gz.ports = s.gz.ports := rfl
@[simp] theorem State.setFqueue_gz_domain (s : State) (b q : Nat) (x : FabQueue) : (s.setFqueue b q x).gz.domain = s.gz.domain := rfl
@[simp] theorem State.setFqueue_gz_joined (s : State) (b q : Nat) (x : FabQueue) : (s.setFqueue b q x).gz.joined = s.gz.joined := rfl
@[simp] theorem State.setFqueue_gz_coord (s : State) (b q : Nat) (x : FabQueue) : (s.setFqueue b q x).gz.coord = s.gz.coord := rfl
@[simp] theorem State.setFqueue_gz_me (s : State) (b q : Nat) (x : FabQueue) : (s.setFqueue b q x).gz.me = s.gz.me := rfl
@[simp] theorem State.setFqueue_gz_epoch (s : State) (b q : Nat) (x : FabQueue) : (s.setFqueue b q x).gz.epoch = s.gz.epoch := rfl
@[simp] theorem State.setFqueue_gz_members (s : State) (b q : Nat) (x : FabQueue) : (s.setFqueue b q x).gz.members = s.gz.members := rfl
@[simp] theorem State.setFqueue_gz_coordinator (s : State) (b q : Nat) (x : FabQueue) : (s.setFqueue b q x).gz.coordinator = s.gz.coordinator := rfl
@[simp] theorem State.setFqueue_gz_routes (s : State) (b q : Nat) (x : FabQueue) : (s.setFqueue b q x).gz.routes = s.gz.routes := rfl
@[simp] theorem State.setFqueue_gz_heard (s : State) (b q : Nat) (x : FabQueue) : (s.setFqueue b q x).gz.heard = s.gz.heard := rfl
@[simp] theorem State.setFqueue_gz_cutSince (s : State) (b q : Nat) (x : FabQueue) : (s.setFqueue b q x).gz.cutSince = s.gz.cutSince := rfl
@[simp] theorem State.setFqueue_gz_joining (s : State) (b q : Nat) (x : FabQueue) : (s.setFqueue b q x).gz.joining = s.gz.joining := rfl
@[simp] theorem State.setFqueue_gz_leaving (s : State) (b q : Nat) (x : FabQueue) : (s.setFqueue b q x).gz.leaving = s.gz.leaving := rfl
@[simp] theorem State.setFqueue_gz_joinRoot (s : State) (b q : Nat) (x : FabQueue) : (s.setFqueue b q x).gz.joinRoot = s.gz.joinRoot := rfl
@[simp] theorem State.setFqueue_gz_joinAsked (s : State) (b q : Nat) (x : FabQueue) : (s.setFqueue b q x).gz.joinAsked = s.gz.joinAsked := rfl
@[simp] theorem State.setFqueue_gz_expected (s : State) (b q : Nat) (x : FabQueue) : (s.setFqueue b q x).gz.expected = s.gz.expected := rfl
@[simp] theorem State.setFqueue_gz_selfLeave (s : State) (b q : Nat) (x : FabQueue) : (s.setFqueue b q x).gz.selfLeave = s.gz.selfLeave := rfl
@[simp] theorem State.setFqueue_gz_leaveSent (s : State) (b q : Nat) (x : FabQueue) : (s.setFqueue b q x).gz.leaveSent = s.gz.leaveSent := rfl
@[simp] theorem State.setFqueue_gz_gtLoadDue (s : State) (b q : Nat) (x : FabQueue) : (s.setFqueue b q x).gz.gtLoadDue = s.gz.gtLoadDue := rfl
@[simp] theorem State.setFqueue_gz_sent (s : State) (b q : Nat) (x : FabQueue) : (s.setFqueue b q x).gz.sent = s.gz.sent := rfl
@[simp] theorem State.setFqueue_gz_memberSent (s : State) (b q : Nat) (x : FabQueue) : (s.setFqueue b q x).gz.memberSent = s.gz.memberSent := rfl
@[simp] theorem State.setFqueue_gz_paceSent (s : State) (b q : Nat) (x : FabQueue) : (s.setFqueue b q x).gz.paceSent = s.gz.paceSent := rfl
@[simp] theorem State.setFqueue_gz_arrived (s : State) (b q : Nat) (x : FabQueue) : (s.setFqueue b q x).gz.arrived = s.gz.arrived := rfl
@[simp] theorem State.setFqueue_gz_e2e (s : State) (b q : Nat) (x : FabQueue) : (s.setFqueue b q x).gz.e2e = s.gz.e2e := rfl
@[simp] theorem State.setFqueue_gz_dups (s : State) (b q : Nat) (x : FabQueue) : (s.setFqueue b q x).gz.dups = s.gz.dups := rfl
@[simp] theorem State.setFqueue_gz_txns (s : State) (b q : Nat) (x : FabQueue) : (s.setFqueue b q x).gz.txns = s.gz.txns := rfl
@[simp] theorem State.setFqueue_gz_nextTxn (s : State) (b q : Nat) (x : FabQueue) : (s.setFqueue b q x).gz.nextTxn = s.gz.nextTxn := rfl
@[simp] theorem State.setFqueue_gz_exports (s : State) (b q : Nat) (x : FabQueue) : (s.setFqueue b q x).gz.exports = s.gz.exports := rfl
@[simp] theorem State.setFqueue_gz_exportMap (s : State) (b q : Nat) (x : FabQueue) : (s.setFqueue b q x).gz.exportMap = s.gz.exportMap := rfl
@[simp] theorem State.setFqueue_gz_collIn (s : State) (b q : Nat) (x : FabQueue) : (s.setFqueue b q x).gz.collIn = s.gz.collIn := rfl
@[simp] theorem State.setFqueue_gz_suspects (s : State) (b q : Nat) (x : FabQueue) : (s.setFqueue b q x).gz.suspects = s.gz.suspects := rfl

@[simp] theorem State.tile_setFqueue (s : State) (b q : Nat) (x : FabQueue) (t' : Nat) : (s.setFqueue b q x).tile t' = s.tile t' := rfl
@[simp] theorem State.ctx_setFqueue (s : State) (b q : Nat) (x : FabQueue) (c' : Nat) : (s.setFqueue b q x).ctx c' = s.ctx c' := rfl
@[simp] theorem State.cad_setFqueue (s : State) (b q : Nat) (x : FabQueue) (k' : Nat) : (s.setFqueue b q x).cad k' = s.cad k' := rfl
@[simp] theorem State.mover_setFqueue (s : State) (b q : Nat) (x : FabQueue) (b' m' : Nat) : (s.setFqueue b q x).mover b' m' = s.mover b' m' := rfl
@[simp] theorem State.expander_setFqueue (s : State) (b q : Nat) (x : FabQueue) (n' : Nat) : (s.setFqueue b q x).expander n' = s.expander n' := rfl
@[simp] theorem State.ctr_setFqueue (s : State) (b q : Nat) (x : FabQueue) (n' : Nat) : (s.setFqueue b q x).ctr n' = s.ctr n' := rfl
@[simp] theorem State.port_setFqueue (s : State) (b q : Nat) (x : FabQueue) (p' : Nat) : (s.setFqueue b q x).port p' = s.port p' := rfl
@[simp] theorem State.slotOf_setFqueue (s : State) (b q : Nat) (x : FabQueue) (n' : Nat) : (s.setFqueue b q x).slotOf n' = s.slotOf n' := rfl
@[simp] theorem State.rail_setFqueue (s : State) (b q : Nat) (x : FabQueue) (r' : Nat) : (s.setFqueue b q x).rail r' = s.rail r' := rfl
@[simp] theorem State.monitor_setFqueue (s : State) (b q : Nat) (x : FabQueue) (m' : Nat) : (s.setFqueue b q x).monitor m' = s.monitor m' := rfl
@[simp] theorem State.cell_setFqueue (s : State) (b q : Nat) (x : FabQueue) (c' : Nat) : (s.setFqueue b q x).cell c' = s.cell c' := rfl
@[simp] theorem State.gov_setFqueue (s : State) (b q : Nat) (x : FabQueue) (t' : Nat) : (s.setFqueue b q x).gov t' = s.gov t' := rfl

/-! ### `State.setSlot` -/

@[simp] theorem State.setSlot_pending (s : State) (n : Nat) (x : Slot) : (s.setSlot n x).pending = s.pending := rfl
@[simp] theorem State.setSlot_top (s : State) (n : Nat) (x : Slot) : (s.setSlot n x).top = s.top := rfl
@[simp] theorem State.setSlot_clk (s : State) (n : Nat) (x : Slot) : (s.setSlot n x).clk = s.clk := rfl
@[simp] theorem State.setSlot_tiles (s : State) (n : Nat) (x : Slot) : (s.setSlot n x).tiles = s.tiles := rfl
@[simp] theorem State.setSlot_mem (s : State) (n : Nat) (x : Slot) : (s.setSlot n x).mem = s.mem := rfl
@[simp] theorem State.setSlot_mmu (s : State) (n : Nat) (x : Slot) : (s.setSlot n x).mmu = s.mmu := rfl
@[simp] theorem State.setSlot_eng (s : State) (n : Nat) (x : Slot) : (s.setSlot n x).eng = s.eng := rfl
@[simp] theorem State.setSlot_gz (s : State) (n : Nat) (x : Slot) : (s.setSlot n x).gz = s.gz := rfl
@[simp] theorem State.setSlot_ctxs (s : State) (n : Nat) (x : Slot) : (s.setSlot n x).ctxs = s.ctxs := rfl
@[simp] theorem State.setSlot_cads (s : State) (n : Nat) (x : Slot) : (s.setSlot n x).cads = s.cads := rfl
@[simp] theorem State.setSlot_pow (s : State) (n : Nat) (x : Slot) : (s.setSlot n x).pow = s.pow := rfl
@[simp] theorem State.setSlot_gvn (s : State) (n : Nat) (x : Slot) : (s.setSlot n x).gvn = s.gvn := rfl
@[simp] theorem State.setSlot_res (s : State) (n : Nat) (x : Slot) : (s.setSlot n x).res = s.res := rfl
@[simp] theorem State.setSlot_rfw (s : State) (n : Nat) (x : Slot) : (s.setSlot n x).rfw = s.rfw := rfl
@[simp] theorem State.setSlot_clm (s : State) (n : Nat) (x : Slot) : (s.setSlot n x).clm = s.clm := rfl
@[simp] theorem State.setSlot_pairs (s : State) (n : Nat) (x : Slot) : (s.setSlot n x).pairs = s.pairs := rfl
@[simp] theorem State.setSlot_err (s : State) (n : Nat) (x : Slot) : (s.setSlot n x).err = s.err := rfl
@[simp] theorem State.setSlot_trust (s : State) (n : Nat) (x : Slot) : (s.setSlot n x).trust = s.trust := rfl
@[simp] theorem State.setSlot_free (s : State) (n : Nat) (x : Slot) : (s.setSlot n x).free = s.free := rfl
@[simp] theorem State.setSlot_cmd_link (s : State) (n : Nat) (x : Slot) : (s.setSlot n x).cmd.link = s.cmd.link := rfl
@[simp] theorem State.setSlot_cmd_portB (s : State) (n : Nat) (x : Slot) : (s.setSlot n x).cmd.portB = s.cmd.portB := rfl
@[simp] theorem State.setSlot_cmd_snoopTimeouts (s : State) (n : Nat) (x : Slot) : (s.setSlot n x).cmd.snoopTimeouts = s.cmd.snoopTimeouts := rfl
@[simp] theorem State.setSlot_cmd_cache (s : State) (n : Nat) (x : Slot) : (s.setSlot n x).cmd.cache = s.cmd.cache := rfl
@[simp] theorem State.setSlot_cmd_hostHeld (s : State) (n : Nat) (x : Slot) : (s.setSlot n x).cmd.hostHeld = s.cmd.hostHeld := rfl
@[simp] theorem State.setSlot_cmd_snoops (s : State) (n : Nat) (x : Slot) : (s.setSlot n x).cmd.snoops = s.cmd.snoops := rfl
@[simp] theorem State.setSlot_cmd_areaValid (s : State) (n : Nat) (x : Slot) : (s.setSlot n x).cmd.areaValid = s.cmd.areaValid := rfl
@[simp] theorem State.setSlot_cmd_areaSecure (s : State) (n : Nat) (x : Slot) : (s.setSlot n x).cmd.areaSecure = s.cmd.areaSecure := rfl
@[simp] theorem State.setSlot_cmd_area (s : State) (n : Nat) (x : Slot) : (s.setSlot n x).cmd.area = s.cmd.area := rfl
@[simp] theorem State.setSlot_cmd_vector (s : State) (n : Nat) (x : Slot) : (s.setSlot n x).cmd.vector = s.cmd.vector := rfl
@[simp] theorem State.setSlot_cmd_intEn (s : State) (n : Nat) (x : Slot) : (s.setSlot n x).cmd.intEn = s.cmd.intEn := rfl
@[simp] theorem State.setSlot_cmd_lastSlot (s : State) (n : Nat) (x : Slot) : (s.setSlot n x).cmd.lastSlot = s.cmd.lastSlot := rfl
@[simp] theorem State.setSlot_cmd_resp (s : State) (n : Nat) (x : Slot) : (s.setSlot n x).cmd.resp = s.cmd.resp := rfl
@[simp] theorem State.setSlot_cmd_heldRecords (s : State) (n : Nat) (x : Slot) : (s.setSlot n x).cmd.heldRecords = s.cmd.heldRecords := rfl
@[simp] theorem State.setSlot_cmd_unsaved (s : State) (n : Nat) (x : Slot) : (s.setSlot n x).cmd.unsaved = s.cmd.unsaved := rfl
@[simp] theorem State.setSlot_cmd_areaRefused (s : State) (n : Nat) (x : Slot) : (s.setSlot n x).cmd.areaRefused = s.cmd.areaRefused := rfl
@[simp] theorem State.setSlot_cmd_reports (s : State) (n : Nat) (x : Slot) : (s.setSlot n x).cmd.reports = s.cmd.reports := rfl
@[simp] theorem State.setSlot_cmd_msgs (s : State) (n : Nat) (x : Slot) : (s.setSlot n x).cmd.msgs = s.cmd.msgs := rfl
@[simp] theorem State.setSlot_cmd_readData (s : State) (n : Nat) (x : Slot) : (s.setSlot n x).cmd.readData = s.cmd.readData := rfl

@[simp] theorem State.tile_setSlot (s : State) (n : Nat) (x : Slot) (t' : Nat) : (s.setSlot n x).tile t' = s.tile t' := rfl
@[simp] theorem State.ctx_setSlot (s : State) (n : Nat) (x : Slot) (c' : Nat) : (s.setSlot n x).ctx c' = s.ctx c' := rfl
@[simp] theorem State.cad_setSlot (s : State) (n : Nat) (x : Slot) (k' : Nat) : (s.setSlot n x).cad k' = s.cad k' := rfl
@[simp] theorem State.mover_setSlot (s : State) (n : Nat) (x : Slot) (b' m' : Nat) : (s.setSlot n x).mover b' m' = s.mover b' m' := rfl
@[simp] theorem State.expander_setSlot (s : State) (n : Nat) (x : Slot) (n' : Nat) : (s.setSlot n x).expander n' = s.expander n' := rfl
@[simp] theorem State.ctr_setSlot (s : State) (n : Nat) (x : Slot) (n' : Nat) : (s.setSlot n x).ctr n' = s.ctr n' := rfl
@[simp] theorem State.port_setSlot (s : State) (n : Nat) (x : Slot) (p' : Nat) : (s.setSlot n x).port p' = s.port p' := rfl
@[simp] theorem State.fqueue_setSlot (s : State) (n : Nat) (x : Slot) (b' q' : Nat) : (s.setSlot n x).fqueue b' q' = s.fqueue b' q' := rfl
@[simp] theorem State.rail_setSlot (s : State) (n : Nat) (x : Slot) (r' : Nat) : (s.setSlot n x).rail r' = s.rail r' := rfl
@[simp] theorem State.monitor_setSlot (s : State) (n : Nat) (x : Slot) (m' : Nat) : (s.setSlot n x).monitor m' = s.monitor m' := rfl
@[simp] theorem State.cell_setSlot (s : State) (n : Nat) (x : Slot) (c' : Nat) : (s.setSlot n x).cell c' = s.cell c' := rfl
@[simp] theorem State.gov_setSlot (s : State) (n : Nat) (x : Slot) (t' : Nat) : (s.setSlot n x).gov t' = s.gov t' := rfl

/-! ### `State.setRail` -/

@[simp] theorem State.setRail_pending (s : State) (r : Nat) (x : Rail) : (s.setRail r x).pending = s.pending := rfl
@[simp] theorem State.setRail_top (s : State) (r : Nat) (x : Rail) : (s.setRail r x).top = s.top := rfl
@[simp] theorem State.setRail_clk (s : State) (r : Nat) (x : Rail) : (s.setRail r x).clk = s.clk := rfl
@[simp] theorem State.setRail_tiles (s : State) (r : Nat) (x : Rail) : (s.setRail r x).tiles = s.tiles := rfl
@[simp] theorem State.setRail_mem (s : State) (r : Nat) (x : Rail) : (s.setRail r x).mem = s.mem := rfl
@[simp] theorem State.setRail_mmu (s : State) (r : Nat) (x : Rail) : (s.setRail r x).mmu = s.mmu := rfl
@[simp] theorem State.setRail_eng (s : State) (r : Nat) (x : Rail) : (s.setRail r x).eng = s.eng := rfl
@[simp] theorem State.setRail_gz (s : State) (r : Nat) (x : Rail) : (s.setRail r x).gz = s.gz := rfl
@[simp] theorem State.setRail_cmd (s : State) (r : Nat) (x : Rail) : (s.setRail r x).cmd = s.cmd := rfl
@[simp] theorem State.setRail_ctxs (s : State) (r : Nat) (x : Rail) : (s.setRail r x).ctxs = s.ctxs := rfl
@[simp] theorem State.setRail_cads (s : State) (r : Nat) (x : Rail) : (s.setRail r x).cads = s.cads := rfl
@[simp] theorem State.setRail_gvn (s : State) (r : Nat) (x : Rail) : (s.setRail r x).gvn = s.gvn := rfl
@[simp] theorem State.setRail_res (s : State) (r : Nat) (x : Rail) : (s.setRail r x).res = s.res := rfl
@[simp] theorem State.setRail_rfw (s : State) (r : Nat) (x : Rail) : (s.setRail r x).rfw = s.rfw := rfl
@[simp] theorem State.setRail_clm (s : State) (r : Nat) (x : Rail) : (s.setRail r x).clm = s.clm := rfl
@[simp] theorem State.setRail_pairs (s : State) (r : Nat) (x : Rail) : (s.setRail r x).pairs = s.pairs := rfl
@[simp] theorem State.setRail_err (s : State) (r : Nat) (x : Rail) : (s.setRail r x).err = s.err := rfl
@[simp] theorem State.setRail_trust (s : State) (r : Nat) (x : Rail) : (s.setRail r x).trust = s.trust := rfl
@[simp] theorem State.setRail_free (s : State) (r : Nat) (x : Rail) : (s.setRail r x).free = s.free := rfl
@[simp] theorem State.setRail_pow_pin (s : State) (r : Nat) (x : Rail) : (s.setRail r x).pow.pin = s.pow.pin := rfl
@[simp] theorem State.setRail_pow_conv (s : State) (r : Nat) (x : Rail) : (s.setRail r x).pow.conv = s.pow.conv := rfl
@[simp] theorem State.setRail_pow_loads (s : State) (r : Nat) (x : Rail) : (s.setRail r x).pow.loads = s.pow.loads := rfl
@[simp] theorem State.setRail_pow_railEnergy (s : State) (r : Nat) (x : Rail) : (s.setRail r x).pow.railEnergy = s.pow.railEnergy := rfl
@[simp] theorem State.setRail_pow_loadEnergy (s : State) (r : Nat) (x : Rail) : (s.setRail r x).pow.loadEnergy = s.pow.loadEnergy := rfl
@[simp] theorem State.setRail_pow_window (s : State) (r : Nat) (x : Rail) : (s.setRail r x).pow.window = s.pow.window := rfl
@[simp] theorem State.setRail_pow_gov (s : State) (r : Nat) (x : Rail) : (s.setRail r x).pow.gov = s.pow.gov := rfl
@[simp] theorem State.setRail_pow_up (s : State) (r : Nat) (x : Rail) : (s.setRail r x).pow.up = s.pow.up := rfl
@[simp] theorem State.setRail_pow_down (s : State) (r : Nat) (x : Rail) : (s.setRail r x).pow.down = s.pow.down := rfl
@[simp] theorem State.setRail_pow_staggerEn (s : State) (r : Nat) (x : Rail) : (s.setRail r x).pow.staggerEn = s.pow.staggerEn := rfl
@[simp] theorem State.setRail_pow_level (s : State) (r : Nat) (x : Rail) : (s.setRail r x).pow.level = s.pow.level := rfl
@[simp] theorem State.setRail_pow_next (s : State) (r : Nat) (x : Rail) : (s.setRail r x).pow.next = s.pow.next := rfl
@[simp] theorem State.setRail_pow_paceArmed (s : State) (r : Nat) (x : Rail) : (s.setRail r x).pow.paceArmed = s.pow.paceArmed := rfl
@[simp] theorem State.setRail_pow_paceAt (s : State) (r : Nat) (x : Rail) : (s.setRail r x).pow.paceAt = s.pow.paceAt := rfl
@[simp] theorem State.setRail_pow_floor (s : State) (r : Nat) (x : Rail) : (s.setRail r x).pow.floor = s.pow.floor := rfl
@[simp] theorem State.setRail_pow_fwForce (s : State) (r : Nat) (x : Rail) : (s.setRail r x).pow.fwForce = s.pow.fwForce := rfl
@[simp] theorem State.setRail_pow_source (s : State) (r : Nat) (x : Rail) : (s.setRail r x).pow.source = s.pow.source := rfl
@[simp] theorem State.setRail_pow_thermal (s : State) (r : Nat) (x : Rail) : (s.setRail r x).pow.thermal = s.pow.thermal := rfl
@[simp] theorem State.setRail_pow_firmware (s : State) (r : Nat) (x : Rail) : (s.setRail r x).pow.firmware = s.pow.firmware := rfl
@[simp] theorem State.setRail_pow_clearRefused (s : State) (r : Nat) (x : Rail) : (s.setRail r x).pow.clearRefused = s.pow.clearRefused := rfl
@[simp] theorem State.setRail_pow_floorCount (s : State) (r : Nat) (x : Rail) : (s.setRail r x).pow.floorCount = s.pow.floorCount := rfl
@[simp] theorem State.setRail_pow_stored (s : State) (r : Nat) (x : Rail) : (s.setRail r x).pow.stored = s.pow.stored := rfl

@[simp] theorem State.tile_setRail (s : State) (r : Nat) (x : Rail) (t' : Nat) : (s.setRail r x).tile t' = s.tile t' := rfl
@[simp] theorem State.ctx_setRail (s : State) (r : Nat) (x : Rail) (c' : Nat) : (s.setRail r x).ctx c' = s.ctx c' := rfl
@[simp] theorem State.cad_setRail (s : State) (r : Nat) (x : Rail) (k' : Nat) : (s.setRail r x).cad k' = s.cad k' := rfl
@[simp] theorem State.mover_setRail (s : State) (r : Nat) (x : Rail) (b' m' : Nat) : (s.setRail r x).mover b' m' = s.mover b' m' := rfl
@[simp] theorem State.expander_setRail (s : State) (r : Nat) (x : Rail) (n' : Nat) : (s.setRail r x).expander n' = s.expander n' := rfl
@[simp] theorem State.ctr_setRail (s : State) (r : Nat) (x : Rail) (n' : Nat) : (s.setRail r x).ctr n' = s.ctr n' := rfl
@[simp] theorem State.port_setRail (s : State) (r : Nat) (x : Rail) (p' : Nat) : (s.setRail r x).port p' = s.port p' := rfl
@[simp] theorem State.fqueue_setRail (s : State) (r : Nat) (x : Rail) (b' q' : Nat) : (s.setRail r x).fqueue b' q' = s.fqueue b' q' := rfl
@[simp] theorem State.slotOf_setRail (s : State) (r : Nat) (x : Rail) (n' : Nat) : (s.setRail r x).slotOf n' = s.slotOf n' := rfl
@[simp] theorem State.monitor_setRail (s : State) (r : Nat) (x : Rail) (m' : Nat) : (s.setRail r x).monitor m' = s.monitor m' := rfl
@[simp] theorem State.cell_setRail (s : State) (r : Nat) (x : Rail) (c' : Nat) : (s.setRail r x).cell c' = s.cell c' := rfl
@[simp] theorem State.gov_setRail (s : State) (r : Nat) (x : Rail) (t' : Nat) : (s.setRail r x).gov t' = s.gov t' := rfl

/-! ### `State.setMonitor` -/

@[simp] theorem State.setMonitor_pending (s : State) (m : Nat) (x : Monitor) : (s.setMonitor m x).pending = s.pending := rfl
@[simp] theorem State.setMonitor_top (s : State) (m : Nat) (x : Monitor) : (s.setMonitor m x).top = s.top := rfl
@[simp] theorem State.setMonitor_clk (s : State) (m : Nat) (x : Monitor) : (s.setMonitor m x).clk = s.clk := rfl
@[simp] theorem State.setMonitor_tiles (s : State) (m : Nat) (x : Monitor) : (s.setMonitor m x).tiles = s.tiles := rfl
@[simp] theorem State.setMonitor_mem (s : State) (m : Nat) (x : Monitor) : (s.setMonitor m x).mem = s.mem := rfl
@[simp] theorem State.setMonitor_mmu (s : State) (m : Nat) (x : Monitor) : (s.setMonitor m x).mmu = s.mmu := rfl
@[simp] theorem State.setMonitor_eng (s : State) (m : Nat) (x : Monitor) : (s.setMonitor m x).eng = s.eng := rfl
@[simp] theorem State.setMonitor_gz (s : State) (m : Nat) (x : Monitor) : (s.setMonitor m x).gz = s.gz := rfl
@[simp] theorem State.setMonitor_cmd (s : State) (m : Nat) (x : Monitor) : (s.setMonitor m x).cmd = s.cmd := rfl
@[simp] theorem State.setMonitor_ctxs (s : State) (m : Nat) (x : Monitor) : (s.setMonitor m x).ctxs = s.ctxs := rfl
@[simp] theorem State.setMonitor_cads (s : State) (m : Nat) (x : Monitor) : (s.setMonitor m x).cads = s.cads := rfl
@[simp] theorem State.setMonitor_pow (s : State) (m : Nat) (x : Monitor) : (s.setMonitor m x).pow = s.pow := rfl
@[simp] theorem State.setMonitor_gvn (s : State) (m : Nat) (x : Monitor) : (s.setMonitor m x).gvn = s.gvn := rfl
@[simp] theorem State.setMonitor_rfw (s : State) (m : Nat) (x : Monitor) : (s.setMonitor m x).rfw = s.rfw := rfl
@[simp] theorem State.setMonitor_clm (s : State) (m : Nat) (x : Monitor) : (s.setMonitor m x).clm = s.clm := rfl
@[simp] theorem State.setMonitor_pairs (s : State) (m : Nat) (x : Monitor) : (s.setMonitor m x).pairs = s.pairs := rfl
@[simp] theorem State.setMonitor_err (s : State) (m : Nat) (x : Monitor) : (s.setMonitor m x).err = s.err := rfl
@[simp] theorem State.setMonitor_trust (s : State) (m : Nat) (x : Monitor) : (s.setMonitor m x).trust = s.trust := rfl
@[simp] theorem State.setMonitor_free (s : State) (m : Nat) (x : Monitor) : (s.setMonitor m x).free = s.free := rfl
@[simp] theorem State.setMonitor_res_convEn (s : State) (m : Nat) (x : Monitor) : (s.setMonitor m x).res.convEn = s.res.convEn := rfl
@[simp] theorem State.setMonitor_res_bleedEn (s : State) (m : Nat) (x : Monitor) : (s.setMonitor m x).res.bleedEn = s.res.bleedEn := rfl
@[simp] theorem State.setMonitor_res_sweepMs (s : State) (m : Nat) (x : Monitor) : (s.setMonitor m x).res.sweepMs = s.res.sweepMs := rfl
@[simp] theorem State.setMonitor_res_settleUs (s : State) (m : Nat) (x : Monitor) : (s.setMonitor m x).res.settleUs = s.res.settleUs := rfl
@[simp] theorem State.setMonitor_res_pinTarget (s : State) (m : Nat) (x : Monitor) : (s.setMonitor m x).res.pinTarget = s.res.pinTarget := rfl
@[simp] theorem State.setMonitor_res_chgLim (s : State) (m : Nat) (x : Monitor) : (s.setMonitor m x).res.chgLim = s.res.chgLim := rfl
@[simp] theorem State.setMonitor_res_disLim (s : State) (m : Nat) (x : Monitor) : (s.setMonitor m x).res.disLim = s.res.disLim := rfl
@[simp] theorem State.setMonitor_res_mode (s : State) (m : Nat) (x : Monitor) : (s.setMonitor m x).res.mode = s.res.mode := rfl
@[simp] theorem State.setMonitor_res_ring (s : State) (m : Nat) (x : Monitor) : (s.setMonitor m x).res.ring = s.res.ring := rfl
@[simp] theorem State.setMonitor_res_ident (s : State) (m : Nat) (x : Monitor) : (s.setMonitor m x).res.ident = s.res.ident := rfl
@[simp] theorem State.setMonitor_res_needsLearn (s : State) (m : Nat) (x : Monitor) : (s.setMonitor m x).res.needsLearn = s.res.needsLearn := rfl
@[simp] theorem State.setMonitor_res_eoc (s : State) (m : Nat) (x : Monitor) : (s.setMonitor m x).res.eoc = s.res.eoc := rfl
@[simp] theorem State.setMonitor_res_eod (s : State) (m : Nat) (x : Monitor) : (s.setMonitor m x).res.eod = s.res.eod := rfl
@[simp] theorem State.setMonitor_res_splits (s : State) (m : Nat) (x : Monitor) : (s.setMonitor m x).res.splits = s.res.splits := rfl
@[simp] theorem State.setMonitor_res_learnDq (s : State) (m : Nat) (x : Monitor) : (s.setMonitor m x).res.learnDq = s.res.learnDq := rfl
@[simp] theorem State.setMonitor_res_raw (s : State) (m : Nat) (x : Monitor) : (s.setMonitor m x).res.raw = s.res.raw := rfl
@[simp] theorem State.setMonitor_res_rep (s : State) (m : Nat) (x : Monitor) : (s.setMonitor m x).res.rep = s.res.rep := rfl
@[simp] theorem State.setMonitor_res_sorPct (s : State) (m : Nat) (x : Monitor) : (s.setMonitor m x).res.sorPct = s.res.sorPct := rfl
@[simp] theorem State.setMonitor_res_chgStop (s : State) (m : Nat) (x : Monitor) : (s.setMonitor m x).res.chgStop = s.res.chgStop := rfl
@[simp] theorem State.setMonitor_res_disStop (s : State) (m : Nat) (x : Monitor) : (s.setMonitor m x).res.disStop = s.res.disStop := rfl
@[simp] theorem State.setMonitor_res_zHigh (s : State) (m : Nat) (x : Monitor) : (s.setMonitor m x).res.zHigh = s.res.zHigh := rfl
@[simp] theorem State.setMonitor_res_zLow (s : State) (m : Nat) (x : Monitor) : (s.setMonitor m x).res.zLow = s.res.zLow := rfl
@[simp] theorem State.setMonitor_res_hot (s : State) (m : Nat) (x : Monitor) : (s.setMonitor m x).res.hot = s.res.hot := rfl
@[simp] theorem State.setMonitor_res_tempOff (s : State) (m : Nat) (x : Monitor) : (s.setMonitor m x).res.tempOff = s.res.tempOff := rfl
@[simp] theorem State.setMonitor_res_chgKeep (s : State) (m : Nat) (x : Monitor) : (s.setMonitor m x).res.chgKeep = s.res.chgKeep := rfl
@[simp] theorem State.setMonitor_res_disKeep (s : State) (m : Nat) (x : Monitor) : (s.setMonitor m x).res.disKeep = s.res.disKeep := rfl
@[simp] theorem State.setMonitor_res_shutOff (s : State) (m : Nat) (x : Monitor) : (s.setMonitor m x).res.shutOff = s.res.shutOff := rfl
@[simp] theorem State.setMonitor_res_unmeasured (s : State) (m : Nat) (x : Monitor) : (s.setMonitor m x).res.unmeasured = s.res.unmeasured := rfl
@[simp] theorem State.setMonitor_res_under (s : State) (m : Nat) (x : Monitor) : (s.setMonitor m x).res.under = s.res.under := rfl
@[simp] theorem State.setMonitor_res_interlock (s : State) (m : Nat) (x : Monitor) : (s.setMonitor m x).res.interlock = s.res.interlock := rfl
@[simp] theorem State.setMonitor_res_enumDue (s : State) (m : Nat) (x : Monitor) : (s.setMonitor m x).res.enumDue = s.res.enumDue := rfl
@[simp] theorem State.setMonitor_res_settled (s : State) (m : Nat) (x : Monitor) : (s.setMonitor m x).res.settled = s.res.settled := rfl
@[simp] theorem State.setMonitor_res_cells (s : State) (m : Nat) (x : Monitor) : (s.setMonitor m x).res.cells = s.res.cells := rfl
@[simp] theorem State.setMonitor_res_tag (s : State) (m : Nat) (x : Monitor) : (s.setMonitor m x).res.tag = s.res.tag := rfl
@[simp] theorem State.setMonitor_res_sample (s : State) (m : Nat) (x : Monitor) : (s.setMonitor m x).res.sample = s.res.sample := rfl
@[simp] theorem State.setMonitor_res_last (s : State) (m : Nat) (x : Monitor) : (s.setMonitor m x).res.last = s.res.last := rfl
@[simp] theorem State.setMonitor_res_sample2 (s : State) (m : Nat) (x : Monitor) : (s.setMonitor m x).res.sample2 = s.res.sample2 := rfl
@[simp] theorem State.setMonitor_res_splitMons (s : State) (m : Nat) (x : Monitor) : (s.setMonitor m x).res.splitMons = s.res.splitMons := rfl
@[simp] theorem State.setMonitor_res_readback (s : State) (m : Nat) (x : Monitor) : (s.setMonitor m x).res.readback = s.res.readback := rfl
@[simp] theorem State.setMonitor_res_lastSweep (s : State) (m : Nat) (x : Monitor) : (s.setMonitor m x).res.lastSweep = s.res.lastSweep := rfl
@[simp] theorem State.setMonitor_res_first (s : State) (m : Nat) (x : Monitor) : (s.setMonitor m x).res.first = s.res.first := rfl
@[simp] theorem State.setMonitor_res_lastSplit (s : State) (m : Nat) (x : Monitor) : (s.setMonitor m x).res.lastSplit = s.res.lastSplit := rfl
@[simp] theorem State.setMonitor_res_charge (s : State) (m : Nat) (x : Monitor) : (s.setMonitor m x).res.charge = s.res.charge := rfl
@[simp] theorem State.setMonitor_res_restSince (s : State) (m : Nat) (x : Monitor) : (s.setMonitor m x).res.restSince = s.res.restSince := rfl
@[simp] theorem State.setMonitor_res_restLearn (s : State) (m : Nat) (x : Monitor) : (s.setMonitor m x).res.restLearn = s.res.restLearn := rfl
@[simp] theorem State.setMonitor_res_anchor (s : State) (m : Nat) (x : Monitor) : (s.setMonitor m x).res.anchor = s.res.anchor := rfl

@[simp] theorem State.tile_setMonitor (s : State) (m : Nat) (x : Monitor) (t' : Nat) : (s.setMonitor m x).tile t' = s.tile t' := rfl
@[simp] theorem State.ctx_setMonitor (s : State) (m : Nat) (x : Monitor) (c' : Nat) : (s.setMonitor m x).ctx c' = s.ctx c' := rfl
@[simp] theorem State.cad_setMonitor (s : State) (m : Nat) (x : Monitor) (k' : Nat) : (s.setMonitor m x).cad k' = s.cad k' := rfl
@[simp] theorem State.mover_setMonitor (s : State) (m : Nat) (x : Monitor) (b' m' : Nat) : (s.setMonitor m x).mover b' m' = s.mover b' m' := rfl
@[simp] theorem State.expander_setMonitor (s : State) (m : Nat) (x : Monitor) (n' : Nat) : (s.setMonitor m x).expander n' = s.expander n' := rfl
@[simp] theorem State.ctr_setMonitor (s : State) (m : Nat) (x : Monitor) (n' : Nat) : (s.setMonitor m x).ctr n' = s.ctr n' := rfl
@[simp] theorem State.port_setMonitor (s : State) (m : Nat) (x : Monitor) (p' : Nat) : (s.setMonitor m x).port p' = s.port p' := rfl
@[simp] theorem State.fqueue_setMonitor (s : State) (m : Nat) (x : Monitor) (b' q' : Nat) : (s.setMonitor m x).fqueue b' q' = s.fqueue b' q' := rfl
@[simp] theorem State.slotOf_setMonitor (s : State) (m : Nat) (x : Monitor) (n' : Nat) : (s.setMonitor m x).slotOf n' = s.slotOf n' := rfl
@[simp] theorem State.rail_setMonitor (s : State) (m : Nat) (x : Monitor) (r' : Nat) : (s.setMonitor m x).rail r' = s.rail r' := rfl
@[simp] theorem State.cell_setMonitor (s : State) (m : Nat) (x : Monitor) (c' : Nat) : (s.setMonitor m x).cell c' = s.cell c' := rfl
@[simp] theorem State.gov_setMonitor (s : State) (m : Nat) (x : Monitor) (t' : Nat) : (s.setMonitor m x).gov t' = s.gov t' := rfl

/-! ### `State.setCell` -/

@[simp] theorem State.setCell_pending (s : State) (c : Nat) (x : Cell) : (s.setCell c x).pending = s.pending := rfl
@[simp] theorem State.setCell_top (s : State) (c : Nat) (x : Cell) : (s.setCell c x).top = s.top := rfl
@[simp] theorem State.setCell_clk (s : State) (c : Nat) (x : Cell) : (s.setCell c x).clk = s.clk := rfl
@[simp] theorem State.setCell_tiles (s : State) (c : Nat) (x : Cell) : (s.setCell c x).tiles = s.tiles := rfl
@[simp] theorem State.setCell_mem (s : State) (c : Nat) (x : Cell) : (s.setCell c x).mem = s.mem := rfl
@[simp] theorem State.setCell_mmu (s : State) (c : Nat) (x : Cell) : (s.setCell c x).mmu = s.mmu := rfl
@[simp] theorem State.setCell_eng (s : State) (c : Nat) (x : Cell) : (s.setCell c x).eng = s.eng := rfl
@[simp] theorem State.setCell_gz (s : State) (c : Nat) (x : Cell) : (s.setCell c x).gz = s.gz := rfl
@[simp] theorem State.setCell_cmd (s : State) (c : Nat) (x : Cell) : (s.setCell c x).cmd = s.cmd := rfl
@[simp] theorem State.setCell_ctxs (s : State) (c : Nat) (x : Cell) : (s.setCell c x).ctxs = s.ctxs := rfl
@[simp] theorem State.setCell_cads (s : State) (c : Nat) (x : Cell) : (s.setCell c x).cads = s.cads := rfl
@[simp] theorem State.setCell_pow (s : State) (c : Nat) (x : Cell) : (s.setCell c x).pow = s.pow := rfl
@[simp] theorem State.setCell_gvn (s : State) (c : Nat) (x : Cell) : (s.setCell c x).gvn = s.gvn := rfl
@[simp] theorem State.setCell_rfw (s : State) (c : Nat) (x : Cell) : (s.setCell c x).rfw = s.rfw := rfl
@[simp] theorem State.setCell_clm (s : State) (c : Nat) (x : Cell) : (s.setCell c x).clm = s.clm := rfl
@[simp] theorem State.setCell_pairs (s : State) (c : Nat) (x : Cell) : (s.setCell c x).pairs = s.pairs := rfl
@[simp] theorem State.setCell_err (s : State) (c : Nat) (x : Cell) : (s.setCell c x).err = s.err := rfl
@[simp] theorem State.setCell_trust (s : State) (c : Nat) (x : Cell) : (s.setCell c x).trust = s.trust := rfl
@[simp] theorem State.setCell_free (s : State) (c : Nat) (x : Cell) : (s.setCell c x).free = s.free := rfl
@[simp] theorem State.setCell_res_convEn (s : State) (c : Nat) (x : Cell) : (s.setCell c x).res.convEn = s.res.convEn := rfl
@[simp] theorem State.setCell_res_bleedEn (s : State) (c : Nat) (x : Cell) : (s.setCell c x).res.bleedEn = s.res.bleedEn := rfl
@[simp] theorem State.setCell_res_sweepMs (s : State) (c : Nat) (x : Cell) : (s.setCell c x).res.sweepMs = s.res.sweepMs := rfl
@[simp] theorem State.setCell_res_settleUs (s : State) (c : Nat) (x : Cell) : (s.setCell c x).res.settleUs = s.res.settleUs := rfl
@[simp] theorem State.setCell_res_pinTarget (s : State) (c : Nat) (x : Cell) : (s.setCell c x).res.pinTarget = s.res.pinTarget := rfl
@[simp] theorem State.setCell_res_chgLim (s : State) (c : Nat) (x : Cell) : (s.setCell c x).res.chgLim = s.res.chgLim := rfl
@[simp] theorem State.setCell_res_disLim (s : State) (c : Nat) (x : Cell) : (s.setCell c x).res.disLim = s.res.disLim := rfl
@[simp] theorem State.setCell_res_mode (s : State) (c : Nat) (x : Cell) : (s.setCell c x).res.mode = s.res.mode := rfl
@[simp] theorem State.setCell_res_ring (s : State) (c : Nat) (x : Cell) : (s.setCell c x).res.ring = s.res.ring := rfl
@[simp] theorem State.setCell_res_ident (s : State) (c : Nat) (x : Cell) : (s.setCell c x).res.ident = s.res.ident := rfl
@[simp] theorem State.setCell_res_needsLearn (s : State) (c : Nat) (x : Cell) : (s.setCell c x).res.needsLearn = s.res.needsLearn := rfl
@[simp] theorem State.setCell_res_eoc (s : State) (c : Nat) (x : Cell) : (s.setCell c x).res.eoc = s.res.eoc := rfl
@[simp] theorem State.setCell_res_eod (s : State) (c : Nat) (x : Cell) : (s.setCell c x).res.eod = s.res.eod := rfl
@[simp] theorem State.setCell_res_splits (s : State) (c : Nat) (x : Cell) : (s.setCell c x).res.splits = s.res.splits := rfl
@[simp] theorem State.setCell_res_learnDq (s : State) (c : Nat) (x : Cell) : (s.setCell c x).res.learnDq = s.res.learnDq := rfl
@[simp] theorem State.setCell_res_raw (s : State) (c : Nat) (x : Cell) : (s.setCell c x).res.raw = s.res.raw := rfl
@[simp] theorem State.setCell_res_rep (s : State) (c : Nat) (x : Cell) : (s.setCell c x).res.rep = s.res.rep := rfl
@[simp] theorem State.setCell_res_sorPct (s : State) (c : Nat) (x : Cell) : (s.setCell c x).res.sorPct = s.res.sorPct := rfl
@[simp] theorem State.setCell_res_chgStop (s : State) (c : Nat) (x : Cell) : (s.setCell c x).res.chgStop = s.res.chgStop := rfl
@[simp] theorem State.setCell_res_disStop (s : State) (c : Nat) (x : Cell) : (s.setCell c x).res.disStop = s.res.disStop := rfl
@[simp] theorem State.setCell_res_zHigh (s : State) (c : Nat) (x : Cell) : (s.setCell c x).res.zHigh = s.res.zHigh := rfl
@[simp] theorem State.setCell_res_zLow (s : State) (c : Nat) (x : Cell) : (s.setCell c x).res.zLow = s.res.zLow := rfl
@[simp] theorem State.setCell_res_hot (s : State) (c : Nat) (x : Cell) : (s.setCell c x).res.hot = s.res.hot := rfl
@[simp] theorem State.setCell_res_tempOff (s : State) (c : Nat) (x : Cell) : (s.setCell c x).res.tempOff = s.res.tempOff := rfl
@[simp] theorem State.setCell_res_chgKeep (s : State) (c : Nat) (x : Cell) : (s.setCell c x).res.chgKeep = s.res.chgKeep := rfl
@[simp] theorem State.setCell_res_disKeep (s : State) (c : Nat) (x : Cell) : (s.setCell c x).res.disKeep = s.res.disKeep := rfl
@[simp] theorem State.setCell_res_shutOff (s : State) (c : Nat) (x : Cell) : (s.setCell c x).res.shutOff = s.res.shutOff := rfl
@[simp] theorem State.setCell_res_unmeasured (s : State) (c : Nat) (x : Cell) : (s.setCell c x).res.unmeasured = s.res.unmeasured := rfl
@[simp] theorem State.setCell_res_under (s : State) (c : Nat) (x : Cell) : (s.setCell c x).res.under = s.res.under := rfl
@[simp] theorem State.setCell_res_interlock (s : State) (c : Nat) (x : Cell) : (s.setCell c x).res.interlock = s.res.interlock := rfl
@[simp] theorem State.setCell_res_enumDue (s : State) (c : Nat) (x : Cell) : (s.setCell c x).res.enumDue = s.res.enumDue := rfl
@[simp] theorem State.setCell_res_settled (s : State) (c : Nat) (x : Cell) : (s.setCell c x).res.settled = s.res.settled := rfl
@[simp] theorem State.setCell_res_monitors (s : State) (c : Nat) (x : Cell) : (s.setCell c x).res.monitors = s.res.monitors := rfl
@[simp] theorem State.setCell_res_tag (s : State) (c : Nat) (x : Cell) : (s.setCell c x).res.tag = s.res.tag := rfl
@[simp] theorem State.setCell_res_sample (s : State) (c : Nat) (x : Cell) : (s.setCell c x).res.sample = s.res.sample := rfl
@[simp] theorem State.setCell_res_last (s : State) (c : Nat) (x : Cell) : (s.setCell c x).res.last = s.res.last := rfl
@[simp] theorem State.setCell_res_sample2 (s : State) (c : Nat) (x : Cell) : (s.setCell c x).res.sample2 = s.res.sample2 := rfl
@[simp] theorem State.setCell_res_splitMons (s : State) (c : Nat) (x : Cell) : (s.setCell c x).res.splitMons = s.res.splitMons := rfl
@[simp] theorem State.setCell_res_readback (s : State) (c : Nat) (x : Cell) : (s.setCell c x).res.readback = s.res.readback := rfl
@[simp] theorem State.setCell_res_lastSweep (s : State) (c : Nat) (x : Cell) : (s.setCell c x).res.lastSweep = s.res.lastSweep := rfl
@[simp] theorem State.setCell_res_first (s : State) (c : Nat) (x : Cell) : (s.setCell c x).res.first = s.res.first := rfl
@[simp] theorem State.setCell_res_lastSplit (s : State) (c : Nat) (x : Cell) : (s.setCell c x).res.lastSplit = s.res.lastSplit := rfl
@[simp] theorem State.setCell_res_charge (s : State) (c : Nat) (x : Cell) : (s.setCell c x).res.charge = s.res.charge := rfl
@[simp] theorem State.setCell_res_restSince (s : State) (c : Nat) (x : Cell) : (s.setCell c x).res.restSince = s.res.restSince := rfl
@[simp] theorem State.setCell_res_restLearn (s : State) (c : Nat) (x : Cell) : (s.setCell c x).res.restLearn = s.res.restLearn := rfl
@[simp] theorem State.setCell_res_anchor (s : State) (c : Nat) (x : Cell) : (s.setCell c x).res.anchor = s.res.anchor := rfl

@[simp] theorem State.tile_setCell (s : State) (c : Nat) (x : Cell) (t' : Nat) : (s.setCell c x).tile t' = s.tile t' := rfl
@[simp] theorem State.ctx_setCell (s : State) (c : Nat) (x : Cell) (c' : Nat) : (s.setCell c x).ctx c' = s.ctx c' := rfl
@[simp] theorem State.cad_setCell (s : State) (c : Nat) (x : Cell) (k' : Nat) : (s.setCell c x).cad k' = s.cad k' := rfl
@[simp] theorem State.mover_setCell (s : State) (c : Nat) (x : Cell) (b' m' : Nat) : (s.setCell c x).mover b' m' = s.mover b' m' := rfl
@[simp] theorem State.expander_setCell (s : State) (c : Nat) (x : Cell) (n' : Nat) : (s.setCell c x).expander n' = s.expander n' := rfl
@[simp] theorem State.ctr_setCell (s : State) (c : Nat) (x : Cell) (n' : Nat) : (s.setCell c x).ctr n' = s.ctr n' := rfl
@[simp] theorem State.port_setCell (s : State) (c : Nat) (x : Cell) (p' : Nat) : (s.setCell c x).port p' = s.port p' := rfl
@[simp] theorem State.fqueue_setCell (s : State) (c : Nat) (x : Cell) (b' q' : Nat) : (s.setCell c x).fqueue b' q' = s.fqueue b' q' := rfl
@[simp] theorem State.slotOf_setCell (s : State) (c : Nat) (x : Cell) (n' : Nat) : (s.setCell c x).slotOf n' = s.slotOf n' := rfl
@[simp] theorem State.rail_setCell (s : State) (c : Nat) (x : Cell) (r' : Nat) : (s.setCell c x).rail r' = s.rail r' := rfl
@[simp] theorem State.monitor_setCell (s : State) (c : Nat) (x : Cell) (m' : Nat) : (s.setCell c x).monitor m' = s.monitor m' := rfl
@[simp] theorem State.gov_setCell (s : State) (c : Nat) (x : Cell) (t' : Nat) : (s.setCell c x).gov t' = s.gov t' := rfl

/-! ### `State.setGov` -/

@[simp] theorem State.setGov_pending (s : State) (t : Nat) (x : Gov) : (s.setGov t x).pending = s.pending := rfl
@[simp] theorem State.setGov_top (s : State) (t : Nat) (x : Gov) : (s.setGov t x).top = s.top := rfl
@[simp] theorem State.setGov_clk (s : State) (t : Nat) (x : Gov) : (s.setGov t x).clk = s.clk := rfl
@[simp] theorem State.setGov_tiles (s : State) (t : Nat) (x : Gov) : (s.setGov t x).tiles = s.tiles := rfl
@[simp] theorem State.setGov_mem (s : State) (t : Nat) (x : Gov) : (s.setGov t x).mem = s.mem := rfl
@[simp] theorem State.setGov_mmu (s : State) (t : Nat) (x : Gov) : (s.setGov t x).mmu = s.mmu := rfl
@[simp] theorem State.setGov_eng (s : State) (t : Nat) (x : Gov) : (s.setGov t x).eng = s.eng := rfl
@[simp] theorem State.setGov_gz (s : State) (t : Nat) (x : Gov) : (s.setGov t x).gz = s.gz := rfl
@[simp] theorem State.setGov_cmd (s : State) (t : Nat) (x : Gov) : (s.setGov t x).cmd = s.cmd := rfl
@[simp] theorem State.setGov_ctxs (s : State) (t : Nat) (x : Gov) : (s.setGov t x).ctxs = s.ctxs := rfl
@[simp] theorem State.setGov_cads (s : State) (t : Nat) (x : Gov) : (s.setGov t x).cads = s.cads := rfl
@[simp] theorem State.setGov_gvn (s : State) (t : Nat) (x : Gov) : (s.setGov t x).gvn = s.gvn := rfl
@[simp] theorem State.setGov_res (s : State) (t : Nat) (x : Gov) : (s.setGov t x).res = s.res := rfl
@[simp] theorem State.setGov_rfw (s : State) (t : Nat) (x : Gov) : (s.setGov t x).rfw = s.rfw := rfl
@[simp] theorem State.setGov_clm (s : State) (t : Nat) (x : Gov) : (s.setGov t x).clm = s.clm := rfl
@[simp] theorem State.setGov_pairs (s : State) (t : Nat) (x : Gov) : (s.setGov t x).pairs = s.pairs := rfl
@[simp] theorem State.setGov_err (s : State) (t : Nat) (x : Gov) : (s.setGov t x).err = s.err := rfl
@[simp] theorem State.setGov_trust (s : State) (t : Nat) (x : Gov) : (s.setGov t x).trust = s.trust := rfl
@[simp] theorem State.setGov_free (s : State) (t : Nat) (x : Gov) : (s.setGov t x).free = s.free := rfl
@[simp] theorem State.setGov_pow_rails (s : State) (t : Nat) (x : Gov) : (s.setGov t x).pow.rails = s.pow.rails := rfl
@[simp] theorem State.setGov_pow_pin (s : State) (t : Nat) (x : Gov) : (s.setGov t x).pow.pin = s.pow.pin := rfl
@[simp] theorem State.setGov_pow_conv (s : State) (t : Nat) (x : Gov) : (s.setGov t x).pow.conv = s.pow.conv := rfl
@[simp] theorem State.setGov_pow_loads (s : State) (t : Nat) (x : Gov) : (s.setGov t x).pow.loads = s.pow.loads := rfl
@[simp] theorem State.setGov_pow_railEnergy (s : State) (t : Nat) (x : Gov) : (s.setGov t x).pow.railEnergy = s.pow.railEnergy := rfl
@[simp] theorem State.setGov_pow_loadEnergy (s : State) (t : Nat) (x : Gov) : (s.setGov t x).pow.loadEnergy = s.pow.loadEnergy := rfl
@[simp] theorem State.setGov_pow_window (s : State) (t : Nat) (x : Gov) : (s.setGov t x).pow.window = s.pow.window := rfl
@[simp] theorem State.setGov_pow_up (s : State) (t : Nat) (x : Gov) : (s.setGov t x).pow.up = s.pow.up := rfl
@[simp] theorem State.setGov_pow_down (s : State) (t : Nat) (x : Gov) : (s.setGov t x).pow.down = s.pow.down := rfl
@[simp] theorem State.setGov_pow_staggerEn (s : State) (t : Nat) (x : Gov) : (s.setGov t x).pow.staggerEn = s.pow.staggerEn := rfl
@[simp] theorem State.setGov_pow_level (s : State) (t : Nat) (x : Gov) : (s.setGov t x).pow.level = s.pow.level := rfl
@[simp] theorem State.setGov_pow_next (s : State) (t : Nat) (x : Gov) : (s.setGov t x).pow.next = s.pow.next := rfl
@[simp] theorem State.setGov_pow_paceArmed (s : State) (t : Nat) (x : Gov) : (s.setGov t x).pow.paceArmed = s.pow.paceArmed := rfl
@[simp] theorem State.setGov_pow_paceAt (s : State) (t : Nat) (x : Gov) : (s.setGov t x).pow.paceAt = s.pow.paceAt := rfl
@[simp] theorem State.setGov_pow_floor (s : State) (t : Nat) (x : Gov) : (s.setGov t x).pow.floor = s.pow.floor := rfl
@[simp] theorem State.setGov_pow_fwForce (s : State) (t : Nat) (x : Gov) : (s.setGov t x).pow.fwForce = s.pow.fwForce := rfl
@[simp] theorem State.setGov_pow_source (s : State) (t : Nat) (x : Gov) : (s.setGov t x).pow.source = s.pow.source := rfl
@[simp] theorem State.setGov_pow_thermal (s : State) (t : Nat) (x : Gov) : (s.setGov t x).pow.thermal = s.pow.thermal := rfl
@[simp] theorem State.setGov_pow_firmware (s : State) (t : Nat) (x : Gov) : (s.setGov t x).pow.firmware = s.pow.firmware := rfl
@[simp] theorem State.setGov_pow_clearRefused (s : State) (t : Nat) (x : Gov) : (s.setGov t x).pow.clearRefused = s.pow.clearRefused := rfl
@[simp] theorem State.setGov_pow_floorCount (s : State) (t : Nat) (x : Gov) : (s.setGov t x).pow.floorCount = s.pow.floorCount := rfl
@[simp] theorem State.setGov_pow_stored (s : State) (t : Nat) (x : Gov) : (s.setGov t x).pow.stored = s.pow.stored := rfl

@[simp] theorem State.tile_setGov (s : State) (t : Nat) (x : Gov) (t' : Nat) : (s.setGov t x).tile t' = s.tile t' := rfl
@[simp] theorem State.ctx_setGov (s : State) (t : Nat) (x : Gov) (c' : Nat) : (s.setGov t x).ctx c' = s.ctx c' := rfl
@[simp] theorem State.cad_setGov (s : State) (t : Nat) (x : Gov) (k' : Nat) : (s.setGov t x).cad k' = s.cad k' := rfl
@[simp] theorem State.mover_setGov (s : State) (t : Nat) (x : Gov) (b' m' : Nat) : (s.setGov t x).mover b' m' = s.mover b' m' := rfl
@[simp] theorem State.expander_setGov (s : State) (t : Nat) (x : Gov) (n' : Nat) : (s.setGov t x).expander n' = s.expander n' := rfl
@[simp] theorem State.ctr_setGov (s : State) (t : Nat) (x : Gov) (n' : Nat) : (s.setGov t x).ctr n' = s.ctr n' := rfl
@[simp] theorem State.port_setGov (s : State) (t : Nat) (x : Gov) (p' : Nat) : (s.setGov t x).port p' = s.port p' := rfl
@[simp] theorem State.fqueue_setGov (s : State) (t : Nat) (x : Gov) (b' q' : Nat) : (s.setGov t x).fqueue b' q' = s.fqueue b' q' := rfl
@[simp] theorem State.slotOf_setGov (s : State) (t : Nat) (x : Gov) (n' : Nat) : (s.setGov t x).slotOf n' = s.slotOf n' := rfl
@[simp] theorem State.rail_setGov (s : State) (t : Nat) (x : Gov) (r' : Nat) : (s.setGov t x).rail r' = s.rail r' := rfl
@[simp] theorem State.monitor_setGov (s : State) (t : Nat) (x : Gov) (m' : Nat) : (s.setGov t x).monitor m' = s.monitor m' := rfl
@[simp] theorem State.cell_setGov (s : State) (t : Nat) (x : Gov) (c' : Nat) : (s.setGov t x).cell c' = s.cell c' := rfl

/-! ### Reading a part after its update -/

theorem State.tile_setTile {s : State} (h : Tab.wf ({} : Tile) s.tiles = true) (t j : Nat) (x : Tile) :
    (s.setTile t x).tile j = if j = t then x else s.tile j := Tab.look_put _ h t x j
theorem State.tile_setTile_self {s : State} (h : Tab.wf ({} : Tile) s.tiles = true) (t : Nat) (x : Tile) : (s.setTile t x).tile t = x := by
  rw [State.tile_setTile h, if_pos rfl]
theorem State.setTile_setTile {s : State} (h : Tab.wf ({} : Tile) s.tiles = true) (t : Nat) (x y : Tile) :
    (s.setTile t x).setTile t y = s.setTile t y := by
  simp only [State.setTile, Tab.put_put _ h]

theorem State.ctx_setCtx {s : State} (h : Tab.wf ({} : Ctx) s.ctxs = true) (c j : Nat) (x : Ctx) :
    (s.setCtx c x).ctx j = if j = c then x else s.ctx j := Tab.look_put _ h c x j
theorem State.ctx_setCtx_self {s : State} (h : Tab.wf ({} : Ctx) s.ctxs = true) (c : Nat) (x : Ctx) : (s.setCtx c x).ctx c = x := by
  rw [State.ctx_setCtx h, if_pos rfl]
theorem State.setCtx_setCtx {s : State} (h : Tab.wf ({} : Ctx) s.ctxs = true) (c : Nat) (x y : Ctx) :
    (s.setCtx c x).setCtx c y = s.setCtx c y := by
  simp only [State.setCtx, Tab.put_put _ h]

theorem State.cad_setCad {s : State} (h : Tab.wf ({} : Cad) s.cads = true) (k j : Nat) (x : Cad) :
    (s.setCad k x).cad j = if j = k then x else s.cad j := Tab.look_put _ h k x j
theorem State.cad_setCad_self {s : State} (h : Tab.wf ({} : Cad) s.cads = true) (k : Nat) (x : Cad) : (s.setCad k x).cad k = x := by
  rw [State.cad_setCad h, if_pos rfl]
theorem State.setCad_setCad {s : State} (h : Tab.wf ({} : Cad) s.cads = true) (k : Nat) (x y : Cad) :
    (s.setCad k x).setCad k y = s.setCad k y := by
  simp only [State.setCad, Tab.put_put _ h]

theorem State.expander_setExpander {s : State} (h : Tab.wf ({} : Expander) s.eng.exp = true) (n j : Nat) (x : Expander) :
    (s.setExpander n x).expander j = if j = n then x else s.expander j := Tab.look_put _ h n x j
theorem State.expander_setExpander_self {s : State} (h : Tab.wf ({} : Expander) s.eng.exp = true) (n : Nat) (x : Expander) : (s.setExpander n x).expander n = x := by
  rw [State.expander_setExpander h, if_pos rfl]
theorem State.setExpander_setExpander {s : State} (h : Tab.wf ({} : Expander) s.eng.exp = true) (n : Nat) (x y : Expander) :
    (s.setExpander n x).setExpander n y = s.setExpander n y := by
  simp only [State.setExpander, Tab.put_put _ h]

theorem State.ctr_setCtr {s : State} (h : Tab.wf 0 s.eng.ctr = true) (n j : Nat) (x : W32) :
    (s.setCtr n x).ctr j = if j = n then x else s.ctr j := Tab.look_put _ h n x j
theorem State.ctr_setCtr_self {s : State} (h : Tab.wf 0 s.eng.ctr = true) (n : Nat) (x : W32) : (s.setCtr n x).ctr n = x := by
  rw [State.ctr_setCtr h, if_pos rfl]
theorem State.setCtr_setCtr {s : State} (h : Tab.wf 0 s.eng.ctr = true) (n : Nat) (x y : W32) :
    (s.setCtr n x).setCtr n y = s.setCtr n y := by
  simp only [State.setCtr, Tab.put_put _ h]

theorem State.slotOf_setSlot {s : State} (h : Tab.wf ({} : Slot) s.cmd.slots = true) (n j : Nat) (x : Slot) :
    (s.setSlot n x).slotOf j = if j = n then x else s.slotOf j := Tab.look_put _ h n x j
theorem State.slotOf_setSlot_self {s : State} (h : Tab.wf ({} : Slot) s.cmd.slots = true) (n : Nat) (x : Slot) : (s.setSlot n x).slotOf n = x := by
  rw [State.slotOf_setSlot h, if_pos rfl]
theorem State.setSlot_setSlot {s : State} (h : Tab.wf ({} : Slot) s.cmd.slots = true) (n : Nat) (x y : Slot) :
    (s.setSlot n x).setSlot n y = s.setSlot n y := by
  simp only [State.setSlot, Tab.put_put _ h]

theorem State.monitor_setMonitor {s : State} (h : Tab.wf ({} : Monitor) s.res.monitors = true) (m j : Nat) (x : Monitor) :
    (s.setMonitor m x).monitor j = if j = m then x else s.monitor j := Tab.look_put _ h m x j
theorem State.monitor_setMonitor_self {s : State} (h : Tab.wf ({} : Monitor) s.res.monitors = true) (m : Nat) (x : Monitor) : (s.setMonitor m x).monitor m = x := by
  rw [State.monitor_setMonitor h, if_pos rfl]
theorem State.setMonitor_setMonitor {s : State} (h : Tab.wf ({} : Monitor) s.res.monitors = true) (m : Nat) (x y : Monitor) :
    (s.setMonitor m x).setMonitor m y = s.setMonitor m y := by
  simp only [State.setMonitor, Tab.put_put _ h]

theorem State.cell_setCell {s : State} (h : Tab.wf ({} : Cell) s.res.cells = true) (c j : Nat) (x : Cell) :
    (s.setCell c x).cell j = if j = c then x else s.cell j := Tab.look_put _ h c x j
theorem State.cell_setCell_self {s : State} (h : Tab.wf ({} : Cell) s.res.cells = true) (c : Nat) (x : Cell) : (s.setCell c x).cell c = x := by
  rw [State.cell_setCell h, if_pos rfl]
theorem State.setCell_setCell {s : State} (h : Tab.wf ({} : Cell) s.res.cells = true) (c : Nat) (x y : Cell) :
    (s.setCell c x).setCell c y = s.setCell c y := by
  simp only [State.setCell, Tab.put_put _ h]

theorem State.gov_setGov {s : State} (h : Tab.wf ({} : Gov) s.pow.gov = true) (t j : Nat) (x : Gov) :
    (s.setGov t x).gov j = if j = t then x else s.gov j := Tab.look_put _ h t x j
theorem State.gov_setGov_self {s : State} (h : Tab.wf ({} : Gov) s.pow.gov = true) (t : Nat) (x : Gov) : (s.setGov t x).gov t = x := by
  rw [State.gov_setGov h, if_pos rfl]
theorem State.setGov_setGov {s : State} (h : Tab.wf ({} : Gov) s.pow.gov = true) (t : Nat) (x y : Gov) :
    (s.setGov t x).setGov t y = s.setGov t y := by
  simp only [State.setGov, Tab.put_put _ h]

theorem State.mover_setMover {s : State} (h : Tab.wf ({} : Mover) s.eng.mov = true) (b m c n : Nat) (x : Mover) :
    (s.setMover b m x).mover c n = if 32 * c + n = 32 * b + m then x else s.mover c n := Tab.look_put _ h _ x _
theorem State.mover_setMover_self {s : State} (h : Tab.wf ({} : Mover) s.eng.mov = true) (b m : Nat) (x : Mover) :
    (s.setMover b m x).mover b m = x := by rw [State.mover_setMover h, if_pos rfl]

theorem State.fqueue_setFqueue {s : State} (h : Tab.wf ({} : FabQueue) s.gz.fq = true) (b q c n : Nat) (x : FabQueue) :
    (s.setFqueue b q x).fqueue c n = if 16 * c + n = 16 * b + q then x else s.fqueue c n := Tab.look_put _ h _ x _
theorem State.fqueue_setFqueue_self {s : State} (h : Tab.wf ({} : FabQueue) s.gz.fq = true) (b q : Nat) (x : FabQueue) :
    (s.setFqueue b q x).fqueue b q = x := by rw [State.fqueue_setFqueue h, if_pos rfl]

theorem State.port_setPort {s : State} (h : Tab.wf ({} : Port) s.gz.ports = true) (p j : Nat) (x : Port) :
    (s.setPort p x).port j = if j = p then x else s.port j := by
  by_cases hj : j = 32 <;> by_cases hp : p = 32
  · subst hj; subst hp; simp [State.port, State.setPort]
  · subst hj; simp [State.port, State.setPort, hp, Ne.symm hp]
  · subst hp; simp [State.port, State.setPort, hj]
  · simp only [State.port, State.setPort, hj, hp, if_false, Tab.look_put _ h]
theorem State.port_setPort_self {s : State} (h : Tab.wf ({} : Port) s.gz.ports = true) (p : Nat) (x : Port) : (s.setPort p x).port p = x := by
  rw [State.port_setPort h, if_pos rfl]
theorem State.setPort_setPort {s : State} (h : Tab.wf ({} : Port) s.gz.ports = true) (p : Nat) (x y : Port) :
    (s.setPort p x).setPort p y = s.setPort p y := by
  by_cases hp : p = 32
  · simp only [State.setPort, hp, if_true]
  · simp only [State.setPort, hp, if_false, Tab.put_put _ h]

theorem State.rail_setRail (s : State) (r j : Nat) (x : Rail) (hr : r < s.pow.rails.length) :
    (s.setRail r x).rail j = if j = r then x else s.rail j := by
  simp only [State.rail, State.setRail, List.getD, List.getElem?_set]
  by_cases h : r = j
  · subst h; simp [hr]
  · simp [h, Ne.symm h]

@[simp] theorem State.setRail_length (s : State) (r : Nat) (x : Rail) : (s.setRail r x).pow.rails.length = s.pow.rails.length := by
  simp [State.setRail]

/-! ### Changing a tile -/

theorem State.onTile_eq (s : State) (t : Nat) (f : Tile → Tile) : s.onTile t f = s.setTile t (f (s.tile t)) := rfl

/-! ### Registers of a tile (R29, R30) -/

@[simp] theorem Tile.getS_zero (x : Tile) : x.getS 0 = 0 := rfl
@[simp] theorem Tile.getP_zero (x : Tile) : x.getP 0 = BitVec.allOnes 64 := rfl
@[simp] theorem Tile.setS_zero (x : Tile) (v : W64) : x.setS 0 v = x := rfl
@[simp] theorem Tile.setP_zero (x : Tile) (v : W64) : x.setP 0 v = x := rfl

@[simp] theorem Tile.setS_p (x : Tile) (n : Nat) (v : W64) : (x.setS n v).p = x.p := by unfold Tile.setS; split <;> rfl
@[simp] theorem Tile.setS_v (x : Tile) (n : Nat) (v : W64) : (x.setS n v).v = x.v := by unfold Tile.setS; split <;> rfl
@[simp] theorem Tile.setS_acc (x : Tile) (n : Nat) (v : W64) : (x.setS n v).acc = x.acc := by unfold Tile.setS; split <;> rfl
@[simp] theorem Tile.setS_pc (x : Tile) (n : Nat) (v : W64) : (x.setS n v).pc = x.pc := by unfold Tile.setS; split <;> rfl
@[simp] theorem Tile.setS_vPoison (x : Tile) (n : Nat) (v : W64) : (x.setS n v).vPoison = x.vPoison := by unfold Tile.setS; split <;> rfl
@[simp] theorem Tile.setS_sys (x : Tile) (n : Nat) (v : W64) : (x.setS n v).sys = x.sys := by unfold Tile.setS; split <;> rfl
@[simp] theorem Tile.setS_eng (x : Tile) (n : Nat) (v : W64) : (x.setS n v).eng = x.eng := by unfold Tile.setS; split <;> rfl
@[simp] theorem Tile.setS_silt (x : Tile) (n : Nat) (v : W64) : (x.setS n v).silt = x.silt := by unfold Tile.setS; split <;> rfl
@[simp] theorem Tile.setS_siltBad (x : Tile) (n : Nat) (v : W64) : (x.setS n v).siltBad = x.siltBad := by unfold Tile.setS; split <;> rfl
@[simp] theorem Tile.setS_st (x : Tile) (n : Nat) (v : W64) : (x.setS n v).st = x.st := by unfold Tile.setS; split <;> rfl
@[simp] theorem Tile.setS_stopping (x : Tile) (n : Nat) (v : W64) : (x.setS n v).stopping = x.stopping := by unfold Tile.setS; split <;> rfl
@[simp] theorem Tile.setS_saving (x : Tile) (n : Nat) (v : W64) : (x.setS n v).saving = x.saving := by unfold Tile.setS; split <;> rfl
@[simp] theorem Tile.setS_restoring (x : Tile) (n : Nat) (v : W64) : (x.setS n v).restoring = x.restoring := by unfold Tile.setS; split <;> rfl
@[simp] theorem Tile.setS_resetting (x : Tile) (n : Nat) (v : W64) : (x.setS n v).resetting = x.resetting := by unfold Tile.setS; split <;> rfl
@[simp] theorem Tile.setS_retireDue (x : Tile) (n : Nat) (v : W64) : (x.setS n v).retireDue = x.retireDue := by unfold Tile.setS; split <;> rfl
@[simp] theorem Tile.setS_far (x : Tile) (n : Nat) (v : W64) : (x.setS n v).far = x.far := by unfold Tile.setS; split <;> rfl
@[simp] theorem Tile.setS_farNext (x : Tile) (n : Nat) (v : W64) : (x.setS n v).farNext = x.farNext := by unfold Tile.setS; split <;> rfl
@[simp] theorem Tile.setS_storeErrs (x : Tile) (n : Nat) (v : W64) : (x.setS n v).storeErrs = x.storeErrs := by unfold Tile.setS; split <;> rfl
@[simp] theorem Tile.setS_releases (x : Tile) (n : Nat) (v : W64) : (x.setS n v).releases = x.releases := by unfold Tile.setS; split <;> rfl
@[simp] theorem Tile.setS_armed (x : Tile) (n : Nat) (v : W64) : (x.setS n v).armed = x.armed := by unfold Tile.setS; split <;> rfl
@[simp] theorem Tile.setS_hold (x : Tile) (n : Nat) (v : W64) : (x.setS n v).hold = x.hold := by unfold Tile.setS; split <;> rfl
@[simp] theorem Tile.setS_walkFault (x : Tile) (n : Nat) (v : W64) : (x.setS n v).walkFault = x.walkFault := by unfold Tile.setS; split <;> rfl
@[simp] theorem Tile.setS_fetchFault (x : Tile) (n : Nat) (v : W64) : (x.setS n v).fetchFault = x.fetchFault := by unfold Tile.setS; split <;> rfl
@[simp] theorem Tile.setS_cuts (x : Tile) (n : Nat) (v : W64) : (x.setS n v).cuts = x.cuts := by unfold Tile.setS; split <;> rfl
@[simp] theorem Tile.setS_longStop (x : Tile) (n : Nat) (v : W64) : (x.setS n v).longStop = x.longStop := by unfold Tile.setS; split <;> rfl
@[simp] theorem Tile.setS_incoming (x : Tile) (n : Nat) (v : W64) : (x.setS n v).incoming = x.incoming := by unfold Tile.setS; split <;> rfl
@[simp] theorem Tile.setS_haz (x : Tile) (n : Nat) (v : W64) : (x.setS n v).haz = x.haz := by unfold Tile.setS; split <;> rfl
@[simp] theorem Tile.setS_events (x : Tile) (n : Nat) (v : W64) : (x.setS n v).events = x.events := by unfold Tile.setS; split <;> rfl
@[simp] theorem Tile.setP_s (x : Tile) (n : Nat) (v : W64) : (x.setP n v).s = x.s := by unfold Tile.setP; split <;> rfl
@[simp] theorem Tile.setP_v (x : Tile) (n : Nat) (v : W64) : (x.setP n v).v = x.v := by unfold Tile.setP; split <;> rfl
@[simp] theorem Tile.setP_acc (x : Tile) (n : Nat) (v : W64) : (x.setP n v).acc = x.acc := by unfold Tile.setP; split <;> rfl
@[simp] theorem Tile.setP_pc (x : Tile) (n : Nat) (v : W64) : (x.setP n v).pc = x.pc := by unfold Tile.setP; split <;> rfl
@[simp] theorem Tile.setP_sPoison (x : Tile) (n : Nat) (v : W64) : (x.setP n v).sPoison = x.sPoison := by unfold Tile.setP; split <;> rfl
@[simp] theorem Tile.setP_vPoison (x : Tile) (n : Nat) (v : W64) : (x.setP n v).vPoison = x.vPoison := by unfold Tile.setP; split <;> rfl
@[simp] theorem Tile.setP_sys (x : Tile) (n : Nat) (v : W64) : (x.setP n v).sys = x.sys := by unfold Tile.setP; split <;> rfl
@[simp] theorem Tile.setP_eng (x : Tile) (n : Nat) (v : W64) : (x.setP n v).eng = x.eng := by unfold Tile.setP; split <;> rfl
@[simp] theorem Tile.setP_silt (x : Tile) (n : Nat) (v : W64) : (x.setP n v).silt = x.silt := by unfold Tile.setP; split <;> rfl
@[simp] theorem Tile.setP_siltBad (x : Tile) (n : Nat) (v : W64) : (x.setP n v).siltBad = x.siltBad := by unfold Tile.setP; split <;> rfl
@[simp] theorem Tile.setP_st (x : Tile) (n : Nat) (v : W64) : (x.setP n v).st = x.st := by unfold Tile.setP; split <;> rfl
@[simp] theorem Tile.setP_stopping (x : Tile) (n : Nat) (v : W64) : (x.setP n v).stopping = x.stopping := by unfold Tile.setP; split <;> rfl
@[simp] theorem Tile.setP_saving (x : Tile) (n : Nat) (v : W64) : (x.setP n v).saving = x.saving := by unfold Tile.setP; split <;> rfl
@[simp] theorem Tile.setP_restoring (x : Tile) (n : Nat) (v : W64) : (x.setP n v).restoring = x.restoring := by unfold Tile.setP; split <;> rfl
@[simp] theorem Tile.setP_resetting (x : Tile) (n : Nat) (v : W64) : (x.setP n v).resetting = x.resetting := by unfold Tile.setP; split <;> rfl
@[simp] theorem Tile.setP_retireDue (x : Tile) (n : Nat) (v : W64) : (x.setP n v).retireDue = x.retireDue := by unfold Tile.setP; split <;> rfl
@[simp] theorem Tile.setP_far (x : Tile) (n : Nat) (v : W64) : (x.setP n v).far = x.far := by unfold Tile.setP; split <;> rfl
@[simp] theorem Tile.setP_farNext (x : Tile) (n : Nat) (v : W64) : (x.setP n v).farNext = x.farNext := by unfold Tile.setP; split <;> rfl
@[simp] theorem Tile.setP_storeErrs (x : Tile) (n : Nat) (v : W64) : (x.setP n v).storeErrs = x.storeErrs := by unfold Tile.setP; split <;> rfl
@[simp] theorem Tile.setP_releases (x : Tile) (n : Nat) (v : W64) : (x.setP n v).releases = x.releases := by unfold Tile.setP; split <;> rfl
@[simp] theorem Tile.setP_armed (x : Tile) (n : Nat) (v : W64) : (x.setP n v).armed = x.armed := by unfold Tile.setP; split <;> rfl
@[simp] theorem Tile.setP_hold (x : Tile) (n : Nat) (v : W64) : (x.setP n v).hold = x.hold := by unfold Tile.setP; split <;> rfl
@[simp] theorem Tile.setP_walkFault (x : Tile) (n : Nat) (v : W64) : (x.setP n v).walkFault = x.walkFault := by unfold Tile.setP; split <;> rfl
@[simp] theorem Tile.setP_fetchFault (x : Tile) (n : Nat) (v : W64) : (x.setP n v).fetchFault = x.fetchFault := by unfold Tile.setP; split <;> rfl
@[simp] theorem Tile.setP_cuts (x : Tile) (n : Nat) (v : W64) : (x.setP n v).cuts = x.cuts := by unfold Tile.setP; split <;> rfl
@[simp] theorem Tile.setP_longStop (x : Tile) (n : Nat) (v : W64) : (x.setP n v).longStop = x.longStop := by unfold Tile.setP; split <;> rfl
@[simp] theorem Tile.setP_incoming (x : Tile) (n : Nat) (v : W64) : (x.setP n v).incoming = x.incoming := by unfold Tile.setP; split <;> rfl
@[simp] theorem Tile.setP_haz (x : Tile) (n : Nat) (v : W64) : (x.setP n v).haz = x.haz := by unfold Tile.setP; split <;> rfl
@[simp] theorem Tile.setP_events (x : Tile) (n : Nat) (v : W64) : (x.setP n v).events = x.events := by unfold Tile.setP; split <;> rfl
@[simp] theorem Tile.setV_s (x : Tile) (n : Nat) (v : Vec) : (x.setV n v).s = x.s := rfl
@[simp] theorem Tile.setV_p (x : Tile) (n : Nat) (v : Vec) : (x.setV n v).p = x.p := rfl
@[simp] theorem Tile.setV_acc (x : Tile) (n : Nat) (v : Vec) : (x.setV n v).acc = x.acc := rfl
@[simp] theorem Tile.setV_pc (x : Tile) (n : Nat) (v : Vec) : (x.setV n v).pc = x.pc := rfl
@[simp] theorem Tile.setV_sPoison (x : Tile) (n : Nat) (v : Vec) : (x.setV n v).sPoison = x.sPoison := rfl
@[simp] theorem Tile.setV_sys (x : Tile) (n : Nat) (v : Vec) : (x.setV n v).sys = x.sys := rfl
@[simp] theorem Tile.setV_eng (x : Tile) (n : Nat) (v : Vec) : (x.setV n v).eng = x.eng := rfl
@[simp] theorem Tile.setV_silt (x : Tile) (n : Nat) (v : Vec) : (x.setV n v).silt = x.silt := rfl
@[simp] theorem Tile.setV_siltBad (x : Tile) (n : Nat) (v : Vec) : (x.setV n v).siltBad = x.siltBad := rfl
@[simp] theorem Tile.setV_st (x : Tile) (n : Nat) (v : Vec) : (x.setV n v).st = x.st := rfl
@[simp] theorem Tile.setV_stopping (x : Tile) (n : Nat) (v : Vec) : (x.setV n v).stopping = x.stopping := rfl
@[simp] theorem Tile.setV_saving (x : Tile) (n : Nat) (v : Vec) : (x.setV n v).saving = x.saving := rfl
@[simp] theorem Tile.setV_restoring (x : Tile) (n : Nat) (v : Vec) : (x.setV n v).restoring = x.restoring := rfl
@[simp] theorem Tile.setV_resetting (x : Tile) (n : Nat) (v : Vec) : (x.setV n v).resetting = x.resetting := rfl
@[simp] theorem Tile.setV_retireDue (x : Tile) (n : Nat) (v : Vec) : (x.setV n v).retireDue = x.retireDue := rfl
@[simp] theorem Tile.setV_far (x : Tile) (n : Nat) (v : Vec) : (x.setV n v).far = x.far := rfl
@[simp] theorem Tile.setV_farNext (x : Tile) (n : Nat) (v : Vec) : (x.setV n v).farNext = x.farNext := rfl
@[simp] theorem Tile.setV_storeErrs (x : Tile) (n : Nat) (v : Vec) : (x.setV n v).storeErrs = x.storeErrs := rfl
@[simp] theorem Tile.setV_releases (x : Tile) (n : Nat) (v : Vec) : (x.setV n v).releases = x.releases := rfl
@[simp] theorem Tile.setV_armed (x : Tile) (n : Nat) (v : Vec) : (x.setV n v).armed = x.armed := rfl
@[simp] theorem Tile.setV_hold (x : Tile) (n : Nat) (v : Vec) : (x.setV n v).hold = x.hold := rfl
@[simp] theorem Tile.setV_walkFault (x : Tile) (n : Nat) (v : Vec) : (x.setV n v).walkFault = x.walkFault := rfl
@[simp] theorem Tile.setV_fetchFault (x : Tile) (n : Nat) (v : Vec) : (x.setV n v).fetchFault = x.fetchFault := rfl
@[simp] theorem Tile.setV_cuts (x : Tile) (n : Nat) (v : Vec) : (x.setV n v).cuts = x.cuts := rfl
@[simp] theorem Tile.setV_longStop (x : Tile) (n : Nat) (v : Vec) : (x.setV n v).longStop = x.longStop := rfl
@[simp] theorem Tile.setV_incoming (x : Tile) (n : Nat) (v : Vec) : (x.setV n v).incoming = x.incoming := rfl
@[simp] theorem Tile.setV_haz (x : Tile) (n : Nat) (v : Vec) : (x.setV n v).haz = x.haz := rfl
@[simp] theorem Tile.setV_events (x : Tile) (n : Nat) (v : Vec) : (x.setV n v).events = x.events := rfl

@[simp] theorem Tile.getP_setS (x : Tile) (n : Nat) (v : W64) (m : Nat) : (x.setS n v).getP m = x.getP m := by
  simp only [Tile.getP, Tile.setS_p]
@[simp] theorem Tile.getV_setS (x : Tile) (n : Nat) (v : W64) (m : Nat) : (x.setS n v).getV m = x.getV m := by
  simp only [Tile.getV, Tile.setS_v]
@[simp] theorem Tile.getAcc_setS (x : Tile) (n : Nat) (v : W64) (e k i j : Nat) : (x.setS n v).getAcc e k i j = x.getAcc e k i j := by
  simp only [Tile.getAcc, Tile.setS_acc]

@[simp] theorem Tile.getS_setP (x : Tile) (n : Nat) (v : W64) (m : Nat) : (x.setP n v).getS m = x.getS m := by
  simp only [Tile.getS, Tile.setP_s]
@[simp] theorem Tile.getV_setP (x : Tile) (n : Nat) (v : W64) (m : Nat) : (x.setP n v).getV m = x.getV m := by
  simp only [Tile.getV, Tile.setP_v]
@[simp] theorem Tile.getAcc_setP (x : Tile) (n : Nat) (v : W64) (e k i j : Nat) : (x.setP n v).getAcc e k i j = x.getAcc e k i j := by
  simp only [Tile.getAcc, Tile.setP_acc]

@[simp] theorem Tile.getS_setV (x : Tile) (n : Nat) (v : Vec) (m : Nat) : (x.setV n v).getS m = x.getS m := by
  simp only [Tile.getS, Tile.setV_s]
@[simp] theorem Tile.getP_setV (x : Tile) (n : Nat) (v : Vec) (m : Nat) : (x.setV n v).getP m = x.getP m := by
  simp only [Tile.getP, Tile.setV_p]
@[simp] theorem Tile.getAcc_setV (x : Tile) (n : Nat) (v : Vec) (e k i j : Nat) : (x.setV n v).getAcc e k i j = x.getAcc e k i j := by
  simp only [Tile.getAcc, Tile.setV_acc]

/-- Reading a scalar register after a write: a write to s0 is discarded (R29). -/
theorem Tile.getS_setS {x : Tile} (h : Tab.wf 0 x.s = true) (n : Nat) (v : W64) (m : Nat) :
    (x.setS n v).getS m = if m = n ∧ n ≠ 0 then v else x.getS m := by
  unfold Tile.setS
  by_cases hn : n = 0
  · simp [hn]
  · rw [if_neg hn]
    unfold Tile.getS
    by_cases hm : m = 0
    · subst hm; simp [Ne.symm hn]
    · simp only [if_neg hm, Tab.look_put _ h]
      by_cases hmn : m = n <;> simp [hmn, hn]

/-- Reading a predicate register after a write: a write to p0 is discarded (R30). -/
theorem Tile.getP_setP {x : Tile} (h : Tab.wf 0 x.p = true) (n : Nat) (v : W64) (m : Nat) :
    (x.setP n v).getP m = if m = n ∧ n ≠ 0 then v else x.getP m := by
  unfold Tile.setP
  by_cases hn : n = 0
  · simp [hn]
  · rw [if_neg hn]
    unfold Tile.getP
    by_cases hm : m = 0
    · subst hm; simp [Ne.symm hn]
    · simp only [if_neg hm, Tab.look_put _ h]
      by_cases hmn : m = n <;> simp [hmn, hn]

theorem Tile.getV_setV {x : Tile} (h : Tab.wf 0 x.v = true) (n : Nat) (v : Vec) (m : Nat) :
    (x.setV n v).getV m = if m = n then v else x.getV m := Tab.look_put _ h n v m

end Sys2Proof.Machine
end

