-- ==== Sys2Proof/Laws/Bundle.lean ====
section
/-!
SUPPORT. Bundles of one syllable: what the checks before a bundle find, and what the bundle then does.
-/

namespace Sys2Proof.Machine

/-! ### The NOP syllable (R66) -/

theorem sKind_nop : sKind nopWord = 1 := by decide
theorem sOp_nop : sOp nopWord = 0 := by decide
theorem dests_nop : dests nopWord = [] := by decide
theorem sources_nop : sources nopWord = [] := by decide
theorem isLong_nop : isLong nopWord = false := by decide
theorem isFar_nop : isFar nopWord = false := by decide
theorem syllableOk_nop (x : Tile) : syllableOk x nopWord = true := by
  simp [syllableOk, sKind_nop]
theorem needsPrivilege_nop (s : State) (t : Nat) : needsPrivilege s t nopWord = false := by
  simp [needsPrivilege, sKind_nop]
theorem slotAllows_nop (k : Nat) : slotAllows k nopWord = true := by
  simp [slotAllows, sKind_nop]

theorem poisonRead_nop (x : Tile) (vl k : Nat) : poisonRead x vl k nopWord = none := by
  unfold poisonRead; rw [sources_nop]; split <;> rfl

/-! ### The bundle of a lone syllable -/

/-- Eight words with `w` in slot `k` and NOP elsewhere. -/
def lone (k : Fin 8) (w : W64) : List W64 := (List.range 8).map fun j => if j = k.val then w else nopWord

theorem bundleOf_alone {i : Issue} (h : i.alone) (w : W64) : bundleOf i w = lone i.slot w := by
  simp only [bundleOf, lone, h.1, List.find?_nil]

theorem lone_getD (k : Fin 8) (w : W64) (j : Nat) (hj : j < 8) : (lone k w).getD j nopWord = if j = k.val then w else nopWord := by
  have : j ∈ List.range 8 := by simpa using hj
  simp [lone, List.getD, hj]

theorem lone_mem {k : Fin 8} {w v : W64} (h : v ∈ lone k w) : v = w ∨ v = nopWord := by
  simp only [lone, List.mem_map, List.mem_range] at h
  obtain ⟨j, _, rfl⟩ := h
  split <;> simp

/-- The bundle checks of R33 pass for a lone syllable in a slot that allows it, with no register twice. -/
theorem bundleBreach_lone (k : Fin 8) (w : W64) (ha : slotAllows k.val w = true) : bundleBreach (lone k w) = none := by
  unfold bundleBreach
  simp only [List.find?_eq_none, List.mem_range]
  intro j hj
  rw [lone_getD k w j hj]
  simp only [lone_getD k w 4 (by decide), lone_getD k w 5 (by decide), lone_getD k w 0 (by decide)]
  by_cases hjk : j = k.val
  · subst hjk
    simp only [if_true, ha, Bool.not_true, Bool.false_or]
    have hd : ∀ r, ((List.range 8).any fun j => decide (j ≠ k.val) && (dests ((lone k w).getD j nopWord)).contains r) = false := by
      intro r
      rw [List.any_eq_false]
      intro j' hj'
      rw [lone_getD k w j' (List.mem_range.mp hj')]
      by_cases h : j' = k.val
      · simp [h]
      · simp [h, dests_nop]
    simp only [hd, Bool.and_false]
    have h45 : (decide (k.val = 4) && isLong (if 4 = k.val then w else nopWord) && isLong (if 5 = k.val then w else nopWord)) = false := by
      by_cases h4 : k.val = 4
      · simp [h4, isLong_nop]
      · simp [h4]
    have h3 : ∀ j, j < 8 → j ≠ k.val → decide ((lone k w).getD j nopWord ≠ nopWord) = false := by
      intro j hj hne; rw [lone_getD k w j hj]; simp [hne]
    simp only [h45]
    by_cases h0 : k.val = 0
    · have h := h3 3 (by decide) (by omega)
      have h' := h3 6 (by decide) (by omega)
      have h'' := h3 7 (by decide) (by omega)
      simp only [List.any_cons, List.any_nil, h, h', h'']
      simp
    · simp [h0]
  · simp only [if_neg hjk, slotAllows_nop, dests_nop]
    have h45 : (decide (j = 4) && isLong (if 4 = k.val then w else nopWord) && isLong (if 5 = k.val then w else nopWord)) = false := by
      by_cases h4 : j = 4
      · have : ¬ 4 = k.val := by omega
        simp [this, isLong_nop]
      · simp [h4]
    rw [h45]
    by_cases h0 : j = 0
    · have : ¬ (0 = k.val) := by omega
      simp [this, sKind_nop]
    · simp [h0]

/-! ### The boundary before a lone bundle (R49) -/

theorem farPending_none {x : Tile} (h : x.far = []) (ws : List W64) : farPending x ws = false := by
  simp [farPending, h]

theorem poisonRead_none {x : Tile} (hs : x.sPoison = []) (hv : x.vPoison = []) (vl k : Nat) (w : W64) : poisonRead x vl k w = none := by
  unfold poisonRead
  split
  · rw [List.findSome?_eq_none_iff]
    intro r _
    cases r <;> simp [hs, hv]
  · rfl

theorem bundleTrap_lone {s : State} {t : Nat} (hs : (s.tile t).sPoison = []) (hv : (s.tile t).vPoison = []) (k : Fin 8) (w : W64) (vl : Nat)
    (ha : slotAllows k.val w = true) (hok : syllableOk (s.tile t) w = true) (hp : needsPrivilege s t w = false) :
    s.bundleTrap t (lone k w) vl = none := by
  have h1 : ∀ j, j < 8 → (lone k w).getD j nopWord = w ∨ (lone k w).getD j nopWord = nopWord := by
    intro j hj; rw [lone_getD k w j hj]; split <;> simp
  unfold State.bundleTrap
  simp only [bundleBreach_lone k w ha]
  have e1 : ((List.range 8).find? fun j => checked (s.tile t) j ((lone k w).getD j nopWord)
      && !syllableOk (s.tile t) ((lone k w).getD j nopWord)) = none := by
    rw [List.find?_eq_none]
    intro j hj
    rcases h1 j (List.mem_range.mp hj) with h | h <;> rw [h]
    · simp [hok]
    · simp [syllableOk_nop]
  have e2 : ((List.range 8).find? fun j => checked (s.tile t) j ((lone k w).getD j nopWord)
      && needsPrivilege s t ((lone k w).getD j nopWord)) = none := by
    rw [List.find?_eq_none]
    intro j hj
    rcases h1 j (List.mem_range.mp hj) with h | h <;> rw [h]
    · simp [hp]
    · simp [needsPrivilege_nop]
  have e3 : ((List.range 8).find? fun j => (poisonRead (s.tile t) vl j ((lone k w).getD j nopWord)).isSome) = none := by
    rw [List.find?_eq_none]
    intro j _
    simp [poisonRead_none hs hv]
  rw [e1, e2, e3]

theorem held_none {x : Tile} (h : x.hold = .none) (gt : W64) (t : Nat) : x.held gt t = false := by simp [Tile.held, h]

theorem useVl_closed {s : State} {t : Nat} (h : (s.tile t).haz.vlOpen = false) : s.useVl t = ((s.tile t).vlen, s) := by
  simp [State.useVl, h]

/-- What may keep a lone syllable waiting although its bundle raises nothing: a matrix or stream wait, or the far limits. -/
def State.waits (s : State) (t : Nat) (k : Fin 8) (w : W64) : Bool :=
  matrixWaits (s.tile t) (if 6 = k.val then w else nopWord) || s.streamWaits t (if 7 = k.val then w else nopWord)
    || farWaits (s.tile t) (if 3 = k.val then w else nopWord)

/-- A lone syllable that is no far access, in a ready tile, runs. -/
theorem issue_lone {s : State} {t : Nat} (h : s.Ready t) (k : Fin 8) (w : W64) (ha : slotAllows k.val w = true)
    (hok : syllableOk (s.tile t) w = true) (hp : needsPrivilege s t w = false) (hf : isFar w = false) (hw : s.waits t k w = false) :
    s.issue t (lone k w) none = s.runBundle t (lone k w) (s.tile t).vlen 0 none := by
  have hw' := hw
  simp only [State.waits, Bool.or_eq_false_iff] at hw'
  obtain ⟨⟨hw1, hw2⟩, hw3⟩ := hw'
  have hs3 : s.slot3 t ((lone k w).getD 3 nopWord) = none := by
    rw [lone_getD k w 3 (by decide)]
    unfold State.slot3
    split <;> simp [hf, isFar_nop]
  unfold State.issue
  rw [if_neg (by simp [h.issues, h.up]), if_neg (by simp [h.long])]
  unfold State.boundary
  simp only [h.engine, held_none h.hold, farPending_none h.far, fetchTrap, h.fetch, Option.isSome_none, Bool.or_self]
  have hv : (if (lone k w).any fun w => decide (sKind w = 5) then s.useVl t else ((s.tile t).vlen, s)) = ((s.tile t).vlen, s) := by
    rw [useVl_closed h.vl]; simp
  simp only [hv, bundleTrap_lone h.sPoison h.vPoison k w _ ha hok hp, hs3, h.interrupt]
  simp only [lone_getD k w 6 (by decide), lone_getD k w 7 (by decide), lone_getD k w 3 (by decide), hw1, hw2, hw3]
  simp

/-! ### What a lone bundle does (R32) -/

theorem slotEffect_nop (t : Nat) (x : Tile) (vl : Nat) (ws : List W64) (pa : Nat) (stop : Option Nat) (s : State) (j : Nat)
    (h : ws.getD j nopWord = nopWord) : slotEffect t x vl ws pa stop s j = s := by
  unfold slotEffect
  simp only [h, sKind_nop]
  rfl

theorem slotEffect_lone_ne (t : Nat) (x : Tile) (vl : Nat) (k : Fin 8) (w : W64) (pa : Nat) (stop : Option Nat) (s : State) (j : Nat)
    (hj : j < 8) (h : j ≠ k.val) : slotEffect t x vl (lone k w) pa stop s j = s :=
  slotEffect_nop t x vl _ pa stop s j (by rw [lone_getD k w j hj, if_neg h])

/-- A lone syllable that is not long, no `sys`, `brk` or `tret`, and no dispatch: its slot's effect on the tile past its bundle. -/
theorem runBundle_lone (s : State) (t : Nat) (k : Fin 8) (w : W64) (vl pa : Nat) (hl : isLong w = false)
    (hc : sKind w = 2 → sOp w ≠ 0x10 ∧ sOp w ≠ 0x11 ∧ sOp w ≠ 0x20)
    (hd : dispatches (s.tile t) (if 6 = k.val then w else nopWord) = false) :
    s.runBundle t (lone k w) vl pa none = slotEffect t (s.tile t) vl (lone k w) pa none (s.setTile t (s.tile t).past) k.val := by
  have hlong : ∀ j, j < 8 → isLong ((lone k w).getD j nopWord) = false := by
    intro j hj; rw [lone_getD k w j hj]; split
    · exact hl
    · exact isLong_nop
  have e1 : ([0, 1, 2, 3, 4, 5, 6, 7].filter fun j => !isLong ((lone k w).getD j nopWord)) = [0, 1, 2, 3, 4, 5, 6, 7] := by
    rw [List.filter_eq_self]
    intro j hj
    rw [hlong j (by simp at hj; omega)]; rfl
  have e2 : ([4, 5].filter fun j => isLong ((lone k w).getD j nopWord)) = [] := by
    rw [List.filter_eq_nil_iff]
    intro j hj
    rw [hlong j (by simp at hj; omega)]; simp
  have e3 : ∀ s', ([0, 1, 2, 3, 4, 5, 6, 7] : List Nat).foldl (slotEffect t (s.tile t) vl (lone k w) pa none) s'
      = slotEffect t (s.tile t) vl (lone k w) pa none s' k.val := by
    intro s'
    obtain ⟨n, hn⟩ := k
    have hne : ∀ s'' j, j < 8 → j ≠ n → slotEffect t (s.tile t) vl (lone ⟨n, hn⟩ w) pa none s'' j = s'' :=
      fun s'' j hj h => slotEffect_lone_ne t _ vl ⟨n, hn⟩ w pa none s'' j hj h
    have hcases : n = 0 ∨ n = 1 ∨ n = 2 ∨ n = 3 ∨ n = 4 ∨ n = 5 ∨ n = 6 ∨ n = 7 := by omega
    simp only [List.foldl_cons, List.foldl_nil]
    rcases hcases with h | h | h | h | h | h | h | h <;> subst h
    · simp only [hne _ 1 (by decide) (by decide), hne _ 2 (by decide) (by decide), hne _ 3 (by decide) (by decide), hne _ 4 (by decide) (by decide),
        hne _ 5 (by decide) (by decide), hne _ 6 (by decide) (by decide), hne _ 7 (by decide) (by decide)]
    · simp only [hne _ 0 (by decide) (by decide), hne _ 2 (by decide) (by decide), hne _ 3 (by decide) (by decide), hne _ 4 (by decide) (by decide),
        hne _ 5 (by decide) (by decide), hne _ 6 (by decide) (by decide), hne _ 7 (by decide) (by decide)]
    · simp only [hne _ 0 (by decide) (by decide), hne _ 1 (by decide) (by decide), hne _ 3 (by decide) (by decide), hne _ 4 (by decide) (by decide),
        hne _ 5 (by decide) (by decide), hne _ 6 (by decide) (by decide), hne _ 7 (by decide) (by decide)]
    · simp only [hne _ 0 (by decide) (by decide), hne _ 1 (by decide) (by decide), hne _ 2 (by decide) (by decide), hne _ 4 (by decide) (by decide),
        hne _ 5 (by decide) (by decide), hne _ 6 (by decide) (by decide), hne _ 7 (by decide) (by decide)]
    · simp only [hne _ 0 (by decide) (by decide), hne _ 1 (by decide) (by decide), hne _ 2 (by decide) (by decide), hne _ 3 (by decide) (by decide),
        hne _ 5 (by decide) (by decide), hne _ 6 (by decide) (by decide), hne _ 7 (by decide) (by decide)]
    · simp only [hne _ 0 (by decide) (by decide), hne _ 1 (by decide) (by decide), hne _ 2 (by decide) (by decide), hne _ 3 (by decide) (by decide),
        hne _ 4 (by decide) (by decide), hne _ 6 (by decide) (by decide), hne _ 7 (by decide) (by decide)]
    · simp only [hne _ 0 (by decide) (by decide), hne _ 1 (by decide) (by decide), hne _ 2 (by decide) (by decide), hne _ 3 (by decide) (by decide),
        hne _ 4 (by decide) (by decide), hne _ 5 (by decide) (by decide), hne _ 7 (by decide) (by decide)]
    · simp only [hne _ 0 (by decide) (by decide), hne _ 1 (by decide) (by decide), hne _ 2 (by decide) (by decide), hne _ 3 (by decide) (by decide),
        hne _ 4 (by decide) (by decide), hne _ 5 (by decide) (by decide), hne _ 6 (by decide) (by decide)]
  unfold State.runBundle
  simp only [e1, e2, List.append_nil, ite_self, e3, Tile.past, lone_getD k w 6 (by decide), hd]
  have h0 := lone_getD k w 0 (by decide)
  rw [h0]
  by_cases hk : 0 = k.val
  · simp only [if_pos hk]
    split
    · next h =>
      simp only [Bool.and_eq_true, decide_eq_true_eq] at h
      obtain ⟨h1, h2, h3⟩ := hc h.1
      split <;> simp_all
    · rfl
  · simp [if_neg hk, sKind_nop]

/-! ### After the command -/

/-- Where a command retired nothing, nothing settles. -/
theorem settle_same {s t : State} (h : t.err.retired = s.err.retired) : settle s t = t := by
  unfold settle; rw [h, List.drop_length]

/-- Where the tile has not become HALTED either, the command's own effect stands. -/
theorem settleTile_same {n : Nat} {s t : State} (h : t.err.retired = s.err.retired) (hh : (t.tile n).st ≠ .halted) :
    settleTile n s t = t := by
  unfold settleTile; simp only [settle_same h]; rw [if_neg (fun c => hh c.1)]

/-- A syllable alone in its bundle, allowed in its slot, legal, permitted and kept by nothing, in a ready tile: what its slot does to the tile
past the bundle is what the command does. -/
theorem syllable_lone {s : State} {i : Issue} (h : s.Ready i.tile) (ha : i.alone) {kind op : Nat} {f : BitVec 48} {w : W64}
    (hw : Sys2Proof.Machine.syllable kind op i.guard f = w)
    (hs : slotAllows i.slot.val w = true) (hok : syllableOk (s.tile i.tile) w = true) (hp : needsPrivilege s i.tile w = false)
    (hf : isFar w = false) (hwt : s.waits i.tile i.slot w = false) (hl : isLong w = false)
    (hc : sKind w = 2 → sOp w ≠ 0x10 ∧ sOp w ≠ 0x11 ∧ sOp w ≠ 0x20)
    (hd : dispatches (s.tile i.tile) (if 6 = i.slot.val then w else nopWord) = false) {t : State}
    (ht : slotEffect i.tile (s.tile i.tile) (s.tile i.tile).vlen (lone i.slot w) 0 none (s.setTile i.tile (s.tile i.tile).past) i.slot.val = t)
    (hr : t.err.retired = s.err.retired) (hh : (t.tile i.tile).st ≠ .halted) : s.syllable i kind op f = t := by
  unfold State.syllable
  rw [hw, bundleOf_alone ha, ha.2, issue_lone h i.slot w hs hok hp hf hwt, runBundle_lone _ _ _ _ _ _ hl hc hd, ht]
  exact settleTile_same hr hh

end Sys2Proof.Machine
end

