-- ==== Sys2Proof/Laws/Scalar.lean ====
section
/-!
SUPPORT. What a lone scalar syllable does (R73).
-/

namespace Sys2Proof.Machine

@[simp] theorem setTile_onTile {s : State} (h : Tab.wf {} s.tiles = true) (t : Nat) (x : Tile) (f : Tile → Tile) :
    (s.setTile t x).onTile t f = s.setTile t (f x) := by
  simp only [State.onTile_eq, State.tile_setTile_self h, State.setTile_setTile h]

theorem State.Ready.st {s : State} {t : Nat} (h : s.Ready t) : (s.tile t).st = .running := by
  have := h.issues; simp only [Tile.issues, Bool.and_eq_true, decide_eq_true_eq] at this; exact this.1.1.1

theorem writeCsr_st (x : Tile) (n : Nat) (v : W64) : (writeCsr x n v).st = x.st := by
  unfold writeCsr
  split <;> first | rfl | skip
  split
  · unfold writeEngineCsr; simp only; split <;> rfl
  · rfl

/-- No scalar syllable changes the state of its tile. -/
theorem scalarEffect_st (gt cyc : W64) (t : Nat) (x : Tile) (w : W64) (o : Option W64) (new : Tile) :
    (scalarEffect gt cyc t x w o new).st = new.st := by
  unfold scalarEffect
  simp only
  repeat' split
  all_goals simp [writeCsr_st]

/-- A lone scalar syllable other than `csrr` and `csrw`: its effect on the tile. -/
theorem scalar_lone {s : State} {i : Issue} {f : BitVec 48} (h : s.CanIssue i) (hgd : s.guarded i) (hs : i.slot = 1 ∨ i.slot = 2) {op : Nat} (ho : op < 256)
    (hok : scalarOk (syllable 3 op i.guard f) = true) (h1 : op ≠ 0xF0) (h2 : op ≠ 0xF1) :
    s.syllable i 3 op f = s.ran i.tile
      (scalarEffect s.clk.gt s.clk.tileCycles i.tile (s.tile i.tile) (syllable 3 op i.guard f) none) := by
  have hk : sKind (syllable 3 op i.guard f) = 3 := sKind_syllable (by decide) ho _ _
  have hop : sOp (syllable 3 op i.guard f) = op := sOp_syllable (by decide) ho _ _
  have hg : sGuard (syllable 3 op i.guard f) = i.guard.toNat := sGuard_syllable (by decide) ho _ _
  have hslot : slotAllows i.slot.val (syllable 3 op i.guard f) = true := by
    simp only [slotAllows, hk, hop]; rcases hs with e | e <;> rw [e] <;> simp [h1, h2]
  have hon : guardOn (s.tile i.tile) (syllable 3 op i.guard f) = true := by
    simp only [guardOn, hg]; exact hgd
  refine syllable_lone h.ready h.alone rfl hslot (by simp [syllableOk, hk, hok]) (by simp [needsPrivilege, hk, hop, h1, h2])
    (by simp [isFar, hk]) ?_ (by simp [isLong, hk]) (by simp [hk])
    (by rcases hs with e | e <;> simp [e, dispatches, sKind_nop]) ?_ ?_ ?_
  · rcases hs with e | e <;> simp [State.waits, e, matrixWaits, State.streamWaits, farWaits, sKind_nop, isFar_nop]
  · have hget : (lone i.slot (syllable 3 op i.guard f)).getD i.slot.val nopWord = syllable 3 op i.guard f := by
      rw [lone_getD _ _ _ i.slot.isLt, if_pos rfl]
    unfold slotEffect
    simp only [hget, hk, hop, hon]
    rcases hs with e | e <;> simp [e, h1, setTile_onTile h.inv.tiles.tiles, State.ran]
  · rfl
  · rw [State.ran, State.tile_setTile_self h.inv.tiles.tiles, scalarEffect_st]
    exact fun c => by simp [Tile.past, h.ready.st] at c

end Sys2Proof.Machine
end

