-- ==== Sys2Proof/WellFormed.lean ====
section
/-!
DEFINITION. Which commands are well-formed: their operands describe something that can reach the block. `exec` gives a meaning to
every command, well-formed or not; what the block itself checks (reserved encodings, headers, CRCs) is part of that meaning.
-/

namespace Sys2Proof

/-- No slot of a bundle is given twice (R32). -/
def Issue.wf (i : Issue) : Bool := !(i.rest.map (·.1)).contains i.slot && (i.rest.map (·.1)).Nodup

/-- A packet carries as many bytes as LEN says (Table 8-6), at most 4 KiB (R197). -/
def Packet.wf (k : Packet) : Bool := decide (k.payload.length = k.len) && decide (k.len ≤ 4096)

/-- The line of an exchange holds at most fourteen parameter words (Table 9-3). -/
def Exchange.wf (x : Exchange) : Bool := decide (x.par.length ≤ 14)

/-- A sample gives the current at each of the four filter corners (R328). -/
def StackSample.wf (x : StackSample) : Bool := decide (x.milliamps.length = 4)

/-- A codeword carries 640 bytes (R193). -/
def RxFrame.wf (r : RxFrame) : Bool := decide (r.bytes.length = 640)

/-- Well-formed commands. -/
def Instr.wf (c : Instr) : Bool :=
  match c with
  | .br i _ | .call i _ | .jr i _ | .callr i _ | .sys i _ | .brk i _ | .tret i _ | .wfi i _ | .halt i _ | .fenceI i _ => i.wf
  | .add i _ _ | .sub i _ | .mul i _ _ | .mulh i _ _ | .div i _ _ | .rem i _ _ | .and i _ _ | .or i _ _ | .xor i _ _ => i.wf
  | .andn i _ | .shl i _ _ | .shr i _ _ | .sra i _ _ | .minMax i _ _ | .minuMaxu i _ _ | .clzCtzPopc i _ _ => i.wf
  | .li i _ | .lih i _ | .cmp i _ _ _ | .predLogic i _ _ | .pfroms i _ | .ptos i _ | .pfirst i _ | .csrr i _ | .csrw i _ => i.wf
  | .ldS i _ _ | .ldSv i _ | .stS i _ _ | .stSv i _ | .ldF i _ _ | .ldFv i _ | .stF i _ _ | .stFv i _ | .amo i _ _ => i.wf
  | .amoCas i _ | .fenceL i _ | .fenceG i _ => i.wf
  | .vaddVsubVmul i _ _ | .vfma i _ | .vminVmax i _ _ | .vabsVneg i _ _ | .vrcpVrsqrt i _ _ | .vandVorVxor i _ _ => i.wf
  | .vshlVshrVsra i _ _ | .vcmp i _ _ | .vsel i _ | .vbcast i _ | .vext i _ | .vins i _ | .vperm i _ | .vidx i _ => i.wf
  | .vcvt i _ | .vpack i _ | .vunpack i _ | .vred i _ _ | .setvl i _ | .vgth i _ | .vsct i _ | .vredn i _ => i.wf
  | .vsort i _ | .vsorti i _ => i.wf
  | .mmac i _ | .mout i _ | .mzero i _ | .mrd i _ | .mwr i _ | .mst i _ | .mld i _ | .mwait i _ | .mresume i _ => i.wf
  | .mabort i _ | .mvq i _ | .barArv i _ | .barWt i _ | .barArm i _ | .barRd i _ | .cadDone i _ => i.wf
  | .frameReceive _ r => r.wf
  | .winLoad k | .winStore k | .winAtomic k | .put k | .get k | .atomic k | .notify k | .response k | .collData k _ => k.wf
  | .apertureTimeout x | .setupCompletion x | .loadImage x | .fitCheck x | .start x | .stop x | .cancel x | .query x => x.wf
  | .retire x | .memCopy x | .memFill x | .saveContext x | .restoreContext x | .cadenceArm x | .cadenceDisarm x => x.wf
  | .powerEnvelope x | .domainJoin x | .domainLeave x | .reservoirLearn x | .reservoirRestore x | .attest x => x.wf
  | .drain x | .resetModule x => x.wf
  | .write _ l _ => decide (l.length ≤ 128)
  | .sweepTick x | .ringBrokenDetect x => x.wf
  | .sample _ _ v t => decide (v.length = 6) && decide (t.length = 2)
  | _ => true

end Sys2Proof
end

