-- ==== Sys2Proof/Tests/Slice0.lean ====
section
/-!
SUPPORT. The model's own tests: states and operands that meet the hypotheses of the statements, one step at a time where a rule's value can be
worked out by hand, and an ill-formed term for every check of WellFormed. Expected values come from the rule each comment names.
-/

namespace Sys2Proof.Tests

set_option Elab.async false

open Sys2Proof.Machine

/-! ### States for tests -/

/-- The state a command answers. -/
def after (c : Instr) (s : State) : State := match exec c s with | .next t => t | _ => State.reset

/-- The invariant as a check over what a state lists. -/
def tileInv (x : Tile) : Bool :=
  Tab.wf 0 x.s && Tab.wf 0 x.p && Tab.wf 0 x.v && Tab.wf 0 x.acc && Tab.wf none x.sPoison && Tab.wf none x.vPoison && Tab.wf {} x.eng
    && Tab.wf 0 x.silt && Tab.wf false x.siltBad && Tab.wf none x.cuts && Tab.wf 0 x.events

def memInv (s : State) : Bool :=
  Tab.wf 0 s.mem.phys && Tab.wf false s.mem.bad && Tab.wf 0 s.mem.host && Tab.wf false s.mem.badPages && Tab.wf none s.mem.modes
    && Tab.wf none s.mem.cuts && s.mem.cuts.all (fun p => match p.2 with | some c => Tab.wf none c.cuts | none => true)

def mmuInv (s : State) : Bool :=
  Tab.wf 0 s.mmu.ctx && Tab.wf 0 s.mmu.root && Tab.wf 0 s.mmu.fqPut && Tab.wf 0 s.mmu.fqGet && Tab.wf 0 s.mmu.fqSeq && Tab.wf [] s.mmu.posted
    && Tab.wf [] s.mmu.held && Tab.wf [] s.mmu.walks && Tab.wf [] s.mmu.tlbs && Tab.wf [] s.mmu.wcache && Tab.wf [] s.mmu.answered

def engInv (s : State) : Bool :=
  Tab.wf {} s.eng.mov && Tab.wf {} s.eng.exp && Tab.wf none s.eng.tables && Tab.wf 0 s.eng.ctr && Tab.wf none s.eng.ctrGrant

def gzInv (s : State) : Bool :=
  Tab.wf {} s.gz.ports && s.gz.ports.all (fun p => Tab.wf 0 p.2.creditsUsed && Tab.wf 0 p.2.creditsDue) && Tab.wf none s.gz.cutSince && Tab.wf 0xFF s.gz.routes && Tab.wf 0 s.gz.heard
    && Tab.wf 0 s.gz.e2e && Tab.wf [] s.gz.dups && Tab.wf 0 s.gz.exportMap && Tab.wf {} s.gz.fq && Tab.wf [] s.gz.collIn

def gvnInv (s : State) : Bool :=
  Tab.wf 0 s.gvn.received && Tab.wf 0 s.gvn.sentLevel && Tab.wf 256 s.gvn.thermalLvl && Tab.wf 256 s.gvn.railLvl && Tab.wf 0 s.gvn.junction
    && Tab.wf 0 s.gvn.hbmTemp && Tab.wf 0 s.gvn.band && Tab.wf false s.gvn.throttled && Tab.wf none s.gvn.coeff

def resInv (s : State) : Bool :=
  Tab.wf {} s.res.monitors && Tab.wf {} s.res.cells
    && s.res.monitors.all fun p => Tab.wf 0 p.2.volts && Tab.wf 0 p.2.temps && Tab.wf 0 p.2.nv

def rfwInv (s : State) : Bool :=
  Tab.wf none s.rfw.gotV && Tab.wf none s.rfw.gotT && Tab.wf none s.rfw.wroteGt && Tab.wf 0 s.rfw.wroteCycles && Tab.wf none s.rfw.serials && Tab.wf [] s.rfw.hostCopy

def restInv (s : State) : Bool :=
  Tab.wf 0 s.trust.window && Tab.wf 0 s.trust.keys && Tab.wf 0 s.trust.keyPriv && Tab.wf {} s.cmd.slots && Tab.wf none s.cmd.cache
    && Tab.wf none s.cmd.hostHeld && Tab.wf {} s.ctxs && s.ctxs.all (fun p => Tab.wf none p.2.answer) && Tab.wf {} s.cads && Tab.wf {} s.pairs
    && Tab.wf 0 s.clk.syncs && Tab.wf 0 s.clk.gtHi && (Tab.wf 0 s.cmd.portB.creditsUsed && Tab.wf 0 s.cmd.portB.creditsDue) && Tab.wf {} s.pow.gov && decide (s.pow.rails.length = 13)

def invB (s : State) : Bool :=
  Tab.wf {} s.tiles && s.tiles.all (fun p => tileInv p.2) && memInv s && mmuInv s && engInv s && gzInv s && gvnInv s && resInv s && rfwInv s
    && restInv s

/-- What holds of the unlisted value and of every listed one holds of every entry. -/
theorem look_all {α : Type} (d : α) (q : α → Bool) (hd : q d = true) : ∀ (m : Tab α), m.all (fun p => q p.2) = true → ∀ k, q (Tab.look d m k) = true
  | [], _, _ => hd
  | (j, v) :: r, h, k => by
    simp only [List.all_cons, Bool.and_eq_true] at h
    unfold Tab.look
    split
    · exact h.1
    · exact look_all d q hd r h.2 k

theorem tileInv_inv {x : Tile} (h : tileInv x = true) : x.Inv := by
  simp only [tileInv, Bool.and_eq_true, and_assoc] at h
  obtain ⟨a, b, c, d, e, f, g, i, j, k, l⟩ := h
  exact ⟨a, b, c, d, e, f, g, i, j, k, l⟩

theorem memInv_inv {s : State} (h : memInv s = true) : s.mem.Inv := by
  simp only [memInv, Bool.and_eq_true, and_assoc] at h
  obtain ⟨a, b, c, d, e, f, g⟩ := h
  refine ⟨a, b, c, d, e, f, fun k c hc => ?_⟩
  have := look_all (none : Option SavedCuts) (fun p => match p with | some c => Tab.wf none c.cuts | none => true) rfl _ g k
  rw [hc] at this
  exact this

theorem mmuInv_inv {s : State} (h : mmuInv s = true) : s.mmu.Inv := by
  simp only [mmuInv, Bool.and_eq_true, and_assoc] at h
  obtain ⟨c1, c2, c3, c4, c5, c6, c7, c8, c9, c10, c11⟩ := h; exact ⟨c1, c2, c3, c4, c5, c6, c7, c8, c9, c10, c11⟩

theorem engInv_inv {s : State} (h : engInv s = true) : s.eng.Inv := by
  simp only [engInv, Bool.and_eq_true] at h; exact ⟨h.1.1.1.1, h.1.1.1.2, h.1.1.2, h.1.2, h.2⟩

theorem gzInv_inv {s : State} (h : gzInv s = true) : s.gz.Inv := by
  simp only [gzInv, Bool.and_eq_true, and_assoc] at h
  obtain ⟨e1, e2, e3, e4, e5, e6, e7, e8, e9, e10⟩ := h
  have g (m : Nat) := look_all ({} : Port) (fun p : Port => Tab.wf 0 p.creditsUsed && Tab.wf 0 p.creditsDue) (by decide) _ e2 m
  simp only [Bool.and_eq_true] at g
  exact ⟨e1, fun m => (g m).1, fun m => (g m).2, e3, e4, e5, e6, e7, e8, e9, e10⟩

theorem gvnInv_inv {s : State} (h : gvnInv s = true) : s.gvn.Inv := by
  simp only [gvnInv, Bool.and_eq_true, and_assoc] at h
  obtain ⟨f1, f2, f3, f4, f5, f6, f7, f8, f9⟩ := h; exact ⟨f1, f2, f3, f4, f5, f6, f7, f8, f9⟩

theorem resInv_inv {s : State} (h : resInv s = true) : s.res.Inv := by
  simp only [resInv, Bool.and_eq_true] at h
  have g (m : Nat) := look_all ({} : Monitor) (fun p : Monitor => Tab.wf 0 p.volts && Tab.wf 0 p.temps && Tab.wf 0 p.nv) (by decide) _ h.2 m
  simp only [Bool.and_eq_true] at g
  exact ⟨h.1.1, h.1.2, fun m => (g m).1.1, fun m => (g m).1.2, fun m => (g m).2⟩

theorem rfwInv_inv {s : State} (h : rfwInv s = true) : s.rfw.Inv := by
  simp only [rfwInv, Bool.and_eq_true] at h; exact ⟨h.1.1.1.1.1, h.1.1.1.1.2, h.1.1.1.2, h.1.1.2, h.1.2, h.2⟩

theorem inv_of {s : State} (h : invB s = true) : s.Inv := by
  unfold invB at h
  simp only [Bool.and_eq_true] at h
  obtain ⟨⟨⟨⟨⟨⟨⟨⟨⟨a, a'⟩, hm⟩, hu⟩, he⟩, hg⟩, hv⟩, hr⟩, hf⟩, hx⟩ := h
  simp only [restInv, Bool.and_eq_true, and_assoc, decide_eq_true_eq] at hx
  obtain ⟨i1, i2, i3, i4, i5, i6, i7, i8, i9, i10, i11, i12, i13, i14, i15, i16⟩ := hx
  exact {
    tiles := ⟨a, fun t => tileInv_inv (look_all ({} : Tile) tileInv (by decide) _ a' t)⟩
    mem := memInv_inv hm, mmu := mmuInv_inv hu, eng := engInv_inv he, gz := gzInv_inv hg, gvn := gvnInv_inv hv, res := resInv_inv hr
    rfw := rfwInv_inv hf, trust := ⟨i1, i2, i3⟩
    host := ⟨i4, i5, i6, i7, look_all ({} : Ctx) (fun p : Ctx => Tab.wf none p.answer) (by decide) _ i8, i9, i10, i11, i12, ⟨i13, i14⟩, i15⟩
    rails := i16 }

/-- `State.Ready` as a check. -/
def readyB (s : State) (t : Nat) : Bool :=
  let x := s.tile t
  decide (s.top.st ≠ .faulted) && x.issues && !x.longStop && decide (x.hold = .none) && decide (engineTrap x = none)
    && decide (interruptTrap s.clk.gt x = none) && decide (x.fetchFault = none) && decide (x.walkFault = none) && decide (x.far = [])
    && decide (x.sPoison = []) && decide (x.vPoison = []) && !x.haz.vlOpen && !x.haz.tieOpen && !x.haz.tfflagsOpen && !x.haz.tvecOpen && !x.haz.mseedOpen

theorem ready_of {s : State} {t : Nat} (h : readyB s t = true) : s.Ready t := by
  simp only [readyB, Bool.and_eq_true, Bool.not_eq_true', decide_eq_true_eq, and_assoc] at h
  obtain ⟨a, b, c, d, e, f, g, i, j, k, l, m, n, o, p, q⟩ := h
  exact ⟨a, b, c, d, e, f, g, i, j, k, l, m, n, o, p, q⟩

/-- One syllable alone. -/
def lone (k : Fin 8) (g : BitVec 4 := 0) : Issue := { tile := 3, slot := k, guard := g, rest := [], stopAt := none }

theorem canIssue_of {s : State} {k : Fin 8} {g : BitVec 4} (hi : invB s = true) (hr : readyB s 3 = true) : s.CanIssue (lone k g) :=
  ⟨inv_of hi, ready_of hr, rfl, rfl⟩

/-- A running tile 3 of a running module. -/
def mk (x : Tile) : State := { State.reset with top := { st := .running }, tiles := [(3, x)] }

/-- The tile of the scalar tests. -/
def tileX : Tile := { st := .running, s := [(1, 5), (2, 3), (3, 0x8000000000000000), (4, 0xFFFFFFFFFFFFFFFF)], pc := 0x1000 }
def busy : State := mk tileX
def busyUser : State := mk { tileX with sys := { tstatus := 0x80 } }

/-- Operand fields of formats R and I: sD, sA, sB and the immediate (Tables 3-2, 3-3). -/
def fR (d a b : Nat) : BitVec 48 := BitVec.ofNat 48 (d * 2 ^ 42 + a * 2 ^ 36 + b * 2 ^ 30)
def fI (d a : Nat) (imm : BitVec 32) : BitVec 48 := BitVec.ofNat 48 (d * 2 ^ 42 + a * 2 ^ 36 + imm.toNat)

theorem busy_can {k : Fin 8} : busy.CanIssue (lone k) := canIssue_of (by decide) (by decide)
theorem busyUser_can {k : Fin 8} : busyUser.CanIssue (lone k) := canIssue_of (by decide) (by decide)

/-! ### Well-formed commands: an ill-formed term for every check, and a well-formed one beside it -/

def pkt (len : Nat) (payload : List Byte) : Packet :=
  { cls := 0, hop := 0, dst := 0, src := 0, flow := 0, len, epoch := 0, addr := 0, tagged := false, cadence := 0, period := 0, txn := 0, ctr := 0
    inc := 0, rstatus := 0, aop := 0, seq := 0, typ := 0, payload }
def exch (par : List W64) : Exchange := { secure := true, flags := 0, tag := 0, par }

theorem test_wf_slot_given_twice : (Instr.add { lone 1 with rest := [(1, 0)] } false 0).wf = false ∧ (Instr.add (lone 1) false 0).wf = true := by decide
theorem test_wf_rest_given_twice : (Instr.br { lone 0 with rest := [(2, 0), (2, 0)] } 0).wf = false ∧ (Instr.br { lone 0 with rest := [(2, 0), (1, 0)] } 0).wf = true := by decide
theorem test_wf_packet_len : (Instr.put (pkt 2 [0])).wf = false ∧ (Instr.put (pkt 1 [0])).wf = true := by decide
theorem test_wf_packet_max (l : List Byte) : (Packet.wf (pkt 4097 l)) = false := by simp [Packet.wf, pkt]
theorem test_wf_coll_data : (Instr.collData (pkt 2 [0]) { bolt := 0, queue := 0, gather := false, chunk := 0 }).wf = false := by decide
theorem test_wf_exchange_words : (Instr.stop (exch (List.replicate 15 0))).wf = false ∧ (Instr.stop (exch (List.replicate 14 0))).wf = true := by decide
theorem test_wf_sweep_corners : (Instr.sweepTick { millivolts := 0, milliamps := [0, 0, 0], charge := 0 }).wf = false
    ∧ (Instr.sweepTick { millivolts := 0, milliamps := [0, 0, 0, 0], charge := 0 }).wf = true := by decide
theorem test_wf_frame_bytes : (Instr.frameReceive 0 { fecOk := true, lcw := 0, bytes := [0] }).wf = false := by decide
set_option maxRecDepth 4000 in
theorem test_wf_write_bytes : (Instr.write 0 (List.replicate 129 0) true).wf = false ∧ (Instr.write 0 (List.replicate 128 0) true).wf = true := by
  decide
theorem test_wf_sample_volts : (Instr.sample 0 0 [0, 0, 0, 0, 0] [0, 0]).wf = false ∧ (Instr.sample 0 0 [0, 0, 0, 0, 0, 0] [0]).wf = false
    ∧ (Instr.sample 0 0 [0, 0, 0, 0, 0, 0] [0, 0]).wf = true := by decide

/-- No row of the table has bits: no word spells a command, and none is put in front of the queue. -/
theorem test_no_word_spells_a_command : decodeTableWord 32 0 = none ∧ State.withFetchWord busy 32 0 = busy := ⟨rfl, rfl⟩

/-! ### The remaining premises as checks -/

/-- A check of the default context and of every listed one. -/
def ctxAll (s : State) (f : Ctx → Bool) : Bool := f {} && (s.ctxs : List (Nat × Ctx)).all fun p => f p.2

theorem ctxAll_look {s : State} {f : Ctx → Bool} (h : ctxAll s f = true) (c : Nat) : f (s.ctx c) = true := by
  simp only [ctxAll, Bool.and_eq_true] at h
  exact look_all ({} : Ctx) f h.1 s.ctxs h.2 c

def calmC (s : State) (t : Nat) (x : Ctx) : Bool :=
  decide (x.saveSlot = none) && (decide (x.stopping = false) && (decide (x.stopDue = false) && (decide (x.ending = none) && (decide (x.due = none)
    && (decide (x.st ≠ .running) || (x.startSlot.isSome && x.startTiles.any fun u => decide (u ≠ t) && decide ((s.tile u).st ≠ .halted)))))))

def calmB (s : State) (t : Nat) : Bool :=
  ctxAll s (calmC s t) && (decide (s.top.st ≠ .running) || (s.ctxs : List (Nat × Ctx)).any fun p => (s.ctx p.1).started)

theorem calm_of {s : State} {t : Nat} (h : calmB s t = true) : s.Calm t := by
  simp only [calmB, Bool.and_eq_true] at h
  have g (c : Nat) : calmC s t (s.ctx c) = true := ctxAll_look h.1 c
  simp only [calmC, Bool.and_eq_true, Bool.or_eq_true, decide_eq_true_eq, List.any_eq_true] at g
  refine ⟨fun c => (g c).1, fun c => ⟨(g c).2.1, (g c).2.2.1⟩, fun c => ⟨(g c).2.2.2.1, (g c).2.2.2.2.1⟩, fun c hr => ?_, fun ht => ?_⟩
  · rcases (g c).2.2.2.2.2 with hn | ⟨ha, u, hu, hv⟩
    · exact absurd hr hn
    · exact ⟨ha, u, hu, hv.1, hv.2⟩
  · have h2 := h.2
    simp only [Bool.or_eq_true, decide_eq_true_eq, List.any_eq_true] at h2
    rcases h2 with hn | ⟨p, _, hp⟩
    · exact absurd ht hn
    · exact ⟨p.1, hp⟩

def stillB (s : State) : Bool :=
  calmB s 1024 && ctxAll s (fun x => decide (x.load = none)) && decide (s.mem.bad = []) && decide (s.cmd.hostHeld = [])

theorem still_of {s : State} (h : stillB s = true) : s.Still := by
  simp only [stillB, Bool.and_eq_true, decide_eq_true_eq] at h
  exact ⟨calm_of h.1.1.1, fun c => by simpa using ctxAll_look h.1.1.2 c, h.1.2, h.2⟩

def hereB (s : State) (pa : Nat) : Bool := match targetOf pa with | .hbm k => s.stackUp k | .loam _ => true | _ => false

theorem here_of {s : State} {pa : Nat} (h : hereB s pa = true) : s.here pa := by
  unfold hereB at h
  split at h
  · next k e => exact .inl ⟨k, e, h⟩
  · next b e => exact .inr ⟨b, e⟩
  · exact absurd h (by decide)

theorem heres_of {s : State} {n a b : Nat} (h : (List.range n).all (fun k => hereB s (a + 8 * k) && hereB s (b + 8 * k)) = true) :
    ∀ k, k < n → s.here (a + 8 * k) ∧ s.here (b + 8 * k) := fun k hk => by
  have := List.all_eq_true.mp h k (List.mem_range.mpr hk)
  simp only [Bool.and_eq_true] at this
  exact ⟨here_of this.1, here_of this.2⟩

def passesB (s : State) (op : Nat) (x : Exchange) (masks : List Nat) (secureOnly : Bool) : Bool :=
  decide (s.cmd.link = .up) && (s.fwRuns && (s.accepts op && (decide (lineOpcode op x = op) && (s.cmd.areaValid && (fieldsClear x masks && (!secureOnly || x.secure))))))

theorem passes_of {s : State} {op : Nat} {x : Exchange} {m : List Nat} {b : Bool} (h : passesB s op x m b = true) : s.Passes op x m b := by
  simp only [passesB, Bool.and_eq_true, Bool.or_eq_true, Bool.not_eq_true', decide_eq_true_eq] at h
  refine ⟨h.1, h.2.1, h.2.2.1, h.2.2.2.1, h.2.2.2.2.1, h.2.2.2.2.2.1, fun hb => ?_⟩
  rcases h.2.2.2.2.2.2 with h' | h'
  · rw [hb] at h'; exact absurd h' (by decide)
  · exact h'

theorem look_single {α : Type} {d v : α} {k j : Nat} (h : j ≠ k) : Tab.look d [(k, v)] j = d := by
  simp [Tab.look, Ne.symm h]

theorem reserve_ge {s : State} {b r : Nat} (h : s.reserve b = some r) : 0x1180000000 ≤ r := by
  simp only [State.reserve, Option.map_eq_some_iff] at h
  obtain ⟨n, -, rfl⟩ := h
  exact Nat.le_add_left _ _

theorem ok_of {ε α : Type} {x : Except ε α} {v : α} (h : x.toOption = some v) : x = .ok v := by
  cases x with
  | error e => cases h
  | ok w => cases h; rfl

/-- The register of CRC-32 after a bit string, looked at after every bit. -/
def crcGo : List Bool → W32 → W32
  | [], r => r
  | b :: l, r => match decide (r.toNat < 2 ^ 32) with
    | true => crcGo l (if (r.getLsbD 0) != b then (r >>> 1) ^^^ 0xEDB88320 else r >>> 1)
    | false => r

theorem crcGo_eq (l : List Bool) (r : W32) :
    crcGo l r = l.foldl (fun (r : W32) b => let out := (r.getLsbD 0) != b; if out then (r >>> 1) ^^^ 0xEDB88320 else r >>> 1) r := by
  induction l generalizing r with
  | nil => rfl
  | cons b l ih => simp only [crcGo, decide_eq_true r.isLt, List.foldl_cons]; exact ih _

theorem frameGood_of {r : RxFrame} (h : (r.fecOk && decide (r.bytes.length = 640)
    && decide ((crcGo ((List.range 20).map (bitOf r.lcw.toNat) ++ bitsLsb (r.bytes.take 636)) 0xFFFFFFFF ^^^ 0xFFFFFFFF).toNat = ofLe (r.bytes.drop 636))) = true) :
    frameGood r = true := by
  rw [crcGo_eq] at h; exact h

theorem bits_of {w : W64} {P : Nat → Prop} (h : ∀ j, j < 64 → w.getLsbD j = true → P j) (k : Nat) (e : w.getLsbD k = true) : P k := by
  by_cases g : k < 64
  · exact h k g e
  · rw [BitVec.getLsbD_of_ge _ _ (Nat.le_of_not_lt g)] at e; cases e

theorem between {n m : Nat} {P : Nat → Prop} (h : ∀ i, i < m → n ≤ i → P i) (i : Nat) (a : n ≤ i) (b : i < m) : P i := h i b a

theorem look_keys {α : Type} {d : α} {m : Tab α} {c e : Nat} (h : m.map Prod.fst = [c]) (he : e ≠ c) : Tab.look d m e = d := by
  match m, h with
  | [(j, v)], h => simp only [List.map_cons, List.map_nil, List.cons.injEq, and_true] at h; rw [h]; exact look_single he

/-- The premises of a statement about one armed cadence. -/
def oneB (s : State) (k : Nat) (d : CadDecl) (c : Nat) : Bool :=
  let y := s.ctx c
  invB s && decide (s.decl k = some d ∧ (s.cad k).ctx.toNat = c ∧ s.ctxs.map Prod.fst = [c] ∧ s.cads.map Prod.fst = [k] ∧ (s.cad k).st ≠ .disarmed
    ∧ (y.st = .running ∧ y.startSlot = none ∧ y.saveSlot = none ∧ y.ending = none ∧ y.due = none
      ∧ y.stopping = false ∧ y.stopDue = false ∧ y.load = none ∧ y.released = false) ∧ s.mem.bad = [] ∧ s.clm.watchdog = false)

theorem one_of {s : State} {k c : Nat} {d : CadDecl} (h : oneB s k d c = true) : Claims.OneCadence s k d c := by
  simp only [oneB, Bool.and_eq_true, decide_eq_true_eq] at h
  obtain ⟨i, dd, cx, ke, kk, ar, ru, ba, wa⟩ := h
  exact ⟨inv_of i, dd, cx, fun _ he => look_keys ke he, fun _ he => look_keys kk he, ar, ru, ba, wa⟩

theorem clear_of {s : State} (h : s.cmd.slots.all (fun p => decide (p.2.st = .outstanding → p.2.op = .drain)) = true) :
    ∀ n, (s.slotOf n).st = .outstanding → (s.slotOf n).op = .drain := fun n => by
  exact of_decide_eq_true (look_all ({} : Slot) (fun p => decide (p.st = .outstanding → p.op = .drain)) (by decide) s.cmd.slots h n)

/-- The register of a CRC over a list of bits, looked at after every bit. -/
def crcNat (n : Nat) (f : Nat → Bool → Nat) : List Bool → Nat → Nat
  | [], r => r
  | b :: l, r => match decide (r < n) with
    | true => crcNat n f l (f r b)
    | false => l.foldl f (f r b)

theorem crcNat_eq (n : Nat) (f : Nat → Bool → Nat) (l : List Bool) (r : Nat) : crcNat n f l r = l.foldl f r := by
  induction l generalizing r with
  | nil => rfl
  | cons b l ih =>
    simp only [crcNat, List.foldl_cons]
    split
    · exact ih _
    · rfl

def crc6Of (f : W32) : Nat :=
  crcNat 64 (fun r b => if (bitOf r 5) != b then r * 2 % 64 ^^^ 3 else r * 2 % 64) (bitsMsb 26 (f.toNat / 64)) 0

theorem railGood_of {f : W32} {b : Bool} (h : decide (crc6Of f = f.toNat % 64) = b) : railGood f = b := by
  unfold crc6Of at h; rw [crcNat_eq] at h; exact h

def crc8Of (f : W64) : Nat :=
  crcNat 256 (fun r b => if (bitOf r 7) != b then r * 2 % 256 ^^^ 0x2F else r * 2 % 256) (bitsMsb 56 (f.toNat / 256)) 0xFF

theorem ringGood_of {f : W64} {b : Bool} (h : decide (crc8Of f = f.toNat % 256) = b) : ringGood f = b := by
  unfold crc8Of at h; rw [crcNat_eq] at h; exact h

/-- Memory that lists strings of bytes, from the lowest address up. -/
def spread (l : List (Nat × List Byte)) : Tab Byte :=
  l.flatMap fun p => (p.2.zipIdx p.1).filterMap fun q => if q.1 = 0 then none else some (q.2, q.1)

namespace Scalar1



theorem met_ScalarRegisterResults_1 :
    (busy.CanIssue (lone 1)) ∧
    (busy.guarded (lone 1)) ∧
    ((lone 1).slot = 1 ∨ (lone 1).slot = 2) ∧
    (BitVec.extractLsb' 0 30 (fR 3 1 2) = 0) :=
  by refine ⟨canIssue_of (by decide +kernel) (by decide +kernel), (by unfold State.guarded; decide +kernel), ?_⟩ <;> and_intros <;> decide +kernel

theorem met_ScalarImmediateResults_1 :
    (busy.CanIssue (lone 1)) ∧
    (busy.guarded (lone 1)) ∧
    ((lone 1).slot = 1 ∨ (lone 1).slot = 2) ∧
    (BitVec.extractLsb' 32 4 (fR 3 1 2) = 0) :=
  by refine ⟨canIssue_of (by decide +kernel) (by decide +kernel), (by unfold State.guarded; decide +kernel), ?_⟩ <;> and_intros <;> decide +kernel

theorem met_ScalarImmediateResults_2 :
    (busy.CanIssue (lone 1)) ∧
    (busy.guarded (lone 1)) ∧
    ((lone 1).slot = 1 ∨ (lone 1).slot = 2) ∧
    (BitVec.extractLsb' 32 4 0#48 = 0) ∧
    (opRA 0#48 = 0) :=
  by refine ⟨canIssue_of (by decide +kernel) (by decide +kernel), (by unfold State.guarded; decide +kernel), ?_⟩ <;> and_intros <;> decide +kernel

theorem met_ScalarDivision_1 :
    (busy.CanIssue (lone 1)) ∧
    (busy.guarded (lone 1)) ∧
    ((lone 1).slot = 1 ∨ (lone 1).slot = 2) ∧
    (BitVec.extractLsb' 0 30 (fR 3 1 2) = 0) ∧
    ((busy.tile ↑(lone 1).tile).getS (opRB (fR 3 1 2)) ≠ 0) :=
  by refine ⟨canIssue_of (by decide +kernel) (by decide +kernel), (by unfold State.guarded; decide +kernel), ?_⟩ <;> and_intros <;> decide +kernel

theorem met_ScalarDivision_2 :
    (busy.CanIssue (lone 1)) ∧
    (busy.guarded (lone 1)) ∧
    ((lone 1).slot = 1 ∨ (lone 1).slot = 2) ∧
    (BitVec.extractLsb' 0 30 0#48 = 0) ∧
    ((busy.tile ↑(lone 1).tile).getS (opRB 0#48) = 0) :=
  by refine ⟨canIssue_of (by decide +kernel) (by decide +kernel), (by unfold State.guarded; decide +kernel), ?_⟩ <;> and_intros <;> decide +kernel

theorem met_ScalarDivision_3 :
    (busy.CanIssue (lone 1)) ∧
    (busy.guarded (lone 1)) ∧
    ((lone 1).slot = 1 ∨ (lone 1).slot = 2) ∧
    (BitVec.extractLsb' 0 30 (fR 0 3 4) = 0) ∧
    ((busy.tile ↑(lone 1).tile).getS (opRA (fR 0 3 4)) = BitVec.intMin 64 ∧ (busy.tile ↑(lone 1).tile).getS (opRB (fR 0 3 4)) = BitVec.allOnes 64) :=
  by refine ⟨canIssue_of (by decide +kernel) (by decide +kernel), (by unfold State.guarded; decide +kernel), ?_⟩ <;> and_intros <;> decide +kernel

theorem met_ScalarBitCounts_1 :
    (busy.CanIssue (lone 1)) ∧
    (busy.guarded (lone 1)) ∧
    ((lone 1).slot = 1 ∨ (lone 1).slot = 2) ∧
    (BitVec.extractLsb' 0 36 0#48 = 0) :=
  by refine ⟨canIssue_of (by decide +kernel) (by decide +kernel), (by unfold State.guarded; decide +kernel), ?_⟩ <;> and_intros <;> decide +kernel

theorem met_ScalarPredicates_1 :
    (busy.CanIssue (lone 1)) ∧
    (busy.guarded (lone 1)) ∧
    ((lone 1).slot = 1 ∨ (lone 1).slot = 2) ∧
    (opRD (fR 3 1 2) < 16) ∧
    (BitVec.extractLsb' 0 30 (fR 3 1 2) = 0) ∧
    ((busy.tile ↑(lone 1).tile).getS (opRA (fR 3 1 2)) ≠ (busy.tile ↑(lone 1).tile).getS (opRB (fR 3 1 2))) ∧
    (BitVec.extractLsb' 32 4 (fR 3 1 2) = 0) ∧
    ((busy.tile ↑(lone 1).tile).getS (opRA (fR 3 1 2)) ≠ opImm (fR 3 1 2)) ∧
    (opRA (fR 3 1 2) < 16) ∧
    (opRB (fR 3 1 2) < 16) :=
  by refine ⟨canIssue_of (by decide +kernel) (by decide +kernel), (by unfold State.guarded; decide +kernel), ?_⟩ <;> and_intros <;> decide +kernel

theorem met_ScalarPredicates_2 :
    (busy.CanIssue (lone 1)) ∧
    (busy.guarded (lone 1)) ∧
    ((lone 1).slot = 1 ∨ (lone 1).slot = 2) ∧
    (opRD (fR 3 1 2) < 16) ∧
    (BitVec.extractLsb' 0 30 (fR 3 1 2) = 0) ∧
    (¬(busy.tile ↑(lone 1).tile).getS (opRA (fR 3 1 2)) = (busy.tile ↑(lone 1).tile).getS (opRB (fR 3 1 2))) ∧
    (BitVec.extractLsb' 32 4 (fR 3 1 2) = 0) ∧
    (¬(busy.tile ↑(lone 1).tile).getS (opRA (fR 3 1 2)) = opImm (fR 3 1 2)) :=
  by refine ⟨canIssue_of (by decide +kernel) (by decide +kernel), (by unfold State.guarded; decide +kernel), ?_⟩ <;> and_intros <;> decide +kernel

theorem met_ScalarPredicates_3 :
    (busy.CanIssue (lone 1)) ∧
    (busy.guarded (lone 1)) ∧
    ((lone 1).slot = 1 ∨ (lone 1).slot = 2) ∧
    (opRA 0#48 < 16) ∧
    (BitVec.extractLsb' 0 36 0#48 = 0) ∧
    (opRD 0#48 < 16) :=
  by refine ⟨canIssue_of (by decide +kernel) (by decide +kernel), (by unfold State.guarded; decide +kernel), ?_⟩ <;> and_intros <;> decide +kernel

end Scalar1

namespace Sys



theorem met_SystemRegisterReads_1 :
    (busy.CanIssue (lone 1)) ∧
    (busy.guarded (lone 1)) ∧
    ((lone 1).slot = 1) ∧
    (BitVec.extractLsb' 32 10 0#48 = 0) ∧
    (busy.Supervisor ↑(lone 1).tile ∨ 0 ∈ [0, 9, 10, 11, 12, 13]) ∧
    (BitVec.extractLsb' 0 32 0#48 = 0#32) :=
  by refine ⟨canIssue_of (by decide +kernel) (by decide +kernel), (by unfold State.guarded; decide +kernel), ?_, ?_,
   (by unfold State.Supervisor; decide +kernel), ?_⟩ <;> decide +kernel

theorem met_SystemRegisterWrites_1 :
    (busy.CanIssue (lone 1)) ∧
    (busy.guarded (lone 1)) ∧
    ((lone 1).slot = 1) ∧
    (BitVec.extractLsb' 32 4 (fI 0 0 9) = 0) ∧
    (opRD (fI 0 0 9) = 0) ∧
    (BitVec.extractLsb' 0 32 (fI 0 0 9) = 9#32) :=
  by refine ⟨canIssue_of (by decide +kernel) (by decide +kernel), (by unfold State.guarded; decide +kernel), ?_⟩ <;> and_intros <;> decide +kernel

theorem met_SystemRegisterWrites_2 :
    (busy.CanIssue (lone 1)) ∧
    (busy.guarded (lone 1)) ∧
    ((lone 1).slot = 1) ∧
    (BitVec.extractLsb' 32 4 (fI 0 0 10) = 0) ∧
    (opRD (fI 0 0 10) = 0) ∧
    (BitVec.extractLsb' 0 32 (fI 0 0 10) = 10#32) :=
  by refine ⟨canIssue_of (by decide +kernel) (by decide +kernel), (by unfold State.guarded; decide +kernel), ?_⟩ <;> and_intros <;> decide +kernel

theorem met_SystemRegisterWrites_3 :
    (busy.CanIssue (lone 1)) ∧
    (busy.guarded (lone 1)) ∧
    ((lone 1).slot = 1) ∧
    (BitVec.extractLsb' 32 4 (fI 0 4 1#32) = 0) ∧
    (opRD (fI 0 4 1#32) = 0) ∧
    (busy.Supervisor ↑(lone 1).tile) ∧
    (BitVec.extractLsb' 0 32 (fI 0 4 1#32) = 1#32) :=
  by refine ⟨canIssue_of (by decide +kernel) (by decide +kernel), (by unfold State.guarded; decide +kernel), ?_, ?_, ?_,
   (by unfold State.Supervisor; decide +kernel), ?_⟩ <;> decide +kernel

theorem met_SystemRegisterWrites_4 :
    (busy.CanIssue (lone 1)) ∧
    (busy.guarded (lone 1)) ∧
    ((lone 1).slot = 1) ∧
    (BitVec.extractLsb' 32 4 (fI 0 4 2#32) = 0) ∧
    (opRD (fI 0 4 2#32) = 0) ∧
    (busy.Supervisor ↑(lone 1).tile) ∧
    (BitVec.extractLsb' 0 32 (fI 0 4 2#32) = 2#32) :=
  by refine ⟨canIssue_of (by decide +kernel) (by decide +kernel), (by unfold State.guarded; decide +kernel), ?_, ?_, ?_,
   (by unfold State.Supervisor; decide +kernel), ?_⟩ <;> decide +kernel

theorem met_SystemRegisterWrites_5 :
    (busy.CanIssue (lone 1)) ∧
    (busy.guarded (lone 1)) ∧
    ((lone 1).slot = 1) ∧
    (BitVec.extractLsb' 32 4 (fI 0 4 3#32) = 0) ∧
    (opRD (fI 0 4 3#32) = 0) ∧
    (busy.Supervisor ↑(lone 1).tile) ∧
    (BitVec.extractLsb' 0 32 (fI 0 4 3#32) = 3#32) :=
  by refine ⟨canIssue_of (by decide +kernel) (by decide +kernel), (by unfold State.guarded; decide +kernel), ?_, ?_, ?_,
   (by unfold State.Supervisor; decide +kernel), ?_⟩ <;> decide +kernel

theorem met_SystemRegisterWrites_6 :
    (busy.CanIssue (lone 1)) ∧
    (busy.guarded (lone 1)) ∧
    ((lone 1).slot = 1) ∧
    (BitVec.extractLsb' 32 4 (fI 0 4 4#32) = 0) ∧
    (opRD (fI 0 4 4#32) = 0) ∧
    (busy.Supervisor ↑(lone 1).tile) ∧
    (BitVec.extractLsb' 0 32 (fI 0 4 4#32) = 4#32) :=
  by refine ⟨canIssue_of (by decide +kernel) (by decide +kernel), (by unfold State.guarded; decide +kernel), ?_, ?_, ?_,
   (by unfold State.Supervisor; decide +kernel), ?_⟩ <;> decide +kernel

theorem met_SystemRegisterWrites_7 :
    (busy.CanIssue (lone 1)) ∧
    (busy.guarded (lone 1)) ∧
    ((lone 1).slot = 1) ∧
    (BitVec.extractLsb' 32 4 (fI 0 4 6#32) = 0) ∧
    (opRD (fI 0 4 6#32) = 0) ∧
    (busy.Supervisor ↑(lone 1).tile) ∧
    (BitVec.extractLsb' 0 32 (fI 0 4 6#32) = 6#32) :=
  by refine ⟨canIssue_of (by decide +kernel) (by decide +kernel), (by unfold State.guarded; decide +kernel), ?_, ?_, ?_,
   (by unfold State.Supervisor; decide +kernel), ?_⟩ <;> decide +kernel

theorem met_SystemRegisterWrites_8 :
    (busy.CanIssue (lone 1)) ∧
    (busy.guarded (lone 1)) ∧
    ((lone 1).slot = 1) ∧
    (BitVec.extractLsb' 32 4 5#48 = 0) ∧
    (opRD 5#48 = 0) ∧
    (busy.Supervisor ↑(lone 1).tile) ∧
    (BitVec.extractLsb' 0 32 5#48 = 5#32) :=
  by refine ⟨canIssue_of (by decide +kernel) (by decide +kernel), (by unfold State.guarded; decide +kernel), ?_, ?_, ?_,
   (by unfold State.Supervisor; decide +kernel), ?_⟩ <;> decide +kernel

theorem met_SystemRegisterWrites_9 :
    (busy.CanIssue (lone 1)) ∧
    (busy.guarded (lone 1)) ∧
    ((lone 1).slot = 1) ∧
    (BitVec.extractLsb' 32 4 (fI 0 4 7#32) = 0) ∧
    (opRD (fI 0 4 7#32) = 0) ∧
    (busy.Supervisor ↑(lone 1).tile) ∧
    (BitVec.extractLsb' 0 32 (fI 0 4 7#32) = 7#32) :=
  by refine ⟨canIssue_of (by decide +kernel) (by decide +kernel), (by unfold State.guarded; decide +kernel), ?_, ?_, ?_,
   (by unfold State.Supervisor; decide +kernel), ?_⟩ <;> decide +kernel

theorem met_SystemRegisterWrites_10 :
    (busy.CanIssue (lone 1)) ∧
    (busy.guarded (lone 1)) ∧
    ((lone 1).slot = 1) ∧
    (BitVec.extractLsb' 32 4 (fI 0 4 8#32) = 0) ∧
    (opRD (fI 0 4 8#32) = 0) ∧
    (busy.Supervisor ↑(lone 1).tile) ∧
    (BitVec.extractLsb' 0 32 (fI 0 4 8#32) = 8#32) :=
  by refine ⟨canIssue_of (by decide +kernel) (by decide +kernel), (by unfold State.guarded; decide +kernel), ?_, ?_, ?_,
   (by unfold State.Supervisor; decide +kernel), ?_⟩ <;> decide +kernel

theorem met_SystemRegisterWrites_11 :
    (busy.CanIssue (lone 1)) ∧
    (busy.guarded (lone 1)) ∧
    ((lone 1).slot = 1) ∧
    (BitVec.extractLsb' 32 4 (fI 0 4 14#32) = 0) ∧
    (opRD (fI 0 4 14#32) = 0) ∧
    (busy.Supervisor ↑(lone 1).tile) ∧
    (BitVec.extractLsb' 0 32 (fI 0 4 14#32) = 14#32) :=
  by refine ⟨canIssue_of (by decide +kernel) (by decide +kernel), (by unfold State.guarded; decide +kernel), ?_, ?_, ?_,
   (by unfold State.Supervisor; decide +kernel), ?_⟩ <;> decide +kernel

theorem met_SystemRegisterWrites_12 :
    (busy.CanIssue (lone 1)) ∧
    (busy.guarded (lone 1)) ∧
    ((lone 1).slot = 1) ∧
    (BitVec.extractLsb' 32 4 (fI 0 4 16#32) = 0) ∧
    (opRD (fI 0 4 16#32) = 0) ∧
    (busy.Supervisor ↑(lone 1).tile) ∧
    (BitVec.extractLsb' 0 32 (fI 0 4 16#32) = 16#32) :=
  by refine ⟨canIssue_of (by decide +kernel) (by decide +kernel), (by unfold State.guarded; decide +kernel), ?_, ?_, ?_,
   (by unfold State.Supervisor; decide +kernel), ?_⟩ <;> decide +kernel

theorem met_SystemRegisterWrites_13 :
    (busy.CanIssue (lone 1)) ∧
    (busy.guarded (lone 1)) ∧
    ((lone 1).slot = 1) ∧
    (BitVec.extractLsb' 32 4 (fI 0 4 17#32) = 0) ∧
    (opRD (fI 0 4 17#32) = 0) ∧
    (busy.Supervisor ↑(lone 1).tile) ∧
    (BitVec.extractLsb' 0 32 (fI 0 4 17#32) = 17#32) :=
  by refine ⟨canIssue_of (by decide +kernel) (by decide +kernel), (by unfold State.guarded; decide +kernel), ?_, ?_, ?_,
   (by unfold State.Supervisor; decide +kernel), ?_⟩ <;> decide +kernel

theorem met_SystemRegisterWrites_14 :
    (busy.CanIssue (lone 1)) ∧
    (busy.guarded (lone 1)) ∧
    ((lone 1).slot = 1) ∧
    (BitVec.extractLsb' 32 4 (fI 0 4 18#32) = 0) ∧
    (opRD (fI 0 4 18#32) = 0) ∧
    (busy.Supervisor ↑(lone 1).tile) ∧
    (BitVec.extractLsb' 0 32 (fI 0 4 18#32) = 18#32) :=
  by refine ⟨canIssue_of (by decide +kernel) (by decide +kernel), (by unfold State.guarded; decide +kernel), ?_, ?_, ?_,
   (by unfold State.Supervisor; decide +kernel), ?_⟩ <;> decide +kernel

theorem met_SystemRegisterWrites_15 :
    (busy.CanIssue (lone 1)) ∧
    (busy.guarded (lone 1)) ∧
    ((lone 1).slot = 1) ∧
    (BitVec.extractLsb' 32 4 (fI 0 4 19#32) = 0) ∧
    (opRD (fI 0 4 19#32) = 0) ∧
    (busy.Supervisor ↑(lone 1).tile) ∧
    (BitVec.extractLsb' 0 32 (fI 0 4 19#32) = 19#32) :=
  by refine ⟨canIssue_of (by decide +kernel) (by decide +kernel), (by unfold State.guarded; decide +kernel), ?_, ?_, ?_,
   (by unfold State.Supervisor; decide +kernel), ?_⟩ <;> decide +kernel

theorem met_SystemRegisterWrites_16 :
    (busy.CanIssue (lone 1)) ∧
    (busy.guarded (lone 1)) ∧
    ((lone 1).slot = 1) ∧
    (BitVec.extractLsb' 32 4 0#48 = 0) ∧
    (opRD 0#48 = 0) ∧
    (busy.Supervisor ↑(lone 1).tile) ∧
    (BitVec.extractLsb' 0 32 0#48 = 0#32) :=
  by refine ⟨canIssue_of (by decide +kernel) (by decide +kernel), (by unfold State.guarded; decide +kernel), ?_, ?_, ?_,
   (by unfold State.Supervisor; decide +kernel), ?_⟩ <;> decide +kernel

theorem met_SystemRegisterWrites_17 :
    (busy.CanIssue (lone 1)) ∧
    (busy.guarded (lone 1)) ∧
    ((lone 1).slot = 1) ∧
    (BitVec.extractLsb' 32 4 (fI 0 4 64#32) = 0) ∧
    (opRD (fI 0 4 64#32) = 0) ∧
    (busy.Supervisor ↑(lone 1).tile) ∧
    (0 < 4) ∧
    (((busy.tile ↑(lone 1).tile).engine 0).running = false) ∧
    (BitVec.extractLsb' 0 32 (fI 0 4 64#32) = BitVec.ofNat 32 (64 + 4 * 0 + 0)) :=
  by refine ⟨canIssue_of (by decide +kernel) (by decide +kernel), (by unfold State.guarded; decide +kernel), ?_, ?_, ?_,
   (by unfold State.Supervisor; decide +kernel), ?_⟩ <;> and_intros <;> decide +kernel

theorem met_SystemRegisterWrites_18 :
    (busy.CanIssue (lone 1)) ∧
    (busy.guarded (lone 1)) ∧
    ((lone 1).slot = 1) ∧
    (BitVec.extractLsb' 32 4 (fI 0 4 65#32) = 0) ∧
    (opRD (fI 0 4 65#32) = 0) ∧
    (busy.Supervisor ↑(lone 1).tile) ∧
    (0 < 4) ∧
    (((busy.tile ↑(lone 1).tile).engine 0).running = false) ∧
    (BitVec.extractLsb' 0 32 (fI 0 4 65#32) = BitVec.ofNat 32 (64 + 4 * 0 + 1)) :=
  by refine ⟨canIssue_of (by decide +kernel) (by decide +kernel), (by unfold State.guarded; decide +kernel), ?_, ?_, ?_,
   (by unfold State.Supervisor; decide +kernel), ?_⟩ <;> and_intros <;> decide +kernel

theorem met_SystemRegisterWrites_19 :
    (busy.CanIssue (lone 1)) ∧
    (busy.guarded (lone 1)) ∧
    ((lone 1).slot = 1) ∧
    (BitVec.extractLsb' 32 4 (fI 0 4 66#32) = 0) ∧
    (opRD (fI 0 4 66#32) = 0) ∧
    (busy.Supervisor ↑(lone 1).tile) ∧
    (0 < 4) ∧
    (((busy.tile ↑(lone 1).tile).engine 0).running = false) ∧
    (BitVec.extractLsb' 0 32 (fI 0 4 66#32) = BitVec.ofNat 32 (64 + 4 * 0 + 2)) :=
  by refine ⟨canIssue_of (by decide +kernel) (by decide +kernel), (by unfold State.guarded; decide +kernel), ?_, ?_, ?_,
   (by unfold State.Supervisor; decide +kernel), ?_⟩ <;> and_intros <;> decide +kernel

theorem met_SystemRegisterWrites_20 :
    (busy.CanIssue (lone 1)) ∧
    (busy.guarded (lone 1)) ∧
    ((lone 1).slot = 1) ∧
    (BitVec.extractLsb' 32 4 (fI 0 4 67#32) = 0) ∧
    (opRD (fI 0 4 67#32) = 0) ∧
    (busy.Supervisor ↑(lone 1).tile) ∧
    (0 < 4) ∧
    (((busy.tile ↑(lone 1).tile).engine 0).running = false) ∧
    (BitVec.extractLsb' 0 32 (fI 0 4 67#32) = BitVec.ofNat 32 (64 + 4 * 0 + 3)) :=
  by refine ⟨canIssue_of (by decide +kernel) (by decide +kernel), (by unfold State.guarded; decide +kernel), ?_, ?_, ?_,
   (by unfold State.Supervisor; decide +kernel), ?_⟩ <;> and_intros <;> decide +kernel

theorem met_SystemRegisterWrites_21 :
    (busy.CanIssue (lone 1)) ∧
    (busy.guarded (lone 1)) ∧
    ((lone 1).slot = 1) ∧
    (BitVec.extractLsb' 32 4 (fI 0 4 11#32) = 0) ∧
    (opRD (fI 0 4 11#32) = 0) ∧
    (BitVec.extractLsb' 0 32 (fI 0 4 11#32) = 11) :=
  by refine ⟨canIssue_of (by decide +kernel) (by decide +kernel), (by unfold State.guarded; decide +kernel), ?_⟩ <;> and_intros <;> decide +kernel

theorem met_PrivilegeTraps_1 :
    (busyUser.CanIssue (lone 0)) ∧
    (busyUser.guarded (lone 0)) ∧
    (¬busyUser.Supervisor ↑(lone 0).tile) ∧
    ((busyUser.gov ↑(lone 0).tile).fresh = false) ∧
    ((lone 0).slot = 0) ∧
    (0#48 = 0) :=
  by refine ⟨canIssue_of (by decide +kernel) (by decide +kernel), (by unfold State.guarded; decide +kernel),
   (by unfold State.Supervisor; decide +kernel), ?_⟩ <;> and_intros <;> decide +kernel

theorem met_PrivilegeTraps_2 :
    (busyUser.CanIssue (lone 1)) ∧
    (busyUser.guarded (lone 1)) ∧
    (¬busyUser.Supervisor ↑(lone 1).tile) ∧
    ((busyUser.gov ↑(lone 1).tile).fresh = false) ∧
    ((lone 1).slot = 1) ∧
    (BitVec.extractLsb' 32 4 0#48 = 0) ∧
    (opRD 0#48 = 0) ∧
    ((BitVec.extractLsb' 0 32 0#48).toNat ≤ 19 ∨ 64 ≤ (BitVec.extractLsb' 0 32 0#48).toNat ∧ (BitVec.extractLsb' 0 32 0#48).toNat ≤ 79) ∧
    (¬(BitVec.extractLsb' 0 32 0#48).toNat ∈ [9, 10, 11]) :=
  by refine ⟨canIssue_of (by decide +kernel) (by decide +kernel), (by unfold State.guarded; decide +kernel),
   (by unfold State.Supervisor; decide +kernel), ?_⟩ <;> and_intros <;> decide +kernel

theorem met_PrivilegeTraps_3 :
    (busyUser.CanIssue (lone 1)) ∧
    (busyUser.guarded (lone 1)) ∧
    (¬busyUser.Supervisor ↑(lone 1).tile) ∧
    ((busyUser.gov ↑(lone 1).tile).fresh = false) ∧
    ((lone 1).slot = 1) ∧
    (BitVec.extractLsb' 32 10 5#48 = 0) ∧
    ((BitVec.extractLsb' 0 32 5#48).toNat ≤ 19 ∨ 64 ≤ (BitVec.extractLsb' 0 32 5#48).toNat ∧ (BitVec.extractLsb' 0 32 5#48).toNat ≤ 79) ∧
    (¬(BitVec.extractLsb' 0 32 5#48).toNat ∈ [0, 9, 10, 11, 12, 13]) :=
  by refine ⟨canIssue_of (by decide +kernel) (by decide +kernel), (by unfold State.guarded; decide +kernel),
   (by unfold State.Supervisor; decide +kernel), ?_⟩ <;> and_intros <;> decide +kernel

theorem met_PrivilegeTraps_4 :
    (busyUser.CanIssue (lone 6)) ∧
    (busyUser.guarded (lone 6)) ∧
    (¬busyUser.Supervisor ↑(lone 6).tile) ∧
    ((busyUser.gov ↑(lone 6).tile).fresh = false) ∧
    ((lone 6).slot = 6) ∧
    (BitVec.extractLsb' 0 46 0#48 = 0) :=
  by refine ⟨canIssue_of (by decide +kernel) (by decide +kernel), (by unfold State.guarded; decide +kernel),
   (by unfold State.Supervisor; decide +kernel), ?_⟩ <;> and_intros <;> decide +kernel

theorem met_UnlistedSystemRegisters_1 :
    (busy.CanIssue (lone 1)) ∧
    (busy.guarded (lone 1)) ∧
    ((lone 1).slot = 1) ∧
    ((busy.gov ↑(lone 1).tile).fresh = false) ∧
    (19 < (BitVec.extractLsb' 0 32 (fI 3 0 20#32)).toNat) ∧
    ((BitVec.extractLsb' 0 32 (fI 3 0 20#32)).toNat < 4096) ∧
    (¬(64 ≤ (BitVec.extractLsb' 0 32 (fI 3 0 20#32)).toNat ∧ (BitVec.extractLsb' 0 32 (fI 3 0 20#32)).toNat ≤ 79)) ∧
    (BitVec.extractLsb' 32 10 (fI 3 0 20#32) = 0) :=
  by refine ⟨canIssue_of (by decide +kernel) (by decide +kernel), (by unfold State.guarded; decide +kernel), ?_⟩ <;> and_intros <;> decide +kernel

theorem met_UnlistedSystemRegisters_2 :
    (busy.CanIssue (lone 1)) ∧
    (busy.guarded (lone 1)) ∧
    ((lone 1).slot = 1) ∧
    ((busy.gov ↑(lone 1).tile).fresh = false) ∧
    (19 < (BitVec.extractLsb' 0 32 (fI 0 4 20#32)).toNat) ∧
    ((BitVec.extractLsb' 0 32 (fI 0 4 20#32)).toNat < 4096) ∧
    (¬(64 ≤ (BitVec.extractLsb' 0 32 (fI 0 4 20#32)).toNat ∧ (BitVec.extractLsb' 0 32 (fI 0 4 20#32)).toNat ≤ 79)) ∧
    (BitVec.extractLsb' 32 4 (fI 0 4 20#32) = 0) ∧
    (opRD (fI 0 4 20#32) = 0) :=
  by refine ⟨canIssue_of (by decide +kernel) (by decide +kernel), (by unfold State.guarded; decide +kernel), ?_⟩ <;> and_intros <;> decide +kernel

end Sys

namespace Ctrl

def X0 : Tile := { tileX with p := [(1, 0xF0F1), (2, 3)], v := [(1, 77), (2, 2^200+5)], silt := [(5, 0xF1), (6, 0x82), (7,3),(8, 0xFF), (263, 0x99), (524287, 0x81)], sys := { tileX.sys with tvec := 0x4000, tepc := 0x1234, ttimer := 5, tip := 6, vcur := 0x40000000, tctx := 0x10 }, storeErrs := [7], eng := [(1, { mopa := 5 })] }
def C1 : Tab Ctx := [(0, { groups := [{ bolt := 0, phys := 1, siltKib := 512, entry := 0, tvec := 0, movers := 0, counters := 0 }], st := .running, startSlot := some 1 })]

def HoldsAndHalt_w1 : State := have __src := mk X0; { pending := __src.pending, top := __src.top, clk := __src.clk, tiles := __src.tiles, mem := __src.mem, mmu := __src.mmu, eng := __src.eng, gz := __src.gz, cmd := __src.cmd, ctxs := C1, cads := __src.cads, pow := __src.pow, gvn := __src.gvn, res := __src.res, rfw := __src.rfw, clm := __src.clm, pairs := __src.pairs, err := __src.err, trust := __src.trust, free := __src.free }

theorem met_HoldsAndHalt_1 :
    (busy.CanIssue (lone 0)) ∧
    (busy.guarded (lone 0)) ∧
    ((lone 0).slot = 0) ∧
    (busy.Supervisor ↑(lone 0).tile) :=
  by refine ⟨canIssue_of (by decide +kernel) (by decide +kernel), (by unfold State.guarded; decide +kernel), ?_,
   (by unfold State.Supervisor; decide +kernel)⟩ <;> decide +kernel

theorem met_HoldsAndHalt_2 :
    (HoldsAndHalt_w1.CanIssue (lone 0)) ∧
    (HoldsAndHalt_w1.guarded (lone 0)) ∧
    ((lone 0).slot = 0) ∧
    (HoldsAndHalt_w1.Supervisor ↑(lone 0).tile) ∧
    (HoldsAndHalt_w1.Calm ↑(lone 0).tile) :=
  by refine ⟨canIssue_of (by decide +kernel) (by decide +kernel), (by unfold State.guarded; decide +kernel), ?_,
   (by unfold State.Supervisor; decide +kernel), calm_of (by decide +kernel)⟩ <;> decide +kernel

theorem met_HoldsAndHalt_3 :
    (busy.CanIssue (lone 3)) ∧
    (busy.guarded (lone 3)) ∧
    ((lone 3).slot = 3) :=
  by refine ⟨canIssue_of (by decide +kernel) (by decide +kernel), (by unfold State.guarded; decide +kernel), ?_⟩ <;> decide +kernel

theorem met_Branches_1 :
    (busy.CanIssue (lone 0)) ∧
    (busy.guarded (lone 0)) ∧
    ((lone 0).slot = 0) ∧
    (BitVec.extractLsb' 32 4 0#48 = 0) ∧
    (opRA 0#48 = 0) ∧
    (BitVec.extractLsb' 0 32 0#48 = 0) ∧
    (opRD 0#48 = 0) :=
  by refine ⟨canIssue_of (by decide +kernel) (by decide +kernel), (by unfold State.guarded; decide +kernel), ?_⟩ <;> and_intros <;> decide +kernel

def HeldBundleWaits_w1 : State := have __src :=   mk     (have __src := X0;     { s := __src.s, p := __src.p, v := __src.v, acc := __src.acc, pc := __src.pc, sPoison := __src.sPoison, vPoison := __src.vPoison, sys := __src.sys, eng := __src.eng, silt := __src.silt, siltBad := __src.siltBad, st := __src.st, stopping := __src.stopping, saving := __src.saving, restoring := __src.restoring, resetting := __src.resetting, retireDue := __src.retireDue, far := __src.far, farNext := __src.farNext, storeErrs := __src.storeErrs, releases := __src.releases, armed := __src.armed, hold := Hold.wfi, walkFault := __src.walkFault, fetchFault := __src.fetchFault, cuts := __src.cuts, longStop := __src.longStop, incoming := __src.incoming, haz := __src.haz, events := __src.events }); { pending := __src.pending, top := __src.top, clk := { gt := 7 }, tiles := __src.tiles, mem := __src.mem, mmu := __src.mmu, eng := __src.eng, gz := __src.gz, cmd := __src.cmd, ctxs := __src.ctxs, cads := __src.cads, pow := __src.pow, gvn := __src.gvn, res := __src.res, rfw := __src.rfw, clm := __src.clm, pairs := __src.pairs, err := __src.err, trust := __src.trust, free := __src.free }

theorem met_HeldBundleWaits_1 :
    ((HeldBundleWaits_w1.tile ↑(lone 0).tile).longStop = false) ∧
    (engineTrap (HeldBundleWaits_w1.tile ↑(lone 0).tile) = none) ∧
    (interruptTrap HeldBundleWaits_w1.clk.gt (HeldBundleWaits_w1.tile ↑(lone 0).tile) = none) ∧
    ((HeldBundleWaits_w1.tile ↑(lone 0).tile).hold = Hold.wfi ∧ tipNow HeldBundleWaits_w1.clk.gt (HeldBundleWaits_w1.tile ↑(lone 0).tile) &&& (HeldBundleWaits_w1.tile ↑(lone 0).tile).sys.tie = 0 ∨ (HeldBundleWaits_w1.tile ↑(lone 0).tile).hold = Hold.fenceG ∧ (HeldBundleWaits_w1.tile ↑(lone 0).tile).far ≠ [] ∨ ((HeldBundleWaits_w1.tile ↑(lone 0).tile).hold = Hold.fenceI ∧ ∃ a, a ∈ (HeldBundleWaits_w1.tile ↑(lone 0).tile).far ∧ a.kind = FarKind.store) ∨ (HeldBundleWaits_w1.tile ↑(lone 0).tile).hold = Hold.fenceL ∧ ∃ a, a ∈ (HeldBundleWaits_w1.tile ↑(lone 0).tile).far ∧ localTo (↑(lone 0).tile) a.pa = true) :=
  by and_intros <;> decide +kernel

theorem met_SystemCallsAndReturn_1 :
    (busy.CanIssue (lone 0)) ∧
    (busy.guarded (lone 0)) ∧
    ((lone 0).slot = 0) ∧
    ((busy.gov ↑(lone 0).tile).fresh = false) ∧
    (BitVec.extractLsb' 16 32 0#48 = 0) ∧
    (0#48 = 0) ∧
    (busy.Supervisor ↑(lone 0).tile) ∧
    (BitVec.getLsbD (busy.tile ↑(lone 0).tile).sys.vcur 63 = false) :=
  by refine ⟨canIssue_of (by decide +kernel) (by decide +kernel), (by unfold State.guarded; decide +kernel), ?_, ?_, ?_, ?_,
   (by unfold State.Supervisor; decide +kernel), ?_⟩ <;> decide +kernel

theorem met_SiltLoads_1 :
    (busy.CanIssue (lone 3)) ∧
    (busy.guarded (lone 3)) ∧
    ((lone 3).slot = 3) ∧
    (BitVec.extractLsb' 32 4 (fR 3 1 2) = 0) ∧
    ((busy.tile ↑(lone 3).tile).siltBadIn (BitVec.toNat ((busy.tile ↑(lone 3).tile).getS (opRA (fR 3 1 2)) + opImm (fR 3 1 2)) % 524288 / 1 * 1) 1 = false) ∧
    ((busy.tile ↑(lone 3).tile).incomingIn (BitVec.toNat ((busy.tile ↑(lone 3).tile).getS (opRA (fR 3 1 2)) + opImm (fR 3 1 2)) % 524288 / 1 * 1) 1 = false) ∧
    ((busy.tile ↑(lone 3).tile).siltBadIn (BitVec.toNat ((busy.tile ↑(lone 3).tile).getS (opRA (fR 3 1 2)) + opImm (fR 3 1 2)) % 524288 / 2 * 2) 2 = false) ∧
    ((busy.tile ↑(lone 3).tile).incomingIn (BitVec.toNat ((busy.tile ↑(lone 3).tile).getS (opRA (fR 3 1 2)) + opImm (fR 3 1 2)) % 524288 / 2 * 2) 2 = false) ∧
    ((busy.tile ↑(lone 3).tile).siltBadIn (BitVec.toNat ((busy.tile ↑(lone 3).tile).getS (opRA (fR 3 1 2)) + opImm (fR 3 1 2)) % 524288 / 4 * 4) 4 = false) ∧
    ((busy.tile ↑(lone 3).tile).incomingIn (BitVec.toNat ((busy.tile ↑(lone 3).tile).getS (opRA (fR 3 1 2)) + opImm (fR 3 1 2)) % 524288 / 4 * 4) 4 = false) ∧
    ((busy.tile ↑(lone 3).tile).siltBadIn (BitVec.toNat ((busy.tile ↑(lone 3).tile).getS (opRA (fR 3 1 2)) + opImm (fR 3 1 2)) % 524288 / 8 * 8) 8 = false) ∧
    ((busy.tile ↑(lone 3).tile).incomingIn (BitVec.toNat ((busy.tile ↑(lone 3).tile).getS (opRA (fR 3 1 2)) + opImm (fR 3 1 2)) % 524288 / 8 * 8) 8 = false) ∧
    (opRD (fR 3 1 2) < 32) ∧
    ((busy.tile ↑(lone 3).tile).siltBadIn (BitVec.toNat ((busy.tile ↑(lone 3).tile).getS (opRA (fR 3 1 2)) + opImm (fR 3 1 2)) % 524288 / 256 * 256) 256 = false) ∧
    ((busy.tile ↑(lone 3).tile).incomingIn (BitVec.toNat ((busy.tile ↑(lone 3).tile).getS (opRA (fR 3 1 2)) + opImm (fR 3 1 2)) % 524288 / 256 * 256) 256 = false) :=
  by refine ⟨canIssue_of (by decide +kernel) (by decide +kernel), (by unfold State.guarded; decide +kernel), ?_⟩ <;> and_intros <;> decide +kernel

theorem met_SiltStores_1 :
    (busy.CanIssue (lone 3)) ∧
    (busy.guarded (lone 3)) ∧
    ((lone 3).slot = 3) ∧
    (BitVec.extractLsb' 32 4 (fR 3 1 2) = 0) ∧
    (opRD (fR 3 1 2) < 32) :=
  by refine ⟨canIssue_of (by decide +kernel) (by decide +kernel), (by unfold State.guarded; decide +kernel), ?_⟩ <;> and_intros <;> decide +kernel

end Ctrl

namespace Far

def X0 : Tile := { tileX with s := [(1, 5), (2, 3), (3, 0x8000000000000000), (4, 0xFFFFFFFFFFFFFFFF), (5, 0x1FFFFFF)], p := [(1, 0xF0F1), (2, 3)], v := [(1, 77), (2, 2^200+5)], silt := [(5, 0xF1), (6, 0x82), (7,3),(8, 0xFF), (263, 0x99), (524287, 0x81)], sys := { tileX.sys with tctx := 0x10 } }
def L0 : TlbEntry := { asid := 1, va := 0, bits := 21, pte := BitVec.ofNat 64 (0x40000000 + 0x2F) }
def SX : State := { mk X0 with mmu := { ctx := [(0, 0x80000001)], tlbs := [(1027, [L0])] }, mem := { phys := [(0x40000000, 0x85), (0x40000001, 0x96), (0x40000007, 0xF9), (0x40000105, 1)]} }
def SL : State := { SX with top := { st := .running, hbmUp := 1 } }
def fa (k : FarKind) (d : FarDest) (n : Nat) : FarAccess := { id := 4, kind := k, dest := d, size := n, va := 0x123, pa := 0x40000000, data := 0x55AA55AA55AA55AA77, cmp := 0xF900000000009685, tagged := false}
def withFar (l : List FarAccess) : State := { SL with tiles := [(3, { X0 with far := l })] }
def W1 (l : List FarAccess) : State := { withFar l with gz := { joined := true, me := 2 } }
def wpa (m : Nat) : Nat := windowBase + m * 0x20000000000 + 0x1000

theorem met_FarAccessesIssue_1 :
    (SX.CanIssue (lone 3)) ∧
    (SX.guarded (lone 3)) ∧
    ((lone 3).slot = 3) ∧
    (BitVec.extractLsb' 32 4 0#48 = 0) ∧
    (SX.translate (Requester.slot3 ↑(lone 3).tile) (SX.tile ↑(lone 3).tile).ctxNo (SX.tile ↑(lone 3).tile).asid (BitVec.toNat ((SX.tile ↑(lone 3).tile).getS (opRA 0#48) + opImm 0#48) / 1 * 1) Access.load (SX.tile ↑(lone 3).tile).supervisor = Xlat.hit 1073741824) ∧
    (SX.translate (Requester.slot3 ↑(lone 3).tile) (SX.tile ↑(lone 3).tile).ctxNo (SX.tile ↑(lone 3).tile).asid (BitVec.toNat ((SX.tile ↑(lone 3).tile).getS (opRA 0#48) + opImm 0#48) / 2 * 2) Access.load (SX.tile ↑(lone 3).tile).supervisor = Xlat.hit 1073741824) ∧
    (SX.translate (Requester.slot3 ↑(lone 3).tile) (SX.tile ↑(lone 3).tile).ctxNo (SX.tile ↑(lone 3).tile).asid (BitVec.toNat ((SX.tile ↑(lone 3).tile).getS (opRA 0#48) + opImm 0#48) / 4 * 4) Access.load (SX.tile ↑(lone 3).tile).supervisor = Xlat.hit 1073741824) ∧
    (SX.translate (Requester.slot3 ↑(lone 3).tile) (SX.tile ↑(lone 3).tile).ctxNo (SX.tile ↑(lone 3).tile).asid (BitVec.toNat ((SX.tile ↑(lone 3).tile).getS (opRA 0#48) + opImm 0#48) / 8 * 8) Access.load (SX.tile ↑(lone 3).tile).supervisor = Xlat.hit 1073741824) ∧
    (SX.translate (Requester.slot3 ↑(lone 3).tile) (SX.tile ↑(lone 3).tile).ctxNo (SX.tile ↑(lone 3).tile).asid (BitVec.toNat ((SX.tile ↑(lone 3).tile).getS (opRA 0#48) + opImm 0#48) / 1 * 1) Access.store (SX.tile ↑(lone 3).tile).supervisor = Xlat.hit 1073741824) ∧
    (SX.translate (Requester.slot3 ↑(lone 3).tile) (SX.tile ↑(lone 3).tile).ctxNo (SX.tile ↑(lone 3).tile).asid (BitVec.toNat ((SX.tile ↑(lone 3).tile).getS (opRA 0#48) + opImm 0#48) / 2 * 2) Access.store (SX.tile ↑(lone 3).tile).supervisor = Xlat.hit 1073741824) ∧
    (SX.translate (Requester.slot3 ↑(lone 3).tile) (SX.tile ↑(lone 3).tile).ctxNo (SX.tile ↑(lone 3).tile).asid (BitVec.toNat ((SX.tile ↑(lone 3).tile).getS (opRA 0#48) + opImm 0#48) / 4 * 4) Access.store (SX.tile ↑(lone 3).tile).supervisor = Xlat.hit 1073741824) ∧
    (SX.translate (Requester.slot3 ↑(lone 3).tile) (SX.tile ↑(lone 3).tile).ctxNo (SX.tile ↑(lone 3).tile).asid (BitVec.toNat ((SX.tile ↑(lone 3).tile).getS (opRA 0#48) + opImm 0#48) / 8 * 8) Access.store (SX.tile ↑(lone 3).tile).supervisor = Xlat.hit 1073741824) ∧
    (opRD 0#48 < 32) ∧
    (SX.translate (Requester.slot3 ↑(lone 3).tile) (SX.tile ↑(lone 3).tile).ctxNo (SX.tile ↑(lone 3).tile).asid (BitVec.toNat ((SX.tile ↑(lone 3).tile).getS (opRA 0#48) + opImm 0#48) / 256 * 256) Access.load (SX.tile ↑(lone 3).tile).supervisor = Xlat.hit 1073741824) ∧
    (SX.translate (Requester.slot3 ↑(lone 3).tile) (SX.tile ↑(lone 3).tile).ctxNo (SX.tile ↑(lone 3).tile).asid (BitVec.toNat ((SX.tile ↑(lone 3).tile).getS (opRA 0#48) + opImm 0#48) / 256 * 256) Access.store (SX.tile ↑(lone 3).tile).supervisor = Xlat.hit 1073741824) ∧
    (BitVec.extractLsb' 0 30 0#48 = 0) ∧
    (SX.translate (Requester.slot3 ↑(lone 3).tile) (SX.tile ↑(lone 3).tile).ctxNo (SX.tile ↑(lone 3).tile).asid (BitVec.toNat ((SX.tile ↑(lone 3).tile).getS (opRA 0#48)) / 8 * 8) Access.atomic (SX.tile ↑(lone 3).tile).supervisor = Xlat.hit 1073741824) ∧
    (BitVec.extractLsb' 0 24 0#48 = 0) :=
  by refine ⟨canIssue_of (by decide +kernel) (by decide +kernel), (by unfold State.guarded; decide +kernel), ?_⟩ <;> and_intros <;> decide +kernel

def FarAccessesPerform_w1 : State := withFar [fa (FarKind.load true) (FarDest.scalar 9) 1]

def FarAccessesPerform_w2 : FarAccess := { id := 4, kind := FarKind.load true, dest := FarDest.scalar 9, size := 1, va := 291#64, pa := 1073741824, data := 1580247149909686725239#2048, cmp := 17942340915444094597#64, tagged := false }

def FarAccessesPerform_w3 : State := withFar [fa (FarKind.load false) (FarDest.vector 3) 256]

def FarAccessesPerform_w4 : FarAccess := { id := 4, kind := FarKind.load false, dest := FarDest.vector 3, size := 256, va := 291#64, pa := 1073741824, data := 1580247149909686725239#2048, cmp := 17942340915444094597#64, tagged := false }

def FarAccessesPerform_w5 : State := withFar [fa FarKind.store FarDest.none 8]

def FarAccessesPerform_w6 : FarAccess := { id := 4, kind := FarKind.store, dest := FarDest.none, size := 8, va := 291#64, pa := 1073741824, data := 1580247149909686725239#2048, cmp := 17942340915444094597#64, tagged := false }

def FarAccessesPerform_w7 : State := withFar [fa (FarKind.amo 0) (FarDest.scalar 9) 8]

def FarAccessesPerform_w8 : FarAccess := { id := 4, kind := FarKind.amo 0, dest := FarDest.scalar 9, size := 8, va := 291#64, pa := 1073741824, data := 1580247149909686725239#2048, cmp := 17942340915444094597#64, tagged := false }

theorem met_FarAccessesPerform_1 :
    (FarAccessesPerform_w1.Inv) ∧
    ((FarAccessesPerform_w1.tile ↑3).far[0]? = some FarAccessesPerform_w2) ∧
    (∀ (g : FarAccess), g ∈ List.take 0 (FarAccessesPerform_w1.tile ↑3).far → FarAccessesPerform_w1.truePlace g.pa + g.size ≤ FarAccessesPerform_w2.pa ∨ FarAccessesPerform_w2.pa + FarAccessesPerform_w2.size ≤ FarAccessesPerform_w1.truePlace g.pa) ∧
    ((∃ k, targetOf FarAccessesPerform_w2.pa = Target.hbm k ∧ FarAccessesPerform_w1.stackUp k = true) ∨ ∃ b, targetOf FarAccessesPerform_w2.pa = Target.loam b) ∧
    (∀ (w m : Nat), markIn FarAccessesPerform_w1.mem.bad FarAccessesPerform_w2.pa m w = none) ∧
    (FarAccessesPerform_w1.cmd.hostHeld = []) ∧
    (0 < FarAccessesPerform_w2.size) ∧
    (FarAccessesPerform_w2.kind = FarKind.load true) ∧
    (FarAccessesPerform_w2.dest = FarDest.scalar 9) ∧
    (0 < 9) :=
  by refine ⟨inv_of (by decide +kernel), ?_, ?_, here_of (s := FarAccessesPerform_w1) (pa := FarAccessesPerform_w2.pa) (by decide +kernel),
   fun _ _ => rfl, ?_⟩ <;> and_intros <;> decide +kernel

theorem met_FarAccessesPerform_2 :
    (FarAccessesPerform_w3.Inv) ∧
    ((FarAccessesPerform_w3.tile ↑3).far[0]? = some FarAccessesPerform_w4) ∧
    (∀ (g : FarAccess), g ∈ List.take 0 (FarAccessesPerform_w3.tile ↑3).far → FarAccessesPerform_w3.truePlace g.pa + g.size ≤ FarAccessesPerform_w4.pa ∨ FarAccessesPerform_w4.pa + FarAccessesPerform_w4.size ≤ FarAccessesPerform_w3.truePlace g.pa) ∧
    ((∃ k, targetOf FarAccessesPerform_w4.pa = Target.hbm k ∧ FarAccessesPerform_w3.stackUp k = true) ∨ ∃ b, targetOf FarAccessesPerform_w4.pa = Target.loam b) ∧
    (∀ (w m : Nat), markIn FarAccessesPerform_w3.mem.bad FarAccessesPerform_w4.pa m w = none) ∧
    (FarAccessesPerform_w3.cmd.hostHeld = []) ∧
    (0 < FarAccessesPerform_w4.size) ∧
    (FarAccessesPerform_w4.kind = FarKind.load false) ∧
    (FarAccessesPerform_w4.dest = FarDest.vector 3) :=
  by refine ⟨inv_of (by decide +kernel), ?_, ?_, here_of (s := FarAccessesPerform_w3) (pa := FarAccessesPerform_w4.pa) (by decide +kernel),
   fun _ _ => rfl, ?_⟩ <;> and_intros <;> decide +kernel

theorem met_FarAccessesPerform_3 :
    (FarAccessesPerform_w5.Inv) ∧
    ((FarAccessesPerform_w5.tile ↑3).far[0]? = some FarAccessesPerform_w6) ∧
    (∀ (g : FarAccess), g ∈ List.take 0 (FarAccessesPerform_w5.tile ↑3).far → FarAccessesPerform_w5.truePlace g.pa + g.size ≤ FarAccessesPerform_w6.pa ∨ FarAccessesPerform_w6.pa + FarAccessesPerform_w6.size ≤ FarAccessesPerform_w5.truePlace g.pa) ∧
    ((∃ k, targetOf FarAccessesPerform_w6.pa = Target.hbm k ∧ FarAccessesPerform_w5.stackUp k = true) ∨ ∃ b, targetOf FarAccessesPerform_w6.pa = Target.loam b) ∧
    (∀ (w m : Nat), markIn FarAccessesPerform_w5.mem.bad FarAccessesPerform_w6.pa m w = none) ∧
    (FarAccessesPerform_w5.cmd.hostHeld = []) ∧
    (0 < FarAccessesPerform_w6.size) ∧
    (FarAccessesPerform_w6.kind = FarKind.store) :=
  by refine ⟨inv_of (by decide +kernel), ?_, ?_, here_of (s := FarAccessesPerform_w5) (pa := FarAccessesPerform_w6.pa) (by decide +kernel),
   fun _ _ => rfl, ?_⟩ <;> and_intros <;> decide +kernel

theorem met_FarAccessesPerform_4 :
    (FarAccessesPerform_w7.Inv) ∧
    ((FarAccessesPerform_w7.tile ↑3).far[0]? = some FarAccessesPerform_w8) ∧
    (∀ (g : FarAccess), g ∈ List.take 0 (FarAccessesPerform_w7.tile ↑3).far → FarAccessesPerform_w7.truePlace g.pa + g.size ≤ FarAccessesPerform_w8.pa ∨ FarAccessesPerform_w8.pa + FarAccessesPerform_w8.size ≤ FarAccessesPerform_w7.truePlace g.pa) ∧
    ((∃ k, targetOf FarAccessesPerform_w8.pa = Target.hbm k ∧ FarAccessesPerform_w7.stackUp k = true) ∨ ∃ b, targetOf FarAccessesPerform_w8.pa = Target.loam b) ∧
    (∀ (w m : Nat), markIn FarAccessesPerform_w7.mem.bad FarAccessesPerform_w8.pa m w = none) ∧
    (FarAccessesPerform_w7.cmd.hostHeld = []) ∧
    (0 < FarAccessesPerform_w8.size) ∧
    (FarAccessesPerform_w8.kind = FarKind.amo 0) ∧
    (0 ≤ 5) ∧
    (FarAccessesPerform_w8.size = 8) ∧
    (FarAccessesPerform_w8.dest = FarDest.scalar 9) ∧
    (0 < 9) :=
  by refine ⟨inv_of (by decide +kernel), ?_, ?_, here_of (s := FarAccessesPerform_w7) (pa := FarAccessesPerform_w8.pa) (by decide +kernel),
   fun _ _ => rfl, ?_⟩ <;> and_intros <;> decide +kernel

def FarAccessesLost_w1 : State := W1   [have __src := fa (FarKind.load true) (FarDest.scalar 7) 8;     { id := __src.id, kind := __src.kind, dest := __src.dest, size := __src.size, va := __src.va, pa := wpa 5, data := __src.data, cmp := __src.cmp, tagged := __src.tagged, stale := __src.stale }]

def FarAccessesLost_w2 : FarAccess := { id := 4, kind := FarKind.load true, dest := FarDest.scalar 7, size := 8, va := 291#64, pa := 151732604637184, data := 1580247149909686725239#2048, cmp := 17942340915444094597#64, tagged := false }

def FarAccessesLost_w3 : State := W1   [have __src := fa (FarKind.load true) (FarDest.vector 7) 256;     { id := __src.id, kind := __src.kind, dest := __src.dest, size := __src.size, va := __src.va, pa := wpa 0, data := __src.data, cmp := __src.cmp, tagged := __src.tagged, stale := __src.stale }]

def FarAccessesLost_w4 : FarAccess := { id := 4, kind := FarKind.load true, dest := FarDest.vector 7, size := 256, va := 291#64, pa := 140737488359424, data := 1580247149909686725239#2048, cmp := 17942340915444094597#64, tagged := false }

def FarAccessesLost_w5 : State := W1   [have __src := fa FarKind.store FarDest.none 8;     { id := __src.id, kind := __src.kind, dest := __src.dest, size := __src.size, va := __src.va, pa := wpa 63, data := __src.data, cmp := __src.cmp, tagged := __src.tagged, stale := __src.stale }]

def FarAccessesLost_w6 : FarAccess := { id := 4, kind := FarKind.store, dest := FarDest.none, size := 8, va := 291#64, pa := 279275953459200, data := 1580247149909686725239#2048, cmp := 17942340915444094597#64, tagged := false }

theorem met_FarAccessesLost_1 :
    (FarAccessesLost_w1.Inv) ∧
    ((FarAccessesLost_w1.tile ↑3).far[0]? = some FarAccessesLost_w2) ∧
    (∀ (g : FarAccess), g ∈ List.take 0 (FarAccessesLost_w1.tile ↑3).far → FarAccessesLost_w1.truePlace g.pa + g.size ≤ FarAccessesLost_w2.pa ∨ FarAccessesLost_w2.pa + FarAccessesLost_w2.size ≤ FarAccessesLost_w1.truePlace g.pa) ∧
    (targetOf FarAccessesLost_w2.pa = Target.window 5 4096) ∧
    (FarAccessesLost_w1.gz.joined = true) ∧
    (5 ≠ FarAccessesLost_w1.gz.me.toNat) ∧
    (FarAccessesLost_w2.kind ≠ FarKind.store) ∧
    (FarAccessesLost_w2.dest = FarDest.scalar 7) ∧
    (0 < 7) :=
  by refine ⟨inv_of (by decide +kernel), ?_⟩ <;> and_intros <;> decide +kernel

theorem met_FarAccessesLost_2 :
    (FarAccessesLost_w3.Inv) ∧
    ((FarAccessesLost_w3.tile ↑3).far[0]? = some FarAccessesLost_w4) ∧
    (∀ (g : FarAccess), g ∈ List.take 0 (FarAccessesLost_w3.tile ↑3).far → FarAccessesLost_w3.truePlace g.pa + g.size ≤ FarAccessesLost_w4.pa ∨ FarAccessesLost_w4.pa + FarAccessesLost_w4.size ≤ FarAccessesLost_w3.truePlace g.pa) ∧
    (targetOf FarAccessesLost_w4.pa = Target.window 0 4096) ∧
    (FarAccessesLost_w3.gz.joined = true) ∧
    (0 ≠ FarAccessesLost_w3.gz.me.toNat) ∧
    (FarAccessesLost_w4.kind ≠ FarKind.store) ∧
    (FarAccessesLost_w4.dest = FarDest.vector 7) :=
  by refine ⟨inv_of (by decide +kernel), ?_⟩ <;> and_intros <;> decide +kernel

theorem met_FarAccessesLost_3 :
    (FarAccessesLost_w5.Inv) ∧
    ((FarAccessesLost_w5.tile ↑3).far[0]? = some FarAccessesLost_w6) ∧
    (∀ (g : FarAccess), g ∈ List.take 0 (FarAccessesLost_w5.tile ↑3).far → FarAccessesLost_w5.truePlace g.pa + g.size ≤ FarAccessesLost_w6.pa ∨ FarAccessesLost_w6.pa + FarAccessesLost_w6.size ≤ FarAccessesLost_w5.truePlace g.pa) ∧
    (targetOf FarAccessesLost_w6.pa = Target.window 63 4096) ∧
    (FarAccessesLost_w5.gz.joined = true) ∧
    (63 ≠ FarAccessesLost_w5.gz.me.toNat) ∧
    (FarAccessesLost_w6.kind = FarKind.store) ∧
    ((FarAccessesLost_w5.tile ↑3).storeErrs.length < 8 ∨ FarAccessesLost_w6.stale = true) :=
  by refine ⟨inv_of (by decide +kernel), ?_⟩ <;> and_intros <;> decide +kernel

end Far

namespace VectorIntegerLanes

def VS : Tab Vec := [(1, 0x3F8000004048F5C3), (2, 0xBF800000), (3, 0x0302010005040706), (5, 0xFFFFFFFF00000007), (7, 0x0000000300000002), (8, 5)]
def XV (vl : Nat) : Tile := { tileX with s := [(1, 5), (4, 0xFFFFFFFFFFFFFFFF), (5, 0x3FC0000040490FDB), (6, 33)], p := [(1, 0xF0F1), (15, 1)], v := VS, silt := [(3, 7), (524287, 9)], sys := { tileX.sys with vl := BitVec.ofNat 64 vl, tfflags := 8 } }
def fV (vd va vb vc sa sb et md : Nat) : BitVec 48 := BitVec.ofNat 48 (vd * 2^43 + va * 2^38 + vb * 2^33 + vc * 2^28 + sa * 2^22 + sb * 2^16 + et * 2^12 + md)

def VectorIntegerLanes_w1 : State := mk (XV 3)

theorem met_VectorIntegerLanes_1 :
    (VectorIntegerLanes_w1.CanIssue (lone 4)) ∧
    ((lone 4).slot = 4 ∨ (lone 4).slot = 5) ∧
    (4 ≤ opET (fV 10 1 5 0 0 0 4 0)) ∧
    (opET (fV 10 1 5 0 0 0 4 0) ≤ 9) ∧
    (opVC (fV 10 1 5 0 0 0 4 0) = 0) ∧
    (opSB (fV 10 1 5 0 0 0 4 0) = 0) ∧
    (opMOD (fV 10 1 5 0 0 0 4 0) = 0 ∧ opSA (fV 10 1 5 0 0 0 4 0) = 0 ∨ opMOD (fV 10 1 5 0 0 0 4 0) = 2048 ∧ opVB (fV 10 1 5 0 0 0 4 0) = 0) :=
  by refine ⟨canIssue_of (by decide +kernel) (by decide +kernel), ?_⟩ <;> and_intros <;> decide +kernel

theorem met_VectorIntegerLanes_2 :
    (VectorIntegerLanes_w1.CanIssue (lone 4)) ∧
    ((lone 4).slot = 4 ∨ (lone 4).slot = 5) ∧
    (4 ≤ opET (fV 3 5 0 0 0 0 4 0)) ∧
    (opET (fV 3 5 0 0 0 0 4 0) ≤ 9) ∧
    (opVC (fV 3 5 0 0 0 0 4 0) = 0) ∧
    (opSB (fV 3 5 0 0 0 0 4 0) = 0) ∧
    (BitVec.extractLsb' 16 22 (fV 3 5 0 0 0 0 4 0) = 0) ∧
    (opMOD (fV 3 5 0 0 0 0 4 0) = 0) :=
  by refine ⟨canIssue_of (by decide +kernel) (by decide +kernel), ?_⟩ <;> and_intros <;> decide +kernel

end VectorIntegerLanes

namespace VectorFloatLanes

def VS : Tab Vec := [(1, 0x3F8000004048F5C3), (2, 0xBF800000), (3, 0x0302010005040706), (5, 0xFFFFFFFF00000007), (7, 0x0000000300000002), (8, 5)]
def XV (vl : Nat) : Tile := { tileX with s := [(1, 5), (4, 0xFFFFFFFFFFFFFFFF), (5, 0x3FC0000040490FDB), (6, 33)], p := [(1, 0xF0F1), (15, 1)], v := VS, silt := [(3, 7), (524287, 9)], sys := { tileX.sys with vl := BitVec.ofNat 64 vl, tfflags := 8 } }
def fV (vd va vb vc sa sb et md : Nat) : BitVec 48 := BitVec.ofNat 48 (vd * 2^43 + va * 2^38 + vb * 2^33 + vc * 2^28 + sa * 2^22 + sb * 2^16 + et * 2^12 + md)

def VectorFloatLanes_w1 : State := mk (XV 3)

theorem met_VectorFloatLanes_1 :
    (VectorFloatLanes_w1.CanIssue (lone 4)) ∧
    ((lone 4).slot = 4 ∨ (lone 4).slot = 5) ∧
    (opET (fV 10 1 2 0 0 0 0 0) ≤ 3) ∧
    (opSB (fV 10 1 2 0 0 0 0 0) = 0) ∧
    (opMOD (fV 10 1 2 0 0 0 0 0) = 0 ∧ opSA (fV 10 1 2 0 0 0 0 0) = 0 ∨ opMOD (fV 10 1 2 0 0 0 0 0) = 2048 ∧ opVB (fV 10 1 2 0 0 0 0 0) = 0) ∧
    (opVC (fV 10 1 2 0 0 0 0 0) = 0) :=
  by refine ⟨canIssue_of (by decide +kernel) (by decide +kernel), ?_⟩ <;> and_intros <;> decide +kernel

theorem met_VectorFloatLanes_2 :
    (VectorFloatLanes_w1.CanIssue (lone 4)) ∧
    ((lone 4).slot = 4 ∨ (lone 4).slot = 5) ∧
    (opET (fV 3 1 0 0 0 0 0 0) ≤ 3) ∧
    (opSB (fV 3 1 0 0 0 0 0 0) = 0) ∧
    (BitVec.extractLsb' 16 22 (fV 3 1 0 0 0 0 0 0) = 0) ∧
    (opMOD (fV 3 1 0 0 0 0 0 0) = 0) ∧
    (opET (fV 3 1 0 0 0 0 0 0) ≤ 1) :=
  by refine ⟨canIssue_of (by decide +kernel) (by decide +kernel), ?_⟩ <;> and_intros <;> decide +kernel

end VectorFloatLanes

namespace VectorMoves

def VS : Tab Vec := [(1, 0x3F8000004048F5C3), (2, 0xBF800000), (3, 0x0302010005040706), (5, 0xFFFFFFFF00000007), (7, 0x0000000300000002), (8, 5)]
def XV (vl : Nat) : Tile := { tileX with s := [(1, 5), (4, 0xFFFFFFFFFFFFFFFF), (5, 0x3FC0000040490FDB), (6, 33)], p := [(1, 0xF0F1), (15, 1)], v := VS, silt := [(3, 7), (524287, 9)], sys := { tileX.sys with vl := BitVec.ofNat 64 vl, tfflags := 8 } }
def fV (vd va vb vc sa sb et md : Nat) : BitVec 48 := BitVec.ofNat 48 (vd * 2^43 + va * 2^38 + vb * 2^33 + vc * 2^28 + sa * 2^22 + sb * 2^16 + et * 2^12 + md)

def VectorMoves_w1 : State := mk (XV 3)

theorem met_VectorMoves_1 :
    (VectorMoves_w1.CanIssue (lone 4)) ∧
    ((lone 4).slot = 4 ∨ (lone 4).slot = 5) ∧
    (opET (fV 10 1 2 1 0 0 0 0) ≤ 9) ∧
    (opSA (fV 10 1 2 1 0 0 0 0) = 0) ∧
    (opSB (fV 10 1 2 1 0 0 0 0) = 0) ∧
    (opMOD (fV 10 1 2 1 0 0 0 0) = 0) ∧
    (opVC (fV 10 1 2 1 0 0 0 0) < 16) :=
  by refine ⟨canIssue_of (by decide +kernel) (by decide +kernel), ?_⟩ <;> and_intros <;> decide +kernel

theorem met_VectorMoves_2 :
    (VectorMoves_w1.CanIssue (lone 4)) ∧
    ((lone 4).slot = 4 ∨ (lone 4).slot = 5) ∧
    (opET (fV 10 5 7 0 0 0 0 0) ≤ 9) ∧
    (opVC (fV 10 5 7 0 0 0 0 0) = 0) ∧
    (opSA (fV 10 5 7 0 0 0 0 0) = 0) ∧
    (opSB (fV 10 5 7 0 0 0 0 0) = 0) ∧
    (opMOD (fV 10 5 7 0 0 0 0 0) = 0) :=
  by refine ⟨canIssue_of (by decide +kernel) (by decide +kernel), ?_⟩ <;> and_intros <;> decide +kernel

theorem met_VectorMoves_3 :
    (VectorMoves_w1.CanIssue (lone 4)) ∧
    ((lone 4).slot = 4 ∨ (lone 4).slot = 5) ∧
    (opET (fV 9 0 0 0 5 0 0 0) ≤ 9) ∧
    (opVA (fV 9 0 0 0 5 0 0 0) = 0) ∧
    (opVB (fV 9 0 0 0 5 0 0 0) = 0) ∧
    (opVC (fV 9 0 0 0 5 0 0 0) = 0) ∧
    (opSB (fV 9 0 0 0 5 0 0 0) = 0) ∧
    (opMOD (fV 9 0 0 0 5 0 0 0) = 0) ∧
    (opMOD (fV 9 0 0 0 5 0 0 0) < 2048 / etLane (opET (fV 9 0 0 0 5 0 0 0))) :=
  by refine ⟨canIssue_of (by decide +kernel) (by decide +kernel), ?_⟩ <;> and_intros <;> decide +kernel

theorem met_VectorMoves_4 :
    (VectorMoves_w1.CanIssue (lone 4)) ∧
    ((lone 4).slot = 4 ∨ (lone 4).slot = 5) ∧
    (opET (fV 0 5 0 0 0 7 0 31) ≤ 9) ∧
    (opVD (fV 0 5 0 0 0 7 0 31) = 0) ∧
    (opVB (fV 0 5 0 0 0 7 0 31) = 0) ∧
    (opVC (fV 0 5 0 0 0 7 0 31) = 0) ∧
    (opSA (fV 0 5 0 0 0 7 0 31) = 0) ∧
    (opMOD (fV 0 5 0 0 0 7 0 31) < 2048 / etLane (opET (fV 0 5 0 0 0 7 0 31))) :=
  by refine ⟨canIssue_of (by decide +kernel) (by decide +kernel), ?_⟩ <;> and_intros <;> decide +kernel

theorem met_VectorMoves_5 :
    (VectorMoves_w1.CanIssue (lone 4)) ∧
    ((lone 4).slot = 4 ∨ (lone 4).slot = 5) ∧
    (opET (fV 9 0 0 0 0 0 6 0) ≤ 9) ∧
    (4 ≤ opET (fV 9 0 0 0 0 0 6 0)) ∧
    (BitVec.extractLsb' 16 27 (fV 9 0 0 0 0 0 6 0) = 0) ∧
    (opMOD (fV 9 0 0 0 0 0 6 0) = 0) :=
  by refine ⟨canIssue_of (by decide +kernel) (by decide +kernel), ?_⟩ <;> and_intros <;> decide +kernel

end VectorMoves

namespace VectorCompares

def VS : Tab Vec := [(1, 0x3F8000004048F5C3), (2, 0xBF800000), (3, 0x0302010005040706), (5, 0xFFFFFFFF00000007), (7, 0x0000000300000002), (8, 5)]
def XV (vl : Nat) : Tile := { tileX with s := [(1, 5), (4, 0xFFFFFFFFFFFFFFFF), (5, 0x3FC0000040490FDB), (6, 33)], p := [(1, 0xF0F1), (15, 1)], v := VS, silt := [(3, 7), (524287, 9)], sys := { tileX.sys with vl := BitVec.ofNat 64 vl, tfflags := 8 } }
def fV (vd va vb vc sa sb et md : Nat) : BitVec 48 := BitVec.ofNat 48 (vd * 2^43 + va * 2^38 + vb * 2^33 + vc * 2^28 + sa * 2^22 + sb * 2^16 + et * 2^12 + md)

def VectorCompareAndLength_w1 : State := mk (XV 3)

theorem met_VectorCompareAndLength_1 :
    (VectorCompareAndLength_w1.CanIssue (lone 4)) ∧
    ((lone 4).slot = 4 ∨ (lone 4).slot = 5) ∧
    (BitVec.extractLsb' 28 20 (fV 0 0 0 0 6 7 0 0) = 0) ∧
    (BitVec.extractLsb' 0 16 (fV 0 0 0 0 6 7 0 0) = 0) :=
  by refine ⟨canIssue_of (by decide +kernel) (by decide +kernel), ?_⟩ <;> and_intros <;> decide +kernel

theorem met_VectorCompareAndLength_2 :
    (VectorCompareAndLength_w1.CanIssue (lone 4)) ∧
    ((lone 4).slot = 4 ∨ (lone 4).slot = 5) ∧
    (opET (fV 1 1 2 0 0 0 0 0) ≤ 9) ∧
    (opVC (fV 1 1 2 0 0 0 0 0) = 0) ∧
    (opSB (fV 1 1 2 0 0 0 0 0) = 0) ∧
    (0 < opVD (fV 1 1 2 0 0 0 0 0)) ∧
    (opVD (fV 1 1 2 0 0 0 0 0) < 16) ∧
    (opMOD (fV 1 1 2 0 0 0 0 0) = 0 ∧ opSA (fV 1 1 2 0 0 0 0 0) = 0 ∨ opMOD (fV 1 1 2 0 0 0 0 0) = 2048 ∧ opVB (fV 1 1 2 0 0 0 0 0) = 0) :=
  by refine ⟨canIssue_of (by decide +kernel) (by decide +kernel), ?_⟩ <;> and_intros <;> decide +kernel

end VectorCompares

namespace VectorConversions

def VS : Tab Vec := [(1, 0x3F8000004048F5C3), (2, 0xBF800000), (3, 0x0302010005040706), (5, 0xFFFFFFFF00000007), (7, 0x0000000300000002), (8, 5)]
def XV (vl : Nat) : Tile := { tileX with s := [(1, 5), (4, 0xFFFFFFFFFFFFFFFF), (5, 0x3FC0000040490FDB), (6, 33)], p := [(1, 0xF0F1), (15, 1)], v := VS, silt := [(3, 7), (524287, 9)], sys := { tileX.sys with vl := BitVec.ofNat 64 vl, tfflags := 8 } }
def fV (vd va vb vc sa sb et md : Nat) : BitVec 48 := BitVec.ofNat 48 (vd * 2^43 + va * 2^38 + vb * 2^33 + vc * 2^28 + sa * 2^22 + sb * 2^16 + et * 2^12 + md)

def VectorConversions_w1 : State := mk (XV 3)

theorem met_VectorConversions_1 :
    (VectorConversions_w1.CanIssue (lone 4)) ∧
    ((lone 4).slot = 4 ∨ (lone 4).slot = 5) ∧
    (BitVec.extractLsb' 16 22 (fV 12 1 0 0 0 0 0 0) = 0) ∧
    (opET (fV 12 1 0 0 0 0 0 0) ≤ 9) ∧
    (opMOD (fV 12 1 0 0 0 0 0 0) % 16 ≤ 9) ∧
    (opMOD (fV 12 1 0 0 0 0 0 0) < 128) :=
  by refine ⟨canIssue_of (by decide +kernel) (by decide +kernel), ?_⟩ <;> and_intros <;> decide +kernel

theorem met_VectorConversions_2 :
    (VectorConversions_w1.CanIssue (lone 4)) ∧
    ((lone 4).slot = 4 ∨ (lone 4).slot = 5) ∧
    (BitVec.extractLsb' 16 22 (fV 12 1 0 0 0 0 2 0) = 0) ∧
    (opET (fV 12 1 0 0 0 0 2 0) ≤ 9) ∧
    (opET (fV 12 1 0 0 0 0 2 0) = 2 ∨ opET (fV 12 1 0 0 0 0 2 0) = 3 ∨ opET (fV 12 1 0 0 0 0 2 0) = 6 ∨ opET (fV 12 1 0 0 0 0 2 0) = 7 ∨ opET (fV 12 1 0 0 0 0 2 0) = 8 ∨ opET (fV 12 1 0 0 0 0 2 0) = 9) ∧
    (opMOD (fV 12 1 0 0 0 0 2 0) < if etBits (opET (fV 12 1 0 0 0 0 2 0)) = 16 then 2 else 4) :=
  by refine ⟨canIssue_of (by decide +kernel) (by decide +kernel), ?_⟩ <;> and_intros <;> decide +kernel

end VectorConversions

namespace VectorReductions

def VS : Tab Vec := [(1, 0x3F8000004048F5C3), (2, 0xBF800000), (3, 0x0302010005040706), (5, 0xFFFFFFFF00000007), (7, 0x0000000300000002), (8, 5)]
def XV (vl : Nat) : Tile := { tileX with s := [(1, 5), (4, 0xFFFFFFFFFFFFFFFF), (5, 0x3FC0000040490FDB), (6, 33)], p := [(1, 0xF0F1), (15, 1)], v := VS, silt := [(3, 7), (524287, 9)], sys := { tileX.sys with vl := BitVec.ofNat 64 vl, tfflags := 8 } }
def fV (vd va vb vc sa sb et md : Nat) : BitVec 48 := BitVec.ofNat 48 (vd * 2^43 + va * 2^38 + vb * 2^33 + vc * 2^28 + sa * 2^22 + sb * 2^16 + et * 2^12 + md)

def VectorReductions_w1 : State := mk (XV 3)

theorem met_VectorReductions_1 :
    (VectorReductions_w1.CanIssue (lone 4)) ∧
    ((lone 4).slot = 4 ∨ (lone 4).slot = 5) ∧
    (BitVec.extractLsb' 16 22 (fV 12 1 0 0 0 0 0 0) = 0) ∧
    (opET (fV 12 1 0 0 0 0 0 0) ≤ 9) ∧
    (opET (fV 12 1 0 0 0 0 0 0) ≤ 3) ∧
    (opMOD (fV 12 1 0 0 0 0 0 0) = 0) ∧
    (opMOD (fV 12 1 0 0 0 0 0 0) < 96) ∧
    (opVA (fV 12 1 0 0 0 0 0 0) + opMOD (fV 12 1 0 0 0 0 0 0) % 32 ≤ 31) :=
  by refine ⟨canIssue_of (by decide +kernel) (by decide +kernel), ?_⟩ <;> and_intros <;> decide +kernel

theorem met_VectorReductions_2 :
    (VectorReductions_w1.CanIssue (lone 4)) ∧
    ((lone 4).slot = 4 ∨ (lone 4).slot = 5) ∧
    (BitVec.extractLsb' 16 22 (fV 12 1 0 0 0 0 4 0) = 0) ∧
    (opET (fV 12 1 0 0 0 0 4 0) ≤ 9) ∧
    (4 ≤ opET (fV 12 1 0 0 0 0 4 0)) ∧
    (opMOD (fV 12 1 0 0 0 0 4 0) = 0) :=
  by refine ⟨canIssue_of (by decide +kernel) (by decide +kernel), ?_⟩ <;> and_intros <;> decide +kernel

end VectorReductions

namespace VectorGathers

def VS : Tab Vec := [(1, 0x3F8000004048F5C3), (2, 0xBF800000), (3, 0x0302010005040706), (5, 0xFFFFFFFF00000007), (7, 0x0000000300000002), (8, 5)]
def XV (vl : Nat) : Tile := { tileX with s := [(1, 5), (4, 0xFFFFFFFFFFFFFFFF), (5, 0x3FC0000040490FDB), (6, 33)], p := [(1, 0xF0F1), (15, 1)], v := VS, silt := [(3, 7), (524287, 9)], sys := { tileX.sys with vl := BitVec.ofNat 64 vl, tfflags := 8 } }
def fV (vd va vb vc sa sb et md : Nat) : BitVec 48 := BitVec.ofNat 48 (vd * 2^43 + va * 2^38 + vb * 2^33 + vc * 2^28 + sa * 2^22 + sb * 2^16 + et * 2^12 + md)

def VectorGatherScatter_w1 : State := mk (XV 3)

theorem met_VectorGatherScatter_1 :
    (VectorGatherScatter_w1.CanIssue (lone 4)) ∧
    ((lone 4).slot = 4 ∨ (lone 4).slot = 5) ∧
    (opVC (fV 3 7 0 0 1 0 0 0) = 0) ∧
    (opSB (fV 3 7 0 0 1 0 0 0) = 0) ∧
    (opMOD (fV 3 7 0 0 1 0 0 0) = 0) ∧
    (opET (fV 3 7 0 0 1 0 0 0) = 0 ∨ opET (fV 3 7 0 0 1 0 0 0) = 1 ∨ opET (fV 3 7 0 0 1 0 0 0) = 4 ∨ opET (fV 3 7 0 0 1 0 0 0) = 5) ∧
    (opVB (fV 3 7 0 0 1 0 0 0) = 0) ∧
    ((VectorGatherScatter_w1.tile ↑(lone 4).tile).siltBad = []) ∧
    ((VectorGatherScatter_w1.tile ↑(lone 4).tile).incoming = []) :=
  by refine ⟨canIssue_of (by decide +kernel) (by decide +kernel), ?_⟩ <;> and_intros <;> decide +kernel

theorem met_VectorGatherScatter_2 :
    (VectorGatherScatter_w1.CanIssue (lone 4)) ∧
    ((lone 4).slot = 4 ∨ (lone 4).slot = 5) ∧
    (opVC (fV 0 7 1 0 1 0 0 0) = 0) ∧
    (opSB (fV 0 7 1 0 1 0 0 0) = 0) ∧
    (opMOD (fV 0 7 1 0 1 0 0 0) = 0) ∧
    (opET (fV 0 7 1 0 1 0 0 0) = 0 ∨ opET (fV 0 7 1 0 1 0 0 0) = 1 ∨ opET (fV 0 7 1 0 1 0 0 0) = 4 ∨ opET (fV 0 7 1 0 1 0 0 0) = 5) ∧
    (opVD (fV 0 7 1 0 1 0 0 0) = 0) :=
  by refine ⟨canIssue_of (by decide +kernel) (by decide +kernel), ?_⟩ <;> and_intros <;> decide +kernel

end VectorGathers

namespace VectorSorts

def VS : Tab Vec := [(1, 0x3F8000004048F5C3), (2, 0xBF800000), (3, 0x0302010005040706), (5, 0xFFFFFFFF00000007), (7, 0x0000000300000002), (8, 5)]
def XV (vl : Nat) : Tile := { tileX with s := [(1, 5), (4, 0xFFFFFFFFFFFFFFFF), (5, 0x3FC0000040490FDB), (6, 33)], p := [(1, 0xF0F1), (15, 1)], v := VS, silt := [(3, 7), (524287, 9)], sys := { tileX.sys with vl := BitVec.ofNat 64 vl, tfflags := 8 } }
def fV (vd va vb vc sa sb et md : Nat) : BitVec 48 := BitVec.ofNat 48 (vd * 2^43 + va * 2^38 + vb * 2^33 + vc * 2^28 + sa * 2^22 + sb * 2^16 + et * 2^12 + md)

def VectorSort_w1 : State := mk (XV 3)

theorem met_VectorSort_1 :
    (VectorSort_w1.CanIssue (lone 4)) ∧
    ((lone 4).slot = 4 ∨ (lone 4).slot = 5) ∧
    (BitVec.extractLsb' 16 22 (fV 12 1 0 0 0 0 0 0) = 0) ∧
    (opMOD (fV 12 1 0 0 0 0 0 0) = 0) ∧
    (opET (fV 12 1 0 0 0 0 0 0) ≤ 9) ∧
    (opVD (fV 12 1 0 0 0 0 0 0) ≠ opVA (fV 12 1 0 0 0 0 0 0)) :=
  by refine ⟨canIssue_of (by decide +kernel) (by decide +kernel), ?_⟩ <;> and_intros <;> decide +kernel

end VectorSorts

namespace MatrixDispatch

def VS : Tab Vec := [(1, 0x3F8000004048F5C3), (2, 0xBF800000), (3, 0x0302010005040706)]
def fX (e acc fa fb ra rb str z o ofmt sr sat tsc : Nat) : BitVec 48 := BitVec.ofNat 48 (e*2^46+acc*2^42+fa*2^38+fb*2^34+ra*2^28+rb*2^22+str*2^21+z*2^20+o*2^19+ofmt*2^15+sr*2^14+sat*2^13+tsc*2^12)
def mA (kb c a : Nat) : W64 := BitVec.ofNat 64 (kb * 2^38 + c / 32 * 2^24 + a / 32 * 2^5)
def mB (ts b : Nat) : W64 := BitVec.ofNat 64 (ts * 2^32 + b / 32 * 2^5)
def siltData : Tab Byte := (List.range 20).map fun k => (5 * k + 3, BitVec.ofNat 8 ((k * 37 + k / 7) % 255 + 1))
def accData : Tab W32 := (List.range 5).map fun k => (3 * k + 1024 * (k / 100), BitVec.ofNat 32 (0x3F000000 + k * 77777 + (k % 2) * 0x80000000))
def XM : Tile := { tileX with s := [(1, mA 3 0x10000 0x400), (2, mB 0x3f800000 0x800), (3, 5), (4, mA 2 0x7FF00 0x7FFE0), (5, 0x12340), (6, mA 1 0 0), (7, mA 0 0x8000 0), (8, mB 0x3f800000 0)], v := VS, silt := siltData, acc := accData }

def MatrixDispatch_w1 : State := mk XM

theorem met_MatrixDispatch_1 :
    (MatrixDispatch_w1.CanIssue (lone 6)) ∧
    (MatrixDispatch_w1.guarded (lone 6)) ∧
    ((lone 6).slot = 6) ∧
    (syllableOk (MatrixDispatch_w1.tile ↑(lone 6).tile) (syllable 6 2 (lone 6).guard (fX 0 1 0 0 7 8 0 0 1 2 0 1 1)) = true) ∧
    (((MatrixDispatch_w1.tile ↑(lone 6).tile).engine (BitVec.extractLsb' 46 2 (fX 0 1 0 0 7 8 0 0 1 2 0 1 1)).toNat).idle = true) :=
  by refine ⟨canIssue_of (by decide +kernel) (by decide +kernel), (by unfold State.guarded; decide +kernel), ?_⟩ <;> and_intros <;> decide +kernel

theorem met_MatrixDispatch_2 :
    (MatrixDispatch_w1.CanIssue (lone 6)) ∧
    (MatrixDispatch_w1.guarded (lone 6)) ∧
    ((lone 6).slot = 6) ∧
    (syllableOk (MatrixDispatch_w1.tile ↑(lone 6).tile) (syllable 6 1 (lone 6).guard (fX 0 2 0 0 1 2 0 1 1 2 1 1 1)) = true) ∧
    (((MatrixDispatch_w1.tile ↑(lone 6).tile).engine (BitVec.extractLsb' 46 2 (fX 0 2 0 0 1 2 0 1 1 2 1 1 1)).toNat).idle = true) :=
  by refine ⟨canIssue_of (by decide +kernel) (by decide +kernel), (by unfold State.guarded; decide +kernel), ?_⟩ <;> and_intros <;> decide +kernel

end MatrixDispatch

namespace AccumulatorMoves

def VS : Tab Vec := [(1, 0x3F8000004048F5C3), (2, 0xBF800000), (3, 0x0302010005040706)]
def fXA (e acc v ra mask rowp : Nat) : BitVec 48 := BitVec.ofNat 48 (e*2^46+acc*2^42+v*2^37+ra*2^31+mask*2^27+rowp*2^23)
def mA (kb c a : Nat) : W64 := BitVec.ofNat 64 (kb * 2^38 + c / 32 * 2^24 + a / 32 * 2^5)
def mB (ts b : Nat) : W64 := BitVec.ofNat 64 (ts * 2^32 + b / 32 * 2^5)
def siltData : Tab Byte := (List.range 4).map fun k => (5 * k + 3, BitVec.ofNat 8 ((k * 37 + k / 7) % 255 + 1))
def accData : Tab W32 := (List.range 4).map fun k => (3 * k + 1024 * (k / 100), BitVec.ofNat 32 (0x3F000000 + k * 77777 + (k % 2) * 0x80000000))
def XM : Tile := { tileX with s := [(1, mA 3 0x10000 0x400), (2, mB 0x3f800000 0x800), (3, 5), (4, mA 2 0x7FF00 0x7FFE0), (5, 0x12340), (6, mA 1 0 0)], v := VS, silt := siltData, acc := accData }

def AccumulatorMoves_w1 : State := mk XM

theorem met_AccumulatorMoves_1 :
    (AccumulatorMoves_w1.CanIssue (lone 6)) ∧
    (AccumulatorMoves_w1.guarded (lone 6)) ∧
    ((lone 6).slot = 6) ∧
    (((AccumulatorMoves_w1.tile ↑(lone 6).tile).engine (BitVec.extractLsb' 46 2 (fXA 1 0 0 0 0 0)).toNat).running = false) ∧
    (BitVec.extractLsb' 0 42 (fXA 1 0 0 0 0 0) = 0) ∧
    (BitVec.extractLsb' 0 23 (fXA 1 0 0 0 0 0) = 0) ∧
    (BitVec.extractLsb' 27 10 (fXA 1 0 0 0 0 0) = 0) ∧
    (BitVec.extractLsb' 0 31 (fXA 1 0 0 0 0 0) = 0) ∧
    (BitVec.extractLsb' 37 5 (fXA 1 0 0 0 0 0) = 0) ∧
    ((AccumulatorMoves_w1.tile ↑(lone 6).tile).siltBad = []) :=
  by refine ⟨canIssue_of (by decide +kernel) (by decide +kernel), (by unfold State.guarded; decide +kernel), ?_⟩ <;> and_intros <;> decide +kernel

end AccumulatorMoves

namespace EngineControl

def VS : Tab Vec := [(1, 0x3F8000004048F5C3), (2, 0xBF800000), (3, 0x0302010005040706)]
def fX (e acc fa fb ra rb str z o ofmt sr sat tsc : Nat) : BitVec 48 := BitVec.ofNat 48 (e*2^46+acc*2^42+fa*2^38+fb*2^34+ra*2^28+rb*2^22+str*2^21+z*2^20+o*2^19+ofmt*2^15+sr*2^14+sat*2^13+tsc*2^12)
def fXA (e acc v ra mask rowp : Nat) : BitVec 48 := BitVec.ofNat 48 (e*2^46+acc*2^42+v*2^37+ra*2^31+mask*2^27+rowp*2^23)
def mA (kb c a : Nat) : W64 := BitVec.ofNat 64 (kb * 2^38 + c / 32 * 2^24 + a / 32 * 2^5)
def mB (ts b : Nat) : W64 := BitVec.ofNat 64 (ts * 2^32 + b / 32 * 2^5)
def siltData : Tab Byte := (List.range 4).map fun k => (5 * k + 3, BitVec.ofNat 8 ((k * 37 + k / 7) % 255 + 1))
def accData : Tab W32 := (List.range 4).map fun k => (3 * k + 1024 * (k / 100), BitVec.ofNat 32 (0x3F000000 + k * 77777 + (k % 2) * 0x80000000))
def XM : Tile := { tileX with s := [(1, mA 3 0x10000 0x400), (2, mB 0x3f800000 0x800), (3, 5), (4, mA 2 0x7FF00 0x7FFE0), (5, 0x12340), (6, mA 1 0 0), (7, mA 0 0x8000 0), (8, mB 0x3f800000 0)], v := VS, silt := siltData, acc := accData }
def E1 : Engine := { mcur := 0x8000000000000000, running := true, msyl := 0 }
def E2 : Engine := { mcur := 0xC000000000000005, mopa := 9 }
def XE : Tile := { XM with eng := [(0, E1), (2, E2)] }

def EngineControl_w1 : State := mk XM

def EngineControl_w2 : State := mk XE

theorem met_EngineControl_1 :
    (EngineControl_w1.CanIssue (lone 6)) ∧
    (EngineControl_w1.guarded (lone 6)) ∧
    ((lone 6).slot = 6) ∧
    (BitVec.extractLsb' 0 46 (fXA 1 0 0 0 0 0) = 0) ∧
    (EngineControl_w1.Supervisor ↑(lone 6).tile) ∧
    (BitVec.getLsbD ((EngineControl_w1.tile ↑(lone 6).tile).engine (BitVec.extractLsb' 46 2 (fXA 1 0 0 0 0 0)).toNat).mcur 63 = false) ∧
    (((EngineControl_w1.tile ↑(lone 6).tile).engine (BitVec.extractLsb' 46 2 (fXA 1 0 0 0 0 0)).toNat).running = false) :=
  by refine ⟨canIssue_of (by decide +kernel) (by decide +kernel), (by unfold State.guarded; decide +kernel), ?_, ?_,
   (by unfold State.Supervisor; decide +kernel), ?_⟩ <;> and_intros <;> decide +kernel

theorem met_EngineControl_2 :
    (EngineControl_w2.CanIssue (lone 6)) ∧
    (EngineControl_w2.guarded (lone 6)) ∧
    ((lone 6).slot = 6) ∧
    (syllableOk (EngineControl_w2.tile ↑(lone 6).tile) (syllable 6 32 (lone 6).guard (fXA 0 0 0 0 1 0)) = true) ∧
    (∃ n, n < 4 ∧ (BitVec.extractLsb' 27 4 (fXA 0 0 0 0 1 0)).getLsbD n = true ∧ (((EngineControl_w2.tile ↑(lone 6).tile).engine n).running = true ∨ BitVec.getLsbD ((EngineControl_w2.tile ↑(lone 6).tile).engine n).mcur 62 = true)) :=
  by refine ⟨canIssue_of (by decide +kernel) (by decide +kernel), (by unfold State.guarded; decide +kernel), ?_⟩ <;> and_intros <;> decide +kernel

theorem met_EngineControl_3 :
    (EngineControl_w1.CanIssue (lone 6)) ∧
    (EngineControl_w1.guarded (lone 6)) ∧
    ((lone 6).slot = 6) ∧
    (syllableOk (EngineControl_w1.tile ↑(lone 6).tile) (syllable 6 32 (lone 6).guard (fXA 0 0 0 0 0 0)) = true) ∧
    (∀ (n : Nat), n < 4 → (BitVec.extractLsb' 27 4 (fXA 0 0 0 0 0 0)).getLsbD n = true → ((EngineControl_w1.tile ↑(lone 6).tile).engine n).running = false ∧ BitVec.getLsbD ((EngineControl_w1.tile ↑(lone 6).tile).engine n).mcur 62 = false) :=
  by refine ⟨canIssue_of (by decide +kernel) (by decide +kernel), (by unfold State.guarded; decide +kernel), ?_⟩ <;> and_intros <;> decide +kernel

theorem met_EngineControl_4 :
    (EngineControl_w2.CanIssue (lone 6)) ∧
    (EngineControl_w2.guarded (lone 6)) ∧
    ((lone 6).slot = 6) ∧
    (((EngineControl_w2.tile ↑(lone 6).tile).engine (BitVec.extractLsb' 46 2 (fX 0 2 0 0 1 2 0 1 1 2 1 1 1)).toNat).running = true) ∧
    (syllableOk (EngineControl_w2.tile ↑(lone 6).tile) (syllable 6 1 (lone 6).guard (fX 0 2 0 0 1 2 0 1 1 2 1 1 1)) = true) :=
  by refine ⟨canIssue_of (by decide +kernel) (by decide +kernel), (by unfold State.guarded; decide +kernel), ?_⟩ <;> and_intros <;> decide +kernel

theorem met_EngineControl_5 :
    (EngineControl_w2.CanIssue (lone 6)) ∧
    (EngineControl_w2.guarded (lone 6)) ∧
    ((lone 6).slot = 6) ∧
    (((EngineControl_w2.tile ↑(lone 6).tile).engine (BitVec.extractLsb' 46 2 (fX 0 1 0 0 7 8 0 0 1 2 0 1 1)).toNat).running = true) ∧
    (syllableOk (EngineControl_w2.tile ↑(lone 6).tile) (syllable 6 2 (lone 6).guard (fX 0 1 0 0 7 8 0 0 1 2 0 1 1)) = true) :=
  by refine ⟨canIssue_of (by decide +kernel) (by decide +kernel), (by unfold State.guarded; decide +kernel), ?_⟩ <;> and_intros <;> decide +kernel

theorem met_EngineControl_6 :
    (EngineControl_w2.CanIssue (lone 6)) ∧
    (EngineControl_w2.guarded (lone 6)) ∧
    ((lone 6).slot = 6) ∧
    (((EngineControl_w2.tile ↑(lone 6).tile).engine (BitVec.extractLsb' 46 2 (fXA 0 0 0 0 0 0)).toNat).running = true) ∧
    (syllableOk (EngineControl_w2.tile ↑(lone 6).tile) (syllable 6 16 (lone 6).guard (fXA 0 0 0 0 0 0)) = true) ∧
    (syllableOk (EngineControl_w2.tile ↑(lone 6).tile) (syllable 6 19 (lone 6).guard (fXA 0 0 0 0 0 0)) = true) ∧
    (syllableOk (EngineControl_w2.tile ↑(lone 6).tile) (syllable 6 33 (lone 6).guard (fXA 0 0 0 0 0 0)) = true) ∧
    (EngineControl_w2.Supervisor ↑(lone 6).tile) ∧
    (syllableOk (EngineControl_w2.tile ↑(lone 6).tile) (syllable 6 34 (lone 6).guard (fXA 0 0 0 0 0 0)) = true) :=
  by refine ⟨canIssue_of (by decide +kernel) (by decide +kernel), (by unfold State.guarded; decide +kernel), ?_, ?_, ?_, ?_, ?_,
   (by unfold State.Supervisor; decide +kernel), ?_⟩ <;> decide +kernel

theorem met_EngineControl_7 :
    (EngineControl_w2.CanIssue (lone 6)) ∧
    (EngineControl_w2.guarded (lone 6)) ∧
    ((lone 6).slot = 6) ∧
    (((EngineControl_w2.tile ↑(lone 6).tile).engine (BitVec.extractLsb' 46 2 (fXA 0 1 31 0 0 15)).toNat).running = true) ∧
    (syllableOk (EngineControl_w2.tile ↑(lone 6).tile) (syllable 6 17 (lone 6).guard (fXA 0 1 31 0 0 15)) = true) :=
  by refine ⟨canIssue_of (by decide +kernel) (by decide +kernel), (by unfold State.guarded; decide +kernel), ?_⟩ <;> and_intros <;> decide +kernel

theorem met_EngineControl_8 :
    (EngineControl_w2.CanIssue (lone 6)) ∧
    (EngineControl_w2.guarded (lone 6)) ∧
    ((lone 6).slot = 6) ∧
    (BitVec.extractLsb' 0 46 (fXA 2 0 0 0 0 0) = 0) ∧
    (EngineControl_w2.Supervisor ↑(lone 6).tile) ∧
    (BitVec.getLsbD ((EngineControl_w2.tile ↑(lone 6).tile).engine (BitVec.extractLsb' 46 2 (fXA 2 0 0 0 0 0)).toNat).mcur 63 = true) ∧
    (((EngineControl_w2.tile ↑(lone 6).tile).engine (BitVec.extractLsb' 46 2 (fXA 2 0 0 0 0 0)).toNat).running = false) :=
  by refine ⟨canIssue_of (by decide +kernel) (by decide +kernel), (by unfold State.guarded; decide +kernel), ?_, ?_,
   (by unfold State.Supervisor; decide +kernel), ?_⟩ <;> and_intros <;> decide +kernel

end EngineControl

namespace MatrixUnits

def VS : Tab Vec := [(1, 0x3F8000004048F5C3), (2, 0xBF800000), (3, 0x0302010005040706)]
def fX (e acc fa fb ra rb str z o ofmt sr sat tsc : Nat) : BitVec 48 := BitVec.ofNat 48 (e*2^46+acc*2^42+fa*2^38+fb*2^34+ra*2^28+rb*2^22+str*2^21+z*2^20+o*2^19+ofmt*2^15+sr*2^14+sat*2^13+tsc*2^12)
def mA (kb c a : Nat) : W64 := BitVec.ofNat 64 (kb * 2^38 + c / 32 * 2^24 + a / 32 * 2^5)
def mB (ts b : Nat) : W64 := BitVec.ofNat 64 (ts * 2^32 + b / 32 * 2^5)
def siltData : Tab Byte := (List.range 4).map fun k => (5 * k + 3, BitVec.ofNat 8 ((k * 37 + k / 7) % 255 + 1))
def accData : Tab W32 := (List.range 4).map fun k => (3 * k + 1024 * (k / 100), BitVec.ofNat 32 (0x3F000000 + k * 77777 + (k % 2) * 0x80000000))
def XM : Tile := { tileX with s := [(1, mA 3 0x10000 0x400), (2, mB 0x3f800000 0x800), (3, 5), (4, mA 2 0x7FF00 0x7FFE0), (5, 0x12340), (6, mA 1 0 0), (7, mA 0 0x8000 0), (8, mB 0x3f800000 0)], v := VS, silt := siltData, acc := accData }
def ms (f : BitVec 48) (op : Nat := 1) : W64 := Sys2Proof.Machine.syllable 6 op 0 f
def en (f : BitVec 48) (u kb st : Nat) : Engine := { mcur := BitVec.ofNat 64 (2^63 + st * 2^32 + u), running := true, msyl := ms f, mopa := mA kb 0x7F800 0x400, mopb := mB 0x3f000000 0x7FF00 }
def SU (e : Engine) : State := mk { XM with eng := [(1, e)] }
def bb0 : List Byte := (List.range 2048).map fun q => Tab.look 0 XM.silt ((0x7FF00 + 2048 + q) % 524288)

def MatrixUnits_w1 : State := SU (en (fX 1 2 0 0 1 2 0 1 0 0 0 0 0) 1 2 0)

def MatrixUnits_w2 : State := SU (en (fX 1 0 0 0 1 2 0 0 1 1 0 0 0) 31 0 1)

theorem met_MatrixUnits_1 :
    (MatrixUnits_w1.Inv) ∧
    (((MatrixUnits_w1.tile ↑3).engine ↑1).running = true) ∧
    (BitVec.getLsbD ((MatrixUnits_w1.tile ↑3).engine ↑1).mcur 63 = true) ∧
    (BitVec.getLsbD ((MatrixUnits_w1.tile ↑3).engine ↑1).mcur 62 = false) ∧
    (MatrixUnits_w1.top.st ≠ ModState.faulted) ∧
    (MatrixUnits_w1.mayStart ↑3 = true) ∧
    ((MatrixUnits_w1.tile ↑3).stopping = false) ∧
    (((MatrixUnits_w1.tile ↑3).engine ↑1).ahead = none) ∧
    (((MatrixUnits_w1.tile ↑3).engine ↑1).undef = false) ∧
    (((MatrixUnits_w1.tile ↑3).engine ↑1).seedUndef = false) ∧
    (BitVec.extractLsb' 32 4 ((MatrixUnits_w1.tile ↑3).engine ↑1).mcur = 0) ∧
    ((BitVec.extractLsb' 0 32 ((MatrixUnits_w1.tile ↑3).engine ↑1).mcur).toNat < (BitVec.extractLsb' 38 12 ((MatrixUnits_w1.tile ↑3).engine ↑1).mopa).toNat) ∧
    ((MatrixUnits_w1.tile ↑3).siltBad = []) ∧
    (if BitVec.getLsbD ((MatrixUnits_w1.tile ↑3).engine ↑1).msyl 21 = true then ∃ r, List.find? (fun r => decide (r.index = (BitVec.extractLsb' 0 32 ((MatrixUnits_w1.tile ↑3).engine ↑1).mcur).toNat)) ((MatrixUnits_w1.tile ↑3).engine ↑1).blocks = some r ∧ r.bytes = some bb0 else bb0 = List.map (fun q => Tab.look 0 (MatrixUnits_w1.tile ↑3).silt (((BitVec.extractLsb' 5 14 ((MatrixUnits_w1.tile ↑3).engine ↑1).mopb).toNat * 32 + (BitVec.extractLsb' 0 32 ((MatrixUnits_w1.tile ↑3).engine ↑1).mcur).toNat * blockBytes (BitVec.extractLsb' 34 4 ((MatrixUnits_w1.tile ↑3).engine ↑1).msyl).toNat + q) % 524288)) (List.range (blockBytes (BitVec.extractLsb' 34 4 ((MatrixUnits_w1.tile ↑3).engine ↑1).msyl).toNat))) :=
  by refine ⟨inv_of (by decide +kernel), ?_, ?_, ?_, ?_, ?_, ?_, ?_, ?_, ?_, ?_, ?_, ?_, by rw [if_neg (by decide +kernel)]; decide +kernel⟩ <;> decide +kernel

theorem met_MatrixUnits_2 :
    (MatrixUnits_w2.Inv) ∧
    (((MatrixUnits_w2.tile ↑3).engine ↑1).running = true) ∧
    (BitVec.getLsbD ((MatrixUnits_w2.tile ↑3).engine ↑1).mcur 63 = true) ∧
    (BitVec.getLsbD ((MatrixUnits_w2.tile ↑3).engine ↑1).mcur 62 = false) ∧
    (MatrixUnits_w2.top.st ≠ ModState.faulted) ∧
    (MatrixUnits_w2.mayStart ↑3 = true) ∧
    ((MatrixUnits_w2.tile ↑3).stopping = false) ∧
    (((MatrixUnits_w2.tile ↑3).engine ↑1).ahead = none) ∧
    (((MatrixUnits_w2.tile ↑3).engine ↑1).undef = false) ∧
    (((MatrixUnits_w2.tile ↑3).engine ↑1).seedUndef = false) ∧
    (BitVec.extractLsb' 32 4 ((MatrixUnits_w2.tile ↑3).engine ↑1).mcur = 1) ∧
    ((BitVec.extractLsb' 0 32 ((MatrixUnits_w2.tile ↑3).engine ↑1).mcur).toNat < 32) :=
  by refine ⟨inv_of (by decide +kernel), ?_⟩ <;> and_intros <;> decide +kernel

end MatrixUnits

namespace StreamBlocks

def VS : Tab Vec := [(1, 0x3F8000004048F5C3), (2, 0xBF800000), (3, 0x0302010005040706)]
def fX (e acc fa fb ra rb str z o ofmt sr sat tsc : Nat) : BitVec 48 := BitVec.ofNat 48 (e*2^46+acc*2^42+fa*2^38+fb*2^34+ra*2^28+rb*2^22+str*2^21+z*2^20+o*2^19+ofmt*2^15+sr*2^14+sat*2^13+tsc*2^12)
def mA (kb c a : Nat) : W64 := BitVec.ofNat 64 (kb * 2^38 + c / 32 * 2^24 + a / 32 * 2^5)
def mB (ts b : Nat) : W64 := BitVec.ofNat 64 (ts * 2^32 + b / 32 * 2^5)
def siltData : Tab Byte := (List.range 4).map fun k => (5 * k + 3, BitVec.ofNat 8 ((k * 37 + k / 7) % 255 + 1))
def accData : Tab W32 := (List.range 4).map fun k => (3 * k + 1024 * (k / 100), BitVec.ofNat 32 (0x3F000000 + k * 77777 + (k % 2) * 0x80000000))
def XM : Tile := { tileX with s := [(1, mA 3 0x10000 0x400), (2, mB 0x3f800000 0x800), (3, 5), (4, mA 2 0x7FF00 0x7FFE0), (5, 0x12340), (6, mA 1 0 0), (7, mA 0 0x8000 0), (8, mB 0x3f800000 0)], v := VS, silt := siltData, acc := accData }
def ms (f : BitVec 48) (op : Nat := 1) : W64 := Sys2Proof.Machine.syllable 6 op 0 f
def L0 : TlbEntry := { asid := 1, va := 0, bits := 21, pte := BitVec.ofNat 64 (0x40000000 + 0x2F) }
def L1 : TlbEntry := { asid := 1, va := 0x200000, bits := 16, pte := BitVec.ofNat 64 (0x40000000 + 0x23) }
def en (u blk : Nat) (va : Nat) (fb : Nat := 0) : Engine := { mcur := BitVec.ofNat 64 (2^63 + u), running := true, msyl := ms (fX 1 2 0 fb 1 2 1 0 0 0 0 0 0), mopa := mA 9 0x7F800 0x400, mopb := BitVec.ofNat 64 va, blocks := (List.range blk).map fun k => { index := u + k, bytes := none } }
def SM (e : Engine) : State := { mk { XM with eng := [(1, e)], sys := { tileX.sys with tctx := 0x10 } } with top := {st := .running, hbmUp := 1}, mmu := { ctx := [(0, 0x80000001)], tlbs := [(1027, [L0, L1])] }, mem := { phys := [(0x40000000, 0x85), (0x40000001, 0x96), (0x40000007, 0xF9), (0x40001005, 1)]} }

def StreamBlocks_w1 : State := SM (en 0 0 0)

def StreamBlocks_w2 : State := SM (en 0 0 2097152)

def StreamBlocks_w3 : WalkFault := { kind := 1#4, level := 7, malformed := false, entry := 1073741859#64, paddr := 1073741824 }

theorem met_StreamBlocks_1 :
    (StreamBlocks_w1.Inv) ∧
    (((StreamBlocks_w1.tile ↑3).engine ↑1).running = true) ∧
    (BitVec.getLsbD ((StreamBlocks_w1.tile ↑3).engine ↑1).mcur 63 = true) ∧
    (BitVec.getLsbD ((StreamBlocks_w1.tile ↑3).engine ↑1).mcur 62 = false) ∧
    (BitVec.getLsbD ((StreamBlocks_w1.tile ↑3).engine ↑1).msyl 21 = true) ∧
    (BitVec.extractLsb' 32 4 ((StreamBlocks_w1.tile ↑3).engine ↑1).mcur = 0) ∧
    (((StreamBlocks_w1.tile ↑3).engine ↑1).ahead = none) ∧
    ((StreamBlocks_w1.tile ↑3).stopping = false) ∧
    (((StreamBlocks_w1.tile ↑3).engine ↑1).nextBlock < (BitVec.extractLsb' 38 12 ((StreamBlocks_w1.tile ↑3).engine ↑1).mopa).toNat) ∧
    (((StreamBlocks_w1.tile ↑3).engine ↑1).nextBlock ≤ (BitVec.extractLsb' 0 32 ((StreamBlocks_w1.tile ↑3).engine ↑1).mcur).toNat + 4) ∧
    (StreamBlocks_w1.top.st ≠ ModState.faulted) ∧
    (((BitVec.extractLsb' 6 51 ((StreamBlocks_w1.tile ↑3).engine ↑1).mopb).toNat * 64 + ((StreamBlocks_w1.tile ↑3).engine ↑1).nextBlock * blockBytes (BitVec.extractLsb' 34 4 ((StreamBlocks_w1.tile ↑3).engine ↑1).msyl).toNat) % 65536 + blockBytes (BitVec.extractLsb' 34 4 ((StreamBlocks_w1.tile ↑3).engine ↑1).msyl).toNat ≤ 65536) ∧
    (StreamBlocks_w1.cmd.hostHeld = []) ∧
    (StreamBlocks_w1.translate (Requester.engine ↑3 ↑1) (StreamBlocks_w1.tile ↑3).ctxNo (StreamBlocks_w1.tile ↑3).asid ((BitVec.extractLsb' 6 51 ((StreamBlocks_w1.tile ↑3).engine ↑1).mopb).toNat * 64 + ((StreamBlocks_w1.tile ↑3).engine ↑1).nextBlock * blockBytes (BitVec.extractLsb' 34 4 ((StreamBlocks_w1.tile ↑3).engine ↑1).msyl).toNat) Access.stream false = Xlat.hit 1073741824) ∧
    ((∃ k, targetOf 1073741824 = Target.hbm k ∧ StreamBlocks_w1.stackUp k = true) ∨ ∃ b, targetOf 1073741824 = Target.loam b) ∧
    (∀ (b m : Nat), markIn StreamBlocks_w1.mem.bad 1073741824 b m = none) :=
  by refine ⟨inv_of (by decide +kernel), ?_, ?_, ?_, ?_, ?_, ?_, ?_, ?_, ?_, ?_, ?_, ?_, ?_,
   here_of (s := StreamBlocks_w1) (pa := 1073741824) (by decide +kernel), fun _ _ => rfl⟩ <;> decide +kernel

theorem met_StreamBlocks_2 :
    (StreamBlocks_w2.Inv) ∧
    (((StreamBlocks_w2.tile ↑3).engine ↑1).running = true) ∧
    (BitVec.getLsbD ((StreamBlocks_w2.tile ↑3).engine ↑1).mcur 63 = true) ∧
    (BitVec.getLsbD ((StreamBlocks_w2.tile ↑3).engine ↑1).mcur 62 = false) ∧
    (BitVec.getLsbD ((StreamBlocks_w2.tile ↑3).engine ↑1).msyl 21 = true) ∧
    (BitVec.extractLsb' 32 4 ((StreamBlocks_w2.tile ↑3).engine ↑1).mcur = 0) ∧
    (((StreamBlocks_w2.tile ↑3).engine ↑1).ahead = none) ∧
    ((StreamBlocks_w2.tile ↑3).stopping = false) ∧
    (((StreamBlocks_w2.tile ↑3).engine ↑1).nextBlock < (BitVec.extractLsb' 38 12 ((StreamBlocks_w2.tile ↑3).engine ↑1).mopa).toNat) ∧
    (((StreamBlocks_w2.tile ↑3).engine ↑1).nextBlock ≤ (BitVec.extractLsb' 0 32 ((StreamBlocks_w2.tile ↑3).engine ↑1).mcur).toNat + 4) ∧
    (StreamBlocks_w2.top.st ≠ ModState.faulted) ∧
    (((BitVec.extractLsb' 6 51 ((StreamBlocks_w2.tile ↑3).engine ↑1).mopb).toNat * 64 + ((StreamBlocks_w2.tile ↑3).engine ↑1).nextBlock * blockBytes (BitVec.extractLsb' 34 4 ((StreamBlocks_w2.tile ↑3).engine ↑1).msyl).toNat) % 65536 + blockBytes (BitVec.extractLsb' 34 4 ((StreamBlocks_w2.tile ↑3).engine ↑1).msyl).toNat ≤ 65536) ∧
    (StreamBlocks_w2.cmd.hostHeld = []) ∧
    (StreamBlocks_w2.translate (Requester.engine ↑3 ↑1) (StreamBlocks_w2.tile ↑3).ctxNo (StreamBlocks_w2.tile ↑3).asid ((BitVec.extractLsb' 6 51 ((StreamBlocks_w2.tile ↑3).engine ↑1).mopb).toNat * 64 + ((StreamBlocks_w2.tile ↑3).engine ↑1).nextBlock * blockBytes (BitVec.extractLsb' 34 4 ((StreamBlocks_w2.tile ↑3).engine ↑1).msyl).toNat) Access.stream false = Xlat.fault StreamBlocks_w3) :=
  by refine ⟨inv_of (by decide +kernel), ?_⟩ <;> and_intros <;> decide +kernel

end StreamBlocks

namespace StreamSync

def fS (ra rb ctr imm : Nat) : BitVec 48 := BitVec.ofNat 48 (ra*2^42+rb*2^36+ctr*2^26+imm)
def XS : Tile := { tileX with s := [(1, 5), (2, 0xFFFFFFFF00000007), (3, 31), (4, 32), (5, 0x12345)], farNext := 6, sys := { tileX.sys with tctx := 0x10 } }
def gr : Group := { bolt := 0, phys := 0, siltKib := 512, entry := 0x8047, tvec := 0, movers := 1, counters := 2}
def dec : CadDecl := { number := 7, report := 1, period := 1000, deadline := 500, groups := 1, movers := [1,0,0,0], ctrFirst := 0, ctrCount := 2, periodVa := 0, bufs := []}
def cad7 (d : List Nat) : Cad := { en := true, ctx := 2, st := .active, period := 1, startGt := 100, done := d }
def baseS (x : Tile) (gt : W64 := 0) (d : List Nat := []) : State := { mk x with
  tiles := [(3, x), (9, { tileX with armed := some (5, 9) }), (10, { tileX with armed := some (5, 0xFFFFFFFF) }), (11, { tileX with armed := some (6, 0) })]
  clk := { gt := gt }
  eng := { ctr := [(5, 7), (9, 0xFFFFFFFF), (1023, 4)], ctrGrant := [(5, some 0), (9, some 0), (1023, some 0)], mov := [(5, { granted := true, ctx := 0, nextNum := 9, queue := [{ num := 8, released := false, va := 0, ctx := 0, tile := 3, words := none}, { num := 7, released := false, va := 0, ctx := 0, tile := 3, words := none}] }), (7, { granted := true, en := true}), (31, {granted := true})] }
  ctxs := [(2, { groups := [gr], cads := [dec], st := .running, startSlot := some 1 })], cads := [(7, cad7 d)] }

def StreamSync_w1 : State := baseS XS

def StreamSync_w2 : State := have __src := baseS XS; { pending := __src.pending, top := __src.top, clk := __src.clk, tiles := __src.tiles, mem := __src.mem, mmu := __src.mmu, eng := __src.eng, gz := __src.gz, cmd := __src.cmd, ctxs := __src.ctxs, cads := __src.cads,   pow :=     have __src := State.reset.pow;     { rails := __src.rails, pin := __src.pin, conv := __src.conv, loads := __src.loads, railEnergy := __src.railEnergy, loadEnergy := __src.loadEnergy, window := __src.window, gov := __src.gov, up := __src.up, down := __src.down, staggerEn := false, level := __src.level, next := __src.next, paceArmed := __src.paceArmed, paceAt := __src.paceAt, floor := __src.floor, fwForce := __src.fwForce, source := __src.source, thermal := __src.thermal, firmware := __src.firmware, clearRefused := __src.clearRefused, floorCount := __src.floorCount, stored := __src.stored },   gvn := __src.gvn, res := __src.res, rfw := __src.rfw, clm := __src.clm, pairs := __src.pairs, err := __src.err, trust := __src.trust, free := __src.free }

theorem met_StreamSync_1 :
    (StreamSync_w1.CanIssue (lone 7)) ∧
    (StreamSync_w1.guarded (lone 7)) ∧
    ((lone 7).slot = 7) ∧
    (BitVec.extractLsb' 16 10 0#48 = 0) ∧
    (0#48 = 0) :=
  by refine ⟨canIssue_of (by decide +kernel) (by decide +kernel), (by unfold State.guarded; decide +kernel), ?_⟩ <;> and_intros <;> decide +kernel

theorem met_StreamSync_2 :
    (StreamSync_w1.CanIssue (lone 7)) ∧
    (StreamSync_w1.guarded (lone 7)) ∧
    ((lone 7).slot = 7) ∧
    (BitVec.extractLsb' 16 10 (fS 0 0 5 9) = 0) ∧
    (Tab.look none StreamSync_w1.eng.ctrGrant (BitVec.extractLsb' 26 10 (fS 0 0 5 9)).toNat = some (StreamSync_w1.tile ↑(lone 7).tile).ctxNo) ∧
    ((BitVec.extractLsb' 42 6 (fS 0 0 5 9)).toNat = 0) ∧
    ((BitVec.extractLsb' 36 6 (fS 0 0 5 9)).toNat = 0) :=
  by refine ⟨canIssue_of (by decide +kernel) (by decide +kernel), (by unfold State.guarded; decide +kernel), ?_⟩ <;> and_intros <;> decide +kernel

theorem met_StreamSync_3 :
    (StreamSync_w1.CanIssue (lone 7)) ∧
    (StreamSync_w1.guarded (lone 7)) ∧
    ((lone 7).slot = 7) ∧
    (BitVec.extractLsb' 16 10 (fS 0 3 5 0) = 0) ∧
    (Tab.look none StreamSync_w1.eng.ctrGrant (BitVec.extractLsb' 26 10 (fS 0 3 5 0)).toNat = some (StreamSync_w1.tile ↑(lone 7).tile).ctxNo) ∧
    ((BitVec.extractLsb' 42 6 (fS 0 3 5 0)).toNat = 0) ∧
    (BitVec.extractLsb' 0 16 (fS 0 3 5 0) = 0) :=
  by refine ⟨canIssue_of (by decide +kernel) (by decide +kernel), (by unfold State.guarded; decide +kernel), ?_⟩ <;> and_intros <;> decide +kernel

theorem met_StreamSync_4 :
    (StreamSync_w1.CanIssue (lone 7)) ∧
    (StreamSync_w1.guarded (lone 7)) ∧
    ((lone 7).slot = 7) ∧
    (BitVec.extractLsb' 16 10 (fS 4 0 5 0) = 0) ∧
    (Tab.look none StreamSync_w1.eng.ctrGrant (BitVec.extractLsb' 26 10 (fS 4 0 5 0)).toNat = some (StreamSync_w1.tile ↑(lone 7).tile).ctxNo) ∧
    ((BitVec.extractLsb' 36 6 (fS 4 0 5 0)).toNat = 0) ∧
    (BitVec.extractLsb' 0 16 (fS 4 0 5 0) = 0) ∧
    ((!BitVec.getLsbD (StreamSync_w1.ctr (BitVec.extractLsb' 26 10 (fS 4 0 5 0)).toNat - BitVec.setWidth 32 ((StreamSync_w1.tile ↑(lone 7).tile).getS (BitVec.extractLsb' 42 6 (fS 4 0 5 0)).toNat)) 31) = false) :=
  by refine ⟨canIssue_of (by decide +kernel) (by decide +kernel), (by unfold State.guarded; decide +kernel), ?_⟩ <;> and_intros <;> decide +kernel

theorem met_StreamSync_5 :
    (StreamSync_w2.CanIssue (lone 7)) ∧
    (StreamSync_w2.guarded (lone 7)) ∧
    ((lone 7).slot = 7) ∧
    (BitVec.extractLsb' 16 10 (fS 1 0 5 0) = 0) ∧
    (Tab.look none StreamSync_w2.eng.ctrGrant (BitVec.extractLsb' 26 10 (fS 1 0 5 0)).toNat = some (StreamSync_w2.tile ↑(lone 7).tile).ctxNo) ∧
    ((BitVec.extractLsb' 36 6 (fS 1 0 5 0)).toNat = 0) ∧
    (BitVec.extractLsb' 0 16 (fS 1 0 5 0) = 0) ∧
    ((!BitVec.getLsbD (StreamSync_w2.ctr (BitVec.extractLsb' 26 10 (fS 1 0 5 0)).toNat - BitVec.setWidth 32 ((StreamSync_w2.tile ↑(lone 7).tile).getS (BitVec.extractLsb' 42 6 (fS 1 0 5 0)).toNat)) 31) = true) ∧
    (StreamSync_w2.pow.staggerEn = false) :=
  by refine ⟨canIssue_of (by decide +kernel) (by decide +kernel), (by unfold State.guarded; decide +kernel), ?_⟩ <;> and_intros <;> decide +kernel

theorem met_StreamSync_6 :
    (StreamSync_w1.CanIssue (lone 7)) ∧
    (StreamSync_w1.guarded (lone 7)) ∧
    ((lone 7).slot = 7) ∧
    (BitVec.extractLsb' 16 10 (fS 1 0 5 0) = 0) ∧
    (Tab.look none StreamSync_w1.eng.ctrGrant (BitVec.extractLsb' 26 10 (fS 1 0 5 0)).toNat = some (StreamSync_w1.tile ↑(lone 7).tile).ctxNo) ∧
    ((BitVec.extractLsb' 36 6 (fS 1 0 5 0)).toNat = 0) ∧
    (BitVec.extractLsb' 0 16 (fS 1 0 5 0) = 0) :=
  by refine ⟨canIssue_of (by decide +kernel) (by decide +kernel), (by unfold State.guarded; decide +kernel), ?_⟩ <;> and_intros <;> decide +kernel

theorem met_StreamSync_7 :
    (StreamSync_w1.CanIssue (lone 7)) ∧
    (StreamSync_w1.guarded (lone 7)) ∧
    ((lone 7).slot = 7) ∧
    (BitVec.extractLsb' 16 10 (fS 5 1 0 0) = 0) ∧
    (BitVec.extractLsb' 0 36 (fS 5 1 0 0) = 0) ∧
    ((StreamSync_w1.tile ↑(lone 7).tile).getS (BitVec.extractLsb' 36 6 (fS 5 1 0 0)).toNat < 32) ∧
    ((StreamSync_w1.mover (↑(lone 7).tile / 256) (BitVec.extractLsb' 0 5 ((StreamSync_w1.tile ↑(lone 7).tile).getS (BitVec.extractLsb' 36 6 (fS 5 1 0 0)).toNat)).toNat).granted = true) ∧
    ((StreamSync_w1.mover (↑(lone 7).tile / 256) (BitVec.extractLsb' 0 5 ((StreamSync_w1.tile ↑(lone 7).tile).getS (BitVec.extractLsb' 36 6 (fS 5 1 0 0)).toNat)).toNat).ctx.toNat = (StreamSync_w1.tile ↑(lone 7).tile).ctxNo) ∧
    (((StreamSync_w1.mover (↑(lone 7).tile / 256) (BitVec.extractLsb' 0 5 ((StreamSync_w1.tile ↑(lone 7).tile).getS (BitVec.extractLsb' 36 6 (fS 5 1 0 0)).toNat)).toNat).queue.length + if (StreamSync_w1.mover (↑(lone 7).tile / 256) (BitVec.extractLsb' 0 5 ((StreamSync_w1.tile ↑(lone 7).tile).getS (BitVec.extractLsb' 36 6 (fS 5 1 0 0)).toNat)).toNat).run.isSome = true then 1 else 0) < 16) :=
  by refine ⟨canIssue_of (by decide +kernel) (by decide +kernel), (by unfold State.guarded; decide +kernel), ?_⟩ <;> and_intros <;> decide +kernel

end StreamSync

namespace ReleasesPerform

def XS : Tile := { tileX with s := [(1, 5), (2, 0xFFFFFFFF00000007), (3, 31), (4, 32), (5, 0x12345)], farNext := 6, sys := { tileX.sys with tctx := 0x10 } }
def far0 (n : Nat) : FarAccess := { id := n, kind := .store, dest := .none, size := 8, va := 0, pa := 64, data := 0, cmp := 0, tagged := false}
def gr : Group := { bolt := 0, phys := 0, siltKib := 512, entry := 0x8047, tvec := 0, movers := 1, counters := 2}
def dec : CadDecl := { number := 7, report := 1, period := 1000, deadline := 500, groups := 1, movers := [1,0,0,0], ctrFirst := 0, ctrCount := 2, periodVa := 0, bufs := []}
def cad7 (d : List Nat) : Cad := { en := true, ctx := 2, st := .active, period := 1, startGt := 100, done := d }
def baseS (x : Tile) (gt : W64 := 0) (d : List Nat := []) : State := { mk x with
  tiles := [(3, x), (9, { tileX with armed := some (5, 9) }), (10, { tileX with armed := some (5, 0xFFFFFFFF) }), (11, { tileX with armed := some (6, 0) })]
  clk := { gt := gt }
  eng := { ctr := [(5, 7), (9, 0xFFFFFFFF), (1023, 4)], ctrGrant := [(5, some 0), (9, some 0), (1023, some 0)], mov := [(5, { granted := true, ctx := 0, nextNum := 9, queue := [{ num := 8, released := false, va := 0, ctx := 0, tile := 3, words := none}, { num := 7, released := false, va := 0, ctx := 0, tile := 3, words := none}] }), (7, { granted := true, en := true}), (31, {granted := true})] }
  ctxs := [(2, { groups := [gr], cads := [dec], st := .running, startSlot := some 1 })], cads := [(7, cad7 d)] }
def rel (r : List Release) (f : List FarAccess) (gt : W64 := 0) (d : List Nat := []) : State := baseS { XS with releases := r, far := f } gt d

def ReleasesPerform_w1 : State := rel [{ what := ReleaseKind.barArv 5 1, before := 5 }] [far0 4]

def ReleasesPerform_w2 : Release := { what := ReleaseKind.barArv 5 1, before := 5 }

def ReleasesPerform_w3 : State := have __src := rel [{ what := ReleaseKind.cadDone, before := 0 }] []; { pending := __src.pending, top := __src.top, clk := __src.clk, tiles := __src.tiles, mem := __src.mem, mmu := __src.mmu, eng := __src.eng, gz := __src.gz, cmd := __src.cmd, ctxs := __src.ctxs, pow := __src.pow, gvn := __src.gvn, res := __src.res, rfw := __src.rfw, clm := __src.clm, pairs := __src.pairs, err := __src.err, trust := __src.trust, free := __src.free }

def ReleasesPerform_w4 : Release := { what := ReleaseKind.cadDone, before := 0 }

def ReleasesPerform_w5 : State := rel [{ what := ReleaseKind.barArv 5 65535, before := 4 }] []

def ReleasesPerform_w6 : Release := { what := ReleaseKind.barArv 5 65535, before := 4 }

def ReleasesPerform_w7 : State := rel [{ what := ReleaseKind.mvq 5 8 64, before := 0 }, { what := ReleaseKind.mvq 31 8 64, before := 0 }, { what := ReleaseKind.cadDone, before := 4 }] [far0 9]

def ReleasesPerform_w8 : Release := { what := ReleaseKind.mvq 5 8 64#64, before := 0 }

def ReleasesPerform_w9 : Release := { what := ReleaseKind.cadDone, before := 4 }

def ReleasesPerform_w10 : Cad := { en := true, ctx := 2#4, st := CadState.active, lost := 0#5, expired := 0#8, period := 1, startGt := 100#64, lastDone := 0#32, epoch := 0#32 }

def ReleasesPerform_w11 : CadDecl := { number := 7, report := 1, period := 1000, deadline := 500, groups := 1#64, movers := [1#32, 0#32, 0#32, 0#32], ctrFirst := 0, ctrCount := 2, periodVa := 0#64, bufs := [] }

def ReleasesPerform_w12 : State := rel [{ what := ReleaseKind.cadDone, before := 0 }] [] 100 [3]

def ReleasesPerform_w13 : Cad := { en := true, ctx := 2#4, st := CadState.active, lost := 0#5, expired := 0#8, period := 1, startGt := 100#64, done := [3], lastDone := 0#32, epoch := 0#32 }

theorem met_ReleasesPerform_1 :
    (ReleasesPerform_w1.Inv) ∧
    ((ReleasesPerform_w1.tile ↑3).releases[0]? = some ReleasesPerform_w2) ∧
    (∃ a, a ∈ (ReleasesPerform_w1.tile ↑3).far ∧ a.id < ReleasesPerform_w2.before) :=
  by refine ⟨inv_of (by decide +kernel), ?_⟩ <;> and_intros <;> decide +kernel

theorem met_ReleasesPerform_2 :
    (ReleasesPerform_w3.Inv) ∧
    ((ReleasesPerform_w3.tile ↑3).releases[0]? = some ReleasesPerform_w4) ∧
    (∀ (a : FarAccess), a ∈ (ReleasesPerform_w3.tile ↑3).far → ReleasesPerform_w4.before ≤ a.id) ∧
    (ReleasesPerform_w4.what = ReleaseKind.cadDone) ∧
    (List.find? (fun p => p.snd.runs && (ReleasesPerform_w3.cadTiles p.fst).contains ↑3) ReleasesPerform_w3.cads = none) :=
  by refine ⟨inv_of (by decide +kernel), ?_⟩ <;> and_intros <;> decide +kernel

theorem met_ReleasesPerform_3 :
    (ReleasesPerform_w5.Inv) ∧
    ((ReleasesPerform_w5.tile ↑3).releases[0]? = some ReleasesPerform_w6) ∧
    (∀ (a : FarAccess), a ∈ (ReleasesPerform_w5.tile ↑3).far → ReleasesPerform_w6.before ≤ a.id) ∧
    (ReleasesPerform_w6.what = ReleaseKind.barArv 5 65535) :=
  by refine ⟨inv_of (by decide +kernel), ?_⟩ <;> and_intros <;> decide +kernel

theorem met_ReleasesPerform_4 :
    (ReleasesPerform_w7.Inv) ∧
    ((ReleasesPerform_w7.tile ↑3).releases[0]? = some ReleasesPerform_w8) ∧
    (∀ (a : FarAccess), a ∈ (ReleasesPerform_w7.tile ↑3).far → ReleasesPerform_w8.before ≤ a.id) ∧
    (ReleasesPerform_w8.what = ReleaseKind.mvq 5 8 64#64) :=
  by refine ⟨inv_of (by decide +kernel), ?_⟩ <;> and_intros <;> decide +kernel

theorem met_ReleasesPerform_5 :
    (ReleasesPerform_w7.Inv) ∧
    ((ReleasesPerform_w7.tile ↑3).releases[2]? = some ReleasesPerform_w9) ∧
    (∀ (a : FarAccess), a ∈ (ReleasesPerform_w7.tile ↑3).far → ReleasesPerform_w9.before ≤ a.id) ∧
    (ReleasesPerform_w9.what = ReleaseKind.cadDone) ∧
    (List.find? (fun p => p.snd.runs && (ReleasesPerform_w7.cadTiles p.fst).contains ↑3) ReleasesPerform_w7.cads = some (7, ReleasesPerform_w10)) ∧
    (ReleasesPerform_w7.decl 7 = some ReleasesPerform_w11) :=
  by refine ⟨inv_of (by decide +kernel), ?_⟩ <;> and_intros <;> decide +kernel

theorem met_ReleasesPerform_6 :
    (ReleasesPerform_w12.Inv) ∧
    ((ReleasesPerform_w12.tile ↑3).releases[0]? = some ReleasesPerform_w4) ∧
    (∀ (a : FarAccess), a ∈ (ReleasesPerform_w12.tile ↑3).far → ReleasesPerform_w4.before ≤ a.id) ∧
    (ReleasesPerform_w4.what = ReleaseKind.cadDone) ∧
    (List.find? (fun p => p.snd.runs && (ReleasesPerform_w12.cadTiles p.fst).contains ↑3) ReleasesPerform_w12.cads = some (7, ReleasesPerform_w13)) ∧
    (ReleasesPerform_w12.decl 7 = some ReleasesPerform_w11) :=
  by refine ⟨inv_of (by decide +kernel), ?_⟩ <;> and_intros <;> decide +kernel

end ReleasesPerform

namespace TileActions

def PS : Tab W64 := [(1, 209920941022710628), (2, 5), (15, 6036682821305568233)]
def far0 (k : FarKind) (n : Nat) : FarAccess := { id := n, kind := k, dest := .scalar 4, size := 8, va := 0, pa := 64, data := 9, cmp := 0, tagged := false}
def gr : Group := { bolt := 0, phys := 0, siltKib := 512, entry := 0x8047, tvec := 0, movers := 1, counters := 2}
def XT : Tile := { tileX with p := PS, v := [(1, 77), (2, 2^200+5)], silt := [(5, 0xF1), (6, 0x82), (7,3),(8, 0xFF), (263, 0x99)], acc := [(0, 5), (1025, 7)], eng := [(1, { mopa := 5 })], far := [far0 .store 3, far0 (.load true) 4, far0 (.amo 2) 5], storeErrs := [0x77, 0x88], sys := { tileX.sys with tctx := 0x10, tvec := 0x4000, ttimer := 500 } }
def SS (x : Tile) : State := { mk x with top := {st := .running, hbmUp := 1}, clk := { gt := 500, tileCycles := 10 }, ctxs := [(0, {st := .saved}), (2, { groups := [gr], st := .loaded })], tiles := [(3, x), (9, { tileX with armed := some (5, 9) })], mmu := { ctx := [(0, 0x80000001)], tlbs := [(3, [{ asid := 1, va := 0, bits := 21, pte := BitVec.ofNat 64 (0x40000000 + 0x3F) }])] } }

def TileActions_w1 : State := SS XT

def TileActions_w2 : State := SS   (have __src := XT;   { s := __src.s, p := __src.p, v := __src.v, acc := __src.acc, pc := __src.pc, sPoison := __src.sPoison, vPoison := __src.vPoison, sys := __src.sys, eng := __src.eng, silt := __src.silt, siltBad := __src.siltBad, st := TileState.retired, stopping := __src.stopping, saving := __src.saving, restoring := __src.restoring, resetting := __src.resetting, retireDue := __src.retireDue, far := __src.far, farNext := __src.farNext, storeErrs := __src.storeErrs, releases := __src.releases, armed := __src.armed, hold := __src.hold, walkFault := __src.walkFault, fetchFault := __src.fetchFault, cuts := __src.cuts, longStop := __src.longStop, incoming := __src.incoming, haz := __src.haz, events := __src.events })

def TileActions_w3 : State := SS   (have __src := XT;   { s := __src.s, p := __src.p, v := __src.v, acc := __src.acc, pc := __src.pc, sPoison := __src.sPoison, vPoison := __src.vPoison, sys := __src.sys, eng := __src.eng, silt := __src.silt, siltBad := __src.siltBad, stopping := __src.stopping, saving := __src.saving, restoring := __src.restoring, resetting := __src.resetting, retireDue := __src.retireDue, far := __src.far, farNext := __src.farNext, storeErrs := __src.storeErrs, releases := __src.releases, armed := __src.armed, hold := __src.hold, walkFault := __src.walkFault, fetchFault := __src.fetchFault, cuts := __src.cuts, longStop := __src.longStop, incoming := __src.incoming, haz := __src.haz, events := __src.events })

def TileActions_w4 : State := SS   (have __src := XT;   { s := __src.s, p := __src.p, v := __src.v, acc := __src.acc, pc := __src.pc, sPoison := __src.sPoison, vPoison := __src.vPoison, sys := __src.sys, eng := __src.eng, silt := __src.silt, siltBad := __src.siltBad, stopping := __src.stopping, saving := __src.saving, restoring := __src.restoring, resetting := true, retireDue := __src.retireDue, far := __src.far, farNext := __src.farNext, storeErrs := __src.storeErrs, releases := __src.releases, armed := __src.armed, hold := __src.hold, walkFault := __src.walkFault, fetchFault := __src.fetchFault, cuts := __src.cuts, longStop := __src.longStop, incoming := __src.incoming, haz := __src.haz, events := __src.events })

theorem met_TileActions_1 :
    (TileActions_w1.Inv) ∧
    (TileActions_w1.pathUp Path.aelconA = true) ∧
    (pathSecure Path.aelconA = true) ∧
    ((TileActions_w1.tile ↑3).st = TileState.running) ∧
    ((TileActions_w1.tile ↑3).stopping = false) ∧
    ((TileActions_w1.tile ↑3).resetting = false ∧ (TileActions_w1.tile ↑3).restoring = false) ∧
    ((TileActions_w1.tile ↑3).st ≠ TileState.stopped) ∧
    ((TileActions_w1.tile ↑3).st ≠ TileState.retired) ∧
    ((TileActions_w1.tile ↑3).saving = false) :=
  by refine ⟨inv_of (by decide +kernel), ?_⟩ <;> and_intros <;> decide +kernel

theorem met_TileActions_2 :
    (TileActions_w2.Inv) ∧
    (TileActions_w2.pathUp Path.aelconA = true) ∧
    (pathSecure Path.aelconA = true) ∧
    ((TileActions_w2.tile ↑3).st = TileState.retired) :=
  by refine ⟨inv_of (by decide +kernel), ?_⟩ <;> and_intros <;> decide +kernel

theorem met_TileActions_3 :
    (TileActions_w3.Inv) ∧
    (TileActions_w3.pathUp Path.aelconA = true) ∧
    (pathSecure Path.aelconA = true) ∧
    ((TileActions_w3.tile ↑3).st = TileState.reset) ∧
    ((TileActions_w3.tile ↑3).resetting = false ∧ (TileActions_w3.tile ↑3).restoring = false) ∧
    (TileActions_w3.entryOf ↑3 = some 32839#64) ∧
    ((TileActions_w3.tile ↑3).st = TileState.reset ∨ (TileActions_w3.tile ↑3).st = TileState.stopped) :=
  by refine ⟨inv_of (by decide +kernel), ?_⟩ <;> and_intros <;> decide +kernel

theorem met_TileActions_4 :
    (TileActions_w4.Inv) ∧
    (TileActions_w4.pathUp Path.aelconA = true) ∧
    ((TileActions_w4.tile ↑3).resetting = true) ∧
    (TileActions_w4.Calm ↑3) :=
  by refine ⟨inv_of (by decide +kernel), ?_, ?_, calm_of (by decide +kernel)⟩ <;> decide +kernel

end TileActions

namespace TrapsAtBoundaries

def PS : Tab W64 := [(1, 209920941022710628), (2, 5), (15, 6036682821305568233)]
def far0 (k : FarKind) (n : Nat) : FarAccess := { id := n, kind := k, dest := .scalar 4, size := 8, va := 0, pa := 64, data := 9, cmp := 0, tagged := false}
def gr : Group := { bolt := 0, phys := 0, siltKib := 512, entry := 0x8047, tvec := 0, movers := 1, counters := 2}
def XT : Tile := { tileX with p := PS, v := [(1, 77), (2, 2^200+5)], silt := [(5, 0xF1), (6, 0x82), (7,3),(8, 0xFF), (263, 0x99)], acc := [(0, 5), (1025, 7)], eng := [(1, { mopa := 5 })], far := [far0 .store 3, far0 (.load true) 4, far0 (.amo 2) 5], storeErrs := [0x77, 0x88], sys := { tileX.sys with tctx := 0x10, tvec := 0x4000, ttimer := 500 } }
def SS (x : Tile) : State := { mk x with top := {st := .running, hbmUp := 1}, clk := { gt := 500, tileCycles := 10 }, ctxs := [(0, {st := .saved}), (2, { groups := [gr], st := .loaded })], tiles := [(3, x), (9, { tileX with armed := some (5, 9) })], mmu := { ctx := [(0, 0x80000001)], tlbs := [(3, [{ asid := 1, va := 0, bits := 21, pte := BitVec.ofNat 64 (0x40000000 + 0x3F) }])] } }
def ef : Tile := { XT with sys := { XT.sys with tstatus := 0x600000080 }, eng := [(1, { faultVa := 0x123, faultSub := 0x13, mcur := 0xC000000000000000 })] }

def TrapsAtBoundaries_w1 : State := SS ef

def TrapsAtBoundaries_w2 : State := SS   (have __src := XT;   { s := __src.s, p := __src.p, v := __src.v, acc := __src.acc, pc := __src.pc, sPoison := __src.sPoison, vPoison := __src.vPoison,     sys :=       have __src := XT.sys;       { tstatus := __src.tstatus, tcause := __src.tcause, tepc := __src.tepc, tval := __src.tval, tvec := __src.tvec, tscratch := __src.tscratch, tie := __src.tie, tip := __src.tip, vl := __src.vl, tfflags := __src.tfflags, mseed := __src.mseed, cycleZero := __src.cycleZero, ttimer := 501, tctx := __src.tctx, vcur := __src.vcur, vsyl := __src.vsyl, vopa := __src.vopa, vopb := __src.vopb },     eng := __src.eng, silt := __src.silt, siltBad := __src.siltBad, st := __src.st, stopping := __src.stopping, saving := __src.saving, restoring := __src.restoring, resetting := __src.resetting, retireDue := __src.retireDue, far := __src.far, farNext := __src.farNext, storeErrs := __src.storeErrs, releases := __src.releases, armed := __src.armed, hold := Hold.wfi, walkFault := __src.walkFault, fetchFault := __src.fetchFault, cuts := __src.cuts, longStop := __src.longStop, incoming := __src.incoming, haz := __src.haz, events := __src.events })

def TrapsAtBoundaries_w3 : State := SS   (have __src := XT;   { s := __src.s, p := __src.p, v := __src.v, acc := __src.acc, pc := __src.pc, sPoison := __src.sPoison, vPoison := __src.vPoison,     sys :=       have __src := XT.sys;       { tstatus := 128, tcause := __src.tcause, tepc := __src.tepc, tval := __src.tval, tvec := __src.tvec, tscratch := __src.tscratch, tie := 1, tip := 14, vl := __src.vl, tfflags := __src.tfflags, mseed := __src.mseed, cycleZero := __src.cycleZero, ttimer := __src.ttimer, tctx := __src.tctx, vcur := __src.vcur, vsyl := __src.vsyl, vopa := __src.vopa, vopb := __src.vopb },     eng := __src.eng, silt := __src.silt, siltBad := __src.siltBad, st := __src.st, stopping := __src.stopping, saving := __src.saving, restoring := __src.restoring, resetting := __src.resetting, retireDue := __src.retireDue, far := __src.far, farNext := __src.farNext, storeErrs := __src.storeErrs, releases := __src.releases, armed := __src.armed, hold := __src.hold, walkFault := __src.walkFault, fetchFault := __src.fetchFault, cuts := __src.cuts, longStop := __src.longStop, incoming := __src.incoming, haz := __src.haz, events := __src.events })

def TrapsAtBoundaries_w4 : State := SS   (have __src := XT;   { s := __src.s, p := __src.p, v := __src.v, acc := __src.acc, pc := __src.pc, sPoison := __src.sPoison, vPoison := __src.vPoison,     sys :=       have __src := XT.sys;       { tstatus := 129, tcause := __src.tcause, tepc := __src.tepc, tval := __src.tval, tvec := __src.tvec, tscratch := __src.tscratch, tie := 1, tip := 14, vl := __src.vl, tfflags := __src.tfflags, mseed := __src.mseed, cycleZero := __src.cycleZero, ttimer := __src.ttimer, tctx := __src.tctx, vcur := __src.vcur, vsyl := __src.vsyl, vopa := __src.vopa, vopb := __src.vopb },     eng := __src.eng, silt := __src.silt, siltBad := __src.siltBad, st := __src.st, stopping := __src.stopping, saving := __src.saving, restoring := __src.restoring, resetting := __src.resetting, retireDue := __src.retireDue, far := __src.far, farNext := __src.farNext, storeErrs := __src.storeErrs, releases := __src.releases, armed := __src.armed, hold := Hold.wfi, walkFault := __src.walkFault, fetchFault := __src.fetchFault, cuts := __src.cuts, longStop := __src.longStop, incoming := __src.incoming, haz := __src.haz, events := __src.events })

def TrapsAtBoundaries_w5 : State := SS   (have __src := XT;   { s := __src.s, p := __src.p, v := __src.v, acc := __src.acc, pc := __src.pc, sPoison := __src.sPoison, vPoison := __src.vPoison, sys := __src.sys, eng := __src.eng, silt := __src.silt, siltBad := __src.siltBad, st := __src.st, stopping := __src.stopping, saving := __src.saving, restoring := __src.restoring, resetting := __src.resetting, retireDue := __src.retireDue, far := __src.far, farNext := __src.farNext, storeErrs := __src.storeErrs, releases := __src.releases, armed := __src.armed, hold := __src.hold, walkFault := __src.walkFault, fetchFault := some 4096, cuts := __src.cuts, longStop := __src.longStop, incoming := __src.incoming, haz := __src.haz, events := __src.events })

def TrapsAtBoundaries_w6 : State := SS   (have __src := XT;   { s := __src.s, p := __src.p, v := __src.v, acc := __src.acc, pc := 16384, sPoison := __src.sPoison, vPoison := __src.vPoison, sys := __src.sys, eng := __src.eng, silt := __src.silt, siltBad := __src.siltBad, st := __src.st, stopping := __src.stopping, saving := __src.saving, restoring := __src.restoring, resetting := __src.resetting, retireDue := __src.retireDue, far := __src.far, farNext := __src.farNext, storeErrs := __src.storeErrs, releases := __src.releases, armed := __src.armed, hold := __src.hold, walkFault := __src.walkFault, fetchFault := some 4096, cuts := __src.cuts, longStop := __src.longStop, incoming := __src.incoming, haz := __src.haz, events := __src.events })

theorem met_TrapsAtBoundaries_1 :
    (TrapsAtBoundaries_w1.Inv) ∧
    ((TrapsAtBoundaries_w1.tile ↑3).issues = true) ∧
    (TrapsAtBoundaries_w1.top.st ≠ ModState.faulted) ∧
    ((TrapsAtBoundaries_w1.tile ↑3).haz.tvecOpen = false) ∧
    ((TrapsAtBoundaries_w1.tile ↑3).longStop = false) ∧
    (1 < 4) ∧
    (BitVec.getLsbD (TrapsAtBoundaries_w1.tile ↑3).sys.tstatus (32 + 1) = true) ∧
    (∀ (d : Nat), d < 1 → BitVec.getLsbD (TrapsAtBoundaries_w1.tile ↑3).sys.tstatus (32 + d) = false) :=
  by refine ⟨inv_of (by decide +kernel), ?_⟩ <;> and_intros <;> decide +kernel

theorem met_TrapsAtBoundaries_2 :
    (TrapsAtBoundaries_w2.Inv) ∧
    ((TrapsAtBoundaries_w2.tile ↑3).issues = true) ∧
    (TrapsAtBoundaries_w2.top.st ≠ ModState.faulted) ∧
    ((TrapsAtBoundaries_w2.tile ↑3).haz.tvecOpen = false) ∧
    ((TrapsAtBoundaries_w2.tile ↑3).longStop = false) ∧
    (TrapsAtBoundaries_w2.clk.gt < (TrapsAtBoundaries_w2.tile ↑3).sys.ttimer) :=
  by refine ⟨inv_of (by decide +kernel), ?_⟩ <;> and_intros <;> decide +kernel

theorem met_TrapsAtBoundaries_3 :
    (TrapsAtBoundaries_w3.Inv) ∧
    ((TrapsAtBoundaries_w3.tile ↑3).issues = true) ∧
    (TrapsAtBoundaries_w3.top.st ≠ ModState.faulted) ∧
    ((TrapsAtBoundaries_w3.tile ↑3).haz.tvecOpen = false) ∧
    ((TrapsAtBoundaries_w3.tile ↑3).longStop = false) ∧
    (∀ (e : Nat), e < 4 → BitVec.getLsbD (TrapsAtBoundaries_w3.tile ↑3).sys.tstatus (32 + e) = false) ∧
    (Fetch.none = Fetch.none) ∧
    (BitVec.getLsbD (TrapsAtBoundaries_w3.tile ↑3).sys.tstatus 7 = true) ∧
    ((TrapsAtBoundaries_w3.tile ↑3).fetchFault = none) ∧
    (∃ pa, TrapsAtBoundaries_w3.translate (Requester.fetch ↑3) (TrapsAtBoundaries_w3.tile ↑3).ctxNo (TrapsAtBoundaries_w3.tile ↑3).asid (BitVec.toNat (TrapsAtBoundaries_w3.tile ↑3).pc) Access.fetch (TrapsAtBoundaries_w3.tile ↑3).supervisor = Xlat.hit pa) ∧
    (if BitVec.getLsbD (tipNow TrapsAtBoundaries_w3.clk.gt (TrapsAtBoundaries_w3.tile ↑3) &&& (TrapsAtBoundaries_w3.tile ↑3).sys.tie) 4 = true then 1 = 5 ∧ 0#64 = (TrapsAtBoundaries_w3.tile ↑3).storeErrs.headD 0 else 0#64 = 0 ∧ if BitVec.getLsbD (tipNow TrapsAtBoundaries_w3.clk.gt (TrapsAtBoundaries_w3.tile ↑3) &&& (TrapsAtBoundaries_w3.tile ↑3).sys.tie) 0 = true then 1 = 1 else if BitVec.getLsbD (tipNow TrapsAtBoundaries_w3.clk.gt (TrapsAtBoundaries_w3.tile ↑3) &&& (TrapsAtBoundaries_w3.tile ↑3).sys.tie) 1 = true then 1 = 2 else if BitVec.getLsbD (tipNow TrapsAtBoundaries_w3.clk.gt (TrapsAtBoundaries_w3.tile ↑3) &&& (TrapsAtBoundaries_w3.tile ↑3).sys.tie) 3 = true then 1 = 4 else BitVec.getLsbD (tipNow TrapsAtBoundaries_w3.clk.gt (TrapsAtBoundaries_w3.tile ↑3) &&& (TrapsAtBoundaries_w3.tile ↑3).sys.tie) 2 = true ∧ 1 = 3) :=
  by refine ⟨inv_of (by decide +kernel), ?_, ?_, ?_, ?_, ?_, ?_, ?_, ?_, ⟨_, rfl⟩, ?_⟩ <;> decide +kernel

theorem met_TrapsAtBoundaries_4 :
    (TrapsAtBoundaries_w4.Inv) ∧
    ((TrapsAtBoundaries_w4.tile ↑3).issues = true) ∧
    (TrapsAtBoundaries_w4.top.st ≠ ModState.faulted) ∧
    ((TrapsAtBoundaries_w4.tile ↑3).haz.tvecOpen = false) ∧
    ((TrapsAtBoundaries_w4.tile ↑3).longStop = false) ∧
    ((TrapsAtBoundaries_w4.tile ↑3).sys.ttimer ≤ TrapsAtBoundaries_w4.clk.gt) ∧
    ((TrapsAtBoundaries_w4.tile ↑3).hold = Hold.wfi) ∧
    (BitVec.getLsbD (TrapsAtBoundaries_w4.tile ↑3).sys.tie 0 = true) :=
  by refine ⟨inv_of (by decide +kernel), ?_⟩ <;> and_intros <;> decide +kernel

theorem met_TrapsAtBoundaries_5 :
    (TrapsAtBoundaries_w5.Inv) ∧
    ((TrapsAtBoundaries_w5.tile ↑3).issues = true) ∧
    (TrapsAtBoundaries_w5.top.st ≠ ModState.faulted) ∧
    ((TrapsAtBoundaries_w5.tile ↑3).haz.tvecOpen = false) ∧
    ((TrapsAtBoundaries_w5.tile ↑3).longStop = false) ∧
    (∀ (e : Nat), e < 4 → BitVec.getLsbD (TrapsAtBoundaries_w5.tile ↑3).sys.tstatus (32 + e) = false) ∧
    (Fetch.none = Fetch.none) ∧
    ((TrapsAtBoundaries_w5.tile ↑3).hold = Hold.none) ∧
    ((TrapsAtBoundaries_w5.tile ↑3).fetchFault ≠ none) ∧
    ((TrapsAtBoundaries_w5.tile ↑3).pc ≠ (TrapsAtBoundaries_w5.tile ↑3).sys.tvec) ∧
    ((TrapsAtBoundaries_w5.tile ↑3).pc ≠ (TrapsAtBoundaries_w5.tile ↑3).sys.tvec + 512) :=
  by refine ⟨inv_of (by decide +kernel), ?_⟩ <;> and_intros <;> decide +kernel

theorem met_TrapsAtBoundaries_6 :
    (TrapsAtBoundaries_w6.Inv) ∧
    ((TrapsAtBoundaries_w6.tile ↑3).issues = true) ∧
    (TrapsAtBoundaries_w6.top.st ≠ ModState.faulted) ∧
    ((TrapsAtBoundaries_w6.tile ↑3).haz.tvecOpen = false) ∧
    ((TrapsAtBoundaries_w6.tile ↑3).longStop = false) ∧
    (∀ (e : Nat), e < 4 → BitVec.getLsbD (TrapsAtBoundaries_w6.tile ↑3).sys.tstatus (32 + e) = false) ∧
    (Fetch.none = Fetch.none) ∧
    ((TrapsAtBoundaries_w6.tile ↑3).hold = Hold.none) ∧
    ((TrapsAtBoundaries_w6.tile ↑3).fetchFault ≠ none) ∧
    ((TrapsAtBoundaries_w6.tile ↑3).pc = (TrapsAtBoundaries_w6.tile ↑3).sys.tvec ∨ (TrapsAtBoundaries_w6.tile ↑3).pc = (TrapsAtBoundaries_w6.tile ↑3).sys.tvec + 512) ∧
    (TrapsAtBoundaries_w6.Calm ↑3) :=
  by refine ⟨inv_of (by decide +kernel), ?_, ?_, ?_, ?_, ?_, ?_, ?_, ?_, ?_, calm_of (by decide +kernel)⟩ <;> decide +kernel

end TrapsAtBoundaries

namespace WalksTranslate

def va0 : Nat := 0x0081_4365_8799_ABCD
def tbl (k : Nat) : Nat := 0x10000 + 0x1000 * k
def idx (k : Nat) : Nat := if k = 4 then va0 / 65536 % 32 else va0 / 2 ^ (48 - 9 * k) % 512
def ent (L : Nat) (leaf : W64) (k : Nat) : W64 := if k < L then BitVec.ofNat 64 (tbl (k + 1) + 1) else leaf
def physW (L : Nat) (leaf : W64) : Tab Byte := (List.range (L + 1)).foldl (fun m k => Tab.writeN 0 m (tbl k + idx k * 8) (toLe 8 (ent L leaf k).toNat)) []
def wk (who : Requester) (acc : Access) (va : Nat := va0) (c : Nat := 2) (sup : Bool := false) : Walk := { who := who, ctx := c, va := BitVec.ofNat 64 va, acc := acc, sup := sup }
def SW (L : Nat) (leaf : W64) (w : Walk) : State := { mk { tileX with pc := BitVec.ofNat 64 va0, sys := { tileX.sys with tctx := 0x52 } } with
  top := { st := .running, hbmUp := 1 }
  mem := { phys := physW L leaf }
  mmu := { ctx := [(2, 0x80000005)], root := [(2, 0x10)], walks := [(0, [wk (.mover 0 9) .moverSrc 5, w])] }
  eng := { mov := [(9, { st := .running, ctx := 2 }), (34, { st := .running, ctx := 2 })] } }
def lf (r : Nat) : W64 := BitVec.ofNat 64 (0x40000000 + r)

def WalksTranslate_w1 : State := SW 2 (lf 63) (wk (Requester.slot3 3, Access.load, false).fst (Requester.slot3 3, Access.load, false).snd.fst va0 2 (Requester.slot3 3, Access.load, false).snd.snd)

def WalksTranslate_w2 : Walk := { who := Requester.slot3 3, ctx := 2, va := 36384375341427661#64, acc := Access.load, sup := false }

theorem met_WalksTranslate_1 :
    (WalksTranslate_w1.Inv) ∧
    ((Tab.look [] WalksTranslate_w1.mmu.walks ↑0)[1]? = some WalksTranslate_w2) ∧
    (BitVec.toNat WalksTranslate_w2.va < 2 ^ 57) ∧
    (WalksTranslate_w1.ctxValid WalksTranslate_w2.ctx = true) ∧
    (WalksTranslate_w1.cachedPointer (↑0) (WalksTranslate_w1.ctxAsid WalksTranslate_w2.ctx) (BitVec.toNat WalksTranslate_w2.va) = none) ∧
    (2 ≤ 2) ∧
    (2 ≤ 4) ∧
    (tbl 0 = WalksTranslate_w1.rootOf (↑0) WalksTranslate_w2.ctx) ∧
    (∀ (k : Nat), k ≤ 2 → WalksTranslate_w1.readEntry (tbl k + (if k = 4 then BitVec.toNat WalksTranslate_w2.va / 65536 % 32 else BitVec.toNat WalksTranslate_w2.va / 2 ^ (48 - 9 * k) % 512) * 8) = Except.ok (ent 2 (lf 63) k)) ∧
    (∀ (k : Nat), k < 2 → BitVec.getLsbD (ent 2 (lf 63) k) 0 = true ∧ BitVec.getLsbD (ent 2 (lf 63) k) 1 = false ∧ (k < 3 → BitVec.extractLsb' 8 4 (ent 2 (lf 63) k) = 0) ∧ tbl (k + 1) = (BitVec.extractLsb' 8 40 (ent 2 (lf 63) k)).toNat * 256) ∧
    (BitVec.extractLsb' 0 2 (ent 2 (lf 63) 2) = 3) ∧
    (((BitVec.extractLsb' 8 40 (ent 2 (lf 63) 2)).toNat * 256 % 2 ^ if 2 = 2 then 30 else if 2 = 3 then 21 else 16) = 0) ∧
    (BitVec.getLsbD (ent 2 (lf 63) 2) 3 = true → BitVec.getLsbD (ent 2 (lf 63) 2) 2 = true) ∧
    (WalksTranslate_w1.leafCheck WalksTranslate_w2.ctx (ent 2 (lf 63) 2) WalksTranslate_w2.acc WalksTranslate_w2.sup = none) :=
  by refine ⟨inv_of (by decide +kernel), ?_, ?_, ?_, ?_, ?_, ?_, ?_,
   (by intro k hk; match k, hk with | 0, _ => exact ok_of (by decide +kernel) | 1, _ => exact ok_of (by decide +kernel) | 2, _ => exact ok_of (by decide +kernel)),
   ?_⟩ <;> and_intros <;> decide +kernel

end WalksTranslate

namespace WalksFault

def va0 : Nat := 0x0081_4365_8799_ABCD
def tbl (k : Nat) : Nat := 0x10000 + 0x1000 * k
def idx (k : Nat) : Nat := if k = 4 then va0 / 65536 % 32 else va0 / 2 ^ (48 - 9 * k) % 512
def ent (L : Nat) (leaf : W64) (k : Nat) : W64 := if k < L then BitVec.ofNat 64 (tbl (k + 1) + 1) else leaf
def physW (L : Nat) (leaf : W64) : Tab Byte := (List.range (L + 1)).foldl (fun m k => Tab.writeN 0 m (tbl k + idx k * 8) (toLe 8 (ent L leaf k).toNat)) []
def wk (who : Requester) (acc : Access) (va : Nat := va0) (c : Nat := 2) (sup : Bool := false) : Walk := { who := who, ctx := c, va := BitVec.ofNat 64 va, acc := acc, sup := sup }
def SW (L : Nat) (leaf : W64) (w : Walk) : State := { mk { tileX with pc := BitVec.ofNat 64 va0, sys := { tileX.sys with tctx := 0x52 } } with
  top := { st := .running, hbmUp := 1 }
  mem := { phys := physW L leaf }
  mmu := { ctx := [(2, 0x80000005)], root := [(2, 0x10)], walks := [(0, [wk (.mover 0 9) .moverSrc 5, w])] }
  eng := { mov := [(9, { st := .running, ctx := 2 }), (34, { st := .running, ctx := 2 })] } }
def lf (r : Nat) : W64 := BitVec.ofNat 64 (0x40000000 + r)

def WalksFault_w1 : State := SW 4 (lf 63) (wk (Requester.slot3 3, Access.load, false).fst (Requester.slot3 3, Access.load, false).snd.fst (2 ^ 57) 2 (Requester.slot3 3, Access.load, false).snd.snd)

def WalksFault_w2 : Walk := { who := Requester.slot3 3, ctx := 2, va := 144115188075855872#64, acc := Access.load, sup := false }

def WalksFault_w3 : WalkFault := { kind := 0#4, level := 0, malformed := false, entry := 0#64, paddr := 65536 }

def WalksFault_w4 : State := SW 2 (lf 35) (wk (Requester.slot3 3, Access.load, false).fst (Requester.slot3 3, Access.load, false).snd.fst va0 2 (Requester.slot3 3, Access.load, false).snd.snd)

def WalksFault_w5 : Walk := { who := Requester.mover 0 9, ctx := 2, va := 5#64, acc := Access.moverSrc, sup := false }

def WalksFault_w6 : State := SW 2 (lf 61) (wk (Requester.slot3 3, Access.load, false).fst (Requester.slot3 3, Access.load, false).snd.fst va0 2 (Requester.slot3 3, Access.load, false).snd.snd)

def WalksFault_w7 : Walk := { who := Requester.slot3 3, ctx := 2, va := 36384375341427661#64, acc := Access.load, sup := false }

def WalksFault_w8 : WalkFault := { kind := 0#4, level := 3, malformed := false, entry := 0#64, paddr := 1073742304 }

def WalksFault_w9 : State := SW 2 (lf 61) (wk (Requester.fetch 3, Access.fetch, false).fst (Requester.fetch 3, Access.fetch, false).snd.fst va0 2 (Requester.fetch 3, Access.fetch, false).snd.snd)

def WalksFault_w10 : Walk := { who := Requester.fetch 3, ctx := 2, va := 36384375341427661#64, acc := Access.fetch, sup := false }

theorem met_WalksFault_1 :
    (WalksFault_w1.Inv) ∧
    ((Tab.look [] WalksFault_w1.mmu.walks ↑0)[1]? = some WalksFault_w2) ∧
    (WalksFault_w3.kind ≠ 3) ∧
    (2 ^ 57 ≤ BitVec.toNat WalksFault_w2.va ∨ WalksFault_w1.ctxValid WalksFault_w2.ctx = false) :=
  by refine ⟨inv_of (by decide +kernel), ?_⟩ <;> and_intros <;> decide +kernel

theorem met_WalksFault_2 :
    (WalksFault_w4.Inv) ∧
    ((Tab.look [] WalksFault_w4.mmu.walks ↑0)[0]? = some WalksFault_w5) ∧
    (WalksFault_w3.kind ≠ 3) ∧
    (windowBase ≤ ptePa 140737488355391#64 ∧ WalksFault_w4.ctxWindow WalksFault_w5.ctx = false) :=
  by refine ⟨inv_of (by decide +kernel), ?_⟩ <;> and_intros <;> decide +kernel

theorem met_WalksFault_3 :
    (WalksFault_w4.Inv) ∧
    ((Tab.look [] WalksFault_w4.mmu.walks ↑0)[0]? = some WalksFault_w5) ∧
    (WalksFault_w3.kind ≠ 3) ∧
    (¬(windowBase ≤ ptePa (lf 35) ∧ WalksFault_w4.ctxWindow WalksFault_w5.ctx = false)) ∧
    (rightOk (lf 35) WalksFault_w5.acc = false) :=
  by refine ⟨inv_of (by decide +kernel), ?_⟩ <;> and_intros <;> decide +kernel

theorem met_WalksFault_4 :
    (WalksFault_w4.Inv) ∧
    ((Tab.look [] WalksFault_w4.mmu.walks ↑0)[0]? = some WalksFault_w5) ∧
    (WalksFault_w3.kind ≠ 3) ∧
    ((WalksFault_w4.walk (↑0) WalksFault_w5.ctx (BitVec.toNat WalksFault_w5.va)).fst = Except.error WalksFault_w3 ∨ ∃ leaf level a k, (WalksFault_w4.walk (↑0) WalksFault_w5.ctx (BitVec.toNat WalksFault_w5.va)).fst = Except.ok (leaf, level, a) ∧ WalksFault_w4.leafCheck WalksFault_w5.ctx leaf WalksFault_w5.acc WalksFault_w5.sup = some k ∧ WalksFault_w3 = { kind := k, level := level, malformed := false, entry := leaf, paddr := a }) ∧
    (WalksFault_w5.who = Requester.mover 0 9) ∧
    ((WalksFault_w4.mover 0 9).st = MovState.running) :=
  by refine ⟨inv_of (by decide +kernel), ?_, ?_, (by first | exact .inl rfl | exact .inr ⟨_, _, _, _, rfl, rfl, rfl⟩), ?_⟩ <;> and_intros <;> decide +kernel

theorem met_WalksFault_5 :
    (WalksFault_w6.Inv) ∧
    ((Tab.look [] WalksFault_w6.mmu.walks ↑0)[1]? = some WalksFault_w7) ∧
    (WalksFault_w8.kind ≠ 3) ∧
    ((WalksFault_w6.walk (↑0) WalksFault_w7.ctx (BitVec.toNat WalksFault_w7.va)).fst = Except.error WalksFault_w8 ∨ ∃ leaf level a k, (WalksFault_w6.walk (↑0) WalksFault_w7.ctx (BitVec.toNat WalksFault_w7.va)).fst = Except.ok (leaf, level, a) ∧ WalksFault_w6.leafCheck WalksFault_w7.ctx leaf WalksFault_w7.acc WalksFault_w7.sup = some k ∧ WalksFault_w8 = { kind := k, level := level, malformed := false, entry := leaf, paddr := a }) ∧
    (WalksFault_w7.who = Requester.slot3 3) :=
  by refine ⟨inv_of (by decide +kernel), ?_, ?_, (by first | exact .inl rfl | exact .inr ⟨_, _, _, _, rfl, rfl, rfl⟩), ?_⟩ <;> decide +kernel

theorem met_WalksFault_6 :
    (WalksFault_w9.Inv) ∧
    ((Tab.look [] WalksFault_w9.mmu.walks ↑0)[1]? = some WalksFault_w10) ∧
    (WalksFault_w8.kind ≠ 3) ∧
    ((WalksFault_w9.walk (↑0) WalksFault_w10.ctx (BitVec.toNat WalksFault_w10.va)).fst = Except.error WalksFault_w8 ∨ ∃ leaf level a k, (WalksFault_w9.walk (↑0) WalksFault_w10.ctx (BitVec.toNat WalksFault_w10.va)).fst = Except.ok (leaf, level, a) ∧ WalksFault_w9.leafCheck WalksFault_w10.ctx leaf WalksFault_w10.acc WalksFault_w10.sup = some k ∧ WalksFault_w8 = { kind := k, level := level, malformed := false, entry := leaf, paddr := a }) ∧
    (WalksFault_w10.who = Requester.fetch 3) ∧
    ((WalksFault_w9.tile 3).pc = WalksFault_w10.va) :=
  by refine ⟨inv_of (by decide +kernel), ?_, ?_, (by first | exact .inl rfl | exact .inr ⟨_, _, _, _, rfl, rfl, rfl⟩), ?_⟩ <;> and_intros <;> decide +kernel

end WalksFault

namespace FaultQueues

def fr (who : Requester) (kd : BitVec 4 := 1) (acc : Access := .load) (ctx : Nat := 2) : FaultRecord := { who := who, ctx := ctx, acc := acc, va := 0x12345678, kind := kd, level := 4, malformed := false, entry := 0xABCD, paddr := 0x40000000, peer := 0, gtLow := 0, seq := 5 }
def base : State := { mk { tileX with sys := { tileX.sys with tctx := 0x52 } } with
  top := { st := .running, hbmUp := 1, reserveAt := [some 0, none, none, none] }, clk := { gt := 0x123456789A }, cmd := { link := .up }, eng := { mov := [(7, { en := true, st := .paused })] } }
def FQ (held posted : List FaultRecord) (put : BitVec 11) : State := { base with mmu := { held := [(0, held)], posted := if posted = [] then [] else [(0, posted)], fqPut := if put = 0 then [] else [(0, put)], fqGet := [(0, 3)], fqSeq := [(0, 255)] } }
def EQ (e : Engine) : State := { FQ [fr (.engine 3 0)] [] 7 with tiles := [(3, { tileX with eng := [(0, e)] })] }

def FaultQueues_w1 : State := FQ [fr (Requester.slot3 3), fr (Requester.fetch 3), fr (Requester.fetch 5) 3, fr (Requester.mover 0 7)] [] 2047

def FaultQueues_w2 : FaultRecord := { who := Requester.fetch 3, ctx := 2, acc := Access.load, va := 305419896#64, kind := 1#4, level := 4#3, malformed := false, entry := 43981#64, paddr := 1073741824#48, peer := 0#8, gtLow := 0#32, seq := 5#8 }

def FaultQueues_w3 : State := EQ { mcur := 4611686018427387904 }

def FaultQueues_w4 : FaultRecord := { who := Requester.engine 3 0, ctx := 2, acc := Access.load, va := 305419896#64, kind := 1#4, level := 4#3, malformed := false, entry := 43981#64, paddr := 1073741824#48, peer := 0#8, gtLow := 0#32, seq := 5#8 }

def FaultQueues_w5 : State := EQ { ahead := some (5, 1, 1) }

def FaultQueues_w6 : FaultRecord := { who := Requester.mover 0 7, ctx := 2, acc := Access.load, va := 305419896#64, kind := 1#4, level := 4#3, malformed := false, entry := 43981#64, paddr := 1073741824#48, peer := 0#8, gtLow := 0#32, seq := 5#8 }

theorem met_FaultQueues_1 :
    (FaultQueues_w1.Inv) ∧
    ((Tab.look [] FaultQueues_w1.mmu.held ↑0)[1]? = some FaultQueues_w2) ∧
    (FaultQueues_w1.reserve ↑0 = some 75161927680) ∧
    (∀ (t e : Nat), FaultQueues_w2.who = Requester.engine t e → BitVec.getLsbD ((FaultQueues_w1.tile t).engine e).mcur 62 = true) ∧
    (∃ q, q ∈ Tab.look [] FaultQueues_w1.mmu.posted ↑0 ++ List.take 1 (Tab.look [] FaultQueues_w1.mmu.held ↑0) ∧ q.who.unit = FaultQueues_w2.who.unit) :=
  by refine ⟨inv_of (by decide +kernel), ?_, ?_, (by intro t e h; unfold FaultQueues_w2 at h; first | (cases h; decide +kernel) | cases h), ?_⟩ <;> decide +kernel

theorem met_FaultQueues_2 :
    (FaultQueues_w3.Inv) ∧
    ((Tab.look [] FaultQueues_w3.mmu.held ↑0)[0]? = some FaultQueues_w4) ∧
    (FaultQueues_w3.reserve ↑0 = some 75161927680) ∧
    (∀ (t e : Nat), FaultQueues_w4.who = Requester.engine t e → BitVec.getLsbD ((FaultQueues_w3.tile t).engine e).mcur 62 = true) ∧
    (∀ (q : FaultRecord), q ∈ Tab.look [] FaultQueues_w3.mmu.posted ↑0 ++ List.take 0 (Tab.look [] FaultQueues_w3.mmu.held ↑0) → q.who.unit ≠ FaultQueues_w4.who.unit) ∧
    (FaultQueues_w3.here 75161927680) ∧
    (FaultQueues_w3.pathUp Path.aelconA = true) ∧
    (pathSecure Path.aelconA = true) :=
  by refine ⟨inv_of (by decide +kernel), ?_, ?_, (by intro t e h; unfold FaultQueues_w4 at h; first | (cases h; decide +kernel) | cases h), ?_,
   here_of (by decide +kernel), ?_⟩ <;> and_intros <;> decide +kernel

theorem met_FaultQueues_3 :
    (FaultQueues_w3.Inv) ∧
    ((Tab.look [] FaultQueues_w3.mmu.held ↑0)[0]? = some FaultQueues_w4) ∧
    (FaultQueues_w3.reserve ↑0 = some 75161927680) ∧
    (FaultQueues_w3.pathUp Path.bursen = true) ∧
    (pathSecure Path.bursen = false) :=
  by refine ⟨inv_of (by decide +kernel), ?_⟩ <;> and_intros <;> decide +kernel

theorem met_FaultQueues_4 :
    (FaultQueues_w5.Inv) ∧
    ((Tab.look [] FaultQueues_w5.mmu.held ↑0)[0]? = some FaultQueues_w4) ∧
    (FaultQueues_w5.reserve ↑0 = some 75161927680) ∧
    (FaultQueues_w4.who = Requester.engine 3 0) ∧
    (BitVec.getLsbD ((FaultQueues_w5.tile 3).engine 0).mcur 62 = false) ∧
    (((FaultQueues_w5.tile 3).engine 0).ahead.isSome = true) :=
  by refine ⟨inv_of (by decide +kernel), ?_⟩ <;> and_intros <;> decide +kernel

theorem met_FaultQueues_5 :
    (FaultQueues_w1.Inv) ∧
    ((Tab.look [] FaultQueues_w1.mmu.held ↑0)[3]? = some FaultQueues_w6) ∧
    (FaultQueues_w1.reserve ↑0 = some 75161927680) ∧
    (∀ (t e : Nat), FaultQueues_w6.who = Requester.engine t e → BitVec.getLsbD ((FaultQueues_w1.tile t).engine e).mcur 62 = true) ∧
    (∀ (q : FaultRecord), q ∈ Tab.look [] FaultQueues_w1.mmu.posted ↑0 ++ List.take 3 (Tab.look [] FaultQueues_w1.mmu.held ↑0) → q.who.unit ≠ FaultQueues_w6.who.unit) ∧
    (FaultQueues_w1.here 75161927680) :=
  by refine ⟨inv_of (by decide +kernel), ?_, ?_, (by intro t e h; unfold FaultQueues_w6 at h; first | (cases h; decide +kernel) | cases h), ?_,
   here_of (by decide +kernel)⟩ <;> decide +kernel

end FaultQueues

namespace Invalidation

def base : State := { mk { tileX with sys := { tileX.sys with tctx := 0x52 } } with
  top := { st := .running, hbmUp := 1 }, clk := { gt := 0x123456789A } }
def tl : TlbEntry := { asid := 5, va := 0x200000, bits := 16, pte := BitVec.ofNat 64 0x4000003F }
def IV (ctrl : W32) (va : W32) (w : List (Nat × Nat)) : State := { base with
   tiles := [(3, { tileX with far := [{ id := 4, kind := .store, dest := .none, size := 8, va := 0, pa := 64, data := 0, cmp := 0, tagged := false}] })]
   mmu := { invCtrl := ctrl, invVa := va, invWait := w, tlbs := [(3, [tl, { tl with asid := 6 }, { tl with va := 0x210000 }]), (1027, [{tl with va := 0, bits := 30}, {tl with va := 0x400000, bits := 21}])], wcache := [(0, [(5, 0, 0, 0x11000), (5, 2, 0, 0x12000), (6, 2, 0, 0x12000), (5, 3, 0x200000, 0x13000), (5, 3, 0x400000, 0x14000)])] } }

def Invalidation_w1 : State := IV 2147483648 32 []

def Invalidation_w2 : State := IV 0 32 []

def Invalidation_w3 : State := IV 2147483653 32 [(3, 4)]

theorem met_Invalidation_1 :
    (Invalidation_w1.Inv) ∧
    (pathSecure Path.aelconA = true) ∧
    (Invalidation_w1.pathUp Path.aelconA = true) ∧
    (BitVec.getLsbD Invalidation_w1.mmu.invCtrl 31 = true) :=
  by refine ⟨inv_of (by decide +kernel), ?_⟩ <;> and_intros <;> decide +kernel

theorem met_Invalidation_2 :
    (Invalidation_w2.Inv) ∧
    (pathSecure Path.aelconA = true) ∧
    (Invalidation_w2.pathUp Path.aelconA = true) ∧
    (BitVec.getLsbD Invalidation_w2.mmu.invCtrl 31 = false) ∧
    ((2147483653#32).getLsbD 31 = true) ∧
    ((BitVec.extractLsb' 29 2 2147483653#32).toNat ≤ 2) ∧
    ((BitVec.extractLsb' 29 2 2147483653#32).toNat = 2 → (BitVec.extractLsb' 12 5 2147483653#32).toNat < 26) ∧
    (∀ (q : Nat × Nat), q ∈ Invalidation_w2.mmu.invWait → ∀ (f : FarAccess), f ∈ (Invalidation_w2.tile q.fst).far → f.id ≠ q.snd) :=
  by refine ⟨inv_of (by decide +kernel), ?_⟩ <;> and_intros <;> decide +kernel

theorem met_Invalidation_3 :
    (Invalidation_w3.Inv) ∧
    (pathSecure Path.aelconA = true) ∧
    (Invalidation_w3.pathUp Path.aelconA = true) ∧
    (∃ q, q ∈ Invalidation_w3.mmu.invWait ∧ ∃ f, f ∈ (Invalidation_w3.tile q.fst).far ∧ f.id = q.snd) :=
  by refine ⟨inv_of (by decide +kernel), ?_⟩ <;> and_intros <;> decide +kernel

end Invalidation

namespace FaultAnswers

def gr : Group := { bolt := 0, phys := 0, siltKib := 512, entry := 0x8047, tvec := 0, movers := 1, counters := 2}
def fr (who : Requester) (kd : BitVec 4 := 1) (acc : Access := .load) (ctx : Nat := 2) : FaultRecord := { who := who, ctx := ctx, acc := acc, va := 0x12345678, kind := kd, level := 4, malformed := false, entry := 0xABCD, paddr := 0x40000000, peer := 0, gtLow := 0, seq := 5 }
def base (x : Ctx) (p : List FaultRecord) (gt : W64) : State := { mk { tileX with sys := { tileX.sys with tctx := 0x52 } } with
  top := { st := .running, hbmUp := 1, reserveAt := [some 0, none, none, none] }, clk := { gt := gt }, ctxs := [(2, x)], mem := { phys := [(0x50000188, 7)] }
  mmu := { posted := if p = [] then [] else [(0, p)], fqGet := [(0, 2047)] } }
def cx : Ctx := { st := .running, groups := [gr], startSlot := some 5, answer := [(0, some 0x50000000)] }

def FaultAnswers_w1 : State := base cx [fr (Requester.slot3 3)] 77

def FaultAnswers_w2 : FaultRecord := { who := Requester.slot3 3, ctx := 2, acc := Access.load, va := 305419896#64, kind := 1#4, level := 4#3, malformed := false, entry := 43981#64, paddr := 1073741824#48, peer := 0#8, gtLow := 0#32, seq := 5#8 }

def FaultAnswers_w3 : State := base   (have __src := cx;   { st := __src.st, digest := __src.digest, signed := __src.signed, keySlot := __src.keySlot, priv := __src.priv, csrBlocks := __src.csrBlocks, loadGt := __src.loadGt, load := __src.load, groups := __src.groups, regions := __src.regions, siltInits := __src.siltInits, cads := __src.cads, movBase := __src.movBase, movCount := __src.movCount, fqBase := __src.fqBase, fqCount := __src.fqCount, ctrBase := __src.ctrBase, ctrCount := __src.ctrCount, tables := __src.tables, pages := __src.pages, pool := __src.pool, map := __src.map, tabBase := __src.tabBase, answer := __src.answer, startSlot := __src.startSlot, stopSlot := __src.stopSlot, saveSlot := __src.saveSlot, refusal := some (fr (Requester.slot3 3), 100), due := __src.due, ending := __src.ending, stopping := __src.stopping, stopDue := __src.stopDue, saved := __src.saved, released := __src.released, energy := __src.energy })   [] (100 + 15624)

def FaultAnswers_w4 : State := base   (have __src := cx;   { st := __src.st, digest := __src.digest, signed := __src.signed, keySlot := __src.keySlot, priv := __src.priv, csrBlocks := __src.csrBlocks, loadGt := __src.loadGt, load := __src.load, groups := __src.groups, regions := __src.regions, siltInits := __src.siltInits, cads := __src.cads, movBase := __src.movBase, movCount := __src.movCount, fqBase := __src.fqBase, fqCount := __src.fqCount, ctrBase := __src.ctrBase, ctrCount := __src.ctrCount, tables := __src.tables, pages := __src.pages, pool := __src.pool, map := __src.map, tabBase := __src.tabBase, answer := __src.answer, startSlot := __src.startSlot, stopSlot := __src.stopSlot, saveSlot := __src.saveSlot, refusal := some (fr (Requester.slot3 3), 100), due := __src.due, ending := __src.ending, stopping := __src.stopping, stopDue := __src.stopDue, saved := __src.saved, released := __src.released, energy := __src.energy })   [] (100 + 15625)

theorem met_FaultAnswers_1 :
    (FaultAnswers_w1.Inv) ∧
    (FaultAnswers_w1.top.st.serves = true) ∧
    (∀ (d : Nat), d ≠ ↑2 → FaultAnswers_w1.ctx d = { }) ∧
    (FaultAnswers_w1.cads = []) ∧
    ((FaultAnswers_w1.ctx ↑2).st = CtxState.running) ∧
    ((FaultAnswers_w1.ctx ↑2).saveSlot = none) ∧
    ((FaultAnswers_w1.ctx ↑2).stopping = false) ∧
    ((FaultAnswers_w1.ctx ↑2).stopDue = false) ∧
    ((FaultAnswers_w1.ctx ↑2).ending = none) ∧
    ((FaultAnswers_w1.ctx ↑2).due = none) ∧
    ((FaultAnswers_w1.ctx ↑2).released = false) ∧
    (FaultAnswers_w2.who = Requester.slot3 3) ∧
    (FaultAnswers_w2.ctx = ↑2) ∧
    (FaultAnswers_w2.kind = 1 ∨ FaultAnswers_w2.kind = 2) ∧
    (0 = 3 / 256) ∧
    (0 < 4) ∧
    (Tab.look none (FaultAnswers_w1.ctx ↑2).answer 0 = some 1342177280) ∧
    ((FaultAnswers_w1.ctx ↑2).refusal = none) ∧
    (FaultAnswers_w1.ctxHasTile (↑2) 3 = true) ∧
    ((FaultAnswers_w1.tile 3).st = TileState.running) ∧
    ((FaultAnswers_w1.ctx ↑2).startSlot.isSome = true) ∧
    (3 ∈ (FaultAnswers_w1.ctx ↑2).startTiles) ∧
    (Tab.look [] FaultAnswers_w1.mmu.posted 0 = [FaultAnswers_w2]) ∧
    (∀ (d : Nat), d ≠ 0 → Tab.look [] FaultAnswers_w1.mmu.posted d = []) ∧
    (Tab.look [] FaultAnswers_w1.mmu.answered 0 = []) ∧
    (∃ k, targetOf (1342177280 + 3 % 256 * 128) = Target.hbm k ∧ FaultAnswers_w1.stackUp k = true) ∧
    (markIn FaultAnswers_w1.mem.bad (1342177280 + 3 % 256 * 128) 16 32 = none) ∧
    (BitVec.getLsbD (Tab.look 0 FaultAnswers_w1.mem.phys (1342177280 + 3 % 256 * 128)) 0 = false) :=
  by refine ⟨inv_of (by decide +kernel), ?_, fun _ h => look_single h, ?_, ?_, ?_, ?_, ?_, ?_, ?_, ?_, ?_, ?_, ?_, ?_, ?_, ?_, ?_, ?_, ?_, ?_,
   ?_, ?_, fun _ h => look_single h, ?_, ⟨_, rfl, by decide +kernel⟩, ?_⟩ <;> and_intros <;> decide +kernel

theorem met_FaultAnswers_2 :
    (FaultAnswers_w3.Inv) ∧
    (FaultAnswers_w3.top.st.serves = true) ∧
    (∀ (d : Nat), d ≠ ↑2 → FaultAnswers_w3.ctx d = { }) ∧
    (FaultAnswers_w3.cads = []) ∧
    ((FaultAnswers_w3.ctx ↑2).st = CtxState.running) ∧
    ((FaultAnswers_w3.ctx ↑2).saveSlot = none) ∧
    ((FaultAnswers_w3.ctx ↑2).stopping = false) ∧
    ((FaultAnswers_w3.ctx ↑2).stopDue = false) ∧
    ((FaultAnswers_w3.ctx ↑2).ending = none) ∧
    ((FaultAnswers_w3.ctx ↑2).due = none) ∧
    ((FaultAnswers_w3.ctx ↑2).released = false) ∧
    ((FaultAnswers_w3.ctx ↑2).refusal = some (FaultAnswers_w2, 100#64)) ∧
    (BitVec.toNat (FaultAnswers_w3.clk.gt - 100#64) < 15625) :=
  by refine ⟨inv_of (by decide +kernel), ?_, fun _ h => look_single h, ?_⟩ <;> and_intros <;> decide +kernel

theorem met_FaultAnswers_3 :
    (FaultAnswers_w4.Inv) ∧
    (FaultAnswers_w4.top.st.serves = true) ∧
    (∀ (d : Nat), d ≠ ↑2 → FaultAnswers_w4.ctx d = { }) ∧
    (FaultAnswers_w4.cads = []) ∧
    ((FaultAnswers_w4.ctx ↑2).st = CtxState.running) ∧
    ((FaultAnswers_w4.ctx ↑2).saveSlot = none) ∧
    ((FaultAnswers_w4.ctx ↑2).stopping = false) ∧
    ((FaultAnswers_w4.ctx ↑2).stopDue = false) ∧
    ((FaultAnswers_w4.ctx ↑2).ending = none) ∧
    ((FaultAnswers_w4.ctx ↑2).due = none) ∧
    ((FaultAnswers_w4.ctx ↑2).released = false) ∧
    ((FaultAnswers_w4.ctx ↑2).refusal = some (FaultAnswers_w2, 100#64)) ∧
    (15625 ≤ BitVec.toNat (FaultAnswers_w4.clk.gt - 100#64)) ∧
    (∃ t, t ∈ (FaultAnswers_w4.ctx ↑2).tiles ∧ (FaultAnswers_w4.tile t).st ≠ TileState.retired) :=
  by refine ⟨inv_of (by decide +kernel), ?_, fun _ h => look_single h, ?_⟩ <;> and_intros <;> decide +kernel

end FaultAnswers

namespace DemandFills

def gr : Group := { bolt := 0, phys := 0, siltKib := 512, entry := 0x8047, tvec := 0, movers := 1, counters := 2}
def cx : Ctx := { st := .running, groups := [gr], startSlot := some 5, answer := [(0, some 0x50000000)] }
def rg : Region := { va := 0x10000000, size := 0x40000, kind := 3, rights := 1, bolt := 0, stack := 0, host := 0x123400000, pool := 2 }
def fl : Fill := { ctx := 2, va := 0x10010000, host := 0x123410000, page := 0x60000000 }
def DF (f : Fill) : State := { mk { tileX with sys := { tileX.sys with tctx := 0x52 } } with
  top := { st := .running, hbmUp := 1, reserveAt := [some 0, none, none, none] }, ctxs := [(2, { cx with regions := [rg], groups := [], st := .saved, map := [(0x10000000, 5), (0x10010000, 0)] })], mem := { host := [(0x123410003, 7), (0x123410100, 9), (0x12341FFFF, 9)], phys := [(0x60000004, 88)] }
  mmu := { fills := [f] }, eng := { mov := [(31, { en := true, st := .idle })] } }

def DemandFills_w1 : State := DF   (have __src := fl;   { ctx := __src.ctx, va := __src.va, host := __src.host, page := __src.page, left := __src.left, busy := true })

def DemandFills_w2 : Fill := { ctx := 2, va := 268500992, host := 4886429696, page := 1610612736, busy := true }

def DemandFills_w3 : Region := { va := 268435456, size := 262144, kind := 3, rights := 1#4, bolt := 0, stack := 0, host := 4886364160, pool := 2 }

def DemandFills_w4 : State := DF fl

def DemandFills_w5 : Fill := { ctx := 2, va := 268500992, host := 4886429696, page := 1610612736 }

def DemandFills_w6 : State := DF   (have __src := fl;   { ctx := __src.ctx, va := __src.va, host := __src.host, page := __src.page, left := [fl.fillPiece], busy := __src.busy })

def DemandFills_w7 : Fill := { ctx := 2, va := 268500992, host := 4886429696, page := 1610612736, left := [{ words := [1152921504606846976#64, 4402932940800#64, 1610612736#64, 281479271743488#64, 0#64, 0#64, 0#64, 0#64, 0#64, 0#64, 0#64, 0#64, 0#64, 0#64, 0#64, 0#64], before := 0 }] }

def DemandFills_w8 : FwPiece := { words := [1152921504606846976#64, 4402932940800#64, 1610612736#64, 281479271743488#64, 0#64, 0#64, 0#64, 0#64, 0#64, 0#64, 0#64, 0#64, 0#64, 0#64, 0#64, 0#64], before := 0 }

theorem met_DemandFills_1 :
    (DemandFills_w1.Inv) ∧
    (DemandFills_w1.Calm 1024) ∧
    (DemandFills_w1.top.st.serves = true) ∧
    (DemandFills_w1.mmu.fills[0]? = some DemandFills_w2) ∧
    ((DemandFills_w1.ctx DemandFills_w2.ctx).demandRegion DemandFills_w2.va = some DemandFills_w3) ∧
    (Tab.look false DemandFills_w1.mem.badPages DemandFills_w2.page = false) ∧
    (∀ (b : Nat), Tab.look [] DemandFills_w1.mmu.posted b = []) ∧
    (DemandFills_w2.busy = true) :=
  by refine ⟨inv_of (by decide +kernel), calm_of (by decide +kernel), ?_, ?_, ?_, ?_, fun _ => rfl, ?_⟩ <;> decide +kernel

theorem met_DemandFills_2 :
    (DemandFills_w4.Inv) ∧
    (DemandFills_w4.Calm 1024) ∧
    (DemandFills_w4.top.st.serves = true) ∧
    (DemandFills_w4.mmu.fills[0]? = some DemandFills_w5) ∧
    ((DemandFills_w4.ctx DemandFills_w5.ctx).demandRegion DemandFills_w5.va = some DemandFills_w3) ∧
    (Tab.look false DemandFills_w4.mem.badPages DemandFills_w5.page = false) ∧
    (∀ (b : Nat), Tab.look [] DemandFills_w4.mmu.posted b = []) ∧
    (DemandFills_w5.busy = false) ∧
    (DemandFills_w5.left = []) ∧
    (∀ (k r : Nat), k < 4 → DemandFills_w4.reserve k = some r → DemandFills_w4.here (r + (DemandFills_w4.ctx DemandFills_w5.ctx).tableOff 4 DemandFills_w5.va + 8 * (DemandFills_w5.va / 65536 % 32)) ∧ (r + (DemandFills_w4.ctx DemandFills_w5.ctx).tableOff 4 DemandFills_w5.va + 8 * (DemandFills_w5.va / 65536 % 32)) % 8 = 0) :=
  by refine ⟨inv_of (by decide +kernel), calm_of (by decide +kernel), ?_, ?_, ?_, ?_, fun _ => rfl, ?_, ?_,
   (by intro k r hk h; match k, hk with | 0, _ => (cases h; exact ⟨here_of (by decide +kernel), by decide +kernel⟩) | 1, _ => cases h | 2, _ => cases h | 3, _ => cases h)⟩ <;> decide +kernel

theorem met_DemandFills_3 :
    (DemandFills_w6.Inv) ∧
    (DemandFills_w6.Calm 1024) ∧
    (DemandFills_w6.top.st.serves = true) ∧
    (DemandFills_w6.mmu.fills[0]? = some DemandFills_w7) ∧
    ((DemandFills_w6.ctx DemandFills_w7.ctx).demandRegion DemandFills_w7.va = some DemandFills_w3) ∧
    (Tab.look false DemandFills_w6.mem.badPages DemandFills_w7.page = false) ∧
    (∀ (b : Nat), Tab.look [] DemandFills_w6.mmu.posted b = []) ∧
    (DemandFills_w7.busy = false) ∧
    (DemandFills_w7.left = [DemandFills_w8]) ∧
    (((DemandFills_w6.mover (DemandFills_w7.page / (6 * stackBytes)) 31).queue.length + if (DemandFills_w6.mover (DemandFills_w7.page / (6 * stackBytes)) 31).run.isSome = true then 1 else 0) < 16) :=
  by refine ⟨inv_of (by decide +kernel), calm_of (by decide +kernel), ?_, ?_, ?_, ?_, fun _ => rfl, ?_⟩ <;> and_intros <;> decide +kernel

end DemandFills

namespace MoversStart

def W (op : Nat) (fl : Nat := 0) (tbl : Nat := 0) (ex : Nat := 0) : W64 := BitVec.ofNat 64 (op * 2^60 + fl * 2^57 + ex * 2^48 + tbl * 2^42)
def desc (op len n1 n2 src dst : Nat) (fl : Nat := 0) (st : List W64 := [0,0,0,0]) (w8 w9 w10 : W64 := 0) (tbl ex : Nat := 0) : List W64 :=
  [W op fl tbl ex, BitVec.ofNat 64 src, BitVec.ofNat 64 dst, BitVec.ofNat 64 (n2 * 2^48 + n1 * 2^32 + len)] ++ st ++ [w8, w9, w10, 0, 0, 0, 0, 0]
def physD (l : List (Nat × List Byte)) : Tab Byte := l.foldl (fun m p => Tab.writeN 0 m p.1 p.2) []
def bytesOf (l : List W64) : List Byte := l.flatMap fun w => toLe 8 w.toNat
def tlbM : List TlbEntry := [{ asid := 5, va := 0, bits := 21, pte := BitVec.ofNat 64 0x4000003F }, { asid := 5, va := 0x200000, bits := 16, pte := BitVec.ofNat 64 0x5000003F }, { asid := 5, va := 0x210000, bits := 16, pte := BitVec.ofNat 64 0x60000037 }]
def SMv (v : Mover) (l : List (Nat × List Byte)) : State := { mk { tileX with st := .reset } with
  top := { st := .ready, hbmUp := 1 }, clk := { gt := 0x123456789A }, mem := { phys := physD l }
  mmu := { ctx := [(2, 0x80000005)], tlbs := [(2053, tlbM)] }
  eng := { mov := [(5, v), (9, { en := true })], ctrGrant := [(7, some 2)], exp := [(1, { en := true, st := .idle })] } }
def ent : MovEntry := { num := 3, released := true, va := 0x1000, ctx := 2, tile := 3, words := none}
def mvs (s : MovState) (sus : Bool := false) (en : Bool := true) : Mover := { en := en, st := s, ctx := 2, granted := true, nextNum := 4, suspend := sus }

def MoversStart_w1 : State := SMv   (have __src := mvs MovState.idle;   { en := __src.en, drain := __src.drain, suspend := __src.suspend, ctx := __src.ctx, granted := __src.granted, st := __src.st, was := __src.was, lastStatus := __src.lastStatus, completed := __src.completed, curHi := __src.curHi,     queue :=       [ent,         have __src := ent;         { num := 4, released := __src.released, va := __src.va, ctx := __src.ctx, tile := __src.tile, words := __src.words, work := __src.work, piece := __src.piece, more := __src.more, overlap := __src.overlap, late := __src.late, lateStatus := __src.lateStatus }],     run := __src.run, nextNum := __src.nextNum, faultSeq := __src.faultSeq, abortCause := __src.abortCause })   [(1073745920, bytesOf (desc 1 100 3 2 8208 2097157 0 [256, 512, 768, 1024]))]

def MoversStart_w2 : MovEntry := { num := 3, released := true, va := 4096#64, ctx := 2, tile := 3, words := none }

def MoversStart_w3 : State := SMv   (have __src := mvs MovState.idle;   { en := __src.en, drain := __src.drain, suspend := __src.suspend, ctx := __src.ctx, granted := __src.granted, st := __src.st, was := __src.was, lastStatus := __src.lastStatus, completed := __src.completed, curHi := __src.curHi,     queue :=       [ent,         have __src := ent;         { num := 4, released := __src.released, va := __src.va, ctx := __src.ctx, tile := __src.tile, words := __src.words, work := __src.work, piece := __src.piece, more := __src.more, overlap := __src.overlap, late := __src.late, lateStatus := __src.lateStatus }],     run := __src.run, nextNum := __src.nextNum, faultSeq := __src.faultSeq, abortCause := __src.abortCause })   [(1073745920, bytesOf (desc 2 300 1 1 1234605616436508552 2097648))]

def MoversStart_w4 : State := SMv   (have __src := mvs MovState.idle;   { en := __src.en, drain := __src.drain, suspend := __src.suspend, ctx := __src.ctx, granted := __src.granted, st := __src.st, was := __src.was, lastStatus := __src.lastStatus, completed := __src.completed, curHi := __src.curHi,     queue :=       [ent,         have __src := ent;         { num := 4, released := __src.released, va := __src.va, ctx := __src.ctx, tile := __src.tile, words := __src.words, work := __src.work, piece := __src.piece, more := __src.more, overlap := __src.overlap, late := __src.late, lateStatus := __src.lateStatus }],     run := __src.run, nextNum := __src.nextNum, faultSeq := __src.faultSeq, abortCause := __src.abortCause })   [(1073745920, bytesOf (desc 3 16 4 1 0 2097152 0 [0, 0, 0, 0] 0 0 12288))]

def MoversStart_w5 : State := SMv   (have __src := mvs MovState.idle;   { en := __src.en, drain := __src.drain, suspend := __src.suspend, ctx := __src.ctx, granted := __src.granted, st := __src.st, was := __src.was, lastStatus := __src.lastStatus, completed := __src.completed, curHi := __src.curHi,     queue :=       [ent,         have __src := ent;         { num := 4, released := __src.released, va := __src.va, ctx := __src.ctx, tile := __src.tile, words := __src.words, work := __src.work, piece := __src.piece, more := __src.more, overlap := __src.overlap, late := __src.late, lateStatus := __src.lateStatus }],     run := __src.run, nextNum := __src.nextNum, faultSeq := __src.faultSeq, abortCause := __src.abortCause })   [(1073745920, bytesOf (desc 4 16 4 1 256 2097152 0 [0, 0, 0, 0] 0 0 12288))]

def MoversStart_w6 : State := SMv   (have __src := mvs MovState.idle;   { en := __src.en, drain := __src.drain, suspend := __src.suspend, ctx := __src.ctx, granted := __src.granted, st := __src.st, was := __src.was, lastStatus := __src.lastStatus, completed := __src.completed, curHi := __src.curHi,     queue :=       [ent,         have __src := ent;         { num := 4, released := __src.released, va := __src.va, ctx := __src.ctx, tile := __src.tile, words := __src.words, work := __src.work, piece := __src.piece, more := __src.more, overlap := __src.overlap, late := __src.late, lateStatus := __src.lateStatus }],     run := __src.run, nextNum := __src.nextNum, faultSeq := __src.faultSeq, abortCause := __src.abortCause })   [(1073745920, bytesOf (desc 5 100 1 1 256 2097152 0 [0, 0, 0, 0] 0 0 0 0 1))]

def MoversStart_w7 : State := SMv   (have __src := mvs MovState.idle;   { en := __src.en, drain := __src.drain, suspend := __src.suspend, ctx := __src.ctx, granted := __src.granted, st := __src.st, was := __src.was, lastStatus := __src.lastStatus, completed := __src.completed, curHi := __src.curHi,     queue :=       [ent,         have __src := ent;         { num := 4, released := __src.released, va := __src.va, ctx := __src.ctx, tile := __src.tile, words := __src.words, work := __src.work, piece := __src.piece, more := __src.more, overlap := __src.overlap, late := __src.late, lateStatus := __src.lateStatus }],     run := __src.run, nextNum := __src.nextNum, faultSeq := __src.faultSeq, abortCause := __src.abortCause })   [(1073745920, bytesOf (desc 6 16448 1 1 256 0 0 [0, 0, 0, 0] 0 0 0 9))]

def MoversStart_w8 : State := SMv   (have __src := mvs MovState.idle;   { en := __src.en, drain := __src.drain, suspend := __src.suspend, ctx := __src.ctx, granted := __src.granted, st := __src.st, was := __src.was, lastStatus := __src.lastStatus, completed := __src.completed, curHi := __src.curHi,     queue :=       [ent,         have __src := ent;         { num := 4, released := __src.released, va := __src.va, ctx := __src.ctx, tile := __src.tile, words := __src.words, work := __src.work, piece := __src.piece, more := __src.more, overlap := __src.overlap, late := __src.late, lateStatus := __src.lateStatus }],     run := __src.run, nextNum := __src.nextNum, faultSeq := __src.faultSeq, abortCause := __src.abortCause })   [(1073745920, bytesOf (desc 1 0 3 2 8208 2097157))]

def MoversStart_w9 : State := SMv   (have __src := mvs MovState.idle;   { en := __src.en, drain := __src.drain, suspend := __src.suspend, ctx := __src.ctx, granted := __src.granted, st := __src.st, was := __src.was, lastStatus := __src.lastStatus, completed := __src.completed, curHi := __src.curHi,     queue :=       [ent,         have __src := ent;         { num := 4, released := __src.released, va := __src.va, ctx := __src.ctx, tile := __src.tile, words := __src.words, work := __src.work, piece := __src.piece, more := __src.more, overlap := __src.overlap, late := __src.late, lateStatus := __src.lateStatus }],     run := __src.run, nextNum := __src.nextNum, faultSeq := __src.faultSeq, abortCause := __src.abortCause })   [(1073745920, bytesOf (desc 2 300 1 1 5 2162688 6 [0, 0, 0, 0] (BitVec.ofNat 64 (43981 * 2 ^ 32 + 3 * 2 ^ 19 + 128)) (BitVec.ofNat 64 (7 * 2 ^ 16 + 5))))]

theorem met_MoversStart_1 :
    (MoversStart_w1.Inv) ∧
    (MoversStart_w1.Still) ∧
    ((MoversStart_w1.mover ↑0 ↑5).st = MovState.idle ∨ (MoversStart_w1.mover ↑0 ↑5).st = MovState.running) ∧
    ((MoversStart_w1.mover ↑0 ↑5).run = none) ∧
    ((MoversStart_w1.mover ↑0 ↑5).queue = [MoversStart_w2, { num := 4, released := true, va := 4096#64, ctx := 2, tile := 3, words := none }]) ∧
    (MoversStart_w2.released = true) ∧
    (MoversStart_w2.words = none) ∧
    (MoversStart_w2.late = false) ∧
    ((MoversStart_w1.mover ↑0 ↑5).suspend = false) ∧
    (MoversStart_w1.translate (Requester.mover ↑0 ↑5) MoversStart_w2.ctx (MoversStart_w1.ctxAsid MoversStart_w2.ctx) (BitVec.toNat MoversStart_w2.va) Access.descriptor false = Xlat.hit 1073745920) ∧
    ((MoversStart_w1.touch (Requester.mover ↑0 ↑5) (MoversStart_w1.ctxAsid MoversStart_w2.ctx) (BitVec.toNat MoversStart_w2.va)).translate (Requester.mover ↑0 ↑5) MoversStart_w2.ctx (MoversStart_w1.ctxAsid MoversStart_w2.ctx) (BitVec.toNat MoversStart_w2.va + 64) Access.descriptor false = Xlat.hit 1073745984) ∧
    (∀ (k : Nat), k < 8 → MoversStart_w1.here (1073745920 + 8 * k) ∧ MoversStart_w1.here (1073745984 + 8 * k)) ∧
    ((BitVec.extractLsb' 60 4 ((List.map (fun k => BitVec.ofNat 64 (ofLe (Tab.readN 0 MoversStart_w1.mem.phys (if k < 8 then 1073745920 + 8 * k else 1073745984 + 8 * (k - 8)) 8))) (List.range 16)).getD 0 0)).toNat = 1) :=
  by refine ⟨inv_of (by decide +kernel), still_of (by decide +kernel), ?_, ?_, ?_, ?_, ?_, ?_, ?_, ?_, ?_, heres_of (by decide +kernel), ?_⟩ <;> decide +kernel

theorem met_MoversStart_2 :
    (MoversStart_w3.Inv) ∧
    (MoversStart_w3.Still) ∧
    ((MoversStart_w3.mover ↑0 ↑5).st = MovState.idle ∨ (MoversStart_w3.mover ↑0 ↑5).st = MovState.running) ∧
    ((MoversStart_w3.mover ↑0 ↑5).run = none) ∧
    ((MoversStart_w3.mover ↑0 ↑5).queue = [MoversStart_w2, { num := 4, released := true, va := 4096#64, ctx := 2, tile := 3, words := none }]) ∧
    (MoversStart_w2.released = true) ∧
    (MoversStart_w2.words = none) ∧
    (MoversStart_w2.late = false) ∧
    ((MoversStart_w3.mover ↑0 ↑5).suspend = false) ∧
    (MoversStart_w3.translate (Requester.mover ↑0 ↑5) MoversStart_w2.ctx (MoversStart_w3.ctxAsid MoversStart_w2.ctx) (BitVec.toNat MoversStart_w2.va) Access.descriptor false = Xlat.hit 1073745920) ∧
    ((MoversStart_w3.touch (Requester.mover ↑0 ↑5) (MoversStart_w3.ctxAsid MoversStart_w2.ctx) (BitVec.toNat MoversStart_w2.va)).translate (Requester.mover ↑0 ↑5) MoversStart_w2.ctx (MoversStart_w3.ctxAsid MoversStart_w2.ctx) (BitVec.toNat MoversStart_w2.va + 64) Access.descriptor false = Xlat.hit 1073745984) ∧
    (∀ (k : Nat), k < 8 → MoversStart_w3.here (1073745920 + 8 * k) ∧ MoversStart_w3.here (1073745984 + 8 * k)) ∧
    ((BitVec.extractLsb' 60 4 ((List.map (fun k => BitVec.ofNat 64 (ofLe (Tab.readN 0 MoversStart_w3.mem.phys (if k < 8 then 1073745920 + 8 * k else 1073745984 + 8 * (k - 8)) 8))) (List.range 16)).getD 0 0)).toNat = 2) :=
  by refine ⟨inv_of (by decide +kernel), still_of (by decide +kernel), ?_, ?_, ?_, ?_, ?_, ?_, ?_, ?_, ?_, heres_of (by decide +kernel), ?_⟩ <;> decide +kernel

theorem met_MoversStart_3 :
    (MoversStart_w4.Inv) ∧
    (MoversStart_w4.Still) ∧
    ((MoversStart_w4.mover ↑0 ↑5).st = MovState.idle ∨ (MoversStart_w4.mover ↑0 ↑5).st = MovState.running) ∧
    ((MoversStart_w4.mover ↑0 ↑5).run = none) ∧
    ((MoversStart_w4.mover ↑0 ↑5).queue = [MoversStart_w2, { num := 4, released := true, va := 4096#64, ctx := 2, tile := 3, words := none }]) ∧
    (MoversStart_w2.released = true) ∧
    (MoversStart_w2.words = none) ∧
    (MoversStart_w2.late = false) ∧
    ((MoversStart_w4.mover ↑0 ↑5).suspend = false) ∧
    (MoversStart_w4.translate (Requester.mover ↑0 ↑5) MoversStart_w2.ctx (MoversStart_w4.ctxAsid MoversStart_w2.ctx) (BitVec.toNat MoversStart_w2.va) Access.descriptor false = Xlat.hit 1073745920) ∧
    ((MoversStart_w4.touch (Requester.mover ↑0 ↑5) (MoversStart_w4.ctxAsid MoversStart_w2.ctx) (BitVec.toNat MoversStart_w2.va)).translate (Requester.mover ↑0 ↑5) MoversStart_w2.ctx (MoversStart_w4.ctxAsid MoversStart_w2.ctx) (BitVec.toNat MoversStart_w2.va + 64) Access.descriptor false = Xlat.hit 1073745984) ∧
    (∀ (k : Nat), k < 8 → MoversStart_w4.here (1073745920 + 8 * k) ∧ MoversStart_w4.here (1073745984 + 8 * k)) ∧
    ((BitVec.extractLsb' 60 4 ((List.map (fun k => BitVec.ofNat 64 (ofLe (Tab.readN 0 MoversStart_w4.mem.phys (if k < 8 then 1073745920 + 8 * k else 1073745984 + 8 * (k - 8)) 8))) (List.range 16)).getD 0 0)).toNat = 3) :=
  by refine ⟨inv_of (by decide +kernel), still_of (by decide +kernel), ?_, ?_, ?_, ?_, ?_, ?_, ?_, ?_, ?_, heres_of (by decide +kernel), ?_⟩ <;> decide +kernel

theorem met_MoversStart_4 :
    (MoversStart_w5.Inv) ∧
    (MoversStart_w5.Still) ∧
    ((MoversStart_w5.mover ↑0 ↑5).st = MovState.idle ∨ (MoversStart_w5.mover ↑0 ↑5).st = MovState.running) ∧
    ((MoversStart_w5.mover ↑0 ↑5).run = none) ∧
    ((MoversStart_w5.mover ↑0 ↑5).queue = [MoversStart_w2, { num := 4, released := true, va := 4096#64, ctx := 2, tile := 3, words := none }]) ∧
    (MoversStart_w2.released = true) ∧
    (MoversStart_w2.words = none) ∧
    (MoversStart_w2.late = false) ∧
    ((MoversStart_w5.mover ↑0 ↑5).suspend = false) ∧
    (MoversStart_w5.translate (Requester.mover ↑0 ↑5) MoversStart_w2.ctx (MoversStart_w5.ctxAsid MoversStart_w2.ctx) (BitVec.toNat MoversStart_w2.va) Access.descriptor false = Xlat.hit 1073745920) ∧
    ((MoversStart_w5.touch (Requester.mover ↑0 ↑5) (MoversStart_w5.ctxAsid MoversStart_w2.ctx) (BitVec.toNat MoversStart_w2.va)).translate (Requester.mover ↑0 ↑5) MoversStart_w2.ctx (MoversStart_w5.ctxAsid MoversStart_w2.ctx) (BitVec.toNat MoversStart_w2.va + 64) Access.descriptor false = Xlat.hit 1073745984) ∧
    (∀ (k : Nat), k < 8 → MoversStart_w5.here (1073745920 + 8 * k) ∧ MoversStart_w5.here (1073745984 + 8 * k)) ∧
    ((BitVec.extractLsb' 60 4 ((List.map (fun k => BitVec.ofNat 64 (ofLe (Tab.readN 0 MoversStart_w5.mem.phys (if k < 8 then 1073745920 + 8 * k else 1073745984 + 8 * (k - 8)) 8))) (List.range 16)).getD 0 0)).toNat = 4) :=
  by refine ⟨inv_of (by decide +kernel), still_of (by decide +kernel), ?_, ?_, ?_, ?_, ?_, ?_, ?_, ?_, ?_, heres_of (by decide +kernel), ?_⟩ <;> decide +kernel

theorem met_MoversStart_5 :
    (MoversStart_w6.Inv) ∧
    (MoversStart_w6.Still) ∧
    ((MoversStart_w6.mover ↑0 ↑5).st = MovState.idle ∨ (MoversStart_w6.mover ↑0 ↑5).st = MovState.running) ∧
    ((MoversStart_w6.mover ↑0 ↑5).run = none) ∧
    ((MoversStart_w6.mover ↑0 ↑5).queue = [MoversStart_w2, { num := 4, released := true, va := 4096#64, ctx := 2, tile := 3, words := none }]) ∧
    (MoversStart_w2.released = true) ∧
    (MoversStart_w2.words = none) ∧
    (MoversStart_w2.late = false) ∧
    ((MoversStart_w6.mover ↑0 ↑5).suspend = false) ∧
    (MoversStart_w6.translate (Requester.mover ↑0 ↑5) MoversStart_w2.ctx (MoversStart_w6.ctxAsid MoversStart_w2.ctx) (BitVec.toNat MoversStart_w2.va) Access.descriptor false = Xlat.hit 1073745920) ∧
    ((MoversStart_w6.touch (Requester.mover ↑0 ↑5) (MoversStart_w6.ctxAsid MoversStart_w2.ctx) (BitVec.toNat MoversStart_w2.va)).translate (Requester.mover ↑0 ↑5) MoversStart_w2.ctx (MoversStart_w6.ctxAsid MoversStart_w2.ctx) (BitVec.toNat MoversStart_w2.va + 64) Access.descriptor false = Xlat.hit 1073745984) ∧
    (∀ (k : Nat), k < 8 → MoversStart_w6.here (1073745920 + 8 * k) ∧ MoversStart_w6.here (1073745984 + 8 * k)) ∧
    ((BitVec.extractLsb' 60 4 ((List.map (fun k => BitVec.ofNat 64 (ofLe (Tab.readN 0 MoversStart_w6.mem.phys (if k < 8 then 1073745920 + 8 * k else 1073745984 + 8 * (k - 8)) 8))) (List.range 16)).getD 0 0)).toNat = 5) :=
  by refine ⟨inv_of (by decide +kernel), still_of (by decide +kernel), ?_, ?_, ?_, ?_, ?_, ?_, ?_, ?_, ?_, heres_of (by decide +kernel), ?_⟩ <;> decide +kernel

theorem met_MoversStart_6 :
    (MoversStart_w7.Inv) ∧
    (MoversStart_w7.Still) ∧
    ((MoversStart_w7.mover ↑0 ↑5).st = MovState.idle ∨ (MoversStart_w7.mover ↑0 ↑5).st = MovState.running) ∧
    ((MoversStart_w7.mover ↑0 ↑5).run = none) ∧
    ((MoversStart_w7.mover ↑0 ↑5).queue = [MoversStart_w2, { num := 4, released := true, va := 4096#64, ctx := 2, tile := 3, words := none }]) ∧
    (MoversStart_w2.released = true) ∧
    (MoversStart_w2.words = none) ∧
    (MoversStart_w2.late = false) ∧
    ((MoversStart_w7.mover ↑0 ↑5).suspend = false) ∧
    (MoversStart_w7.translate (Requester.mover ↑0 ↑5) MoversStart_w2.ctx (MoversStart_w7.ctxAsid MoversStart_w2.ctx) (BitVec.toNat MoversStart_w2.va) Access.descriptor false = Xlat.hit 1073745920) ∧
    ((MoversStart_w7.touch (Requester.mover ↑0 ↑5) (MoversStart_w7.ctxAsid MoversStart_w2.ctx) (BitVec.toNat MoversStart_w2.va)).translate (Requester.mover ↑0 ↑5) MoversStart_w2.ctx (MoversStart_w7.ctxAsid MoversStart_w2.ctx) (BitVec.toNat MoversStart_w2.va + 64) Access.descriptor false = Xlat.hit 1073745984) ∧
    (∀ (k : Nat), k < 8 → MoversStart_w7.here (1073745920 + 8 * k) ∧ MoversStart_w7.here (1073745984 + 8 * k)) ∧
    ((BitVec.extractLsb' 60 4 ((List.map (fun k => BitVec.ofNat 64 (ofLe (Tab.readN 0 MoversStart_w7.mem.phys (if k < 8 then 1073745920 + 8 * k else 1073745984 + 8 * (k - 8)) 8))) (List.range 16)).getD 0 0)).toNat = 6) :=
  by refine ⟨inv_of (by decide +kernel), still_of (by decide +kernel), ?_, ?_, ?_, ?_, ?_, ?_, ?_, ?_, ?_, heres_of (by decide +kernel), ?_⟩ <;> decide +kernel

theorem met_MoversStart_7 :
    (MoversStart_w8.Inv) ∧
    (MoversStart_w8.Still) ∧
    ((MoversStart_w8.mover ↑0 ↑5).st = MovState.idle ∨ (MoversStart_w8.mover ↑0 ↑5).st = MovState.running) ∧
    ((MoversStart_w8.mover ↑0 ↑5).run = none) ∧
    ((MoversStart_w8.mover ↑0 ↑5).queue = [MoversStart_w2, { num := 4, released := true, va := 4096#64, ctx := 2, tile := 3, words := none }]) ∧
    (MoversStart_w2.released = true) ∧
    (MoversStart_w2.words = none) ∧
    (MoversStart_w2.late = false) ∧
    ((MoversStart_w8.mover ↑0 ↑5).suspend = false) ∧
    (MoversStart_w8.translate (Requester.mover ↑0 ↑5) MoversStart_w2.ctx (MoversStart_w8.ctxAsid MoversStart_w2.ctx) (BitVec.toNat MoversStart_w2.va) Access.descriptor false = Xlat.hit 1073745920) ∧
    ((MoversStart_w8.touch (Requester.mover ↑0 ↑5) (MoversStart_w8.ctxAsid MoversStart_w2.ctx) (BitVec.toNat MoversStart_w2.va)).translate (Requester.mover ↑0 ↑5) MoversStart_w2.ctx (MoversStart_w8.ctxAsid MoversStart_w2.ctx) (BitVec.toNat MoversStart_w2.va + 64) Access.descriptor false = Xlat.hit 1073745984) ∧
    (∀ (k : Nat), k < 8 → MoversStart_w8.here (1073745920 + 8 * k) ∧ MoversStart_w8.here (1073745984 + 8 * k)) ∧
    ((BitVec.extractLsb' 60 4 ((List.map (fun k => BitVec.ofNat 64 (ofLe (Tab.readN 0 MoversStart_w8.mem.phys (if k < 8 then 1073745920 + 8 * k else 1073745984 + 8 * (k - 8)) 8))) (List.range 16)).getD 0 0)).toNat = 1) :=
  by refine ⟨inv_of (by decide +kernel), still_of (by decide +kernel), ?_, ?_, ?_, ?_, ?_, ?_, ?_, ?_, ?_, heres_of (by decide +kernel), ?_⟩ <;> decide +kernel

theorem met_MoversStart_8 :
    (MoversStart_w9.Inv) ∧
    (MoversStart_w9.Still) ∧
    ((MoversStart_w9.mover ↑0 ↑5).st = MovState.idle ∨ (MoversStart_w9.mover ↑0 ↑5).st = MovState.running) ∧
    ((MoversStart_w9.mover ↑0 ↑5).run = none) ∧
    ((MoversStart_w9.mover ↑0 ↑5).queue = [MoversStart_w2, { num := 4, released := true, va := 4096#64, ctx := 2, tile := 3, words := none }]) ∧
    (MoversStart_w2.released = true) ∧
    (MoversStart_w2.words = none) ∧
    (MoversStart_w2.late = false) ∧
    ((MoversStart_w9.mover ↑0 ↑5).suspend = false) ∧
    (MoversStart_w9.translate (Requester.mover ↑0 ↑5) MoversStart_w2.ctx (MoversStart_w9.ctxAsid MoversStart_w2.ctx) (BitVec.toNat MoversStart_w2.va) Access.descriptor false = Xlat.hit 1073745920) ∧
    ((MoversStart_w9.touch (Requester.mover ↑0 ↑5) (MoversStart_w9.ctxAsid MoversStart_w2.ctx) (BitVec.toNat MoversStart_w2.va)).translate (Requester.mover ↑0 ↑5) MoversStart_w2.ctx (MoversStart_w9.ctxAsid MoversStart_w2.ctx) (BitVec.toNat MoversStart_w2.va + 64) Access.descriptor false = Xlat.hit 1073745984) ∧
    (∀ (k : Nat), k < 8 → MoversStart_w9.here (1073745920 + 8 * k) ∧ MoversStart_w9.here (1073745984 + 8 * k)) ∧
    ((BitVec.extractLsb' 60 4 ((List.map (fun k => BitVec.ofNat 64 (ofLe (Tab.readN 0 MoversStart_w9.mem.phys (if k < 8 then 1073745920 + 8 * k else 1073745984 + 8 * (k - 8)) 8))) (List.range 16)).getD 0 0)).toNat = 2) :=
  by refine ⟨inv_of (by decide +kernel), still_of (by decide +kernel), ?_, ?_, ?_, ?_, ?_, ?_, ?_, ?_, ?_, heres_of (by decide +kernel), ?_⟩ <;> decide +kernel

end MoversStart

namespace MoversCopy

def W (op : Nat) (fl : Nat := 0) (tbl : Nat := 0) (ex : Nat := 0) : W64 := BitVec.ofNat 64 (op * 2^60 + fl * 2^57 + ex * 2^48 + tbl * 2^42)
def desc (op len n1 n2 src dst : Nat) (fl : Nat := 0) (st : List W64 := [0,0,0,0]) (w8 w9 w10 : W64 := 0) (tbl ex : Nat := 0) : List W64 :=
  [W op fl tbl ex, BitVec.ofNat 64 src, BitVec.ofNat 64 dst, BitVec.ofNat 64 (n2 * 2^48 + n1 * 2^32 + len)] ++ st ++ [w8, w9, w10, 0, 0, 0, 0, 0]
def physD (l : List (Nat × List Byte)) : Tab Byte := l.foldl (fun m p => Tab.writeN 0 m p.1 p.2) []
def bytesOf (l : List W64) : List Byte := l.flatMap fun w => toLe 8 w.toNat
def tlbM : List TlbEntry := [{ asid := 5, va := 0, bits := 21, pte := BitVec.ofNat 64 0x4000003F }, { asid := 5, va := 0x200000, bits := 16, pte := BitVec.ofNat 64 0x5000003F }, { asid := 5, va := 0x210000, bits := 16, pte := BitVec.ofNat 64 0x60000037 }]
def SMv (v : Mover) (l : List (Nat × List Byte)) : State := { mk { tileX with st := .reset } with
  top := { st := .ready, hbmUp := 1 }, clk := { gt := 0x123456789A }, mem := { phys := physD l }
  mmu := { ctx := [(2, 0x80000005)], tlbs := [(2053, tlbM)] }
  eng := { mov := [(5, v), (9, { en := true })], ctrGrant := [(7, some 2)], exp := [(1, { en := true, st := .idle })] } }
def ent : MovEntry := { num := 3, released := true, va := 0x1000, ctx := 2, tile := 3, words := none}
def mvs (s : MovState) (sus : Bool := false) (en : Bool := true) : Mover := { en := en, st := s, ctx := 2, granted := true, nextNum := 4, suspend := sus }
def dCopy : List W64 := desc 1 100 3 2 0x2010 0x200005 0 [0x100, 0x200, 0x300, 0x400]
def dFill : List W64 := desc 2 300 1 1 0x1122334455667788 0x2001F0
def pat (n k : Nat) : List Byte := (List.range n).map fun i => BitVec.ofNat 8 (i * 7 + k + i / 256 * 3)
def rn (d : List W64) (cur : Nat) : Running := { entry := ent, words := d, cursor := cur }
def mem0 : List (Nat × List Byte) := [(0x40002000, pat 4 5), (0x40003000, bytesOf [0x123, 0x1F000000000000F, 0x200000000000000, 0x77]), (0x50000000, pat 4 9)]

def MoversCopy_w1 : State := SMv   (have __src := mvs MovState.running;   { en := __src.en, drain := __src.drain, suspend := __src.suspend, ctx := __src.ctx, granted := __src.granted, st := __src.st, was := __src.was, lastStatus := __src.lastStatus, completed := __src.completed, curHi := __src.curHi, queue := __src.queue, run := some (rn dCopy 7), nextNum := __src.nextNum, faultSeq := __src.faultSeq, abortCause := __src.abortCause })   mem0

def MoversCopy_w2 : Running := { entry := { num := 3, released := true, va := 4096#64, ctx := 2, tile := 3, words := none }, words := [1152921504606846976#64, 8208#64, 2097157#64, 562962838323300#64, 256#64, 512#64, 768#64, 1024#64, 0#64, 0#64, 0#64, 0#64, 0#64, 0#64, 0#64, 0#64], cursor := 7, seq := 0#8 }

def MoversCopy_w3 : State := SMv   (have __src := mvs MovState.running;   { en := __src.en, drain := __src.drain, suspend := __src.suspend, ctx := __src.ctx, granted := __src.granted, st := __src.st, was := __src.was, lastStatus := __src.lastStatus, completed := __src.completed, curHi := __src.curHi, queue := __src.queue, run := some (rn dFill 15), nextNum := __src.nextNum, faultSeq := __src.faultSeq, abortCause := __src.abortCause })   mem0

def MoversCopy_w4 : Running := { entry := { num := 3, released := true, va := 4096#64, ctx := 2, tile := 3, words := none }, words := [2305843009213693952#64, 1234605616436508552#64, 2097648#64, 281479271678252#64, 0#64, 0#64, 0#64, 0#64, 0#64, 0#64, 0#64, 0#64, 0#64, 0#64, 0#64, 0#64], cursor := 15, seq := 0#8 }

theorem met_MoversCopy_1 :
    (MoversCopy_w1.Inv) ∧
    (MoversCopy_w1.Still) ∧
    ((MoversCopy_w1.mover ↑0 ↑5).st = MovState.running ∨ (MoversCopy_w1.mover ↑0 ↑5).st = MovState.draining) ∧
    ((MoversCopy_w1.mover ↑0 ↑5).run = some MoversCopy_w2) ∧
    (MoversCopy_w2.done = false) ∧
    (MoversCopy_w2.words ≠ []) ∧
    (MoversCopy_w2.cursor < (BitVec.extractLsb' 0 32 (MoversCopy_w2.words.getD 3 0)).toNat * (BitVec.extractLsb' 32 16 (MoversCopy_w2.words.getD 3 0)).toNat * (BitVec.extractLsb' 48 16 (MoversCopy_w2.words.getD 3 0)).toNat) ∧
    ((MoversCopy_w1.mover ↑0 ↑5).suspend = false) ∧
    (MoversCopy_w2.overlap = false) ∧
    (MoversCopy_w2.verdict = none) ∧
    (if MoversCopy_w2.entry.words.isSome = true then 1342177292 = ((↑(BitVec.extractLsb' 0 57 (MoversCopy_w2.words.getD 2 0)).toNat + ↑(MoversCopy_w2.cursor / (BitVec.extractLsb' 0 32 (MoversCopy_w2.words.getD 3 0)).toNat / (BitVec.extractLsb' 32 16 (MoversCopy_w2.words.getD 3 0)).toNat) * BitVec.toInt (MoversCopy_w2.words.getD 7 0) + ↑(MoversCopy_w2.cursor / (BitVec.extractLsb' 0 32 (MoversCopy_w2.words.getD 3 0)).toNat % (BitVec.extractLsb' 32 16 (MoversCopy_w2.words.getD 3 0)).toNat) * BitVec.toInt (MoversCopy_w2.words.getD 6 0) + ↑(MoversCopy_w2.cursor % (BitVec.extractLsb' 0 32 (MoversCopy_w2.words.getD 3 0)).toNat)) % ↑(2 ^ 57)).toNat else MoversCopy_w1.translate (Requester.mover ↑0 ↑5) MoversCopy_w2.entry.ctx (MoversCopy_w1.ctxAsid MoversCopy_w2.entry.ctx) ((↑(BitVec.extractLsb' 0 57 (MoversCopy_w2.words.getD 2 0)).toNat + ↑(MoversCopy_w2.cursor / (BitVec.extractLsb' 0 32 (MoversCopy_w2.words.getD 3 0)).toNat / (BitVec.extractLsb' 32 16 (MoversCopy_w2.words.getD 3 0)).toNat) * BitVec.toInt (MoversCopy_w2.words.getD 7 0) + ↑(MoversCopy_w2.cursor / (BitVec.extractLsb' 0 32 (MoversCopy_w2.words.getD 3 0)).toNat % (BitVec.extractLsb' 32 16 (MoversCopy_w2.words.getD 3 0)).toNat) * BitVec.toInt (MoversCopy_w2.words.getD 6 0) + ↑(MoversCopy_w2.cursor % (BitVec.extractLsb' 0 32 (MoversCopy_w2.words.getD 3 0)).toNat)) % ↑(2 ^ 57)).toNat Access.moverDst false = Xlat.hit 1342177292) ∧
    (MoversCopy_w1.here 1342177292) ∧
    ((BitVec.extractLsb' 60 4 (MoversCopy_w2.words.getD 0 0)).toNat = 1) ∧
    (if MoversCopy_w2.entry.words.isSome = true then 1073750039 = ((↑(BitVec.extractLsb' 0 57 (MoversCopy_w2.words.getD 1 0)).toNat + ↑(MoversCopy_w2.cursor / (BitVec.extractLsb' 0 32 (MoversCopy_w2.words.getD 3 0)).toNat / (BitVec.extractLsb' 32 16 (MoversCopy_w2.words.getD 3 0)).toNat) * BitVec.toInt (MoversCopy_w2.words.getD 5 0) + ↑(MoversCopy_w2.cursor / (BitVec.extractLsb' 0 32 (MoversCopy_w2.words.getD 3 0)).toNat % (BitVec.extractLsb' 32 16 (MoversCopy_w2.words.getD 3 0)).toNat) * BitVec.toInt (MoversCopy_w2.words.getD 4 0) + ↑(MoversCopy_w2.cursor % (BitVec.extractLsb' 0 32 (MoversCopy_w2.words.getD 3 0)).toNat)) % ↑(2 ^ 57)).toNat else (MoversCopy_w1.touch (Requester.mover ↑0 ↑5) (MoversCopy_w1.ctxAsid MoversCopy_w2.entry.ctx) ((↑(BitVec.extractLsb' 0 57 (MoversCopy_w2.words.getD 2 0)).toNat + ↑(MoversCopy_w2.cursor / (BitVec.extractLsb' 0 32 (MoversCopy_w2.words.getD 3 0)).toNat / (BitVec.extractLsb' 32 16 (MoversCopy_w2.words.getD 3 0)).toNat) * BitVec.toInt (MoversCopy_w2.words.getD 7 0) + ↑(MoversCopy_w2.cursor / (BitVec.extractLsb' 0 32 (MoversCopy_w2.words.getD 3 0)).toNat % (BitVec.extractLsb' 32 16 (MoversCopy_w2.words.getD 3 0)).toNat) * BitVec.toInt (MoversCopy_w2.words.getD 6 0) + ↑(MoversCopy_w2.cursor % (BitVec.extractLsb' 0 32 (MoversCopy_w2.words.getD 3 0)).toNat)) % ↑(2 ^ 57)).toNat).translate (Requester.mover ↑0 ↑5) MoversCopy_w2.entry.ctx (MoversCopy_w1.ctxAsid MoversCopy_w2.entry.ctx) ((↑(BitVec.extractLsb' 0 57 (MoversCopy_w2.words.getD 1 0)).toNat + ↑(MoversCopy_w2.cursor / (BitVec.extractLsb' 0 32 (MoversCopy_w2.words.getD 3 0)).toNat / (BitVec.extractLsb' 32 16 (MoversCopy_w2.words.getD 3 0)).toNat) * BitVec.toInt (MoversCopy_w2.words.getD 5 0) + ↑(MoversCopy_w2.cursor / (BitVec.extractLsb' 0 32 (MoversCopy_w2.words.getD 3 0)).toNat % (BitVec.extractLsb' 32 16 (MoversCopy_w2.words.getD 3 0)).toNat) * BitVec.toInt (MoversCopy_w2.words.getD 4 0) + ↑(MoversCopy_w2.cursor % (BitVec.extractLsb' 0 32 (MoversCopy_w2.words.getD 3 0)).toNat)) % ↑(2 ^ 57)).toNat Access.moverSrc false = Xlat.hit 1073750039) ∧
    (MoversCopy_w1.here 1073750039) ∧
    (1073750039 + 256 ≤ 1342177292 ∨ 1342177292 + 256 ≤ 1073750039) :=
  by refine ⟨inv_of (by decide +kernel), still_of (by decide +kernel), ?_, rfl, ?_, ?_, ?_, ?_, ?_, ?_, ?_, here_of (by decide +kernel), ?_, ?_,
   here_of (by decide +kernel), ?_⟩ <;> decide +kernel

theorem met_MoversCopy_2 :
    (MoversCopy_w3.Inv) ∧
    (MoversCopy_w3.Still) ∧
    ((MoversCopy_w3.mover ↑0 ↑5).st = MovState.running ∨ (MoversCopy_w3.mover ↑0 ↑5).st = MovState.draining) ∧
    ((MoversCopy_w3.mover ↑0 ↑5).run = some MoversCopy_w4) ∧
    (MoversCopy_w4.done = false) ∧
    (MoversCopy_w4.words ≠ []) ∧
    (MoversCopy_w4.cursor < (BitVec.extractLsb' 0 32 (MoversCopy_w4.words.getD 3 0)).toNat * (BitVec.extractLsb' 32 16 (MoversCopy_w4.words.getD 3 0)).toNat * (BitVec.extractLsb' 48 16 (MoversCopy_w4.words.getD 3 0)).toNat) ∧
    ((MoversCopy_w3.mover ↑0 ↑5).suspend = false) ∧
    (MoversCopy_w4.overlap = false) ∧
    (MoversCopy_w4.verdict = none) ∧
    (if MoversCopy_w4.entry.words.isSome = true then 1342177791 = ((↑(BitVec.extractLsb' 0 57 (MoversCopy_w4.words.getD 2 0)).toNat + ↑(MoversCopy_w4.cursor / (BitVec.extractLsb' 0 32 (MoversCopy_w4.words.getD 3 0)).toNat / (BitVec.extractLsb' 32 16 (MoversCopy_w4.words.getD 3 0)).toNat) * BitVec.toInt (MoversCopy_w4.words.getD 7 0) + ↑(MoversCopy_w4.cursor / (BitVec.extractLsb' 0 32 (MoversCopy_w4.words.getD 3 0)).toNat % (BitVec.extractLsb' 32 16 (MoversCopy_w4.words.getD 3 0)).toNat) * BitVec.toInt (MoversCopy_w4.words.getD 6 0) + ↑(MoversCopy_w4.cursor % (BitVec.extractLsb' 0 32 (MoversCopy_w4.words.getD 3 0)).toNat)) % ↑(2 ^ 57)).toNat else MoversCopy_w3.translate (Requester.mover ↑0 ↑5) MoversCopy_w4.entry.ctx (MoversCopy_w3.ctxAsid MoversCopy_w4.entry.ctx) ((↑(BitVec.extractLsb' 0 57 (MoversCopy_w4.words.getD 2 0)).toNat + ↑(MoversCopy_w4.cursor / (BitVec.extractLsb' 0 32 (MoversCopy_w4.words.getD 3 0)).toNat / (BitVec.extractLsb' 32 16 (MoversCopy_w4.words.getD 3 0)).toNat) * BitVec.toInt (MoversCopy_w4.words.getD 7 0) + ↑(MoversCopy_w4.cursor / (BitVec.extractLsb' 0 32 (MoversCopy_w4.words.getD 3 0)).toNat % (BitVec.extractLsb' 32 16 (MoversCopy_w4.words.getD 3 0)).toNat) * BitVec.toInt (MoversCopy_w4.words.getD 6 0) + ↑(MoversCopy_w4.cursor % (BitVec.extractLsb' 0 32 (MoversCopy_w4.words.getD 3 0)).toNat)) % ↑(2 ^ 57)).toNat Access.moverDst false = Xlat.hit 1342177791) ∧
    (MoversCopy_w3.here 1342177791) ∧
    ((BitVec.extractLsb' 60 4 (MoversCopy_w4.words.getD 0 0)).toNat = 2) :=
  by refine ⟨inv_of (by decide +kernel), still_of (by decide +kernel), ?_, rfl, ?_, ?_, ?_, ?_, ?_, ?_, ?_, here_of (by decide +kernel), ?_⟩ <;> decide +kernel

end MoversCopy

namespace MoversLists

def W (op : Nat) (fl : Nat := 0) (tbl : Nat := 0) (ex : Nat := 0) : W64 := BitVec.ofNat 64 (op * 2^60 + fl * 2^57 + ex * 2^48 + tbl * 2^42)
def desc (op len n1 n2 src dst : Nat) (fl : Nat := 0) (st : List W64 := [0,0,0,0]) (w8 w9 w10 : W64 := 0) (tbl ex : Nat := 0) : List W64 :=
  [W op fl tbl ex, BitVec.ofNat 64 src, BitVec.ofNat 64 dst, BitVec.ofNat 64 (n2 * 2^48 + n1 * 2^32 + len)] ++ st ++ [w8, w9, w10, 0, 0, 0, 0, 0]
def physD (l : List (Nat × List Byte)) : Tab Byte := l.foldl (fun m p => Tab.writeN 0 m p.1 p.2) []
def bytesOf (l : List W64) : List Byte := l.flatMap fun w => toLe 8 w.toNat
def tlbM : List TlbEntry := [{ asid := 5, va := 0, bits := 21, pte := BitVec.ofNat 64 0x4000003F }, { asid := 5, va := 0x200000, bits := 16, pte := BitVec.ofNat 64 0x5000003F }, { asid := 5, va := 0x210000, bits := 16, pte := BitVec.ofNat 64 0x60000037 }]
def SMv (v : Mover) (l : List (Nat × List Byte)) : State := { mk { tileX with st := .reset } with
  top := { st := .ready, hbmUp := 1 }, clk := { gt := 0x123456789A }, mem := { phys := physD l }
  mmu := { ctx := [(2, 0x80000005)], tlbs := [(2053, tlbM)] }
  eng := { mov := [(5, v), (9, { en := true })], ctrGrant := [(7, some 2)], exp := [(1, { en := true, st := .idle })] } }
def ent : MovEntry := { num := 3, released := true, va := 0x1000, ctx := 2, tile := 3, words := none}
def mvs (s : MovState) (sus : Bool := false) (en : Bool := true) : Mover := { en := en, st := s, ctx := 2, granted := true, nextNum := 4, suspend := sus }
def dG : List W64 := desc 3 16 4 1 0 0x200000 0 [0,0,0,0] 0 0 0x3000
def pat (n k : Nat) : List Byte := (List.range n).map fun i => BitVec.ofNat 8 (i * 7 + k + i / 256 * 3)
def rn (d : List W64) (cur : Nat) : Running := { entry := ent, words := d, cursor := cur }
def mem0 : List (Nat × List Byte) := [(0x40002000, pat 4 5), (0x40003000, bytesOf [0x123, 0x1F000000000000F, 0x200000000000000, 0x77]), (0x50000000, pat 4 9)]

def MoversLists_w1 : State := SMv   (have __src := mvs MovState.running;   { en := __src.en, drain := __src.drain, suspend := __src.suspend, ctx := __src.ctx, granted := __src.granted, st := __src.st, was := __src.was, lastStatus := __src.lastStatus, completed := __src.completed, curHi := __src.curHi, queue := __src.queue, run := some (rn dG 15), nextNum := __src.nextNum, faultSeq := __src.faultSeq, abortCause := __src.abortCause })   mem0

def MoversLists_w2 : Running := { entry := { num := 3, released := true, va := 4096#64, ctx := 2, tile := 3, words := none }, words := [3458764513820540928#64, 0#64, 2097152#64, 281492156579856#64, 0#64, 0#64, 0#64, 0#64, 0#64, 0#64, 12288#64, 0#64, 0#64, 0#64, 0#64, 0#64], cursor := 15, seq := 0#8 }

def MoversLists_w3 : State := SMv   (have __src := mvs MovState.running;   { en := __src.en, drain := __src.drain, suspend := __src.suspend, ctx := __src.ctx, granted := __src.granted, st := __src.st, was := __src.was, lastStatus := __src.lastStatus, completed := __src.completed, curHi := __src.curHi, queue := __src.queue, run := some (rn dG 32), nextNum := __src.nextNum, faultSeq := __src.faultSeq, abortCause := __src.abortCause })   mem0

def MoversLists_w4 : Running := { entry := { num := 3, released := true, va := 4096#64, ctx := 2, tile := 3, words := none }, words := [3458764513820540928#64, 0#64, 2097152#64, 281492156579856#64, 0#64, 0#64, 0#64, 0#64, 0#64, 0#64, 12288#64, 0#64, 0#64, 0#64, 0#64, 0#64], cursor := 32, seq := 0#8 }

theorem met_MoversLists_1 :
    (MoversLists_w1.Inv) ∧
    (MoversLists_w1.Still) ∧
    ((MoversLists_w1.mover ↑0 ↑5).st = MovState.running ∨ (MoversLists_w1.mover ↑0 ↑5).st = MovState.draining) ∧
    ((MoversLists_w1.mover ↑0 ↑5).run = some MoversLists_w2) ∧
    (MoversLists_w2.done = false) ∧
    (MoversLists_w2.words ≠ []) ∧
    (MoversLists_w2.entry.words = none) ∧
    (MoversLists_w2.verdict = none) ∧
    ((MoversLists_w1.mover ↑0 ↑5).suspend = false) ∧
    (MoversLists_w1.here 1073754112) ∧
    ((BitVec.extractLsb' 60 4 (MoversLists_w2.words.getD 0 0)).toNat = 3 ∨ (BitVec.extractLsb' 60 4 (MoversLists_w2.words.getD 0 0)).toNat = 4) ∧
    (MoversLists_w2.cursor < (BitVec.extractLsb' 0 32 (MoversLists_w2.words.getD 3 0)).toNat * (BitVec.extractLsb' 32 16 (MoversLists_w2.words.getD 3 0)).toNat * (BitVec.extractLsb' 48 16 (MoversLists_w2.words.getD 3 0)).toNat) ∧
    (∀ (p : Nat × Option Nat), MoversLists_w2.piece = some p → p.fst ≠ MoversLists_w2.cursor / (BitVec.extractLsb' 0 32 (MoversLists_w2.words.getD 3 0)).toNat % (BitVec.extractLsb' 32 16 (MoversLists_w2.words.getD 3 0)).toNat) ∧
    (MoversLists_w1.translate (Requester.mover ↑0 ↑5) MoversLists_w2.entry.ctx (MoversLists_w1.ctxAsid MoversLists_w2.entry.ctx) ((BitVec.extractLsb' 0 57 (MoversLists_w2.words.getD 10 0)).toNat + 8 * (MoversLists_w2.cursor / (BitVec.extractLsb' 0 32 (MoversLists_w2.words.getD 3 0)).toNat % (BitVec.extractLsb' 32 16 (MoversLists_w2.words.getD 3 0)).toNat)) Access.moverSrc false = Xlat.hit 1073754112) ∧
    (ofLe (Tab.readN 0 MoversLists_w1.mem.phys 1073754112 8) < 2 ^ 57) :=
  by refine ⟨inv_of (by decide +kernel), still_of (by decide +kernel), ?_, rfl, ?_, ?_, ?_, ?_, ?_, here_of (by decide +kernel), ?_⟩ <;> and_intros <;> decide +kernel

theorem met_MoversLists_2 :
    (MoversLists_w3.Inv) ∧
    (MoversLists_w3.Still) ∧
    ((MoversLists_w3.mover ↑0 ↑5).st = MovState.running ∨ (MoversLists_w3.mover ↑0 ↑5).st = MovState.draining) ∧
    ((MoversLists_w3.mover ↑0 ↑5).run = some MoversLists_w4) ∧
    (MoversLists_w4.done = false) ∧
    (MoversLists_w4.words ≠ []) ∧
    (MoversLists_w4.entry.words = none) ∧
    (MoversLists_w4.verdict = none) ∧
    ((MoversLists_w3.mover ↑0 ↑5).suspend = false) ∧
    (MoversLists_w3.here 1073754128) ∧
    ((BitVec.extractLsb' 60 4 (MoversLists_w4.words.getD 0 0)).toNat = 3 ∨ (BitVec.extractLsb' 60 4 (MoversLists_w4.words.getD 0 0)).toNat = 4) ∧
    (MoversLists_w4.cursor < (BitVec.extractLsb' 0 32 (MoversLists_w4.words.getD 3 0)).toNat * (BitVec.extractLsb' 32 16 (MoversLists_w4.words.getD 3 0)).toNat * (BitVec.extractLsb' 48 16 (MoversLists_w4.words.getD 3 0)).toNat) ∧
    (∀ (p : Nat × Option Nat), MoversLists_w4.piece = some p → p.fst ≠ MoversLists_w4.cursor / (BitVec.extractLsb' 0 32 (MoversLists_w4.words.getD 3 0)).toNat % (BitVec.extractLsb' 32 16 (MoversLists_w4.words.getD 3 0)).toNat) ∧
    (MoversLists_w3.translate (Requester.mover ↑0 ↑5) MoversLists_w4.entry.ctx (MoversLists_w3.ctxAsid MoversLists_w4.entry.ctx) ((BitVec.extractLsb' 0 57 (MoversLists_w4.words.getD 10 0)).toNat + 8 * (MoversLists_w4.cursor / (BitVec.extractLsb' 0 32 (MoversLists_w4.words.getD 3 0)).toNat % (BitVec.extractLsb' 32 16 (MoversLists_w4.words.getD 3 0)).toNat)) Access.moverSrc false = Xlat.hit 1073754128) ∧
    (2 ^ 57 ≤ ofLe (Tab.readN 0 MoversLists_w3.mem.phys 1073754128 8)) :=
  by refine ⟨inv_of (by decide +kernel), still_of (by decide +kernel), ?_, rfl, ?_, ?_, ?_, ?_, ?_, here_of (by decide +kernel), ?_⟩ <;> and_intros <;> decide +kernel

end MoversLists

namespace MoversLists2

def W (op : Nat) (fl : Nat := 0) (tbl : Nat := 0) (ex : Nat := 0) : W64 := BitVec.ofNat 64 (op * 2^60 + fl * 2^57 + ex * 2^48 + tbl * 2^42)
def desc (op len n1 n2 src dst : Nat) (fl : Nat := 0) (st : List W64 := [0,0,0,0]) (w8 w9 w10 : W64 := 0) (tbl ex : Nat := 0) : List W64 :=
  [W op fl tbl ex, BitVec.ofNat 64 src, BitVec.ofNat 64 dst, BitVec.ofNat 64 (n2 * 2^48 + n1 * 2^32 + len)] ++ st ++ [w8, w9, w10, 0, 0, 0, 0, 0]
def physD (l : List (Nat × List Byte)) : Tab Byte := l.foldl (fun m p => Tab.writeN 0 m p.1 p.2) []
def bytesOf (l : List W64) : List Byte := l.flatMap fun w => toLe 8 w.toNat
def tlbM : List TlbEntry := [{ asid := 5, va := 0, bits := 21, pte := BitVec.ofNat 64 0x4000003F }, { asid := 5, va := 0x200000, bits := 16, pte := BitVec.ofNat 64 0x5000003F }, { asid := 5, va := 0x210000, bits := 16, pte := BitVec.ofNat 64 0x60000037 }]
def SMv (v : Mover) (l : List (Nat × List Byte)) : State := { mk { tileX with st := .reset } with
  top := { st := .ready, hbmUp := 1 }, clk := { gt := 0x123456789A }, mem := { phys := physD l }
  mmu := { ctx := [(2, 0x80000005)], tlbs := [(2053, tlbM)] }
  eng := { mov := [(5, v), (9, { en := true })], ctrGrant := [(7, some 2)], exp := [(1, { en := true, st := .idle })] } }
def ent : MovEntry := { num := 3, released := true, va := 0x1000, ctx := 2, tile := 3, words := none}
def mvs (s : MovState) (sus : Bool := false) (en : Bool := true) : Mover := { en := en, st := s, ctx := 2, granted := true, nextNum := 4, suspend := sus }
def dT : List W64 := desc 6 16448 1 1 0x100 0 0 [0,0,0,0] 0 0 0 9
def pat (n k : Nat) : List Byte := (List.range n).map fun i => BitVec.ofNat 8 (i * 7 + k + i / 256 * 3)
def rn (d : List W64) (cur : Nat) : Running := { entry := ent, words := d, cursor := cur }
def mem0 : List (Nat × List Byte) := [(0x40002000, pat 4 5), (0x40003000, bytesOf [0x123, 0x1F000000000000F, 0x200000000000000, 0x77]), (0x50000000, pat 4 9)]
def rT (b : Byte) : Running := { rn dT 16384 with buf := some b :: List.replicate 16383 (some 0) }

def MoversLists_w1 : State := SMv   (have __src := mvs MovState.running;   { en := __src.en, drain := __src.drain, suspend := __src.suspend, ctx := __src.ctx, granted := __src.granted, st := __src.st, was := __src.was, lastStatus := __src.lastStatus, completed := __src.completed, curHi := __src.curHi, queue := __src.queue, run := some (rn dT 256), nextNum := __src.nextNum, faultSeq := __src.faultSeq, abortCause := __src.abortCause })   mem0

def MoversLists_w2 : Running := { entry := { num := 3, released := true, va := 4096#64, ctx := 2, tile := 3, words := none }, words := [6917568610059681792#64, 256#64, 0#64, 281479271694400#64, 0#64, 0#64, 0#64, 0#64, 0#64, 0#64, 0#64, 0#64, 0#64, 0#64, 0#64, 0#64], cursor := 256, seq := 0#8 }

def MoversLists_w3 : State := SMv   (have __src := mvs MovState.running;   { en := __src.en, drain := __src.drain, suspend := __src.suspend, ctx := __src.ctx, granted := __src.granted, st := __src.st, was := __src.was, lastStatus := __src.lastStatus, completed := __src.completed, curHi := __src.curHi, queue := __src.queue, run := some (rT 2), nextNum := __src.nextNum, faultSeq := __src.faultSeq, abortCause := __src.abortCause })   mem0

def MoversLists_w4 : State := SMv   (have __src := mvs MovState.running;   { en := __src.en, drain := __src.drain, suspend := __src.suspend, ctx := __src.ctx, granted := __src.granted, st := __src.st, was := __src.was, lastStatus := __src.lastStatus, completed := __src.completed, curHi := __src.curHi, queue := __src.queue, run := some (rT 3), nextNum := __src.nextNum, faultSeq := __src.faultSeq, abortCause := __src.abortCause })   mem0

theorem met_MoversLists_1 :
    (MoversLists_w1.Inv) ∧
    (MoversLists_w1.Still) ∧
    ((MoversLists_w1.mover ↑0 ↑5).st = MovState.running ∨ (MoversLists_w1.mover ↑0 ↑5).st = MovState.draining) ∧
    ((MoversLists_w1.mover ↑0 ↑5).run = some MoversLists_w2) ∧
    (MoversLists_w2.done = false) ∧
    (MoversLists_w2.words ≠ []) ∧
    (MoversLists_w2.entry.words = none) ∧
    (MoversLists_w2.verdict = none) ∧
    ((MoversLists_w1.mover ↑0 ↑5).suspend = false) ∧
    (MoversLists_w1.here 1073742336) ∧
    ((BitVec.extractLsb' 60 4 (MoversLists_w2.words.getD 0 0)).toNat = 6) ∧
    ((BitVec.extractLsb' 0 32 (MoversLists_w2.words.getD 3 0)).toNat = 16448) ∧
    ((BitVec.extractLsb' 32 16 (MoversLists_w2.words.getD 3 0)).toNat = 1) ∧
    ((BitVec.extractLsb' 48 16 (MoversLists_w2.words.getD 3 0)).toNat = 1) ∧
    (MoversLists_w2.cursor < 16448) ∧
    (MoversLists_w2.poisoned = none) ∧
    (MoversLists_w1.translate (Requester.mover ↑0 ↑5) MoversLists_w2.entry.ctx (MoversLists_w1.ctxAsid MoversLists_w2.entry.ctx) (((BitVec.extractLsb' 0 57 (MoversLists_w2.words.getD 1 0)).toNat + MoversLists_w2.cursor) % 2 ^ 57) Access.moverSrc false = Xlat.hit 1073742336) ∧
    (MoversLists_w2.cursor + min (16448 - MoversLists_w2.cursor) (256 - ((BitVec.extractLsb' 0 57 (MoversLists_w2.words.getD 1 0)).toNat + MoversLists_w2.cursor) % 2 ^ 57 % 256) < 16448) :=
  by refine ⟨inv_of (by decide +kernel), still_of (by decide +kernel), ?_, rfl, ?_, ?_, ?_, ?_, ?_, here_of (by decide +kernel), ?_⟩ <;> and_intros <;> decide +kernel

theorem met_MoversLists_2 :
    (MoversLists_w3.Inv) ∧
    (MoversLists_w3.Still) ∧
    ((MoversLists_w3.mover ↑0 ↑5).st = MovState.running ∨ (MoversLists_w3.mover ↑0 ↑5).st = MovState.draining) ∧
    ((MoversLists_w3.mover ↑0 ↑5).run = some (rT 2)) ∧
    ((rT 2).done = false) ∧
    ((rT 2).words ≠ []) ∧
    ((rT 2).entry.words = none) ∧
    ((rT 2).verdict = none) ∧
    ((MoversLists_w3.mover ↑0 ↑5).suspend = false) ∧
    (MoversLists_w3.here 1073758464) ∧
    ((BitVec.extractLsb' 60 4 ((rT 2).words.getD 0 0)).toNat = 6) ∧
    ((BitVec.extractLsb' 0 32 ((rT 2).words.getD 3 0)).toNat = 16448) ∧
    ((BitVec.extractLsb' 32 16 ((rT 2).words.getD 3 0)).toNat = 1) ∧
    ((BitVec.extractLsb' 48 16 ((rT 2).words.getD 3 0)).toNat = 1) ∧
    ((rT 2).cursor < 16448) ∧
    ((rT 2).poisoned = none) ∧
    (MoversLists_w3.translate (Requester.mover ↑0 ↑5) (rT 2).entry.ctx (MoversLists_w3.ctxAsid (rT 2).entry.ctx) (((BitVec.extractLsb' 0 57 ((rT 2).words.getD 1 0)).toNat + (rT 2).cursor) % 2 ^ 57) Access.moverSrc false = Xlat.hit 1073758464) ∧
    ((rT 2).cursor + min (16448 - (rT 2).cursor) (256 - ((BitVec.extractLsb' 0 57 ((rT 2).words.getD 1 0)).toNat + (rT 2).cursor) % 2 ^ 57 % 256) = 16448) :=
  by refine ⟨inv_of (by decide +kernel), still_of (by decide +kernel), ?_, rfl, ?_, ?_, ?_, ?_, ?_, here_of (by decide +kernel), ?_⟩ <;> and_intros <;> decide +kernel

theorem met_MoversLists_3 :
    (MoversLists_w4.Inv) ∧
    (MoversLists_w4.Still) ∧
    ((MoversLists_w4.mover ↑0 ↑5).st = MovState.running ∨ (MoversLists_w4.mover ↑0 ↑5).st = MovState.draining) ∧
    ((MoversLists_w4.mover ↑0 ↑5).run = some (rT 3)) ∧
    ((rT 3).done = false) ∧
    ((rT 3).words ≠ []) ∧
    ((rT 3).entry.words = none) ∧
    ((rT 3).verdict = none) ∧
    ((MoversLists_w4.mover ↑0 ↑5).suspend = false) ∧
    (MoversLists_w4.here 1073758464) ∧
    ((BitVec.extractLsb' 60 4 ((rT 3).words.getD 0 0)).toNat = 6) ∧
    ((BitVec.extractLsb' 0 32 ((rT 3).words.getD 3 0)).toNat = 16448) ∧
    ((BitVec.extractLsb' 32 16 ((rT 3).words.getD 3 0)).toNat = 1) ∧
    ((BitVec.extractLsb' 48 16 ((rT 3).words.getD 3 0)).toNat = 1) ∧
    ((rT 3).cursor < 16448) ∧
    ((rT 3).poisoned = none) ∧
    (MoversLists_w4.translate (Requester.mover ↑0 ↑5) (rT 3).entry.ctx (MoversLists_w4.ctxAsid (rT 3).entry.ctx) (((BitVec.extractLsb' 0 57 ((rT 3).words.getD 1 0)).toNat + (rT 3).cursor) % 2 ^ 57) Access.moverSrc false = Xlat.hit 1073758464) ∧
    ((rT 3).cursor + min (16448 - (rT 3).cursor) (256 - ((BitVec.extractLsb' 0 57 ((rT 3).words.getD 1 0)).toNat + (rT 3).cursor) % 2 ^ 57 % 256) = 16448) :=
  by refine ⟨inv_of (by decide +kernel), still_of (by decide +kernel), ?_, rfl, ?_, ?_, ?_, ?_, ?_, here_of (by decide +kernel), ?_⟩ <;> and_intros <;> decide +kernel

end MoversLists2

namespace TileSaveRestore

def PS : Tab W64 := [(1, 209920941022710628), (2, 5), (15, 6036682821305568233)]
def far0 (k : FarKind) (n : Nat) : FarAccess := { id := n, kind := k, dest := .scalar 4, size := 8, va := 0, pa := 64, data := 9, cmp := 0, tagged := false}
def gr : Group := { bolt := 0, phys := 0, siltKib := 512, entry := 0x8047, tvec := 0, movers := 1, counters := 2}
def XT : Tile := { tileX with p := PS, v := [(1, 77), (2, 2^200+5)], silt := [(5, 0xF1), (6, 0x82), (7,3),(8, 0xFF), (263, 0x99)], acc := [(0, 5), (1025, 7)], eng := [(1, { mopa := 5 })], far := [far0 .store 3, far0 (.load true) 4, far0 (.amo 2) 5], storeErrs := [0x77, 0x88], sys := { tileX.sys with tctx := 0x10, tvec := 0x4000, ttimer := 500 } }
def SS (x : Tile) : State := { mk x with top := {st := .running, hbmUp := 1, reserveAt := [some 0, none, none, none]}, clk := { gt := 500, tileCycles := 10 }, ctxs := [(0, {st := .saved}), (2, { groups := [gr], st := .loaded })], tiles := [(3, x), (9, { tileX with armed := some (5, 9) })], mmu := { ctx := [(0, 0x80000001)], tlbs := [(3, [{ asid := 1, va := 0, bits := 21, pte := BitVec.ofNat 64 (0x40000000 + 0x3F) }])] } }
def S0 : State := SS { XT with stopping := true, far := [], saving := false }
def S2 : State := SS { st := .reset, restoring := true }

def TileSaveRestore_w1 : State := SS   (have __src := XT;   { s := __src.s, p := __src.p, v := __src.v, acc := __src.acc, pc := __src.pc, sPoison := __src.sPoison, vPoison := __src.vPoison, sys := __src.sys, eng := __src.eng, silt := __src.silt, siltBad := __src.siltBad, st := __src.st, stopping := true, saving := true, restoring := __src.restoring, resetting := __src.resetting, retireDue := __src.retireDue, farNext := __src.farNext, storeErrs := __src.storeErrs, releases := __src.releases, armed := __src.armed, hold := __src.hold, walkFault := __src.walkFault, fetchFault := __src.fetchFault, cuts := __src.cuts, longStop := __src.longStop, incoming := __src.incoming, haz := __src.haz, events := __src.events })

theorem met_TileSaveRestore_1 :
    (S0.Inv) ∧
    (S0.saveArea ↑3 = some 76506501120) ∧
    (S0.here 76506501120) ∧
    (S0.cmd.hostHeld = []) ∧
    ((S0.tile ↑3).saveReady = true) ∧
    ((S0.tile ↑3).siltBad = []) :=
  by refine ⟨inv_of (by decide +kernel), ?_, here_of (by decide +kernel), ?_⟩ <;> and_intros <;> decide +kernel

theorem met_TileSaveRestore_2 :
    (TileSaveRestore_w1.Inv) ∧
    (TileSaveRestore_w1.saveArea ↑3 = some 76506501120) ∧
    (TileSaveRestore_w1.here 76506501120) ∧
    (TileSaveRestore_w1.cmd.hostHeld = []) ∧
    ((TileSaveRestore_w1.tile ↑3).saving = true) ∧
    ((TileSaveRestore_w1.tile ↑3).stopping = true) ∧
    (TileSaveRestore_w1.Calm ↑3) :=
  by refine ⟨inv_of (by decide +kernel), ?_, here_of (by decide +kernel), ?_, ?_, ?_, calm_of (by decide +kernel)⟩ <;> decide +kernel

theorem met_TileSaveRestore_3 :
    (S2.Inv) ∧
    (S2.saveArea ↑3 = some 76506501120) ∧
    (S2.here 76506501120) ∧
    (S2.cmd.hostHeld = []) ∧
    ((S2.tile ↑3).restoring = true) ∧
    (S2.Calm ↑3) ∧
    (S2.mem.bad = []) ∧
    (ofLe (Tab.readN 0 S2.mem.phys (76506501120 + 795280) 8) = 0) ∧
    (ofLe (Tab.readN 0 S2.mem.phys (76506501120 + 795288) 8) = 0) ∧
    (ofLe (Tab.readN 0 S2.mem.phys (76506501120 + 795776) 8) < 2 ^ 63) :=
  by refine ⟨inv_of (by decide +kernel), ?_, here_of (by decide +kernel), ?_, ?_, calm_of (by decide +kernel), ?_⟩ <;> and_intros <;> decide +kernel

end TileSaveRestore

namespace MoversComplete

def W (op : Nat) (fl : Nat := 0) (tbl : Nat := 0) (ex : Nat := 0) : W64 := BitVec.ofNat 64 (op * 2^60 + fl * 2^57 + ex * 2^48 + tbl * 2^42)
def desc (op len n1 n2 src dst : Nat) (fl : Nat := 0) (st : List W64 := [0,0,0,0]) (w8 w9 w10 : W64 := 0) (tbl ex : Nat := 0) : List W64 :=
  [W op fl tbl ex, BitVec.ofNat 64 src, BitVec.ofNat 64 dst, BitVec.ofNat 64 (n2 * 2^48 + n1 * 2^32 + len)] ++ st ++ [w8, w9, w10, 0, 0, 0, 0, 0]
def physD (l : List (Nat × List Byte)) : Tab Byte := l.foldl (fun m p => Tab.writeN 0 m p.1 p.2) []
def tlbM : List TlbEntry := [{ asid := 5, va := 0, bits := 21, pte := BitVec.ofNat 64 0x4000003F }, { asid := 5, va := 0x200000, bits := 16, pte := BitVec.ofNat 64 0x5000003F }, { asid := 5, va := 0x210000, bits := 16, pte := BitVec.ofNat 64 0x60000037 }]
def SMv (v : Mover) (l : List (Nat × List Byte)) : State := { mk { tileX with st := .reset } with
  top := { st := .ready, hbmUp := 1 }, clk := { gt := 0x123456789A }, mem := { phys := physD l }
  mmu := { ctx := [(2, 0x80000005)], tlbs := [(2053, tlbM)] }
  eng := { mov := [(5, v), (9, { en := true })], ctrGrant := [(7, some 2)], exp := [(1, { en := true, st := .idle })] } }
def ent : MovEntry := { num := 3, released := true, va := 0x1000, ctx := 2, tile := 3, words := none}
def mvs (s : MovState) (sus : Bool := false) (en : Bool := true) : Mover := { en := en, st := s, ctx := 2, granted := true, nextNum := 4, suspend := sus }
def rn (d : List W64) (cur : Nat) : Running := { entry := ent, words := d, cursor := cur }
def dFl : List W64 := desc 2 300 1 1 5 0x210000 7 [0,0,0,0] (BitVec.ofNat 64 (0xABCD * 2^32 + 3 * 2^19 + 0x80)) (BitVec.ofNat 64 (7 * 2^16 + 5))
def dn (d : List W64) (c : Nat) : Running := { rn d c with done := true }
def MC (v : Mover) (r : Running) : State := { SMv { v with run := some r } [] with tiles := [(3, { tileX with st := .stopped })], clk := { gt := 0x123456789A } }
def stOf (r : Running) : Nat := match r.verdict with
      | some d => d.1
      | none => if r.poisoned.isSome then 7 else if r.drained then 2 else 1
def dtOf (r : Running) : Nat := match r.verdict with | some d => d.2 | none => 0

def MoversComplete_w1 : State := have __src := MC (mvs MovState.running) (dn dFl 300); { pending := __src.pending, top := __src.top, clk := __src.clk,   tiles :=     [(3,         have __src := tileX;         { s := __src.s, p := __src.p, v := __src.v, acc := __src.acc, pc := __src.pc, sPoison := __src.sPoison, vPoison := __src.vPoison, sys := __src.sys, eng := __src.eng, silt := __src.silt, siltBad := __src.siltBad, st := TileState.halted, stopping := __src.stopping, saving := __src.saving, restoring := __src.restoring, resetting := __src.resetting, retireDue := __src.retireDue, far := __src.far, farNext := __src.farNext, storeErrs := __src.storeErrs, releases := __src.releases, armed := __src.armed, hold := __src.hold, walkFault := __src.walkFault, fetchFault := __src.fetchFault, cuts := __src.cuts, longStop := __src.longStop, incoming := __src.incoming, haz := __src.haz, events := __src.events })],   mem := __src.mem, mmu := __src.mmu, eng := __src.eng, gz := __src.gz, cmd := __src.cmd, ctxs := [(2, { groups := [{ bolt := 0, phys := 0, siltKib := 0, entry := 0, tvec := 0, movers := 0, counters := 0 }] })], cads := __src.cads, pow := __src.pow, gvn := __src.gvn, res := __src.res, rfw := __src.rfw, clm := __src.clm, pairs := __src.pairs, err := __src.err, trust := __src.trust, free := __src.free }

def MoversComplete_w2 : Running := { entry := { num := 3, released := true, va := 4096#64, ctx := 2, tile := 3, words := none }, words := [3314649325744685056#64, 5#64, 2162688#64, 281479271678252#64, 0#64, 0#64, 0#64, 0#64, 188896958218368#64, 458757#64, 0#64, 0#64, 0#64, 0#64, 0#64, 0#64], cursor := 300, seq := 0#8, done := true }

theorem met_MoversComplete_1 :
    (MoversComplete_w1.Inv) ∧
    (MoversComplete_w1.Still) ∧
    ((MoversComplete_w1.mover ↑0 ↑5).st = MovState.running ∨ (MoversComplete_w1.mover ↑0 ↑5).st = MovState.draining) ∧
    ((MoversComplete_w1.mover ↑0 ↑5).suspend = false) ∧
    ((MoversComplete_w1.mover ↑0 ↑5).run = some MoversComplete_w2) ∧
    (MoversComplete_w2.done = true) ∧
    (MoversComplete_w2.lost = []) ∧
    (MoversComplete_w2.words ≠ []) ∧
    (MoversComplete_w2.entry.words = none) ∧
    (MoversComplete_w2.entry.work = FwWork.none) ∧
    (MoversComplete_w2.noWrite = false) ∧
    (dtOf MoversComplete_w2 < 16) ∧
    (stOf MoversComplete_w2 < 256) ∧
    (MoversComplete_w1.translate (Requester.mover ↑0 ↑5) MoversComplete_w2.entry.ctx (MoversComplete_w1.ctxAsid MoversComplete_w2.entry.ctx) (BitVec.toNat MoversComplete_w2.entry.va + 112) Access.moverDst false = Xlat.hit 1073746032) ∧
    (MoversComplete_w1.here 1073746032) :=
  by refine ⟨inv_of (by decide +kernel), still_of (by decide +kernel), ?_, ?_, rfl, ?_, ?_, ?_, ?_, ?_, ?_, ?_, ?_, ?_,
   here_of (by decide +kernel)⟩ <;> decide +kernel

end MoversComplete

namespace MoversControl

def W (op : Nat) (fl : Nat := 0) (tbl : Nat := 0) (ex : Nat := 0) : W64 := BitVec.ofNat 64 (op * 2^60 + fl * 2^57 + ex * 2^48 + tbl * 2^42)
def desc (op len n1 n2 src dst : Nat) (fl : Nat := 0) (st : List W64 := [0,0,0,0]) (w8 w9 w10 : W64 := 0) (tbl ex : Nat := 0) : List W64 :=
  [W op fl tbl ex, BitVec.ofNat 64 src, BitVec.ofNat 64 dst, BitVec.ofNat 64 (n2 * 2^48 + n1 * 2^32 + len)] ++ st ++ [w8, w9, w10, 0, 0, 0, 0, 0]
def physD (l : List (Nat × List Byte)) : Tab Byte := l.foldl (fun m p => Tab.writeN 0 m p.1 p.2) []
def tlbM : List TlbEntry := [{ asid := 5, va := 0, bits := 21, pte := BitVec.ofNat 64 0x4000003F }, { asid := 5, va := 0x200000, bits := 16, pte := BitVec.ofNat 64 0x5000003F }, { asid := 5, va := 0x210000, bits := 16, pte := BitVec.ofNat 64 0x60000037 }]
def SMv (v : Mover) (l : List (Nat × List Byte)) : State := { mk { tileX with st := .reset } with
  top := { st := .ready, hbmUp := 1 }, clk := { gt := 0x123456789A }, mem := { phys := physD l }
  mmu := { ctx := [(2, 0x80000005)], tlbs := [(2053, tlbM)] }
  eng := { mov := [(5, v), (9, { en := true })], ctrGrant := [(7, some 2)], exp := [(1, { en := true, st := .idle })] } }
def ent : MovEntry := { num := 3, released := true, va := 0x1000, ctx := 2, tile := 3, words := none}
def mvs (s : MovState) (sus : Bool := false) (en : Bool := true) : Mover := { en := en, st := s, ctx := 2, granted := true, nextNum := 4, suspend := sus }
def dCopy : List W64 := desc 1 100 3 2 0x2010 0x200005 0 [0x100, 0x200, 0x300, 0x400]
def rn (d : List W64) (cur : Nat) : Running := { entry := ent, words := d, cursor := cur }
def MV (v : Mover) (st : ModState := .ready) : State := { SMv v [] with tiles := [(3, { tileX with st := .stopped })], top := { st := st, hbmUp := 1 } }
def q1 : List MovEntry := [{ent with num := 4}]

def MoversControl_w1 : State := MV { en := true, ctx := 2, granted := true, st := MovState.idle, nextNum := 5, faultSeq := if MovState.idle = MovState.paused then some 5 else none }

def MoversControl_w2 : State := MV { en := true, ctx := 2, granted := true, st := MovState.suspended, nextNum := 5, faultSeq := if MovState.suspended = MovState.paused then some 5 else none }

def MoversControl_w3 : State := MV   (have __src := mvs MovState.idle;   { en := __src.en, drain := __src.drain, suspend := __src.suspend, ctx := __src.ctx, granted := __src.granted, st := __src.st, was := __src.was, lastStatus := __src.lastStatus, completed := __src.completed, curHi := __src.curHi, queue := __src.queue, nextNum := __src.nextNum, faultSeq := __src.faultSeq, abortCause := __src.abortCause })   ModState.faulted

def MoversControl_w4 : State := MV { en := true, ctx := 2, granted := true, st := MovState.paused, nextNum := 5, faultSeq := if MovState.paused = MovState.paused then some 5 else none }

def MoversControl_w5 : State := MV { en := true, suspend := true, ctx := 2, granted := true, st := MovState.running, nextNum := 5, faultSeq := if MovState.running = MovState.paused then some 5 else none }

def MoversControl_w6 : State := MV { en := true, suspend := true, ctx := 2, granted := true, st := MovState.idle, nextNum := 5, faultSeq := if MovState.idle = MovState.paused then some 5 else none }

def MoversControl_w7 : State := MV { suspend := true, ctx := 2, granted := true, st := MovState.draining, nextNum := 5, faultSeq := if MovState.draining = MovState.paused then some 5 else none }

def MoversControl_w8 : State := MV { en := true, ctx := 2, granted := true, st := MovState.idle, queue := q1, nextNum := 5, faultSeq := if MovState.idle = MovState.paused then some 5 else none }

def MoversControl_w9 : State := MV { ctx := 2, granted := true, st := MovState.draining, nextNum := 5, faultSeq := if MovState.draining = MovState.paused then some 5 else none }

def MoversControl_w10 : State := MV { drain := true, ctx := 2, granted := true, st := MovState.draining, nextNum := 5, faultSeq := if MovState.draining = MovState.paused then some 5 else none }

def MoversControl_w11 : State := MV { ctx := 2, granted := true, st := MovState.aborting, run := some (rn dCopy 7), nextNum := 5, faultSeq := if MovState.aborting = MovState.paused then some 5 else none }

def MoversControl_w12 : Running := { entry := { num := 3, released := true, va := 4096#64, ctx := 2, tile := 3, words := none }, words := [1152921504606846976#64, 8208#64, 2097157#64, 562962838323300#64, 256#64, 512#64, 768#64, 1024#64, 0#64, 0#64, 0#64, 0#64, 0#64, 0#64, 0#64, 0#64], cursor := 7, seq := 0#8 }

def MoversControl_w13 : State := MV { en := true, ctx := 2, granted := true, st := MovState.paused, run := some (rn dCopy 7), nextNum := 5, faultSeq := if MovState.paused = MovState.paused then some 5 else none }

def MoversControl_w14 : State := MV { ctx := 2, granted := true, nextNum := 5, faultSeq := if MovState.disabled = MovState.paused then some 5 else none }

def MoversControl_w15 : State := have __src := MV (mvs MovState.idle); { pending := __src.pending, top := __src.top, clk := __src.clk, tiles := __src.tiles, mem := __src.mem, mmu := __src.mmu, eng := __src.eng, gz := __src.gz, cmd := { link := PortState.up }, ctxs := __src.ctxs, cads := __src.cads, pow := __src.pow, gvn := __src.gvn, res := __src.res, rfw := __src.rfw, clm := __src.clm, pairs := __src.pairs, err := __src.err, trust := __src.trust, free := __src.free }

theorem met_MoversControl_1 :
    (MoversControl_w1.Inv) ∧
    (MoversControl_w1.Still) ∧
    (MoversControl_w1.pathUp Path.aelconA = true) ∧
    (pathSecure Path.aelconA = true) ∧
    ((MoversControl_w1.mover ↑0 ↑5).en = true) ∧
    ((MoversControl_w1.mover ↑0 ↑5).st = MovState.idle ∨ (MoversControl_w1.mover ↑0 ↑5).st = MovState.running) ∧
    (((MoversControl_w1.mover ↑0 ↑5).run.isSome || !(MoversControl_w1.mover ↑0 ↑5).queue.isEmpty) = false) ∧
    ((MoversControl_w1.mover ↑0 ↑5).st ≠ MovState.suspended) ∧
    ((MoversControl_w1.mover ↑0 ↑5).st ≠ MovState.paused) :=
  by refine ⟨inv_of (by decide +kernel), still_of (by decide +kernel), ?_⟩ <;> and_intros <;> decide +kernel

theorem met_MoversControl_2 :
    (MoversControl_w2.Inv) ∧
    (MoversControl_w2.Still) ∧
    (MoversControl_w2.pathUp Path.aelconA = true) ∧
    (pathSecure Path.aelconA = true) ∧
    ((MoversControl_w2.mover ↑0 ↑5).en = true) ∧
    ((MoversControl_w2.mover ↑0 ↑5).st = MovState.suspended) :=
  by refine ⟨inv_of (by decide +kernel), still_of (by decide +kernel), ?_⟩ <;> and_intros <;> decide +kernel

theorem met_MoversControl_3 :
    (MoversControl_w3.Inv) ∧
    (MoversControl_w3.Still) ∧
    (MoversControl_w3.pathUp Path.aelconA = true) ∧
    (pathSecure Path.aelconA = true) ∧
    (MoversControl_w3.top.st = ModState.faulted) :=
  by refine ⟨inv_of (by decide +kernel), still_of (by decide +kernel), ?_⟩ <;> and_intros <;> decide +kernel

theorem met_MoversControl_4 :
    (MoversControl_w4.Inv) ∧
    (MoversControl_w4.Still) ∧
    (MoversControl_w4.pathUp Path.aelconA = true) ∧
    (pathSecure Path.aelconA = true) ∧
    ((MoversControl_w4.mover ↑0 ↑5).st = MovState.paused) :=
  by refine ⟨inv_of (by decide +kernel), still_of (by decide +kernel), ?_⟩ <;> and_intros <;> decide +kernel

theorem met_MoversControl_5 :
    (MoversControl_w5.Inv) ∧
    (MoversControl_w5.Still) ∧
    (MoversControl_w5.pathUp Path.aelconA = true) ∧
    ((MoversControl_w5.mover ↑0 ↑5).suspend = true) ∧
    ((MoversControl_w5.mover ↑0 ↑5).st = MovState.running) :=
  by refine ⟨inv_of (by decide +kernel), still_of (by decide +kernel), ?_⟩ <;> and_intros <;> decide +kernel

theorem met_MoversControl_6 :
    (MoversControl_w6.Inv) ∧
    (MoversControl_w6.Still) ∧
    (MoversControl_w6.pathUp Path.aelconA = true) ∧
    ((MoversControl_w6.mover ↑0 ↑5).suspend = true) ∧
    ((MoversControl_w6.mover ↑0 ↑5).st = MovState.idle) :=
  by refine ⟨inv_of (by decide +kernel), still_of (by decide +kernel), ?_⟩ <;> and_intros <;> decide +kernel

theorem met_MoversControl_7 :
    (MoversControl_w7.Inv) ∧
    (MoversControl_w7.Still) ∧
    (MoversControl_w7.pathUp Path.aelconA = true) ∧
    ((MoversControl_w7.mover ↑0 ↑5).suspend = true) ∧
    ((MoversControl_w7.mover ↑0 ↑5).st = MovState.draining) :=
  by refine ⟨inv_of (by decide +kernel), still_of (by decide +kernel), ?_⟩ <;> and_intros <;> decide +kernel

theorem met_MoversControl_8 :
    (MoversControl_w8.Inv) ∧
    (MoversControl_w8.Still) ∧
    (MoversControl_w8.pathUp Path.aelconA = true) ∧
    (pathSecure Path.aelconA = true) ∧
    ((MoversControl_w8.mover ↑0 ↑5).en = true) ∧
    ((MoversControl_w8.mover ↑0 ↑5).st = MovState.idle ∨ (MoversControl_w8.mover ↑0 ↑5).st = MovState.running) ∧
    (((MoversControl_w8.mover ↑0 ↑5).run.isSome || !(MoversControl_w8.mover ↑0 ↑5).queue.isEmpty) = true) :=
  by refine ⟨inv_of (by decide +kernel), still_of (by decide +kernel), ?_⟩ <;> and_intros <;> decide +kernel

theorem met_MoversControl_9 :
    (MoversControl_w9.Inv) ∧
    (MoversControl_w9.Still) ∧
    (MoversControl_w9.pathUp Path.aelconA = true) ∧
    (pathSecure Path.aelconA = true) ∧
    ((MoversControl_w9.mover ↑0 ↑5).en = false) ∧
    ((MoversControl_w9.mover ↑0 ↑5).st = MovState.draining ∨ (MoversControl_w9.mover ↑0 ↑5).st = MovState.aborting ∨ (MoversControl_w9.mover ↑0 ↑5).st = MovState.paused ∨ (MoversControl_w9.mover ↑0 ↑5).st = MovState.suspended ∧ ((MoversControl_w9.mover ↑0 ↑5).run.isSome || !(MoversControl_w9.mover ↑0 ↑5).queue.isEmpty) = true) :=
  by refine ⟨inv_of (by decide +kernel), still_of (by decide +kernel), ?_⟩ <;> and_intros <;> decide +kernel

theorem met_MoversControl_10 :
    (MoversControl_w10.Inv) ∧
    (MoversControl_w10.Still) ∧
    (MoversControl_w10.pathUp Path.aelconA = true) ∧
    (pathSecure Path.aelconA = true) ∧
    ((MoversControl_w10.mover ↑0 ↑5).en = false) ∧
    ((MoversControl_w10.mover ↑0 ↑5).drain = true) ∧
    ((MoversControl_w10.mover ↑0 ↑5).st = MovState.draining) :=
  by refine ⟨inv_of (by decide +kernel), still_of (by decide +kernel), ?_⟩ <;> and_intros <;> decide +kernel

theorem met_MoversControl_11 :
    (MoversControl_w11.Inv) ∧
    (MoversControl_w11.Still) ∧
    (MoversControl_w11.pathUp Path.aelconA = true) ∧
    ((MoversControl_w11.mover ↑0 ↑5).st = MovState.aborting) ∧
    ((MoversControl_w11.mover ↑0 ↑5).en = false) ∧
    ((MoversControl_w11.mover ↑0 ↑5).suspend = false) ∧
    ((MoversControl_w11.mover ↑0 ↑5).run = some MoversControl_w12) ∧
    (MoversControl_w12.words ≠ []) ∧
    (MoversControl_w12.done = false) ∧
    (MoversControl_w12.entry.work = FwWork.none) ∧
    (MoversControl_w12.entry.words.isSome = true ∨ ∃ pa, MoversControl_w11.translate (Requester.mover ↑0 ↑5) MoversControl_w12.entry.ctx (MoversControl_w11.ctxAsid MoversControl_w12.entry.ctx) (BitVec.toNat MoversControl_w12.entry.va + 112) Access.moverDst false = Xlat.hit pa ∧ MoversControl_w11.here pa) :=
  by refine ⟨inv_of (by decide +kernel), still_of (by decide +kernel), ?_, ?_, ?_, ?_, rfl, ?_, ?_, ?_,
   (.inr ⟨0x40001070, by decide +kernel, here_of (by decide +kernel)⟩)⟩ <;> decide +kernel

theorem met_MoversControl_12 :
    (MoversControl_w13.Inv) ∧
    (MoversControl_w13.Still) ∧
    (MoversControl_w13.pathUp Path.aelconA = true) ∧
    (pathSecure Path.aelconA = true) ∧
    ((MoversControl_w13.mover ↑0 ↑5).st = MovState.paused) ∧
    ((MoversControl_w13.mover ↑0 ↑5).en = true) ∧
    ((MoversControl_w13.mover ↑0 ↑5).run = some MoversControl_w12) ∧
    (MoversControl_w12.entry.work = FwWork.none) ∧
    ((MoversControl_w13.mover ↑0 ↑5).suspend = false) ∧
    (MoversControl_w12.done = true ∨ ∃ pa, MoversControl_w13.translate (Requester.mover ↑0 ↑5) MoversControl_w12.entry.ctx (MoversControl_w13.ctxAsid MoversControl_w12.entry.ctx) (BitVec.toNat MoversControl_w12.entry.va + 112) Access.moverDst false = Xlat.hit pa ∧ MoversControl_w13.here pa) :=
  by refine ⟨inv_of (by decide +kernel), still_of (by decide +kernel), ?_, ?_, ?_, ?_, rfl, ?_, ?_,
   (.inr ⟨0x40001070, by decide +kernel, here_of (by decide +kernel)⟩)⟩ <;> decide +kernel

theorem met_MoversControl_13 :
    (MoversControl_w14.Inv) ∧
    (MoversControl_w14.Still) ∧
    (MoversControl_w14.pathUp Path.aelconA = true) ∧
    (pathSecure Path.aelconA = true) ∧
    ((MoversControl_w14.mover ↑0 ↑5).en = false) ∧
    ((MoversControl_w14.mover ↑0 ↑5).st = MovState.disabled) ∧
    (MoversControl_w14.top.st ≠ ModState.faulted) :=
  by refine ⟨inv_of (by decide +kernel), still_of (by decide +kernel), ?_⟩ <;> and_intros <;> decide +kernel

theorem met_MoversControl_14 :
    (MoversControl_w15.Inv) ∧
    (MoversControl_w15.Still) ∧
    (MoversControl_w15.pathUp Path.bursen = true) ∧
    (pathSecure Path.bursen = false) :=
  by refine ⟨inv_of (by decide +kernel), still_of (by decide +kernel), ?_⟩ <;> and_intros <;> decide +kernel

end MoversControl

namespace PortStates

def pk (typ : BitVec 8) (dst : BitVec 6) (len : Nat) (pl : List Byte) (src : BitVec 6 := 2) : Packet := { cls := 0, hop := 0, dst := dst, src := src, flow := 1, len := len, epoch := 0, addr := 0x100, tagged := false, cadence := 0, period := 0, txn := 77, ctr := 0, inc := 0, rstatus := 0, aop := 0, seq := 5, typ := typ, payload := pl }
def GP (v : Port) (a : Nat := 1) (b : Nat := 0) : State := { mk { tileX with st := .stopped } with
  top := { st := .ready, hbmUp := 1 }, clk := { gt := 0x123456789A }, cmd := { link := .up }, clm := { claimA := BitVec.ofNat _ a, claimB := BitVec.ofNat _ b }
  gz := { ports := [(4, v)], domain := 7, joined := true, me := 3, members := 0xF, routes := [(0x20, 4)] } }
def tf (n : BitVec 12) (t : W64 := 0x1234560000) : TxFrame := { seq := n, packets := [pk 1 2 64 []], sentAt := t }
def pUp : Port := { en := true, st := .up, peerValid := true, peerMember := 2, peerDomain := 7, lanes := 0xFF, txSeq := 9, rxSeq := 5, unacked := [tf 7, tf 8] }

def PortStates_w1 : State := GP   (have __src := pUp;   { en := __src.en, drain := __src.drain, timing := __src.timing, st := __src.st, peerValid := __src.peerValid, peerMember := __src.peerMember, peerPort := __src.peerPort, peerDomain := __src.peerDomain, retries := __src.retries, uncorrected := __src.uncorrected, txSeq := __src.txSeq, rxSeq := __src.rxSeq, unacked := __src.unacked, replays := 16, creditsUsed := __src.creditsUsed, txq := __src.txq, partBytes := __src.partBytes, ackDue := __src.ackDue, nakDue := __src.nakDue, rxBuf := __src.rxBuf, creditsDue := __src.creditsDue, wire := __src.wire, fails := __src.fails, failTimes := __src.failTimes, lanes := __src.lanes })

def PortStates_w2 : State := GP   (have __src := pUp;   { en := __src.en, drain := __src.drain, timing := __src.timing, st := __src.st, peerValid := __src.peerValid, peerMember := __src.peerMember, peerPort := __src.peerPort, peerDomain := __src.peerDomain, retries := __src.retries, uncorrected := __src.uncorrected, txSeq := __src.txSeq, rxSeq := __src.rxSeq, replays := __src.replays, creditsUsed := __src.creditsUsed, txq := __src.txq, partBytes := __src.partBytes, ackDue := __src.ackDue, nakDue := __src.nakDue, rxBuf := __src.rxBuf, creditsDue := __src.creditsDue, wire := __src.wire, fails := __src.fails, failTimes := __src.failTimes, lanes := __src.lanes })

def PortStates_w3 : State := GP { timing := true, lanes := 3 }

def PortStates_w4 : State := GP { en := true, st := PortState.training, lanes := 1 }

def PortStates_w5 : State := GP { en := true, st := PortState.failed, rxSeq := 4, fails := 3, failTimes := [5] }

theorem met_PortStates_1 :
    (PortStates_w1.Inv) ∧
    (PortStates_w1.pathUp Path.bursen = true) ∧
    (pathSecure Path.bursen = false) :=
  by refine ⟨inv_of (by decide +kernel), ?_⟩ <;> and_intros <;> decide +kernel

theorem met_PortStates_2 :
    (PortStates_w1.Inv) ∧
    (PortStates_w1.pathUp Path.aelconB = true) ∧
    (pathSecure Path.aelconB = true) ∧
    (PortStates_w1.mayDrive Path.aelconB = false) :=
  by refine ⟨inv_of (by decide +kernel), ?_⟩ <;> and_intros <;> decide +kernel

theorem met_PortStates_3 :
    (PortStates_w1.Inv) ∧
    (PortStates_w1.pathUp Path.aelconA = true) ∧
    (pathSecure Path.aelconA = true) ∧
    (PortStates_w1.mayDrive Path.aelconA = true) ∧
    ((PortStates_w1.port ↑4).st ≠ PortState.failed) ∧
    ((PortStates_w1.port ↑4).en = true) ∧
    ((PortStates_w1.port ↑4).st = PortState.up) ∧
    (16 ≤ (PortStates_w1.port ↑4).replays ∨ ∃ f l, (PortStates_w1.port ↑4).unacked = f :: l ∧ 15625 ≤ BitVec.toNat (PortStates_w1.clk.gt - f.sentAt)) :=
  by refine ⟨inv_of (by decide +kernel), ?_, ?_, ?_, ?_, ?_, ?_,
   (by first | exact .inl (by decide +kernel) | exact .inr ⟨_, _, rfl, by decide +kernel⟩ | exact .inr (fun h => by rcases h with h | ⟨_, _, h, h2⟩ <;> first | exact absurd h (by decide +kernel) | (cases h; done) | (cases h; exact absurd h2 (by decide +kernel))))⟩ <;> decide +kernel

theorem met_PortStates_4 :
    (PortStates_w2.Inv) ∧
    ((PortStates_w2.port ↑4).st ≠ PortState.up ∧ (PortStates_w2.port ↑4).st ≠ PortState.draining ∨ ¬(16 ≤ (PortStates_w2.port ↑4).replays ∨ ∃ f l, (PortStates_w2.port ↑4).unacked = f :: l ∧ 15625 ≤ BitVec.toNat (PortStates_w2.clk.gt - f.sentAt))) :=
  ⟨inv_of (by decide +kernel),
   (by first | exact .inl (by decide +kernel) | exact .inr ⟨_, _, rfl, by decide +kernel⟩ | exact .inr (fun h => by rcases h with h | ⟨_, _, h, h2⟩ <;> first | exact absurd h (by decide +kernel) | (cases h; done) | (cases h; exact absurd h2 (by decide +kernel))))⟩

theorem met_PortStates_5 :
    (PortStates_w3.Inv) ∧
    (PortStates_w3.pathUp Path.aelconA = true) ∧
    (pathSecure Path.aelconA = true) ∧
    (PortStates_w3.mayDrive Path.aelconA = true) ∧
    ((PortStates_w3.port ↑4).en = false) ∧
    ((PortStates_w3.port ↑4).st ≠ PortState.draining) ∧
    ((PortStates_w3.port ↑4).st ≠ PortState.aborting) :=
  by refine ⟨inv_of (by decide +kernel), ?_⟩ <;> and_intros <;> decide +kernel

theorem met_PortStates_6 :
    (PortStates_w4.Inv) ∧
    ((PortStates_w4.port ↑4).st = PortState.training) ∧
    (PortStates_w4.gz.joining = none) :=
  by refine ⟨inv_of (by decide +kernel), ?_⟩ <;> and_intros <;> decide +kernel

theorem met_PortStates_7 :
    (PortStates_w5.Inv) ∧
    (PortStates_w5.pathUp Path.aelconA = true) ∧
    (pathSecure Path.aelconA = true) ∧
    (PortStates_w5.mayDrive Path.aelconA = true) ∧
    ((PortStates_w5.port ↑4).st = PortState.failed) :=
  by refine ⟨inv_of (by decide +kernel), ?_⟩ <;> and_intros <;> decide +kernel

end PortStates

namespace Frames

def pk (typ : BitVec 8) (dst : BitVec 6) (len : Nat) (pl : List Byte) (src : BitVec 6 := 2) : Packet := { cls := 0, hop := 0, dst := dst, src := src, flow := 1, len := len, epoch := 0, addr := 0x100, tagged := false, cadence := 0, period := 0, txn := 77, ctr := 0, inc := 0, rstatus := 0, aop := 0, seq := 5, typ := typ, payload := pl }
def fr (crc : Nat) (idle nak : Bool) (seq : BitVec 12) (cells : List Byte) (p : Port := {}) : RxFrame :=
  ⟨true, BitVec.ofNat 20 (b2n idle * 2 ^ 18 + seq.toNat * 64), p.linkHeader nak ++ cells ++ List.replicate (624 - cells.length) 0 ++ toLe 4 crc⟩
def GP (v : Port) (a : Nat := 1) (b : Nat := 0) : State := { mk { tileX with st := .stopped } with
  top := { st := .ready, hbmUp := 1 }, clk := { gt := 0x123456789A }, cmd := { link := .up }, clm := { claimA := BitVec.ofNat _ a, claimB := BitVec.ofNat _ b }
  gz := { ports := [(4, v)], domain := 7, joined := true, me := 3, members := 0xF, routes := [(0x20, 4)] } }
def tf (n : BitVec 12) (t : W64 := 0x1234560000) : TxFrame := { seq := n, packets := [pk 1 2 64 []], sentAt := t }
def pUp : Port := { en := true, st := .up, peerValid := true, peerMember := 2, peerDomain := 7, lanes := 0xFF, txSeq := 9, rxSeq := 5, unacked := [tf 7, tf 8] }
def cs (l : List Packet) : List Byte := l.flatMap cellsOf
def p1 : Packet := pk 2 3 40 (List.replicate 40 7)

def Frames_w1 : State := GP pUp

def Frames_w2 : RxFrame := have __src := fr 2114485947 false false 5 []; { fecOk := __src.fecOk, lcw := 524288, bytes := __src.bytes }

def Frames_w3 : RxFrame := fr 2871052490 false false 5 (cs [pk 1 3 64 [], p1])

def Frames_w4 : RxFrame := have __src := fr 2114485947 false false 5 []; { fecOk := false, lcw := __src.lcw, bytes := __src.bytes }

def Frames_w5 : RxFrame := fr 3855948899 false false 6 []

def Frames_w6 : State := GP   (have __src := pUp;   { en := __src.en, drain := __src.drain, timing := __src.timing, st := __src.st, peerValid := __src.peerValid, peerMember := __src.peerMember, peerPort := __src.peerPort, peerDomain := __src.peerDomain, retries := __src.retries, uncorrected := __src.uncorrected, txSeq := __src.txSeq, rxSeq := __src.rxSeq, unacked := __src.unacked, replays := __src.replays, creditsUsed := __src.creditsUsed, txq := __src.txq, partBytes := __src.partBytes, ackDue := __src.ackDue, nakDue := true, rxBuf := __src.rxBuf, creditsDue := __src.creditsDue, wire := __src.wire, fails := __src.fails, failTimes := __src.failTimes, lanes := __src.lanes })

def Frames_w7 : RxFrame := fr 1094772222 true false 5 []

def Frames_w8 : RxFrame := fr 634283121 true true 5 [] { rxSeq := 8 }

def Frames_w9 : State := GP { lanes := 1 }

theorem met_Frames_1 :
    (Frames_w1.Inv) ∧
    ((Frames_w1.port ↑4).st = PortState.up) ∧
    ((Frames_w1.port ↑4).txq = []) ∧
    (Frames_w2.fecOk = true) ∧
    (2 ≤ (BitVec.extractLsb' 18 2 Frames_w2.lcw).toNat) :=
  by refine ⟨inv_of (by decide +kernel), ?_⟩ <;> and_intros <;> decide +kernel

theorem met_Frames_2 :
    (Frames_w1.Inv) ∧
    ((Frames_w1.port ↑4).st = PortState.up) ∧
    ((Frames_w1.port ↑4).txq = []) ∧
    (Frames_w3.fecOk = true) ∧
    (frameGood Frames_w3 = true) ∧
    (BitVec.extractLsb' 6 12 Frames_w3.lcw = (Frames_w1.port ↑4).rxSeq) ∧
    ((BitVec.extractLsb' 18 2 Frames_w3.lcw).toNat = 0) ∧
    (Frames_w1.gz.joined = true) ∧
    (∀ (k : Packet), k ∈ (cutPackets 80 ((Frames_w1.port ↑4).partBytes ++ List.take 624 (List.drop 12 Frames_w3.bytes))).fst → k.dst = Frames_w1.gz.me) :=
  by refine ⟨inv_of (by decide +kernel), ?_, ?_, ?_, frameGood_of (by decide +kernel), ?_⟩ <;> and_intros <;> decide +kernel

theorem met_Frames_3 :
    (Frames_w1.Inv) ∧
    ((Frames_w1.port ↑4).st = PortState.up) ∧
    ((Frames_w1.port ↑4).txq = []) ∧
    (Frames_w4.fecOk = false) :=
  by refine ⟨inv_of (by decide +kernel), ?_⟩ <;> and_intros <;> decide +kernel

theorem met_Frames_4 :
    (Frames_w1.Inv) ∧
    ((Frames_w1.port ↑4).st = PortState.up) ∧
    ((Frames_w1.port ↑4).txq = []) ∧
    (Frames_w5.fecOk = true) ∧
    ((BitVec.extractLsb' 18 2 Frames_w5.lcw).toNat < 2) ∧
    (frameGood Frames_w5 = false ∨ BitVec.extractLsb' 6 12 Frames_w5.lcw ≠ (Frames_w1.port ↑4).rxSeq ∧ (Frames_w1.port ↑4).nakDue = false) :=
  by refine ⟨inv_of (by decide +kernel), ?_, ?_, ?_, ?_, .inr (by decide +kernel)⟩ <;> decide +kernel

theorem met_Frames_5 :
    (Frames_w6.Inv) ∧
    ((Frames_w6.port ↑4).st = PortState.up) ∧
    ((Frames_w6.port ↑4).txq = []) ∧
    (Frames_w5.fecOk = true) ∧
    ((BitVec.extractLsb' 18 2 Frames_w5.lcw).toNat < 2) ∧
    (frameGood Frames_w5 = true) ∧
    (BitVec.extractLsb' 6 12 Frames_w5.lcw ≠ (Frames_w6.port ↑4).rxSeq) ∧
    ((Frames_w6.port ↑4).nakDue = true) :=
  by refine ⟨inv_of (by decide +kernel), ?_, ?_, ?_, ?_, frameGood_of (by decide +kernel), ?_⟩ <;> and_intros <;> decide +kernel

theorem met_Frames_6 :
    (Frames_w1.Inv) ∧
    ((Frames_w1.port ↑4).st = PortState.up) ∧
    ((Frames_w1.port ↑4).txq = []) ∧
    (Frames_w7.fecOk = true) ∧
    (frameGood Frames_w7 = true) ∧
    (BitVec.extractLsb' 6 12 Frames_w7.lcw = (Frames_w1.port ↑4).rxSeq) ∧
    ((BitVec.extractLsb' 18 2 Frames_w7.lcw).toNat = 1) :=
  by refine ⟨inv_of (by decide +kernel), ?_, ?_, ?_, frameGood_of (by decide +kernel), ?_⟩ <;> and_intros <;> decide +kernel

theorem met_Frames_7 :
    (Frames_w1.Inv) ∧
    ((Frames_w1.port ↑4).st = PortState.up) ∧
    ((Frames_w1.port ↑4).txq = []) ∧
    (Frames_w8.fecOk = true) ∧
    (frameGood Frames_w8 = true) ∧
    (BitVec.extractLsb' 6 12 Frames_w8.lcw = (Frames_w1.port ↑4).rxSeq) ∧
    ((BitVec.extractLsb' 18 2 Frames_w8.lcw).toNat = 1) :=
  by refine ⟨inv_of (by decide +kernel), ?_, ?_, ?_, frameGood_of (by decide +kernel), ?_⟩ <;> and_intros <;> decide +kernel

theorem met_Frames_8 :
    (Frames_w9.Inv) ∧
    ((Frames_w9.port ↑4).st ≠ PortState.up) ∧
    ((Frames_w9.port ↑4).st ≠ PortState.draining) :=
  by refine ⟨inv_of (by decide +kernel), ?_⟩ <;> and_intros <;> decide +kernel

end Frames

namespace RequestsServed

def GR (mem : List (Nat × List Byte)) (cads : Tab Cad := []) (dups : Tab (List (BitVec 16 × Packet)) := []) (down : Bool := false) : State := { mk { tileX with st := .stopped } with
  top := { st := .ready, hbmUp := 1 }, clk := { gt := 0x123456789A }, cads := cads
  mem := { phys := mem.foldl (fun m p => Tab.writeN 0 m p.1 p.2) [] }
  ctxs := [(2, { map := [(0x10000, BitVec.ofNat 64 (0x40000000 + 0x3F)), (0x20000, BitVec.ofNat 64 (0x50000000 + 0x3F))], ctrBase := [3, 4, 5, 6] })]
  gz := { ports := if down then [] else [(4, { en := true, st := .up, peerValid := true, peerMember := 2, peerDomain := 7, lanes := 0xFF })], domain := 7, joined := true, me := 3, epoch := 6, members := 0xE, routes := [(0x20, 4), (0x21, 4)], dups := dups
          exportMap := [(0x4000, 3), (0x4001, 1), (0x5000, 2)], exports := [{ ctx := 2, num := 9, rights := 3, va := 0x10000, size := 0x8000, ctrFirst := 7, ctrCount := 3, ctrBolt := 1 }, { ctx := 2, num := 8, rights := 0, va := 0x20000, size := 0x100, ctrFirst := 0, ctrCount := 0, ctrBolt := 0 }] } }
def mems : List (Nat × List Byte) := [(0x40000100, (List.range 40).map fun k => BitVec.ofNat 8 (k * 7 + 3)), (0x50000000, [1, 2])]
def rq (typ : BitVec 8) (addr : Nat) (len : Nat) (pl : List Byte) (ctr inc : Nat := 0) (aop : Nat := 0) (src : BitVec 6 := 2) (ep : BitVec 16 := 6) (tag : Bool := false) : Packet :=
  { cls := 0, hop := 0, dst := 3, src := src, flow := 1, len := len, epoch := ep, addr := BitVec.ofNat 64 addr, tagged := tag, cadence := 5, period := 77, txn := 77, ctr := BitVec.ofNat 10 ctr, inc := BitVec.ofNat 16 inc, rstatus := 0, aop := BitVec.ofNat 4 aop, seq := 5, typ := typ, payload := pl }

def RequestsServed_w1 : State := GR mems

def RequestsServed_w2 : Packet := { cls := 0#2, hop := 0#2, dst := 3#6, src := 2#6, flow := 1#4, len := 0, epoch := 6#16, addr := 0#64, tagged := false, cadence := 5#6, period := 77#9, txn := 77#32, ctr := 0#10, inc := 0#16, rstatus := 0#8, aop := 0#4, seq := 5#16, typ := 16#8, payload := [] }

def RequestsServed_w3 : Packet := { cls := 0#2, hop := 0#2, dst := 3#6, src := 2#6, flow := 1#4, len := 16, epoch := 6#16, addr := 1073742080#64, tagged := false, cadence := 5#6, period := 77#9, txn := 77#32, ctr := 0#10, inc := 0#16, rstatus := 0#8, aop := 0#4, seq := 5#16, typ := 1#8, payload := [] }

def RequestsServed_w4 : Packet := { cls := 0#2, hop := 0#2, dst := 3#6, src := 2#6, flow := 1#4, len := 16, epoch := 6#16, addr := 1073742088#64, tagged := false, cadence := 5#6, period := 77#9, txn := 77#32, ctr := 0#10, inc := 0#16, rstatus := 0#8, aop := 0#4, seq := 5#16, typ := 3#8, payload := [5#8, 0#8, 0#8, 0#8, 0#8, 0#8, 0#8, 0#8, 9#8, 0#8, 0#8, 0#8, 0#8, 0#8, 0#8, 0#8] }

def RequestsServed_w5 : Packet := { cls := 0#2, hop := 0#2, dst := 3#6, src := 2#6, flow := 1#4, len := 20, epoch := 6#16, addr := 648518346341351680#64, tagged := false, cadence := 5#6, period := 77#9, txn := 77#32, ctr := 0#10, inc := 0#16, rstatus := 0#8, aop := 0#4, seq := 5#16, typ := 5#8, payload := [] }

def RequestsServed_w6 : Export := { ctx := 2, num := 9, rights := 3#2, va := 65536, size := 32768, ctrFirst := 7, ctrCount := 3, ctrBolt := 1 }

def RequestsServed_w7 : Packet := { cls := 0#2, hop := 0#2, dst := 3#6, src := 2#6, flow := 1#4, len := 3, epoch := 6#16, addr := 648518346341351680#64, tagged := false, cadence := 5#6, period := 77#9, txn := 77#32, ctr := 260#10, inc := 2#16, rstatus := 0#8, aop := 0#4, seq := 5#16, typ := 4#8, payload := [7#8, 6#8, 5#8] }

def RequestsServed_w8 : Packet := { cls := 0#2, hop := 0#2, dst := 3#6, src := 2#6, flow := 1#4, len := 16, epoch := 6#16, addr := 648518346341351688#64, tagged := false, cadence := 5#6, period := 77#9, txn := 77#32, ctr := 259#10, inc := 1#16, rstatus := 0#8, aop := 3#4, seq := 5#16, typ := 6#8, payload := [5#8, 0#8, 0#8, 0#8, 0#8, 0#8, 0#8, 0#8, 9#8, 0#8, 0#8, 0#8, 0#8, 0#8, 0#8, 0#8] }

def RequestsServed_w9 : Packet := { cls := 0#2, hop := 0#2, dst := 3#6, src := 5#6, flow := 1#4, len := 16, epoch := 6#16, addr := 1073742080#64, tagged := false, cadence := 5#6, period := 77#9, txn := 77#32, ctr := 0#10, inc := 0#16, rstatus := 0#8, aop := 0#4, seq := 5#16, typ := 1#8, payload := [] }

def RequestsServed_w10 : Instr := Instr.winLoad RequestsServed_w9

def RequestsServed_w11 : Packet := { cls := 0#2, hop := 0#2, dst := 3#6, src := 2#6, flow := 1#4, len := 1, epoch := 5#16, addr := 1073742080#64, tagged := true, cadence := 5#6, period := 77#9, txn := 77#32, ctr := 0#10, inc := 0#16, rstatus := 0#8, aop := 0#4, seq := 5#16, typ := 2#8, payload := [5#8] }

def RequestsServed_w12 : Instr := Instr.winLoad RequestsServed_w11

def RequestsServed_w13 : State := GR mems [] [(33, [(5, rq 16 0 0 [])])]

theorem met_RequestsServed_1 :
    (RequestsServed_w1.Inv) ∧
    (RequestsServed_w1.top.st.live = true) ∧
    (RequestsServed_w1.gz.joined = true) ∧
    (RequestsServed_w2.dst = RequestsServed_w1.gz.me) ∧
    (RequestsServed_w1.mem.bad = []) ∧
    (RequestsServed_w1.cmd.hostHeld = []) ∧
    (∀ (j : Packet), j ∈ RequestsServed_w1.gz.arrived → ¬(j.cls = 0 ∧ j.src = RequestsServed_w2.src ∧ j.flow = RequestsServed_w2.flow)) ∧
    (RequestsServed_w1.current RequestsServed_w2 = true) ∧
    (RequestsServed_w1.tagOk RequestsServed_w2 = true) ∧
    (RequestsServed_w1.recorded RequestsServed_w2 = none) ∧
    (RequestsServed_w1.here (BitVec.toNat RequestsServed_w2.addr % 2 ^ 48)) ∧
    (RequestsServed_w1.exportRight (BitVec.toNat RequestsServed_w2.addr % 2 ^ 48) RequestsServed_w2.len 1 = false) ∧
    (RequestsServed_w1.exportRight (BitVec.toNat RequestsServed_w2.addr % 2 ^ 48) RequestsServed_w2.payload.length 2 = false) ∧
    (RequestsServed_w1.exportFor { cls := RequestsServed_w2.cls, hop := RequestsServed_w2.hop, dst := RequestsServed_w2.dst, src := RequestsServed_w2.src, flow := RequestsServed_w2.flow, len := RequestsServed_w2.len, epoch := RequestsServed_w2.epoch, addr := RequestsServed_w2.addr, tagged := RequestsServed_w2.tagged, cadence := RequestsServed_w2.cadence, period := RequestsServed_w2.period, txn := RequestsServed_w2.txn, ctr := RequestsServed_w2.ctr, inc := RequestsServed_w2.inc, rstatus := RequestsServed_w2.rstatus, aop := RequestsServed_w2.aop, seq := RequestsServed_w2.seq, typ := 0, payload := RequestsServed_w2.payload } RequestsServed_w2.len 1 = none) ∧
    (RequestsServed_w1.exportFor { cls := RequestsServed_w2.cls, hop := RequestsServed_w2.hop, dst := RequestsServed_w2.dst, src := RequestsServed_w2.src, flow := RequestsServed_w2.flow, len := RequestsServed_w2.len, epoch := RequestsServed_w2.epoch, addr := RequestsServed_w2.addr, tagged := RequestsServed_w2.tagged, cadence := RequestsServed_w2.cadence, period := RequestsServed_w2.period, txn := RequestsServed_w2.txn, ctr := RequestsServed_w2.ctr, inc := RequestsServed_w2.inc, rstatus := RequestsServed_w2.rstatus, aop := RequestsServed_w2.aop, seq := RequestsServed_w2.seq, typ := 0, payload := RequestsServed_w2.payload } RequestsServed_w2.payload.length 2 = none) ∧
    (RequestsServed_w1.exportFor { cls := RequestsServed_w2.cls, hop := RequestsServed_w2.hop, dst := RequestsServed_w2.dst, src := RequestsServed_w2.src, flow := RequestsServed_w2.flow, len := RequestsServed_w2.len, epoch := RequestsServed_w2.epoch, addr := RequestsServed_w2.addr, tagged := RequestsServed_w2.tagged, cadence := RequestsServed_w2.cadence, period := RequestsServed_w2.period, txn := RequestsServed_w2.txn, ctr := RequestsServed_w2.ctr, inc := RequestsServed_w2.inc, rstatus := RequestsServed_w2.rstatus, aop := RequestsServed_w2.aop, seq := RequestsServed_w2.seq, typ := 0, payload := RequestsServed_w2.payload } 8 3 = none) ∧
    (RequestsServed_w1.exportFor { cls := RequestsServed_w2.cls, hop := RequestsServed_w2.hop, dst := RequestsServed_w2.dst, src := RequestsServed_w2.src, flow := RequestsServed_w2.flow, len := RequestsServed_w2.len, epoch := RequestsServed_w2.epoch, addr := RequestsServed_w2.addr, tagged := RequestsServed_w2.tagged, cadence := RequestsServed_w2.cadence, period := RequestsServed_w2.period, txn := RequestsServed_w2.txn, ctr := RequestsServed_w2.ctr, inc := RequestsServed_w2.inc, rstatus := RequestsServed_w2.rstatus, aop := RequestsServed_w2.aop, seq := RequestsServed_w2.seq, typ := 0, payload := RequestsServed_w2.payload } 0 0 = none) :=
  by refine ⟨inv_of (by decide +kernel), ?_, ?_, ?_, ?_, ?_, ?_, ?_, ?_, ?_, here_of (by decide +kernel), ?_⟩ <;> and_intros <;> decide +kernel

theorem met_RequestsServed_2 :
    (RequestsServed_w1.Inv) ∧
    (RequestsServed_w1.top.st.live = true) ∧
    (RequestsServed_w1.gz.joined = true) ∧
    (RequestsServed_w3.dst = RequestsServed_w1.gz.me) ∧
    (RequestsServed_w1.mem.bad = []) ∧
    (RequestsServed_w1.cmd.hostHeld = []) ∧
    (∀ (j : Packet), j ∈ RequestsServed_w1.gz.arrived → ¬(j.cls = 0 ∧ j.src = RequestsServed_w3.src ∧ j.flow = RequestsServed_w3.flow)) ∧
    (RequestsServed_w1.current RequestsServed_w3 = true) ∧
    (RequestsServed_w1.tagOk RequestsServed_w3 = true) ∧
    (RequestsServed_w1.recorded RequestsServed_w3 = none) ∧
    (RequestsServed_w1.here (BitVec.toNat RequestsServed_w3.addr % 2 ^ 48)) ∧
    (RequestsServed_w1.exportRight (BitVec.toNat RequestsServed_w3.addr % 2 ^ 48) RequestsServed_w3.len 1 = true) ∧
    (RequestsServed_w1.exportRight (BitVec.toNat RequestsServed_w3.addr % 2 ^ 48) RequestsServed_w3.payload.length 2 = true) :=
  by refine ⟨inv_of (by decide +kernel), ?_, ?_, ?_, ?_, ?_, ?_, ?_, ?_, ?_, here_of (by decide +kernel), ?_⟩ <;> and_intros <;> decide +kernel

theorem met_RequestsServed_3 :
    (RequestsServed_w1.Inv) ∧
    (RequestsServed_w1.top.st.live = true) ∧
    (RequestsServed_w1.gz.joined = true) ∧
    (RequestsServed_w4.dst = RequestsServed_w1.gz.me) ∧
    (RequestsServed_w1.mem.bad = []) ∧
    (RequestsServed_w1.cmd.hostHeld = []) ∧
    (∀ (j : Packet), j ∈ RequestsServed_w1.gz.arrived → ¬(j.cls = 0 ∧ j.src = RequestsServed_w4.src ∧ j.flow = RequestsServed_w4.flow)) ∧
    (RequestsServed_w1.current RequestsServed_w4 = true) ∧
    (RequestsServed_w1.tagOk RequestsServed_w4 = true) ∧
    (RequestsServed_w1.recorded RequestsServed_w4 = none) ∧
    (RequestsServed_w1.here (BitVec.toNat RequestsServed_w4.addr % 2 ^ 48)) ∧
    (RequestsServed_w1.exportRight (BitVec.toNat RequestsServed_w4.addr % 2 ^ 48) 8 3 = true) ∧
    (RequestsServed_w4.aop.toNat ≤ 5) ∧
    (RequestsServed_w4.payload.length = 16) :=
  by refine ⟨inv_of (by decide +kernel), ?_, ?_, ?_, ?_, ?_, ?_, ?_, ?_, ?_, here_of (by decide +kernel), ?_⟩ <;> and_intros <;> decide +kernel

theorem met_RequestsServed_4 :
    (RequestsServed_w1.Inv) ∧
    (RequestsServed_w1.top.st.live = true) ∧
    (RequestsServed_w1.gz.joined = true) ∧
    (RequestsServed_w5.dst = RequestsServed_w1.gz.me) ∧
    (RequestsServed_w1.mem.bad = []) ∧
    (RequestsServed_w1.cmd.hostHeld = []) ∧
    (∀ (j : Packet), j ∈ RequestsServed_w1.gz.arrived → ¬(j.cls = 0 ∧ j.src = RequestsServed_w5.src ∧ j.flow = RequestsServed_w5.flow)) ∧
    (RequestsServed_w1.current RequestsServed_w5 = true) ∧
    (RequestsServed_w1.tagOk RequestsServed_w5 = true) ∧
    (RequestsServed_w1.recorded RequestsServed_w5 = none) ∧
    (RequestsServed_w1.exportFor { cls := RequestsServed_w5.cls, hop := RequestsServed_w5.hop, dst := RequestsServed_w5.dst, src := RequestsServed_w5.src, flow := RequestsServed_w5.flow, len := RequestsServed_w5.len, epoch := RequestsServed_w5.epoch, addr := RequestsServed_w5.addr, tagged := RequestsServed_w5.tagged, cadence := RequestsServed_w5.cadence, period := RequestsServed_w5.period, txn := RequestsServed_w5.txn, ctr := RequestsServed_w5.ctr, inc := RequestsServed_w5.inc, rstatus := RequestsServed_w5.rstatus, aop := RequestsServed_w5.aop, seq := RequestsServed_w5.seq, typ := 0, payload := RequestsServed_w5.payload } 20 1#2 = some (RequestsServed_w6, 65792)) ∧
    (RequestsServed_w1.mapPhys RequestsServed_w6.ctx 65792 = some 1073742080) ∧
    (RequestsServed_w1.here 1073742080) ∧
    (0 < 20) ∧
    (65792 % 65536 + 20 ≤ 65536) ∧
    (20 = RequestsServed_w5.len) ∧
    (1#2 = 1) :=
  by refine ⟨inv_of (by decide +kernel), ?_, ?_, ?_, ?_, ?_, ?_, ?_, ?_, ?_, ?_, ?_, here_of (by decide +kernel), ?_⟩ <;> and_intros <;> decide +kernel

theorem met_RequestsServed_5 :
    (RequestsServed_w1.Inv) ∧
    (RequestsServed_w1.top.st.live = true) ∧
    (RequestsServed_w1.gz.joined = true) ∧
    (RequestsServed_w5.dst = RequestsServed_w1.gz.me) ∧
    (RequestsServed_w1.mem.bad = []) ∧
    (RequestsServed_w1.cmd.hostHeld = []) ∧
    (∀ (j : Packet), j ∈ RequestsServed_w1.gz.arrived → ¬(j.cls = 0 ∧ j.src = RequestsServed_w5.src ∧ j.flow = RequestsServed_w5.flow)) ∧
    (RequestsServed_w1.current RequestsServed_w5 = true) ∧
    (RequestsServed_w1.tagOk RequestsServed_w5 = true) ∧
    (RequestsServed_w1.recorded RequestsServed_w5 = none) ∧
    (RequestsServed_w1.exportFor { cls := RequestsServed_w5.cls, hop := RequestsServed_w5.hop, dst := RequestsServed_w5.dst, src := RequestsServed_w5.src, flow := RequestsServed_w5.flow, len := RequestsServed_w5.len, epoch := RequestsServed_w5.epoch, addr := RequestsServed_w5.addr, tagged := RequestsServed_w5.tagged, cadence := RequestsServed_w5.cadence, period := RequestsServed_w5.period, txn := RequestsServed_w5.txn, ctr := RequestsServed_w5.ctr, inc := RequestsServed_w5.inc, rstatus := RequestsServed_w5.rstatus, aop := RequestsServed_w5.aop, seq := RequestsServed_w5.seq, typ := 0, payload := RequestsServed_w5.payload } 0 0 = some (RequestsServed_w6, 65792)) :=
  by refine ⟨inv_of (by decide +kernel), ?_⟩ <;> and_intros <;> decide +kernel

theorem met_RequestsServed_6 :
    (RequestsServed_w1.Inv) ∧
    (RequestsServed_w1.top.st.live = true) ∧
    (RequestsServed_w1.gz.joined = true) ∧
    (RequestsServed_w7.dst = RequestsServed_w1.gz.me) ∧
    (RequestsServed_w1.mem.bad = []) ∧
    (RequestsServed_w1.cmd.hostHeld = []) ∧
    (∀ (j : Packet), j ∈ RequestsServed_w1.gz.arrived → ¬(j.cls = 0 ∧ j.src = RequestsServed_w7.src ∧ j.flow = RequestsServed_w7.flow)) ∧
    (RequestsServed_w1.current RequestsServed_w7 = true) ∧
    (RequestsServed_w1.tagOk RequestsServed_w7 = true) ∧
    (RequestsServed_w1.recorded RequestsServed_w7 = none) ∧
    (RequestsServed_w1.exportFor { cls := RequestsServed_w7.cls, hop := RequestsServed_w7.hop, dst := RequestsServed_w7.dst, src := RequestsServed_w7.src, flow := RequestsServed_w7.flow, len := RequestsServed_w7.len, epoch := RequestsServed_w7.epoch, addr := RequestsServed_w7.addr, tagged := RequestsServed_w7.tagged, cadence := RequestsServed_w7.cadence, period := RequestsServed_w7.period, txn := RequestsServed_w7.txn, ctr := RequestsServed_w7.ctr, inc := RequestsServed_w7.inc, rstatus := RequestsServed_w7.rstatus, aop := RequestsServed_w7.aop, seq := RequestsServed_w7.seq, typ := 0, payload := RequestsServed_w7.payload } 3 2#2 = some (RequestsServed_w6, 65792)) ∧
    (RequestsServed_w1.mapPhys RequestsServed_w6.ctx 65792 = some 1073742080) ∧
    (RequestsServed_w1.here 1073742080) ∧
    (0 < 3) ∧
    (65792 % 65536 + 3 ≤ 65536) ∧
    (3 = RequestsServed_w7.payload.length) ∧
    (2#2 = 2) :=
  by refine ⟨inv_of (by decide +kernel), ?_, ?_, ?_, ?_, ?_, ?_, ?_, ?_, ?_, ?_, ?_, here_of (by decide +kernel), ?_⟩ <;> and_intros <;> decide +kernel

theorem met_RequestsServed_7 :
    (RequestsServed_w1.Inv) ∧
    (RequestsServed_w1.top.st.live = true) ∧
    (RequestsServed_w1.gz.joined = true) ∧
    (RequestsServed_w8.dst = RequestsServed_w1.gz.me) ∧
    (RequestsServed_w1.mem.bad = []) ∧
    (RequestsServed_w1.cmd.hostHeld = []) ∧
    (∀ (j : Packet), j ∈ RequestsServed_w1.gz.arrived → ¬(j.cls = 0 ∧ j.src = RequestsServed_w8.src ∧ j.flow = RequestsServed_w8.flow)) ∧
    (RequestsServed_w1.current RequestsServed_w8 = true) ∧
    (RequestsServed_w1.tagOk RequestsServed_w8 = true) ∧
    (RequestsServed_w1.recorded RequestsServed_w8 = none) ∧
    (RequestsServed_w1.exportFor { cls := RequestsServed_w8.cls, hop := RequestsServed_w8.hop, dst := RequestsServed_w8.dst, src := RequestsServed_w8.src, flow := RequestsServed_w8.flow, len := RequestsServed_w8.len, epoch := RequestsServed_w8.epoch, addr := RequestsServed_w8.addr, tagged := RequestsServed_w8.tagged, cadence := RequestsServed_w8.cadence, period := RequestsServed_w8.period, txn := RequestsServed_w8.txn, ctr := RequestsServed_w8.ctr, inc := RequestsServed_w8.inc, rstatus := RequestsServed_w8.rstatus, aop := RequestsServed_w8.aop, seq := RequestsServed_w8.seq, typ := 0, payload := RequestsServed_w8.payload } 8 3#2 = some (RequestsServed_w6, 65800)) ∧
    (RequestsServed_w1.mapPhys RequestsServed_w6.ctx 65800 = some 1073742088) ∧
    (RequestsServed_w1.here 1073742088) ∧
    (0 < 8) ∧
    (65800 % 65536 + 8 ≤ 65536) ∧
    (8 = 8) ∧
    (3#2 = 3) ∧
    (RequestsServed_w8.aop.toNat ≤ 5) ∧
    (RequestsServed_w8.payload.length = 16) :=
  by refine ⟨inv_of (by decide +kernel), ?_, ?_, ?_, ?_, ?_, ?_, ?_, ?_, ?_, ?_, ?_, here_of (by decide +kernel), ?_⟩ <;> and_intros <;> decide +kernel

theorem met_RequestsServed_8 :
    (RequestsServed_w1.Inv) ∧
    (RequestsServed_w1.top.st.live = true) ∧
    (RequestsServed_w1.gz.joined = true) ∧
    (RequestsServed_w9.dst = RequestsServed_w1.gz.me) ∧
    (RequestsServed_w1.mem.bad = []) ∧
    (RequestsServed_w1.cmd.hostHeld = []) ∧
    (∀ (j : Packet), j ∈ RequestsServed_w1.gz.arrived → ¬(j.cls = 0 ∧ j.src = RequestsServed_w9.src ∧ j.flow = RequestsServed_w9.flow)) ∧
    (RequestsServed_w1.current RequestsServed_w9 = false) :=
  by refine ⟨inv_of (by decide +kernel), ?_⟩ <;> and_intros <;> decide +kernel

theorem met_RequestsServed_9 :
    (RequestsServed_w1.Inv) ∧
    (RequestsServed_w1.top.st.live = true) ∧
    (RequestsServed_w1.gz.joined = true) ∧
    (RequestsServed_w11.dst = RequestsServed_w1.gz.me) ∧
    (RequestsServed_w1.mem.bad = []) ∧
    (RequestsServed_w1.cmd.hostHeld = []) ∧
    (∀ (j : Packet), j ∈ RequestsServed_w1.gz.arrived → ¬(j.cls = 0 ∧ j.src = RequestsServed_w11.src ∧ j.flow = RequestsServed_w11.flow)) ∧
    (RequestsServed_w1.current RequestsServed_w11 = true) ∧
    (RequestsServed_w1.tagOk RequestsServed_w11 = false) :=
  by refine ⟨inv_of (by decide +kernel), ?_⟩ <;> and_intros <;> decide +kernel

theorem met_RequestsServed_10 :
    (RequestsServed_w13.Inv) ∧
    (RequestsServed_w13.top.st.live = true) ∧
    (RequestsServed_w13.gz.joined = true) ∧
    (RequestsServed_w2.dst = RequestsServed_w13.gz.me) ∧
    (RequestsServed_w13.mem.bad = []) ∧
    (RequestsServed_w13.cmd.hostHeld = []) ∧
    (∀ (j : Packet), j ∈ RequestsServed_w13.gz.arrived → ¬(j.cls = 0 ∧ j.src = RequestsServed_w2.src ∧ j.flow = RequestsServed_w2.flow)) ∧
    (RequestsServed_w13.current RequestsServed_w2 = true) ∧
    (RequestsServed_w13.tagOk RequestsServed_w2 = true) ∧
    (RequestsServed_w13.recorded RequestsServed_w2 = some RequestsServed_w2) :=
  by refine ⟨inv_of (by decide +kernel), ?_⟩ <;> and_intros <;> decide +kernel

end RequestsServed

namespace ResponsesEnd

def GR (mem : List (Nat × List Byte)) (cads : Tab Cad := []) (dups : Tab (List (BitVec 16 × Packet)) := []) (down : Bool := false) : State := { mk { tileX with st := .stopped } with
  top := { st := .ready, hbmUp := 1 }, clk := { gt := 0x123456789A }, cads := cads
  mem := { phys := mem.foldl (fun m p => Tab.writeN 0 m p.1 p.2) [] }
  ctxs := [(2, { map := [(0x10000, BitVec.ofNat 64 (0x40000000 + 0x3F)), (0x20000, BitVec.ofNat 64 (0x50000000 + 0x3F))], ctrBase := [3, 4, 5, 6] })]
  gz := { ports := if down then [] else [(4, { en := true, st := .up, peerValid := true, peerMember := 2, peerDomain := 7, lanes := 0xFF })], domain := 7, joined := true, me := 3, epoch := 6, members := 0xE, routes := [(0x20, 4), (0x21, 4)], dups := dups
          exportMap := [(0x4000, 3), (0x4001, 1), (0x5000, 2)], exports := [{ ctx := 2, num := 9, rights := 3, va := 0x10000, size := 0x8000, ctrFirst := 7, ctrCount := 3, ctrBolt := 1 }, { ctx := 2, num := 8, rights := 0, va := 0x20000, size := 0x100, ctrFirst := 0, ctrCount := 0, ctrBolt := 0 }] } }
def mems : List (Nat × List Byte) := [(0x40000100, (List.range 40).map fun k => BitVec.ofNat 8 (k * 7 + 3)), (0x50000000, [1, 2])]
def fa : FarAccess := { id := 6, kind := .load false, dest := .scalar 4, size := 8, va := 0x4440, pa := 64, data := 0, cmp := 0, tagged := false }
def fd (iss : Bool) (miss : Nat) : FabDesc := { num := 3, va := 0x1000, words := [0x1000000000000000], issued := iss, missing := miss, cursor := 500 }
def GS (tx : List Txn) (d : FabDesc) : State := { GR mems with tiles := [(9, { tileX with st := .stopped, far := [fa] })], gz := { (GR mems).gz with txns := tx, fq := [(5, { en := true, granted := true, ctx := 2, flight := [d] })] } }
def tFar : Txn := { num := 77, peer := 2, flow := 1, who := .far 9 6 }
def tDs : Txn := { num := 77, peer := 2, flow := 1, who := .desc 0 5 3 256 }

def ResponsesEnd_w1 : State := GS [tFar] (fd true 1)

def ResponsesEnd_w2 : Packet := { cls := 1#2, hop := 0#2, dst := 3#6, src := 2#6, flow := 1#4, len := 8, epoch := 6#16, addr := 5#64, tagged := false, cadence := 5#6, period := 77#9, txn := 77#32, ctr := 0#10, inc := 0#16, rstatus := 0#8, aop := 0#4, seq := 5#16, typ := 16#8, payload := [1#8, 2#8, 3#8, 4#8, 5#8, 6#8, 7#8, 8#8] }

def ResponsesEnd_w3 : Txn := { num := 77#32, peer := 2#6, flow := 1#4, who := Waiter.far 9 6 }

def ResponsesEnd_w4 : FarAccess := { id := 6, kind := FarKind.load false, dest := FarDest.scalar 4, size := 8, va := 17472#64, pa := 64, data := 0#2048, cmp := 0#64, tagged := false }

def ResponsesEnd_w5 : Packet := { cls := 1#2, hop := 0#2, dst := 3#6, src := 2#6, flow := 1#4, len := 0, epoch := 6#16, addr := 5#64, tagged := false, cadence := 5#6, period := 77#9, txn := 77#32, ctr := 0#10, inc := 0#16, rstatus := 2#8, aop := 0#4, seq := 5#16, typ := 16#8, payload := [] }

def ResponsesEnd_w6 : Packet := { cls := 1#2, hop := 0#2, dst := 3#6, src := 2#6, flow := 1#4, len := 0, epoch := 6#16, addr := 5#64, tagged := false, cadence := 5#6, period := 77#9, txn := 77#32, ctr := 0#10, inc := 0#16, rstatus := 1#8, aop := 0#4, seq := 5#16, typ := 16#8, payload := [] }

def ResponsesEnd_w7 : State := GS [tDs] (fd true 1)

def ResponsesEnd_w8 : Txn := { num := 77#32, peer := 2#6, flow := 1#4, who := Waiter.desc 0 5 3 256 }

def ResponsesEnd_w9 : FabDesc := { num := 3, va := 4096#64, words := [1152921504606846976#64], issued := true, missing := 1, cursor := 500, chunks := 0#64 }

def ResponsesEnd_w10 : State := have __src := GR mems; { pending := __src.pending, top := __src.top, clk := __src.clk, tiles := __src.tiles, mem := __src.mem, mmu := __src.mmu, eng := __src.eng,   gz :=     have __src := (GR mems).gz;     { ports := __src.ports, domain := __src.domain, joined := __src.joined, coord := __src.coord, me := __src.me, epoch := __src.epoch, members := __src.members, coordinator := __src.coordinator, routes := __src.routes, heard := __src.heard, cutSince := __src.cutSince, joining := __src.joining, leaving := __src.leaving, joinRoot := __src.joinRoot, joinAsked := __src.joinAsked, expected := __src.expected, selfLeave := __src.selfLeave, leaveSent := __src.leaveSent, gtLoadDue := __src.gtLoadDue, sent := __src.sent, memberSent := __src.memberSent, paceSent := __src.paceSent, arrived := __src.arrived, e2e := __src.e2e, dups := __src.dups, txns := __src.txns, nextTxn := __src.nextTxn, exports := __src.exports, exportMap := __src.exportMap, fq := __src.fq, collIn := [(16 * 0 + 5, [{ src := 1, chunk := 1, gather := false, elem := 0, bytes := [5] }])], suspects := __src.suspects },   cmd := __src.cmd, ctxs := __src.ctxs, cads := __src.cads, pow := __src.pow, gvn := __src.gvn, res := __src.res, rfw := __src.rfw, clm := __src.clm, pairs := __src.pairs, err := __src.err, trust := __src.trust, free := __src.free }

def ResponsesEnd_w11 : CollSlice := { bolt := 0, queue := 5, gather := true, chunk := 2 }

theorem met_ResponsesEnd_1 :
    (ResponsesEnd_w1.Inv) ∧
    (ResponsesEnd_w1.Still) ∧
    (ResponsesEnd_w1.top.st.live = true) ∧
    (ResponsesEnd_w1.gz.joined = true) ∧
    (ResponsesEnd_w2.dst = ResponsesEnd_w1.gz.me) ∧
    (ResponsesEnd_w1.current ResponsesEnd_w2 = true) ∧
    (ResponsesEnd_w1.gz.sent = []) ∧
    (List.find? (fun t => decide (t.num = ResponsesEnd_w2.txn) && decide (t.peer = ResponsesEnd_w2.src)) ResponsesEnd_w1.gz.txns = some ResponsesEnd_w3) ∧
    (ResponsesEnd_w3.who = Waiter.far 9 6) ∧
    (List.find? (fun f => decide (f.id = 6)) (ResponsesEnd_w1.tile 9).far = some ResponsesEnd_w4) ∧
    (ResponsesEnd_w4.kind = FarKind.load false) ∧
    (ResponsesEnd_w4.dest = FarDest.scalar 4) ∧
    (0 < 4) ∧
    (ResponsesEnd_w4.size ≤ 8) :=
  by refine ⟨inv_of (by decide +kernel), still_of (by decide +kernel), ?_⟩ <;> and_intros <;> decide +kernel

theorem met_ResponsesEnd_2 :
    (ResponsesEnd_w1.Inv) ∧
    (ResponsesEnd_w1.Still) ∧
    (ResponsesEnd_w1.top.st.live = true) ∧
    (ResponsesEnd_w1.gz.joined = true) ∧
    (ResponsesEnd_w5.dst = ResponsesEnd_w1.gz.me) ∧
    (ResponsesEnd_w1.current ResponsesEnd_w5 = true) ∧
    (ResponsesEnd_w1.gz.sent = []) ∧
    (List.find? (fun t => decide (t.num = ResponsesEnd_w5.txn) && decide (t.peer = ResponsesEnd_w5.src)) ResponsesEnd_w1.gz.txns = some ResponsesEnd_w3) ∧
    (ResponsesEnd_w3.who = Waiter.far 9 6) ∧
    (List.find? (fun f => decide (f.id = 6)) (ResponsesEnd_w1.tile 9).far = some ResponsesEnd_w4) ∧
    (ResponsesEnd_w4.kind = FarKind.load false) ∧
    (ResponsesEnd_w4.dest = FarDest.scalar 4) ∧
    (0 < 4) ∧
    (ResponsesEnd_w4.size ≤ 8) :=
  by refine ⟨inv_of (by decide +kernel), still_of (by decide +kernel), ?_⟩ <;> and_intros <;> decide +kernel

theorem met_ResponsesEnd_3 :
    (ResponsesEnd_w1.Inv) ∧
    (ResponsesEnd_w1.Still) ∧
    (ResponsesEnd_w1.top.st.live = true) ∧
    (ResponsesEnd_w1.gz.joined = true) ∧
    (ResponsesEnd_w6.dst = ResponsesEnd_w1.gz.me) ∧
    (ResponsesEnd_w1.current ResponsesEnd_w6 = true) ∧
    (ResponsesEnd_w1.gz.sent = []) ∧
    (List.find? (fun t => decide (t.num = ResponsesEnd_w6.txn) && decide (t.peer = ResponsesEnd_w6.src)) ResponsesEnd_w1.gz.txns = some ResponsesEnd_w3) ∧
    (ResponsesEnd_w3.who = Waiter.far 9 6) ∧
    (List.find? (fun f => decide (f.id = 6)) (ResponsesEnd_w1.tile 9).far = some ResponsesEnd_w4) ∧
    (ResponsesEnd_w4.kind = FarKind.load false) ∧
    (ResponsesEnd_w4.dest = FarDest.scalar 4) ∧
    (0 < 4) ∧
    (ResponsesEnd_w4.size ≤ 8) :=
  by refine ⟨inv_of (by decide +kernel), still_of (by decide +kernel), ?_⟩ <;> and_intros <;> decide +kernel

theorem met_ResponsesEnd_4 :
    (ResponsesEnd_w7.Inv) ∧
    (ResponsesEnd_w7.Still) ∧
    (ResponsesEnd_w7.top.st.live = true) ∧
    (ResponsesEnd_w7.gz.joined = true) ∧
    (ResponsesEnd_w2.dst = ResponsesEnd_w7.gz.me) ∧
    (ResponsesEnd_w7.current ResponsesEnd_w2 = true) ∧
    (ResponsesEnd_w7.gz.sent = []) ∧
    (List.find? (fun t => decide (t.num = ResponsesEnd_w2.txn) && decide (t.peer = ResponsesEnd_w2.src)) ResponsesEnd_w7.gz.txns = some ResponsesEnd_w8) ∧
    (ResponsesEnd_w8.who = Waiter.desc 0 5 3 256) ∧
    ((ResponsesEnd_w7.fqueue 0 5).flight = [ResponsesEnd_w9]) ∧
    (ResponsesEnd_w9.num = 3) ∧
    (fOp ResponsesEnd_w9.words ≠ 2) ∧
    (fOp ResponsesEnd_w9.words ≠ 3) ∧
    (ResponsesEnd_w9.done = false) ∧
    (ResponsesEnd_w9.verdict = none) ∧
    (0 < ResponsesEnd_w9.missing) :=
  by refine ⟨inv_of (by decide +kernel), still_of (by decide +kernel), ?_⟩ <;> and_intros <;> decide +kernel

theorem met_ResponsesEnd_5 :
    (ResponsesEnd_w10.Inv) ∧
    (ResponsesEnd_w10.Still) ∧
    (ResponsesEnd_w10.top.st.live = true) ∧
    (ResponsesEnd_w10.gz.joined = true) ∧
    (ResponsesEnd_w2.dst = ResponsesEnd_w10.gz.me) ∧
    (ResponsesEnd_w10.current ResponsesEnd_w2 = true) ∧
    (ResponsesEnd_w10.gz.sent = []) ∧
    (ResponsesEnd_w10.tagOk ResponsesEnd_w2 = true) ∧
    (ResponsesEnd_w10.recorded ResponsesEnd_w2 = none) ∧
    ((ResponsesEnd_w10.fqueue ↑ResponsesEnd_w11.bolt ↑ResponsesEnd_w11.queue).flight = []) :=
  by refine ⟨inv_of (by decide +kernel), still_of (by decide +kernel), ?_⟩ <;> and_intros <;> decide +kernel

end ResponsesEnd

namespace Membership

def GR (mem : List (Nat × List Byte)) (cads : Tab Cad := []) (dups : Tab (List (BitVec 16 × Packet)) := []) (down : Bool := false) : State := { mk { tileX with st := .stopped } with
  top := { st := .ready, hbmUp := 1 }, clk := { gt := 0x123456789A }, cads := cads
  mem := { phys := mem.foldl (fun m p => Tab.writeN 0 m p.1 p.2) [] }
  ctxs := [(2, { map := [(0x10000, BitVec.ofNat 64 (0x40000000 + 0x3F)), (0x20000, BitVec.ofNat 64 (0x50000000 + 0x3F))], ctrBase := [3, 4, 5, 6] })]
  gz := { ports := if down then [] else [(4, { en := true, st := .up, peerValid := true, peerMember := 2, peerDomain := 7, lanes := 0xFF })], domain := 7, joined := true, me := 3, epoch := 6, members := 0xE, routes := [(0x20, 4), (0x21, 4)], dups := dups
          exportMap := [(0x4000, 3), (0x4001, 1), (0x5000, 2)], exports := [{ ctx := 2, num := 9, rights := 3, va := 0x10000, size := 0x8000, ctrFirst := 7, ctrCount := 3, ctrBolt := 1 }, { ctx := 2, num := 8, rights := 0, va := 0x20000, size := 0x100, ctrFirst := 0, ctrCount := 0, ctrBolt := 0 }] } }
def mems : List (Nat × List Byte) := [(0x40000100, (List.range 40).map fun k => BitVec.ofNat 8 (k * 7 + 3)), (0x50000000, [1, 2])]
def G0 : Gauze := (GR mems).gz
def pr (m : BitVec 6) (tim : Bool := false) : Port := { en := true, st := .up, peerValid := true, peerMember := m, peerDomain := 7, lanes := 0xFF, timing := tim }
def GM (g : Gauze) : State := { GR mems with gz := g, cmd := { slots := [(5, { st := .outstanding, op := .join, gtAccept := 0x3456789A - 5 })] } }
def g1 : Gauze := { G0 with ports := [(4, pr 2), (5, pr 1)], routes := [(0x10, 5), (0x11, 5), (0x20, 4), (0x21, 4), (0x30, 0xFE)], heard := [(1, 0x1234000000), (2, 0x1234567800)], txns := [{ num := 77, peer := 2, flow := 1, who := .none }, { num := 78, peer := 5, flow := 1, who := .none }] }

def Membership_w1 : State := GM g1

def Membership_w2 : State := GM   (have __src := g1;   { ports := [(6, pr 7)], domain := __src.domain, joined := __src.joined, coord := true, me := __src.me, epoch := __src.epoch, members := 8, coordinator := __src.coordinator, routes := __src.routes, heard := __src.heard, cutSince := __src.cutSince, joining := __src.joining, leaving := __src.leaving, joinRoot := __src.joinRoot, joinAsked := __src.joinAsked, expected := __src.expected, selfLeave := __src.selfLeave, leaveSent := __src.leaveSent, gtLoadDue := __src.gtLoadDue, sent := __src.sent, memberSent := __src.memberSent, paceSent := __src.paceSent, arrived := __src.arrived, e2e := __src.e2e, dups := __src.dups, txns := __src.txns, nextTxn := __src.nextTxn, exports := __src.exports, exportMap := __src.exportMap, fq := __src.fq, collIn := __src.collIn, suspects := __src.suspects })

def Membership_w3 : State := GM   (have __src := g1;   { ports := [(4, pr 4), (6, pr 7)], domain := __src.domain, joined := __src.joined, coord := true, me := __src.me, epoch := __src.epoch, members := 24, coordinator := __src.coordinator, routes := __src.routes, heard := [(4, 78187493520)], cutSince := [(4, some 78181826560)], joining := __src.joining, leaving := __src.leaving, joinRoot := __src.joinRoot, joinAsked := __src.joinAsked, expected := __src.expected, selfLeave := __src.selfLeave, leaveSent := __src.leaveSent, gtLoadDue := __src.gtLoadDue, sent := __src.sent, memberSent := __src.memberSent, paceSent := __src.paceSent, arrived := __src.arrived, e2e := __src.e2e, dups := __src.dups, txns := __src.txns, nextTxn := __src.nextTxn, exports := __src.exports, exportMap := __src.exportMap, fq := __src.fq, collIn := __src.collIn, suspects := __src.suspects })

def Membership_w4 : State := GM   (have __src := g1;   { ports := __src.ports, domain := __src.domain, joined := __src.joined, coord := __src.coord, me := __src.me, epoch := __src.epoch, members := __src.members, coordinator := __src.coordinator, routes := __src.routes, heard := __src.heard, cutSince := __src.cutSince, joining := __src.joining, leaving := some 5, joinRoot := __src.joinRoot, joinAsked := __src.joinAsked, expected := __src.expected, selfLeave := __src.selfLeave, leaveSent := __src.leaveSent, gtLoadDue := __src.gtLoadDue, sent := __src.sent, memberSent := __src.memberSent, paceSent := __src.paceSent, arrived := __src.arrived, e2e := __src.e2e, dups := __src.dups, txns := __src.txns, nextTxn := __src.nextTxn, exports := __src.exports, exportMap := __src.exportMap, fq := __src.fq, collIn := __src.collIn, suspects := __src.suspects })

def Membership_w5 : State := GM   (have __src := g1;   { ports := __src.ports, domain := __src.domain, coord := __src.coord, me := __src.me, epoch := __src.epoch, members := __src.members, coordinator := __src.coordinator, routes := __src.routes, heard := __src.heard, cutSince := __src.cutSince, joining := __src.joining, leaving := __src.leaving, joinRoot := __src.joinRoot, joinAsked := __src.joinAsked, expected := __src.expected, selfLeave := __src.selfLeave, leaveSent := __src.leaveSent, gtLoadDue := __src.gtLoadDue, sent := __src.sent, memberSent := __src.memberSent, paceSent := __src.paceSent, arrived := __src.arrived, e2e := __src.e2e, dups := __src.dups, txns := __src.txns, nextTxn := __src.nextTxn, exports := __src.exports, exportMap := __src.exportMap, fq := __src.fq, collIn := __src.collIn, suspects := __src.suspects })

def Membership_w6 : State := GM   (have __src := g1;   { ports := __src.ports, domain := __src.domain, joined := __src.joined, coord := __src.coord, me := __src.me, epoch := __src.epoch, members := __src.members, coordinator := __src.coordinator, routes := __src.routes, heard := [(1, 78187493520), (2, 78187493520)], cutSince := [(1, some 78187493520), (2, some 5)], joining := __src.joining, leaving := __src.leaving, joinRoot := __src.joinRoot, joinAsked := __src.joinAsked, expected := __src.expected, selfLeave := __src.selfLeave, leaveSent := __src.leaveSent, gtLoadDue := __src.gtLoadDue, sent := __src.sent, memberSent := __src.memberSent, paceSent := __src.paceSent, arrived := __src.arrived, e2e := __src.e2e, dups := __src.dups, txns := __src.txns, nextTxn := __src.nextTxn, exports := __src.exports, exportMap := __src.exportMap, fq := __src.fq, collIn := __src.collIn, suspects := __src.suspects })

def Membership_w7 : State := GM   (have __src := g1;   { ports := [(4, pr 4)], domain := __src.domain, joined := __src.joined, coord := true, me := __src.me, epoch := __src.epoch, members := 24, coordinator := __src.coordinator, routes := __src.routes, heard := [(4, 5)], cutSince := __src.cutSince, joining := __src.joining, leaving := __src.leaving, joinRoot := __src.joinRoot, joinAsked := __src.joinAsked, expected := __src.expected, selfLeave := __src.selfLeave, leaveSent := __src.leaveSent, gtLoadDue := __src.gtLoadDue, sent := __src.sent, memberSent := __src.memberSent, paceSent := __src.paceSent, arrived := __src.arrived, e2e := __src.e2e, dups := __src.dups, txns := __src.txns, nextTxn := __src.nextTxn, exports := __src.exports, exportMap := __src.exportMap, fq := __src.fq, collIn := __src.collIn, suspects := __src.suspects })

def Membership_w8 : State := have __src := GM g1; { pending := __src.pending, top := __src.top, clk := __src.clk, tiles := __src.tiles, mem := __src.mem, mmu := __src.mmu, eng := __src.eng, gz := __src.gz, cmd := { slots := [(5, { st := SlotState.outstanding, gtAccept := 878082202 - 1562500000, op := Op.join })] }, ctxs := __src.ctxs, cads := __src.cads, pow := __src.pow, gvn := __src.gvn, res := __src.res, rfw := __src.rfw, clm := __src.clm, pairs := __src.pairs, err := __src.err, trust := __src.trust, free := __src.free }

theorem met_Membership_1 :
    (Membership_w1.Inv) ∧
    (Membership_w1.Still) ∧
    (Membership_w1.top.st.live = true) ∧
    (Membership_w1.gz.joining = none) ∧
    (Membership_w1.gz.selfLeave = false) ∧
    (Membership_w1.gz.sent = []) ∧
    (Membership_w1.gz.arrived = []) ∧
    (Membership_w1.gz.joined = true) ∧
    (BitVec.getLsbD Membership_w1.gz.members Membership_w1.gz.me.toNat = true) ∧
    (BitVec.getLsbD Membership_w1.gz.members ↑2 = true) ∧
    (Membership_w1.gz.epoch < 7#32) ∧
    ((14#64).getLsbD Membership_w1.gz.me.toNat = true) ∧
    (Membership_w1.gz.leaving = none) ∧
    (↑2 ≠ Membership_w1.gz.me.toNat) ∧
    (¬(BitVec.getLsbD (Membership_w1.gz.members &&& ~~~(Membership_w1.gz.suspects ||| BitVec.ofNat 64 (2 ^ ↑2))) Membership_w1.gz.me.toNat = true ∧ ∀ (j : Nat), j < Membership_w1.gz.me.toNat → BitVec.getLsbD (Membership_w1.gz.members &&& ~~~(Membership_w1.gz.suspects ||| BitVec.ofNat 64 (2 ^ ↑2))) j = false)) ∧
    (BitVec.toNat (Membership_w1.clk.gt - Tab.look 0 Membership_w1.gz.heard ↑2) < 156250) ∧
    (∀ (g : W64), Tab.look none Membership_w1.gz.cutSince ↑2 = some g → BitVec.toNat (Membership_w1.clk.gt - g) < 156250) :=
  by refine ⟨inv_of (by decide +kernel), still_of (by decide +kernel), ?_, ?_, ?_, ?_, ?_, ?_, ?_, ?_, ?_, ?_, ?_, ?_, ?_, ?_,
   (by intro g h; first | (cases h; done) | (cases h; decide +kernel))⟩ <;> decide +kernel

theorem met_Membership_2 :
    (Membership_w1.Inv) ∧
    (Membership_w1.Still) ∧
    (Membership_w1.top.st.live = true) ∧
    (Membership_w1.gz.joining = none) ∧
    (Membership_w1.gz.selfLeave = false) ∧
    (Membership_w1.gz.sent = []) ∧
    (Membership_w1.gz.arrived = []) ∧
    (Membership_w1.gz.joined = true) ∧
    (BitVec.getLsbD Membership_w1.gz.members Membership_w1.gz.me.toNat = true) ∧
    (5#32 ≤ Membership_w1.gz.epoch ∨ BitVec.getLsbD Membership_w1.gz.members ↑4 = false) ∧
    (Membership_w1.gz.leaving = none) ∧
    (↑4 ≠ Membership_w1.gz.me.toNat) ∧
    (Membership_w1.gz.coord = false) :=
  by refine ⟨inv_of (by decide +kernel), still_of (by decide +kernel), ?_⟩ <;> and_intros <;> decide +kernel

theorem met_Membership_3 :
    (Membership_w1.Inv) ∧
    (Membership_w1.Still) ∧
    (Membership_w1.top.st.live = true) ∧
    (Membership_w1.gz.joining = none) ∧
    (Membership_w1.gz.selfLeave = false) ∧
    (Membership_w1.gz.sent = []) ∧
    (Membership_w1.gz.arrived = []) ∧
    (Membership_w1.gz.joined = true) ∧
    (BitVec.getLsbD Membership_w1.gz.members Membership_w1.gz.me.toNat = true) ∧
    (BitVec.getLsbD Membership_w1.gz.members ↑2 = true) ∧
    (Membership_w1.gz.epoch < 7#32) ∧
    ((6#64).getLsbD Membership_w1.gz.me.toNat = false) :=
  by refine ⟨inv_of (by decide +kernel), still_of (by decide +kernel), ?_⟩ <;> and_intros <;> decide +kernel

theorem met_Membership_4 :
    (Membership_w1.Inv) ∧
    (Membership_w1.Still) ∧
    (Membership_w1.top.st.live = true) ∧
    (Membership_w1.gz.joining = none) ∧
    (Membership_w1.gz.selfLeave = false) ∧
    (Membership_w1.gz.sent = []) ∧
    (Membership_w1.gz.arrived = []) ∧
    (Membership_w1.gz.joined = true) ∧
    (BitVec.getLsbD Membership_w1.gz.members Membership_w1.gz.me.toNat = true) ∧
    (Membership_w1.gz.leaving = none) ∧
    (↑1 ≠ Membership_w1.gz.me.toNat) ∧
    (BitVec.getLsbD Membership_w1.gz.members ↑1 = true) ∧
    (156250 ≤ BitVec.toNat (Membership_w1.clk.gt - Tab.look 0 Membership_w1.gz.heard ↑1)) ∧
    (¬(BitVec.getLsbD (Membership_w1.gz.members &&& ~~~(Membership_w1.gz.suspects ||| BitVec.ofNat 64 (2 ^ ↑1))) Membership_w1.gz.me.toNat = true ∧ ∀ (j : Nat), j < Membership_w1.gz.me.toNat → BitVec.getLsbD (Membership_w1.gz.members &&& ~~~(Membership_w1.gz.suspects ||| BitVec.ofNat 64 (2 ^ ↑1))) j = false)) :=
  by refine ⟨inv_of (by decide +kernel), still_of (by decide +kernel), ?_⟩ <;> and_intros <;> decide +kernel

theorem met_Membership_5 :
    (Membership_w1.Inv) ∧
    (Membership_w1.Still) ∧
    (Membership_w1.top.st.live = true) ∧
    (Membership_w1.gz.joining = none) ∧
    (Membership_w1.gz.selfLeave = false) ∧
    (Membership_w1.gz.sent = []) ∧
    (Membership_w1.gz.arrived = []) ∧
    (5 < 4096) ∧
    ((Membership_w1.slotOf 5).st = SlotState.outstanding) ∧
    (Membership_w1.clm.watchdog = false) ∧
    ((BitVec.setWidth 32 Membership_w1.clk.gt - (Membership_w1.slotOf 5).gtAccept).toNat < 1562500000) :=
  by refine ⟨inv_of (by decide +kernel), still_of (by decide +kernel), ?_⟩ <;> and_intros <;> decide +kernel

theorem met_Membership_6 :
    (Membership_w2.Inv) ∧
    (Membership_w2.Still) ∧
    (Membership_w2.top.st.live = true) ∧
    (Membership_w2.gz.joining = none) ∧
    (Membership_w2.gz.selfLeave = false) ∧
    (Membership_w2.gz.sent = []) ∧
    (Membership_w2.gz.arrived = []) ∧
    (Membership_w2.gz.joined = true) ∧
    (BitVec.getLsbD Membership_w2.gz.members Membership_w2.gz.me.toNat = true) ∧
    (Membership_w2.gz.leaving = none) ∧
    (↑4 ≠ Membership_w2.gz.me.toNat) ∧
    (Membership_w2.gz.coord = true) ∧
    (BitVec.getLsbD Membership_w2.gz.members ↑4 = true ∨ Membership_w2.reaches ↑4 = false) ∧
    (BitVec.getLsbD Membership_w2.gz.members ↑4 = false) :=
  by refine ⟨inv_of (by decide +kernel), still_of (by decide +kernel), ?_⟩ <;> and_intros <;> decide +kernel

theorem met_Membership_7 :
    (Membership_w2.Inv) ∧
    (Membership_w2.Still) ∧
    (Membership_w2.top.st.live = true) ∧
    (Membership_w2.gz.joining = none) ∧
    (Membership_w2.gz.selfLeave = false) ∧
    (Membership_w2.gz.sent = []) ∧
    (Membership_w2.gz.arrived = []) ∧
    (Membership_w2.gz.joined = true) ∧
    (BitVec.getLsbD Membership_w2.gz.members Membership_w2.gz.me.toNat = true) ∧
    (Membership_w2.gz.leaving = none) ∧
    (↑7 ≠ Membership_w2.gz.me.toNat) ∧
    (Membership_w2.gz.coord = true) ∧
    (BitVec.getLsbD Membership_w2.gz.members ↑7 = false) ∧
    (Membership_w2.reaches ↑7 = true) :=
  by refine ⟨inv_of (by decide +kernel), still_of (by decide +kernel), ?_⟩ <;> and_intros <;> decide +kernel

theorem met_Membership_8 :
    (Membership_w3.Inv) ∧
    (Membership_w3.Still) ∧
    (Membership_w3.top.st.live = true) ∧
    (Membership_w3.gz.joining = none) ∧
    (Membership_w3.gz.selfLeave = false) ∧
    (Membership_w3.gz.sent = []) ∧
    (Membership_w3.gz.arrived = []) ∧
    (Membership_w3.gz.joined = true) ∧
    (BitVec.getLsbD Membership_w3.gz.members Membership_w3.gz.me.toNat = true) ∧
    (Membership_w3.gz.leaving = none) ∧
    (↑4 ≠ Membership_w3.gz.me.toNat) ∧
    (Membership_w3.gz.coord = true) ∧
    (BitVec.getLsbD Membership_w3.gz.members ↑4 = true) ∧
    (BitVec.getLsbD (Membership_w3.gz.members &&& ~~~(Membership_w3.gz.suspects ||| BitVec.ofNat 64 (2 ^ ↑4))) Membership_w3.gz.me.toNat = true ∧ ∀ (j : Nat), j < Membership_w3.gz.me.toNat → BitVec.getLsbD (Membership_w3.gz.members &&& ~~~(Membership_w3.gz.suspects ||| BitVec.ofNat 64 (2 ^ ↑4))) j = false) ∧
    (Tab.look none Membership_w3.gz.cutSince ↑4 = some 78181826560#64) ∧
    (156250 ≤ BitVec.toNat (Membership_w3.clk.gt - 78181826560#64)) :=
  by refine ⟨inv_of (by decide +kernel), still_of (by decide +kernel), ?_⟩ <;> and_intros <;> decide +kernel

theorem met_Membership_9 :
    (Membership_w4.Inv) ∧
    (Membership_w4.Still) ∧
    (Membership_w4.top.st.live = true) ∧
    (Membership_w4.gz.joining = none) ∧
    (Membership_w4.gz.selfLeave = false) ∧
    (Membership_w4.gz.sent = []) ∧
    (Membership_w4.gz.arrived = []) ∧
    (Membership_w4.gz.joined = true) ∧
    (BitVec.getLsbD Membership_w4.gz.members Membership_w4.gz.me.toNat = true) ∧
    (BitVec.getLsbD Membership_w4.gz.members ↑2 = true) ∧
    (Membership_w4.gz.epoch < 7#32) ∧
    ((6#64).getLsbD Membership_w4.gz.me.toNat = false) :=
  by refine ⟨inv_of (by decide +kernel), still_of (by decide +kernel), ?_⟩ <;> and_intros <;> decide +kernel

theorem met_Membership_10 :
    (Membership_w5.Inv) ∧
    (Membership_w5.Still) ∧
    (Membership_w5.top.st.live = true) ∧
    (Membership_w5.gz.joining = none) ∧
    (Membership_w5.gz.selfLeave = false) ∧
    (Membership_w5.gz.sent = []) ∧
    (Membership_w5.gz.arrived = []) ∧
    (Membership_w5.gz.joined = false) :=
  by refine ⟨inv_of (by decide +kernel), still_of (by decide +kernel), ?_⟩ <;> and_intros <;> decide +kernel

theorem met_Membership_11 :
    (Membership_w6.Inv) ∧
    (Membership_w6.Still) ∧
    (Membership_w6.top.st.live = true) ∧
    (Membership_w6.gz.joining = none) ∧
    (Membership_w6.gz.selfLeave = false) ∧
    (Membership_w6.gz.sent = []) ∧
    (Membership_w6.gz.arrived = []) ∧
    (Membership_w6.gz.joined = true) ∧
    (BitVec.getLsbD Membership_w6.gz.members Membership_w6.gz.me.toNat = true) ∧
    (Membership_w6.gz.leaving = none) ∧
    (↑2 ≠ Membership_w6.gz.me.toNat) ∧
    (BitVec.getLsbD Membership_w6.gz.members ↑2 = true) ∧
    (Tab.look none Membership_w6.gz.cutSince ↑2 = some 5#64) ∧
    (156250 ≤ BitVec.toNat (Membership_w6.clk.gt - 5#64)) ∧
    (¬(BitVec.getLsbD (Membership_w6.gz.members &&& ~~~(Membership_w6.gz.suspects ||| BitVec.ofNat 64 (2 ^ ↑2))) Membership_w6.gz.me.toNat = true ∧ ∀ (j : Nat), j < Membership_w6.gz.me.toNat → BitVec.getLsbD (Membership_w6.gz.members &&& ~~~(Membership_w6.gz.suspects ||| BitVec.ofNat 64 (2 ^ ↑2))) j = false)) :=
  by refine ⟨inv_of (by decide +kernel), still_of (by decide +kernel), ?_⟩ <;> and_intros <;> decide +kernel

theorem met_Membership_12 :
    (Membership_w7.Inv) ∧
    (Membership_w7.Still) ∧
    (Membership_w7.top.st.live = true) ∧
    (Membership_w7.gz.joining = none) ∧
    (Membership_w7.gz.selfLeave = false) ∧
    (Membership_w7.gz.sent = []) ∧
    (Membership_w7.gz.arrived = []) ∧
    (Membership_w7.gz.joined = true) ∧
    (BitVec.getLsbD Membership_w7.gz.members Membership_w7.gz.me.toNat = true) ∧
    (Membership_w7.gz.leaving = none) ∧
    (↑4 ≠ Membership_w7.gz.me.toNat) ∧
    (BitVec.getLsbD Membership_w7.gz.members ↑4 = true) ∧
    (156250 ≤ BitVec.toNat (Membership_w7.clk.gt - Tab.look 0 Membership_w7.gz.heard ↑4)) ∧
    (BitVec.getLsbD (Membership_w7.gz.members &&& ~~~(Membership_w7.gz.suspects ||| BitVec.ofNat 64 (2 ^ ↑4))) Membership_w7.gz.me.toNat = true ∧ ∀ (j : Nat), j < Membership_w7.gz.me.toNat → BitVec.getLsbD (Membership_w7.gz.members &&& ~~~(Membership_w7.gz.suspects ||| BitVec.ofNat 64 (2 ^ ↑4))) j = false) :=
  by refine ⟨inv_of (by decide +kernel), still_of (by decide +kernel), ?_⟩ <;> and_intros <;> decide +kernel

theorem met_Membership_13 :
    (Membership_w8.Inv) ∧
    (Membership_w8.Still) ∧
    (Membership_w8.top.st.live = true) ∧
    (Membership_w8.gz.joining = none) ∧
    (Membership_w8.gz.selfLeave = false) ∧
    (Membership_w8.gz.sent = []) ∧
    (Membership_w8.gz.arrived = []) ∧
    (5 < 4096) ∧
    ((Membership_w8.slotOf 5).st = SlotState.outstanding) ∧
    (Membership_w8.clm.watchdog = false) ∧
    (1562500000 ≤ (BitVec.setWidth 32 Membership_w8.clk.gt - (Membership_w8.slotOf 5).gtAccept).toNat) :=
  by refine ⟨inv_of (by decide +kernel), still_of (by decide +kernel), ?_⟩ <;> and_intros <;> decide +kernel

end Membership

namespace DomainTime

def GR (mem : List (Nat × List Byte)) (cads : Tab Cad := []) (dups : Tab (List (BitVec 16 × Packet)) := []) (down : Bool := false) : State := { mk { tileX with st := .stopped } with
  top := { st := .ready, hbmUp := 1 }, clk := { gt := 0x123456789A }, cads := cads
  mem := { phys := mem.foldl (fun m p => Tab.writeN 0 m p.1 p.2) [] }
  ctxs := [(2, { map := [(0x10000, BitVec.ofNat 64 (0x40000000 + 0x3F)), (0x20000, BitVec.ofNat 64 (0x50000000 + 0x3F))], ctrBase := [3, 4, 5, 6] })]
  gz := { ports := if down then [] else [(4, { en := true, st := .up, peerValid := true, peerMember := 2, peerDomain := 7, lanes := 0xFF })], domain := 7, joined := true, me := 3, epoch := 6, members := 0xE, routes := [(0x20, 4), (0x21, 4)], dups := dups
          exportMap := [(0x4000, 3), (0x4001, 1), (0x5000, 2)], exports := [{ ctx := 2, num := 9, rights := 3, va := 0x10000, size := 0x8000, ctrFirst := 7, ctrCount := 3, ctrBolt := 1 }, { ctx := 2, num := 8, rights := 0, va := 0x20000, size := 0x100, ctrFirst := 0, ctrCount := 0, ctrBolt := 0 }] } }
def mems : List (Nat × List Byte) := [(0x40000100, (List.range 40).map fun k => BitVec.ofNat 8 (k * 7 + 3)), (0x50000000, [1, 2])]
def G0 : Gauze := (GR mems).gz
def pr (m : BitVec 6) (tim : Bool := false) : Port := { en := true, st := .up, peerValid := true, peerMember := m, peerDomain := 7, lanes := 0xFF, timing := tim }
def GM (g : Gauze) : State := { GR mems with gz := g, cmd := { slots := [(5, { st := .outstanding, op := .join, gtAccept := 0x3456789A - 5 })] } }
def g1 : Gauze := { G0 with ports := [(4, pr 2), (5, pr 1)], routes := [(0x10, 5), (0x11, 5), (0x20, 4), (0x21, 4), (0x30, 0xFE)], heard := [(1, 0x1234000000), (2, 0x1234567800)], txns := [{ num := 77, peer := 2, flow := 1, who := .none }, { num := 78, peer := 5, flow := 1, who := .none }] }
def GT (g : Gauze) (c : Clocks) (cads : Tab Cad := []) (st : ModState := .ready) : State := { GM g with clk := c, cads := cads, gz := g, top := { st := st, hbmUp := 1 } }
def c0 : Clocks := { gt := 0x123456789A, lastCorrection := 0x1234567800, source := 1, timingPort := 5 }
def g2 : Gauze := { g1 with ports := [(4, pr 2), (5, pr 1 true)] }
def g3 : Gauze := { g1 with ports := [(4, pr 1 true), (5, pr 1 true), (6, pr 0 true)], members := 0xF, fq := [] }

def DomainTime_w1 : State := GT   (have __src := g1;   { ports := __src.ports, domain := __src.domain, coord := __src.coord, me := __src.me, epoch := __src.epoch, members := __src.members, coordinator := __src.coordinator, routes := __src.routes, heard := __src.heard, cutSince := __src.cutSince, joining := __src.joining, leaving := __src.leaving, joinRoot := __src.joinRoot, joinAsked := __src.joinAsked, expected := __src.expected, selfLeave := __src.selfLeave, leaveSent := __src.leaveSent, gtLoadDue := __src.gtLoadDue, sent := __src.sent, memberSent := __src.memberSent, paceSent := __src.paceSent, arrived := __src.arrived, e2e := __src.e2e, dups := __src.dups, txns := __src.txns, nextTxn := __src.nextTxn, exports := __src.exports, exportMap := __src.exportMap, fq := __src.fq, collIn := __src.collIn, suspects := __src.suspects })   c0

def DomainTime_w2 : TimeStamps := { t1 := 100, t2 := 210, t3 := 220, t4 := 130, parentGt := 4096#64 }

def DomainTime_w3 : State := GT g1 c0

def DomainTime_w4 : State := GT g2   (have __src := c0;   { gt := 78187493392, locked := __src.locked, tileCycles := __src.tileCycles, source := __src.source, timingPort := __src.timingPort, switches := __src.switches, unlocks := __src.unlocks, gtHi := __src.gtHi, inSync := __src.inSync, root := __src.root, depth := __src.depth, loads := __src.loads, offset := __src.offset, lastCorrection := __src.lastCorrection, withhold := __src.withhold, syncs := __src.syncs })

def DomainTime_w5 : State := GT g2   (have __src := c0;   { gt := __src.gt, locked := __src.locked, tileCycles := __src.tileCycles, source := 2, timingPort := __src.timingPort, switches := __src.switches, unlocks := __src.unlocks, gtHi := __src.gtHi, inSync := true, root := __src.root, depth := __src.depth, loads := __src.loads, offset := __src.offset, lastCorrection := __src.lastCorrection, withhold := __src.withhold, syncs := __src.syncs })

def DomainTime_w6 : State := GT g3 c0

def DomainTime_w7 : State := GT   (have __src := g2;   { ports := __src.ports, domain := __src.domain, joined := __src.joined, coord := __src.coord, me := __src.me, epoch := __src.epoch, members := __src.members, coordinator := __src.coordinator, routes := __src.routes, heard := __src.heard, cutSince := __src.cutSince, joining := some 5, leaving := __src.leaving, joinRoot := __src.joinRoot, joinAsked := __src.joinAsked, expected := __src.expected, selfLeave := __src.selfLeave, leaveSent := __src.leaveSent, gtLoadDue := true, sent := __src.sent, memberSent := __src.memberSent, paceSent := __src.paceSent, arrived := __src.arrived, e2e := __src.e2e, dups := __src.dups, txns := __src.txns, nextTxn := __src.nextTxn, exports := __src.exports, exportMap := __src.exportMap, fq := __src.fq, collIn := __src.collIn, suspects := __src.suspects })   c0

theorem met_DomainTime_1 :
    (DomainTime_w1.Inv) ∧
    (DomainTime_w1.Still) ∧
    (DomainTime_w1.gz.arrived = []) ∧
    (DomainTime_w1.gz.joined = false ∨ DomainTime_w1.clk.root = true) :=
  by refine ⟨inv_of (by decide +kernel), still_of (by decide +kernel), ?_⟩ <;> and_intros <;> decide +kernel

theorem met_DomainTime_2 :
    (DomainTime_w4.Inv) ∧
    (DomainTime_w4.Still) ∧
    (DomainTime_w4.gz.arrived = []) ∧
    (DomainTime_w4.gz.joined = false ∨ DomainTime_w4.clk.root = true ∨ BitVec.toNat (DomainTime_w4.clk.gt - DomainTime_w4.clk.lastCorrection) < 64) :=
  by refine ⟨inv_of (by decide +kernel), still_of (by decide +kernel), ?_⟩ <;> and_intros <;> decide +kernel

theorem met_DomainTime_3 :
    (DomainTime_w5.Inv) ∧
    (DomainTime_w5.Still) ∧
    (DomainTime_w5.gz.arrived = []) ∧
    (DomainTime_w5.clk.source ≠ 1) ∧
    (DomainTime_w5.clk.source = 2) ∧
    (DomainTime_w5.gz.joined = true) ∧
    (DomainTime_w5.gz.coord = false) ∧
    (DomainTime_w5.gz.leaveSent = false) ∧
    (DomainTime_w5.gz.fq = []) :=
  by refine ⟨inv_of (by decide +kernel), still_of (by decide +kernel), ?_⟩ <;> and_intros <;> decide +kernel

theorem met_DomainTime_4 :
    (DomainTime_w3.Inv) ∧
    (DomainTime_w3.Still) ∧
    (DomainTime_w3.gz.arrived = []) ∧
    (¬(DomainTime_w3.gz.joined = true ∧ (DomainTime_w3.port ↑7).st = PortState.up)) :=
  by refine ⟨inv_of (by decide +kernel), still_of (by decide +kernel), ?_⟩ <;> and_intros <;> decide +kernel

theorem met_DomainTime_5 :
    (DomainTime_w7.Inv) ∧
    (DomainTime_w7.Still) ∧
    (DomainTime_w7.gz.arrived = []) ∧
    (DomainTime_w7.gz.joined = true) ∧
    (DomainTime_w7.clk.root = false) ∧
    (DomainTime_w7.gz.gtLoadDue = true) ∧
    (DomainTime_w7.cads = []) ∧
    (5 < 4096) ∧
    (DomainTime_w7.gz.joining = some 5) ∧
    ((DomainTime_w7.slotOf 5).st = SlotState.outstanding) ∧
    (DomainTime_w7.clm.watchdog = false) :=
  by refine ⟨inv_of (by decide +kernel), still_of (by decide +kernel), ?_⟩ <;> and_intros <;> decide +kernel

end DomainTime

namespace FabricQueues

def GR (mem : List (Nat × List Byte)) (cads : Tab Cad := []) (dups : Tab (List (BitVec 16 × Packet)) := []) (down : Bool := false) : State := { mk { tileX with st := .stopped } with
  top := { st := .ready, hbmUp := 1 }, clk := { gt := 0x123456789A }, cads := cads
  mem := { phys := spread mem }
  ctxs := [(2, { map := [(0x10000, BitVec.ofNat 64 (0x40000000 + 0x3F)), (0x20000, BitVec.ofNat 64 (0x50000000 + 0x3F))], ctrBase := [3, 4, 5, 6] })]
  gz := { ports := if down then [] else [(4, { en := true, st := .up, peerValid := true, peerMember := 2, peerDomain := 7, lanes := 0xFF })], domain := 7, joined := true, me := 3, epoch := 6, members := 0xE, routes := [(0x20, 4), (0x21, 4)], dups := dups
          exportMap := [(0x4000, 3), (0x4001, 1), (0x5000, 2)], exports := [{ ctx := 2, num := 9, rights := 3, va := 0x10000, size := 0x8000, ctrFirst := 7, ctrCount := 3, ctrBolt := 1 }, { ctx := 2, num := 8, rights := 0, va := 0x20000, size := 0x100, ctrFirst := 0, ctrCount := 0, ctrBolt := 0 }] } }
def mems : List (Nat × List Byte) := [(0x40000100, (List.range 40).map fun k => BitVec.ofNat 8 (k * 7 + 3)), (0x50000000, [1, 2])]
def G0 : Gauze := (GR mems).gz
def pr (m : BitVec 6) (tim : Bool := false) : Port := { en := true, st := .up, peerValid := true, peerMember := m, peerDomain := 7, lanes := 0xFF, timing := tim }
def g1 : Gauze := { G0 with ports := [(4, pr 2), (5, pr 1)], routes := [(0x10, 5), (0x11, 5), (0x20, 4), (0x21, 4), (0x30, 0xFE)], heard := [(1, 0x1234000000), (2, 0x1234567800)], txns := [{ num := 77, peer := 2, flow := 1, who := .none }, { num := 78, peer := 5, flow := 1, who := .none }] }
def tlbM : List TlbEntry := [{ asid := 5, va := 0, bits := 21, pte := BitVec.ofNat 64 0x4000003F }, { asid := 5, va := 0x200000, bits := 16, pte := BitVec.ofNat 64 0x5000003F }, { asid := 5, va := 0x210000, bits := 16, pte := BitVec.ofNat 64 0x60000037 }]
def bytesOf (l : List W64) : List Byte := l.flatMap fun w => toLe 8 w.toNat
def gq : Group := { bolt := 0, phys := 0, siltKib := 0, entry := 0, tvec := 0, movers := 0, counters := 0 }
def GF (f : FabQueue) (mem : List (Nat × List Byte)) (ctr : Nat := 0) (mst : MovState := .running) (g : Gauze := g1) : State := { GR mems with
  mem := { phys := spread mem }, ctxs := [(2, { groups := [gq] })], cmd := { link := .up }
  tiles := [(3, { tileX with st := .halted })]
  mmu := { ctx := [(2, 0x80000005)], tlbs := [(2053, tlbM)] }
  eng := { mov := [(5, { en := true, st := mst, ctx := 2, granted := true, nextNum := 4 })], ctr := [(6, BitVec.ofNat 32 ctr)], ctrGrant := [(7, some 2)] }
  gz := { g with fq := [(3, f)] } }
def fw (op : Nat) (peer : Nat := 2) (ex : Nat := 9) (loc rem len : Nat := 0) (note : Nat := 0) (aop : Nat := 0) (w5 w6 w7 w8 w9 : Nat := 0) (fl : Nat := 0) : List W64 :=
  [op * 2 ^ 58 + fl * 2 ^ 56 + peer * 2 ^ 46 + ex * 2 ^ 38 + aop * 2 ^ 34, loc, rem, len, note, w5, w6, w7, w8, w9, 0, 0, 0, 0, 0, 0].map (BitVec.ofNat 64)
def f0 (l : List FabDesc) (st : Nat := 3) : FabQueue := { en := true, granted := true, ctx := 2, size := 4, mover := 5, doorbell := 6, base := 0x20, started := st, flight := l }
def fdd (ws : List W64) (cur miss : Nat := 0) : FabDesc := { num := 3, va := 0x1180, words := ws, cursor := cur, missing := miss }
def fl3 : Nat := 0xABCD * 2 ^ 32 + 3 * 2 ^ 19 + 0x80
def dsc : List (List W64) := [fw 1 2 9 0x3000 0x1F0 300 (256 * 65536 + 2), fw 2 2 9 0x3000 0x1F0 300, fw 3 2 9 0x3000 0x100 8 0 2 7 9, fw 4 1 9 0 0 0 (256 * 65536 + 2), fw 5 0 9 0 0 0 (256 * 65536 + 2) 0 0 0 0xE, fw 5 0 9 0 0 0 (256 * 65536 + 2) 0 0 0 0x2E, fw 9, fw 1 5 9 0x3000 0x1F0 300, fw 1 2 9 0x3000 0x1F0 0]
def fwt : List W64 := fw 1 2 9 0x3000 0x1F0 300 0 0 0 0 0 fl3 (7 * 65536 + 5) 3
def mm : List (Nat × List Byte) := [(0x40003000, (List.range 300).map fun k => BitVec.ofNat 8 (k * 5 + 1))]

def FabricQueues_w1 : State := GF   (have __src := f0 [];   { drain := __src.drain, granted := __src.granted, ctx := __src.ctx, size := __src.size, mover := __src.mover, doorbell := __src.doorbell, cad := __src.cad, cadence := __src.cadence, base := __src.base, head := __src.head, started := __src.started, flight := __src.flight, draining := __src.draining, aborting := __src.aborting, limit := __src.limit })   mm 3

def FabricQueues_w2 : State := GF (f0 []) ([(1073746304, bytesOf (fw 1 2 9 12288 496 300 (256 * 65536 + 2)))] ++ mm) 5

def FabricQueues_w3 : State := GF   (have __src := f0 [fdd fwt];   { drain := __src.drain, granted := __src.granted, ctx := __src.ctx, size := __src.size, mover := __src.mover, doorbell := __src.doorbell, cad := __src.cad, cadence := __src.cadence, base := __src.base, head := __src.head, started := __src.started, flight := __src.flight, draining := true, aborting := __src.aborting, limit := __src.limit })   mm 3

def FabricQueues_w4 : State := GF (f0 [fdd (fw 1 2 9 12288 496 300 (256 * 65536 + 2))] 4) mm 5

def FabricQueues_w5 : FabDesc := { num := 3, va := 4480#64, words := [288373587541229568#64, 12288#64, 496#64, 300#64, 16777218#64, 0#64, 0#64, 0#64, 0#64, 0#64, 0#64, 0#64, 0#64, 0#64, 0#64, 0#64], chunks := 0#64 }

def FabricQueues_w6 : State := GF (f0 [fdd (fw 2 2 9 12288 496 300)] 4) mm 5

def FabricQueues_w7 : FabDesc := { num := 3, va := 4480#64, words := [576603963692941312#64, 12288#64, 496#64, 300#64, 0#64, 0#64, 0#64, 0#64, 0#64, 0#64, 0#64, 0#64, 0#64, 0#64, 0#64, 0#64], chunks := 0#64 }

def FabricQueues_w8 : State := GF (f0 [fdd (fw 3 2 9 12288 256 8 0 2 7 9)] 4) mm 5

def FabricQueues_w9 : FabDesc := { num := 3, va := 4480#64, words := [864834374204391424#64, 12288#64, 256#64, 8#64, 0#64, 7#64, 9#64, 0#64, 0#64, 0#64, 0#64, 0#64, 0#64, 0#64, 0#64, 0#64], chunks := 0#64 }

def FabricQueues_w10 : State := GF (f0 [fdd (fw 4 1 9 0 0 0 (256 * 65536 + 2))] 4) mm 5

def FabricQueues_w11 : FabDesc := { num := 3, va := 4480#64, words := [1152994347252187136#64, 0#64, 0#64, 0#64, 16777218#64, 0#64, 0#64, 0#64, 0#64, 0#64, 0#64, 0#64, 0#64, 0#64, 0#64, 0#64], chunks := 0#64 }

def FabricQueues_w12 : State := GF (f0 [fdd (fw 5 0 9 0 0 0 (256 * 65536 + 2) 0 0 0 14)] 4) mm 5

def FabricQueues_w13 : FabDesc := { num := 3, va := 4480#64, words := [1441154354659721216#64, 0#64, 0#64, 0#64, 16777218#64, 0#64, 0#64, 14#64, 0#64, 0#64, 0#64, 0#64, 0#64, 0#64, 0#64, 0#64], chunks := 0#64 }

def FabricQueues_w14 : State := GF (f0 [fdd (fw 5 0 9 0 0 0 (256 * 65536 + 2) 0 0 0 46)] 4) mm 5

def FabricQueues_w15 : FabDesc := { num := 3, va := 4480#64, words := [1441154354659721216#64, 0#64, 0#64, 0#64, 16777218#64, 0#64, 0#64, 46#64, 0#64, 0#64, 0#64, 0#64, 0#64, 0#64, 0#64, 0#64], chunks := 0#64 }

def FabricQueues_w16 : State := GF (f0 [fdd (fw 1 2 9 12288 496)] 4) mm 5

def FabricQueues_w17 : FabDesc := { num := 3, va := 4480#64, words := [288373587541229568#64, 12288#64, 496#64, 0#64, 0#64, 0#64, 0#64, 0#64, 0#64, 0#64, 0#64, 0#64, 0#64, 0#64, 0#64, 0#64], chunks := 0#64 }

def FabricQueues_w18 : State := GF   (f0     [have __src := fdd fwt 300;       { num := __src.num, va := __src.va, words := __src.words, issued := __src.issued, missing := __src.missing, cursor := __src.cursor, verdict := __src.verdict, chunks := __src.chunks, ring := __src.ring, sent := __src.sent, step := __src.step, acc := __src.acc, poisoned := __src.poisoned, lost := __src.lost, noted := __src.noted, done := true, noWrite := __src.noWrite },       fdd (dsc.getD 1 [])]     4)   mm 5

def FabricQueues_w19 : FabDesc := { num := 3, va := 4480#64, words := [504546369655013376#64, 12288#64, 496#64, 300#64, 0#64, 0#64, 0#64, 0#64, 188896958218368#64, 458757#64, 0#64, 0#64, 0#64, 0#64, 0#64, 0#64], cursor := 300, chunks := 0#64, done := true }

def FabricQueues_w20 : State := GF   (have __src :=     f0       [have __src := fdd fwt 300;         { num := __src.num, va := __src.va, words := __src.words, issued := __src.issued, missing := __src.missing, cursor := __src.cursor, verdict := __src.verdict, chunks := __src.chunks, ring := __src.ring, sent := __src.sent, step := __src.step, acc := __src.acc, poisoned := __src.poisoned, lost := __src.lost, noted := __src.noted, done := true, noWrite := __src.noWrite }]       4;   { drain := true, granted := __src.granted, ctx := __src.ctx, size := __src.size, mover := __src.mover, doorbell := __src.doorbell, cad := __src.cad, cadence := __src.cadence, base := __src.base, head := __src.head, started := __src.started, flight := __src.flight, draining := __src.draining, aborting := __src.aborting, limit := __src.limit })   mm 5

theorem met_FabricQueues_1 :
    (FabricQueues_w1.Inv) ∧
    (FabricQueues_w1.Still) ∧
    (FabricQueues_w1.top.st.live = true) ∧
    (FabricQueues_w1.gz.selfLeave = false) ∧
    (FabricQueues_w1.gz.leaving = none) ∧
    ((FabricQueues_w1.mover (↑0) (FabricQueues_w1.fqueue ↑0 ↑3).mover.toNat).st ≠ MovState.paused) ∧
    ((FabricQueues_w1.fqueue ↑0 ↑3).granted = false ∨ 64 ≤ (FabricQueues_w1.fqueue ↑0 ↑3).flight.length ∨ FabricQueues_w1.fqWaiting ↑0 ↑3 = 0) :=
  by refine ⟨inv_of (by decide +kernel), still_of (by decide +kernel), ?_⟩ <;> and_intros <;> decide +kernel

theorem met_FabricQueues_2 :
    (FabricQueues_w2.Inv) ∧
    (FabricQueues_w2.Still) ∧
    (FabricQueues_w2.top.st.live = true) ∧
    (FabricQueues_w2.gz.selfLeave = false) ∧
    (FabricQueues_w2.gz.leaving = none) ∧
    ((FabricQueues_w2.mover (↑0) (FabricQueues_w2.fqueue ↑0 ↑3).mover.toNat).st ≠ MovState.paused) ∧
    ((FabricQueues_w2.fqueue ↑0 ↑3).granted = true) ∧
    ((FabricQueues_w2.fqueue ↑0 ↑3).flight.length < 64) ∧
    (FabricQueues_w2.fqWaiting ↑0 ↑3 ≠ 0) ∧
    ((FabricQueues_w2.fqueue ↑0 ↑3).en = true) ∧
    ((FabricQueues_w2.fqueue ↑0 ↑3).aborting = false) ∧
    (FabricQueues_w2.translate (Requester.mover (↑0) (FabricQueues_w2.fqueue ↑0 ↑3).mover.toNat) (FabricQueues_w2.fqueue ↑0 ↑3).ctx.toNat (FabricQueues_w2.ctxAsid (FabricQueues_w2.fqueue ↑0 ↑3).ctx.toNat) (BitVec.toNat (FabricQueues_w2.fqueue ↑0 ↑3).base * 128 + (FabricQueues_w2.fqueue ↑0 ↑3).started % 2 ^ (FabricQueues_w2.fqueue ↑0 ↑3).size.toNat * 128) Access.descriptor false = Xlat.hit 1073746304) ∧
    (FabricQueues_w2.here 1073746304) ∧
    (FabricQueues_w2.pathUp Path.aelconA = true) ∧
    (pathSecure Path.aelconA = true) :=
  by refine ⟨inv_of (by decide +kernel), still_of (by decide +kernel), ?_, ?_, ?_, ?_, ?_, ?_, ?_, ?_, ?_, ?_, here_of (by decide +kernel), ?_⟩ <;> and_intros <;> decide +kernel

theorem met_FabricQueues_3 :
    (FabricQueues_w2.Inv) ∧
    (FabricQueues_w2.Still) ∧
    (FabricQueues_w2.top.st.live = true) ∧
    (FabricQueues_w2.gz.selfLeave = false) ∧
    (FabricQueues_w2.gz.leaving = none) ∧
    ((FabricQueues_w2.mover (↑0) (FabricQueues_w2.fqueue ↑0 ↑3).mover.toNat).st ≠ MovState.paused) ∧
    (FabricQueues_w2.pathUp Path.bursen = true) ∧
    (pathSecure Path.bursen = false) :=
  by refine ⟨inv_of (by decide +kernel), still_of (by decide +kernel), ?_⟩ <;> and_intros <;> decide +kernel

theorem met_FabricQueues_4 :
    (FabricQueues_w3.Inv) ∧
    (FabricQueues_w3.Still) ∧
    (FabricQueues_w3.top.st.live = true) ∧
    (FabricQueues_w3.gz.selfLeave = false) ∧
    (FabricQueues_w3.gz.leaving = none) ∧
    ((FabricQueues_w3.mover (↑0) (FabricQueues_w3.fqueue ↑0 ↑3).mover.toNat).st ≠ MovState.paused) ∧
    (FabricQueues_w3.pathUp Path.aelconA = true) ∧
    (pathSecure Path.aelconA = true) ∧
    ((FabricQueues_w3.fqueue ↑0 ↑3).draining = true ∨ (FabricQueues_w3.fqueue ↑0 ↑3).aborting = true) :=
  by refine ⟨inv_of (by decide +kernel), still_of (by decide +kernel), ?_⟩ <;> and_intros <;> decide +kernel

theorem met_FabricQueues_5 :
    (FabricQueues_w4.Inv) ∧
    (FabricQueues_w4.Still) ∧
    (FabricQueues_w4.top.st.live = true) ∧
    (FabricQueues_w4.gz.selfLeave = false) ∧
    (FabricQueues_w4.gz.leaving = none) ∧
    ((FabricQueues_w4.mover (↑0) (FabricQueues_w4.fqueue ↑0 ↑3).mover.toNat).st ≠ MovState.paused) ∧
    (FabricQueues_w4.gz.joined = true) ∧
    ((FabricQueues_w4.fqueue ↑0 ↑3).flight = [FabricQueues_w5]) ∧
    (FabricQueues_w5.done = false) ∧
    (FabricQueues_w5.verdict = none) ∧
    (fOp FabricQueues_w5.words = 1) ∧
    (FabricQueues_w5.cursor < BitVec.toNat (wordAt FabricQueues_w5.words 3)) ∧
    (FabricQueues_w4.translate (Requester.mover (↑0) (FabricQueues_w4.fqueue ↑0 ↑3).mover.toNat) (FabricQueues_w4.fqueue ↑0 ↑3).ctx.toNat (FabricQueues_w4.ctxAsid (FabricQueues_w4.fqueue ↑0 ↑3).ctx.toNat) ((dWord FabricQueues_w5.words 1 0 57 + FabricQueues_w5.cursor) % 2 ^ 57) Access.moverSrc false = Xlat.hit 1073754112) ∧
    (FabricQueues_w4.here 1073754112) :=
  by refine ⟨inv_of (by decide +kernel), still_of (by decide +kernel), ?_, ?_, ?_, ?_, ?_, ?_, ?_, ?_, ?_, ?_, ?_, here_of (by decide +kernel)⟩ <;> decide +kernel

theorem met_FabricQueues_6 :
    (FabricQueues_w6.Inv) ∧
    (FabricQueues_w6.Still) ∧
    (FabricQueues_w6.top.st.live = true) ∧
    (FabricQueues_w6.gz.selfLeave = false) ∧
    (FabricQueues_w6.gz.leaving = none) ∧
    ((FabricQueues_w6.mover (↑0) (FabricQueues_w6.fqueue ↑0 ↑3).mover.toNat).st ≠ MovState.paused) ∧
    (FabricQueues_w6.gz.joined = true) ∧
    ((FabricQueues_w6.fqueue ↑0 ↑3).flight = [FabricQueues_w7]) ∧
    (FabricQueues_w7.done = false) ∧
    (FabricQueues_w7.verdict = none) ∧
    (fOp FabricQueues_w7.words = 2) ∧
    (FabricQueues_w7.cursor < BitVec.toNat (wordAt FabricQueues_w7.words 3)) :=
  by refine ⟨inv_of (by decide +kernel), still_of (by decide +kernel), ?_⟩ <;> and_intros <;> decide +kernel

theorem met_FabricQueues_7 :
    (FabricQueues_w8.Inv) ∧
    (FabricQueues_w8.Still) ∧
    (FabricQueues_w8.top.st.live = true) ∧
    (FabricQueues_w8.gz.selfLeave = false) ∧
    (FabricQueues_w8.gz.leaving = none) ∧
    ((FabricQueues_w8.mover (↑0) (FabricQueues_w8.fqueue ↑0 ↑3).mover.toNat).st ≠ MovState.paused) ∧
    (FabricQueues_w8.gz.joined = true) ∧
    ((FabricQueues_w8.fqueue ↑0 ↑3).flight = [FabricQueues_w9]) ∧
    (FabricQueues_w9.done = false) ∧
    (FabricQueues_w9.verdict = none) ∧
    (fOp FabricQueues_w9.words = 3) ∧
    (FabricQueues_w9.issued = false) :=
  by refine ⟨inv_of (by decide +kernel), still_of (by decide +kernel), ?_⟩ <;> and_intros <;> decide +kernel

theorem met_FabricQueues_8 :
    (FabricQueues_w10.Inv) ∧
    (FabricQueues_w10.Still) ∧
    (FabricQueues_w10.top.st.live = true) ∧
    (FabricQueues_w10.gz.selfLeave = false) ∧
    (FabricQueues_w10.gz.leaving = none) ∧
    ((FabricQueues_w10.mover (↑0) (FabricQueues_w10.fqueue ↑0 ↑3).mover.toNat).st ≠ MovState.paused) ∧
    (FabricQueues_w10.gz.joined = true) ∧
    ((FabricQueues_w10.fqueue ↑0 ↑3).flight = [FabricQueues_w11]) ∧
    (FabricQueues_w11.done = false) ∧
    (FabricQueues_w11.verdict = none) ∧
    (fOp FabricQueues_w11.words = 4) ∧
    (FabricQueues_w11.issued = false) ∧
    (FabricQueues_w10.isMember (dWord FabricQueues_w11.words 0 46 6) = true) :=
  by refine ⟨inv_of (by decide +kernel), still_of (by decide +kernel), ?_⟩ <;> and_intros <;> decide +kernel

theorem met_FabricQueues_9 :
    (FabricQueues_w12.Inv) ∧
    (FabricQueues_w12.Still) ∧
    (FabricQueues_w12.top.st.live = true) ∧
    (FabricQueues_w12.gz.selfLeave = false) ∧
    (FabricQueues_w12.gz.leaving = none) ∧
    ((FabricQueues_w12.mover (↑0) (FabricQueues_w12.fqueue ↑0 ↑3).mover.toNat).st ≠ MovState.paused) ∧
    (FabricQueues_w12.gz.joined = true) ∧
    ((FabricQueues_w12.fqueue ↑0 ↑3).flight = [FabricQueues_w13]) ∧
    (FabricQueues_w13.done = false) ∧
    (FabricQueues_w13.verdict = none) ∧
    (fOp FabricQueues_w13.words = 5) ∧
    (FabricQueues_w13.issued = false) ∧
    (∀ (k : Nat), BitVec.getLsbD (wordAt FabricQueues_w13.words 7) k = true → FabricQueues_w12.isMember k = true) :=
  by refine ⟨inv_of (by decide +kernel), still_of (by decide +kernel), ?_, ?_, ?_, ?_, ?_, ?_, ?_, ?_, ?_, ?_, bits_of (by decide +kernel)⟩ <;> decide +kernel

theorem met_FabricQueues_10 :
    (FabricQueues_w14.Inv) ∧
    (FabricQueues_w14.Still) ∧
    (FabricQueues_w14.top.st.live = true) ∧
    (FabricQueues_w14.gz.selfLeave = false) ∧
    (FabricQueues_w14.gz.leaving = none) ∧
    ((FabricQueues_w14.mover (↑0) (FabricQueues_w14.fqueue ↑0 ↑3).mover.toNat).st ≠ MovState.paused) ∧
    (FabricQueues_w14.gz.joined = true) ∧
    ((FabricQueues_w14.fqueue ↑0 ↑3).flight = [FabricQueues_w15]) ∧
    (FabricQueues_w15.done = false) ∧
    (FabricQueues_w15.verdict = none) ∧
    (fOp FabricQueues_w15.words = 5) ∧
    (FabricQueues_w15.issued = false) ∧
    (∃ k, BitVec.getLsbD (wordAt FabricQueues_w15.words 7) k = true ∧ FabricQueues_w14.isMember k = false) :=
  by refine ⟨inv_of (by decide +kernel), still_of (by decide +kernel), ?_, ?_, ?_, ?_, ?_, ?_, ?_, ?_, ?_, ?_, ⟨5, by decide +kernel⟩⟩ <;> decide +kernel

theorem met_FabricQueues_11 :
    (FabricQueues_w16.Inv) ∧
    (FabricQueues_w16.Still) ∧
    (FabricQueues_w16.top.st.live = true) ∧
    (FabricQueues_w16.gz.selfLeave = false) ∧
    (FabricQueues_w16.gz.leaving = none) ∧
    ((FabricQueues_w16.mover (↑0) (FabricQueues_w16.fqueue ↑0 ↑3).mover.toNat).st ≠ MovState.paused) ∧
    (FabricQueues_w16.gz.joined = true) ∧
    ((FabricQueues_w16.fqueue ↑0 ↑3).flight = [FabricQueues_w17]) ∧
    (FabricQueues_w17.done = false) ∧
    (FabricQueues_w17.verdict = none) ∧
    (fOp FabricQueues_w17.words = 1) ∧
    (BitVec.toNat (wordAt FabricQueues_w17.words 3) ≤ FabricQueues_w17.cursor) ∧
    (FabricQueues_w17.missing = 0) ∧
    (FabricQueues_w17.noted = false) ∧
    (FabricQueues_w17.issued = false) :=
  by refine ⟨inv_of (by decide +kernel), still_of (by decide +kernel), ?_⟩ <;> and_intros <;> decide +kernel

theorem met_FabricQueues_12 :
    (FabricQueues_w18.Inv) ∧
    (FabricQueues_w18.Still) ∧
    (FabricQueues_w18.top.st.live = true) ∧
    (FabricQueues_w18.gz.selfLeave = false) ∧
    (FabricQueues_w18.gz.leaving = none) ∧
    ((FabricQueues_w18.mover (↑0) (FabricQueues_w18.fqueue ↑0 ↑3).mover.toNat).st ≠ MovState.paused) ∧
    ((FabricQueues_w18.fqueue ↑0 ↑3).flight = [FabricQueues_w19, { num := 3, va := 4480#64, words := [576603963692941312#64, 12288#64, 496#64, 300#64, 0#64, 0#64, 0#64, 0#64, 0#64, 0#64, 0#64, 0#64, 0#64, 0#64, 0#64, 0#64], chunks := 0#64 }]) ∧
    (FabricQueues_w19.done = true) ∧
    (FabricQueues_w19.noWrite = false) ∧
    (FabricQueues_w19.lost = []) ∧
    (fOp FabricQueues_w19.words < 16) ∧
    (FabricQueues_w19.verdict ≠ some (3, 0)) ∧
    ((match FabricQueues_w19.verdict with | some v => v.fst | none => if FabricQueues_w19.poisoned.isSome = true then 7 else if (!(FabricQueues_w18.fqueue ↑0 ↑3).en && (FabricQueues_w18.fqueue ↑0 ↑3).drain) = true then 2 else 1) < 256) ∧
    ((match FabricQueues_w19.verdict with | some v => v.fst | none => if FabricQueues_w19.poisoned.isSome = true then 7 else if (!(FabricQueues_w18.fqueue ↑0 ↑3).en && (FabricQueues_w18.fqueue ↑0 ↑3).drain) = true then 2 else 1) ≠ 3) ∧
    ((match FabricQueues_w19.verdict with | some v => v.fst | none => if FabricQueues_w19.poisoned.isSome = true then 7 else if (!(FabricQueues_w18.fqueue ↑0 ↑3).en && (FabricQueues_w18.fqueue ↑0 ↑3).drain) = true then 2 else 1) ≠ 4) ∧
    ((match FabricQueues_w19.verdict with | some v => v.snd | none => 0) < 16) ∧
    (BitVec.toNat FabricQueues_w19.va % 128 = 0) ∧
    (FabricQueues_w18.translate (Requester.mover (↑0) (FabricQueues_w18.fqueue ↑0 ↑3).mover.toNat) (FabricQueues_w18.fqueue ↑0 ↑3).ctx.toNat (FabricQueues_w18.ctxAsid (FabricQueues_w18.fqueue ↑0 ↑3).ctx.toNat) ((BitVec.toNat FabricQueues_w19.va + 112) % 2 ^ 57) Access.moverDst false = Xlat.hit 1073746416) ∧
    (FabricQueues_w18.here 1073746416) :=
  by refine ⟨inv_of (by decide +kernel), still_of (by decide +kernel), ?_, ?_, ?_, ?_, ?_, ?_, ?_, ?_, ?_, ?_, ?_, ?_, ?_, ?_, ?_, ?_,
   here_of (by decide +kernel)⟩ <;> decide +kernel

theorem met_FabricQueues_13 :
    (FabricQueues_w20.Inv) ∧
    (FabricQueues_w20.Still) ∧
    (FabricQueues_w20.top.st.live = true) ∧
    (FabricQueues_w20.gz.selfLeave = false) ∧
    (FabricQueues_w20.gz.leaving = none) ∧
    ((FabricQueues_w20.mover (↑0) (FabricQueues_w20.fqueue ↑0 ↑3).mover.toNat).st ≠ MovState.paused) ∧
    (FabricQueues_w20.pathUp Path.aelconA = true) ∧
    (pathSecure Path.aelconA = true) ∧
    ((FabricQueues_w20.fqueue ↑0 ↑3).en = false) ∧
    ((FabricQueues_w20.fqueue ↑0 ↑3).draining = false) ∧
    ((FabricQueues_w20.fqueue ↑0 ↑3).aborting = false) :=
  by refine ⟨inv_of (by decide +kernel), still_of (by decide +kernel), ?_⟩ <;> and_intros <;> decide +kernel

end FabricQueues

namespace Collectives

def GR (mem : List (Nat × List Byte)) (cads : Tab Cad := []) (dups : Tab (List (BitVec 16 × Packet)) := []) (down : Bool := false) : State := { mk { tileX with st := .stopped } with
  top := { st := .ready, hbmUp := 1 }, clk := { gt := 0x123456789A }, cads := cads
  mem := { phys := spread mem }
  ctxs := [(2, { map := [(0x10000, BitVec.ofNat 64 (0x40000000 + 0x3F)), (0x20000, BitVec.ofNat 64 (0x50000000 + 0x3F))], ctrBase := [3, 4, 5, 6] })]
  gz := { ports := if down then [] else [(4, { en := true, st := .up, peerValid := true, peerMember := 2, peerDomain := 7, lanes := 0xFF })], domain := 7, joined := true, me := 3, epoch := 6, members := 0xE, routes := [(0x20, 4), (0x21, 4)], dups := dups
          exportMap := [(0x4000, 3), (0x4001, 1), (0x5000, 2)], exports := [{ ctx := 2, num := 9, rights := 3, va := 0x10000, size := 0x8000, ctrFirst := 7, ctrCount := 3, ctrBolt := 1 }, { ctx := 2, num := 8, rights := 0, va := 0x20000, size := 0x100, ctrFirst := 0, ctrCount := 0, ctrBolt := 0 }] } }
def mems : List (Nat × List Byte) := [(0x40000100, (List.range 40).map fun k => BitVec.ofNat 8 (k * 7 + 3)), (0x50000000, [1, 2])]
def G0 : Gauze := (GR mems).gz
def pr (m : BitVec 6) (tim : Bool := false) : Port := { en := true, st := .up, peerValid := true, peerMember := m, peerDomain := 7, lanes := 0xFF, timing := tim }
def g1 : Gauze := { G0 with ports := [(4, pr 2), (5, pr 1)], routes := [(0x10, 5), (0x11, 5), (0x20, 4), (0x21, 4), (0x30, 0xFE)], heard := [(1, 0x1234000000), (2, 0x1234567800)], txns := [{ num := 77, peer := 2, flow := 1, who := .none }, { num := 78, peer := 5, flow := 1, who := .none }] }
def tlbM : List TlbEntry := [{ asid := 5, va := 0, bits := 21, pte := BitVec.ofNat 64 0x4000003F }, { asid := 5, va := 0x200000, bits := 16, pte := BitVec.ofNat 64 0x5000003F }, { asid := 5, va := 0x210000, bits := 16, pte := BitVec.ofNat 64 0x60000037 }]
def gq : Group := { bolt := 0, phys := 0, siltKib := 0, entry := 0, tvec := 0, movers := 0, counters := 0 }
def GF (f : FabQueue) (mem : List (Nat × List Byte)) (ctr : Nat := 0) (mst : MovState := .running) (g : Gauze := g1) : State := { GR mems with
  mem := { phys := spread mem }, ctxs := [(2, { groups := [gq] })], cmd := { link := .up }
  tiles := [(3, { tileX with st := .halted })]
  mmu := { ctx := [(2, 0x80000005)], tlbs := [(2053, tlbM)] }
  eng := { mov := [(5, { en := true, st := mst, ctx := 2, granted := true, nextNum := 4 })], ctr := [(6, BitVec.ofNat 32 ctr)], ctrGrant := [(7, some 2)] }
  gz := { g with fq := [(3, f)] } }
def fw (op : Nat) (peer : Nat := 2) (ex : Nat := 9) (loc rem len : Nat := 0) (note : Nat := 0) (aop : Nat := 0) (w5 w6 w7 w8 w9 : Nat := 0) (fl : Nat := 0) : List W64 :=
  [op * 2 ^ 58 + fl * 2 ^ 56 + peer * 2 ^ 46 + ex * 2 ^ 38 + aop * 2 ^ 34, loc, rem, len, note, w5, w6, w7, w8, w9, 0, 0, 0, 0, 0, 0].map (BitVec.ofNat 64)
def f0 (l : List FabDesc) (st : Nat := 3) : FabQueue := { en := true, granted := true, ctx := 2, size := 4, mover := 5, doorbell := 6, base := 0x20, started := st, flight := l }
def fdd (ws : List W64) (cur miss : Nat := 0) : FabDesc := { num := 3, va := 0x1180, words := ws, cursor := cur, missing := miss }
def fl32 (a b : Nat) : List Byte := (List.range 32).flatMap fun i => toLe 4 (a + i * b)
def xA : List Byte := fl32 0x3F800000 0x123457
def xB : List Byte := fl32 0xC0490FDB 0x7123
def cw (op : Nat) : List W64 := fw op 0 0 0x3000 0x200000 96 0 0 0 0 0x8000
def mC : List (Nat × List Byte) := [(0x40003000, xA), (0x40003080, xB), (0x40003100, xA)]
def cd (op : Nat) (ring : List Nat) (step sent : Nat) : FabDesc := { fdd (cw op) with ring := ring, step := step, sent := sent }
def GCo (d : FabDesc) (ci : List CollPiece := []) (rg : List Byte := [1, 3, 2, 0xFF]) : State :=
  let s := GF (f0 [d] 4) (mC ++ [(0x40008000, rg ++ List.replicate 69 0xFF)]) 5
  { s with gz := { s.gz with collIn := if ci = [] then [] else [(3, ci)] } }

def Collectives_w1 : State := GCo (cd 16 [] 0 0)

def Collectives_w2 : FabDesc := { num := 3, va := 4480#64, words := [4611686018427387904#64, 12288#64, 2097152#64, 96#64, 0#64, 0#64, 0#64, 32768#64, 0#64, 0#64, 0#64, 0#64, 0#64, 0#64, 0#64, 0#64], chunks := 0#64 }

def Collectives_w3 : State := GCo (cd 16 [] 0 0) [] [1, 3, 5, 255]

def Collectives_w4 : State := GCo (cd 16 [] 0 0) [] [1, 1, 3, 255]

def Collectives_w5 : State := GCo (cd 16 [1, 3, 2] 0 0)

def Collectives_w6 : FabDesc := { num := 3, va := 4480#64, words := [4611686018427387904#64, 12288#64, 2097152#64, 96#64, 0#64, 0#64, 0#64, 32768#64, 0#64, 0#64, 0#64, 0#64, 0#64, 0#64, 0#64, 0#64], chunks := 0#64, ring := [1, 3, 2] }

def Collectives_w7 : State := GCo (cd 16 [1, 3, 2] 1 2) [{ src := 1, chunk := 1, gather := false, elem := 32, bytes := xB }]

def Collectives_w8 : FabDesc := { num := 3, va := 4480#64, words := [4611686018427387904#64, 12288#64, 2097152#64, 96#64, 0#64, 0#64, 0#64, 32768#64, 0#64, 0#64, 0#64, 0#64, 0#64, 0#64, 0#64, 0#64], chunks := 0#64, ring := [1, 3, 2], sent := 2, step := 1 }

def Collectives_w9 : State := GCo (cd 18 [1, 3, 2] 0 0)

def Collectives_w10 : FabDesc := { num := 3, va := 4480#64, words := [5188146770730811392#64, 12288#64, 2097152#64, 96#64, 0#64, 0#64, 0#64, 32768#64, 0#64, 0#64, 0#64, 0#64, 0#64, 0#64, 0#64, 0#64], chunks := 0#64, ring := [1, 3, 2] }

def Collectives_w11 : State := GCo (cd 18 [1, 3, 2] 0 1) [{ src := 1, chunk := 0, gather := true, elem := 0, bytes := xB }]

def Collectives_w12 : FabDesc := { num := 3, va := 4480#64, words := [5188146770730811392#64, 12288#64, 2097152#64, 96#64, 0#64, 0#64, 0#64, 32768#64, 0#64, 0#64, 0#64, 0#64, 0#64, 0#64, 0#64, 0#64], chunks := 0#64, ring := [1, 3, 2], sent := 1 }

theorem met_Collectives_1 :
    (Collectives_w1.Inv) ∧
    (Collectives_w1.Still) ∧
    (Collectives_w1.top.st.live = true) ∧
    (Collectives_w1.gz.joined = true) ∧
    (fOp Collectives_w2.words ∈ [16, 17, 18]) ∧
    ((Collectives_w1.mover (↑0) (Collectives_w1.fqueue ↑0 ↑3).mover.toNat).st ≠ MovState.paused) ∧
    ((Collectives_w1.fqueue ↑0 ↑3).flight = [Collectives_w2]) ∧
    (Collectives_w2.done = false) ∧
    (Collectives_w2.verdict = none) ∧
    (Collectives_w2.poisoned = none) ∧
    (Collectives_w2.ring = []) ∧
    (BitVec.toNat (wordAt Collectives_w2.words 7) % 65536 + 64 ≤ 65536) ∧
    (Collectives_w1.translate (Requester.mover (↑0) (Collectives_w1.fqueue ↑0 ↑3).mover.toNat) (Collectives_w1.fqueue ↑0 ↑3).ctx.toNat (Collectives_w1.ctxAsid (Collectives_w1.fqueue ↑0 ↑3).ctx.toNat) (BitVec.toNat (wordAt Collectives_w2.words 7) % 2 ^ 57) Access.moverSrc false = Xlat.hit 1073774592) ∧
    (Collectives_w1.here 1073774592) ∧
    (Tab.readN 0 Collectives_w1.mem.phys 1073774592 64 = List.map (BitVec.ofNat 8) [1, 3, 2] ++ let y := let y := let y := let y := [255#8, 255#8, 255#8, 255#8]; 255#8 :: 255#8 :: 255#8 :: 255#8 :: y; let y := 255#8 :: 255#8 :: 255#8 :: 255#8 :: y; 255#8 :: 255#8 :: 255#8 :: 255#8 :: y; let y := let y := 255#8 :: 255#8 :: 255#8 :: 255#8 :: y; 255#8 :: 255#8 :: 255#8 :: 255#8 :: y; 255#8 :: 255#8 :: 255#8 :: 255#8 :: 255#8 :: 255#8 :: 255#8 :: y; let y := let y := let y := 255#8 :: 255#8 :: 255#8 :: 255#8 :: y; 255#8 :: 255#8 :: 255#8 :: 255#8 :: y; 255#8 :: 255#8 :: 255#8 :: 255#8 :: 255#8 :: 255#8 :: 255#8 :: y; let y := let y := 255#8 :: 255#8 :: 255#8 :: 255#8 :: y; 255#8 :: 255#8 :: 255#8 :: 255#8 :: y; 255#8 :: 255#8 :: 255#8 :: 255#8 :: 255#8 :: 255#8 :: 255#8 :: y) ∧
    ((let y := let y := let y := let y := [255#8, 255#8, 255#8, 255#8]; 255#8 :: 255#8 :: 255#8 :: 255#8 :: y; let y := 255#8 :: 255#8 :: 255#8 :: 255#8 :: y; 255#8 :: 255#8 :: 255#8 :: 255#8 :: y; let y := let y := 255#8 :: 255#8 :: 255#8 :: 255#8 :: y; 255#8 :: 255#8 :: 255#8 :: 255#8 :: y; 255#8 :: 255#8 :: 255#8 :: 255#8 :: 255#8 :: 255#8 :: 255#8 :: y; let y := let y := let y := 255#8 :: 255#8 :: 255#8 :: 255#8 :: y; 255#8 :: 255#8 :: 255#8 :: 255#8 :: y; 255#8 :: 255#8 :: 255#8 :: 255#8 :: 255#8 :: 255#8 :: 255#8 :: y; let y := let y := 255#8 :: 255#8 :: 255#8 :: 255#8 :: y; 255#8 :: 255#8 :: 255#8 :: 255#8 :: y; 255#8 :: 255#8 :: 255#8 :: 255#8 :: 255#8 :: 255#8 :: 255#8 :: y) = [] ∨ (let y := let y := let y := let y := [255#8, 255#8, 255#8, 255#8]; 255#8 :: 255#8 :: 255#8 :: 255#8 :: y; let y := 255#8 :: 255#8 :: 255#8 :: 255#8 :: y; 255#8 :: 255#8 :: 255#8 :: 255#8 :: y; let y := let y := 255#8 :: 255#8 :: 255#8 :: 255#8 :: y; 255#8 :: 255#8 :: 255#8 :: 255#8 :: y; 255#8 :: 255#8 :: 255#8 :: 255#8 :: 255#8 :: 255#8 :: 255#8 :: y; let y := let y := let y := 255#8 :: 255#8 :: 255#8 :: 255#8 :: y; 255#8 :: 255#8 :: 255#8 :: 255#8 :: y; 255#8 :: 255#8 :: 255#8 :: 255#8 :: 255#8 :: 255#8 :: 255#8 :: y; let y := let y := 255#8 :: 255#8 :: 255#8 :: 255#8 :: y; 255#8 :: 255#8 :: 255#8 :: 255#8 :: y; 255#8 :: 255#8 :: 255#8 :: 255#8 :: 255#8 :: 255#8 :: 255#8 :: y).head? = some 255) ∧
    (∀ (x : Nat), x ∈ [1, 3, 2] → x < 64) ∧
    (2 ≤ [1, 3, 2].length ∧ [1, 3, 2].Nodup ∧ Collectives_w1.gz.me.toNat ∈ [1, 3, 2]) ∧
    (∀ (x : Nat), x ∈ [1, 3, 2] → Collectives_w1.isMember x = true) :=
  by refine ⟨inv_of (by decide +kernel), still_of (by decide +kernel), ?_, ?_, ?_, ?_, ?_, ?_, ?_, ?_, ?_, ?_, ?_, here_of (by decide +kernel),
   ?_⟩ <;> and_intros <;> decide +kernel

theorem met_Collectives_2 :
    (Collectives_w3.Inv) ∧
    (Collectives_w3.Still) ∧
    (Collectives_w3.top.st.live = true) ∧
    (Collectives_w3.gz.joined = true) ∧
    (fOp Collectives_w2.words ∈ [16, 17, 18]) ∧
    ((Collectives_w3.mover (↑0) (Collectives_w3.fqueue ↑0 ↑3).mover.toNat).st ≠ MovState.paused) ∧
    ((Collectives_w3.fqueue ↑0 ↑3).flight = [Collectives_w2]) ∧
    (Collectives_w2.done = false) ∧
    (Collectives_w2.verdict = none) ∧
    (Collectives_w2.poisoned = none) ∧
    (Collectives_w2.ring = []) ∧
    (BitVec.toNat (wordAt Collectives_w2.words 7) % 65536 + 64 ≤ 65536) ∧
    (Collectives_w3.translate (Requester.mover (↑0) (Collectives_w3.fqueue ↑0 ↑3).mover.toNat) (Collectives_w3.fqueue ↑0 ↑3).ctx.toNat (Collectives_w3.ctxAsid (Collectives_w3.fqueue ↑0 ↑3).ctx.toNat) (BitVec.toNat (wordAt Collectives_w2.words 7) % 2 ^ 57) Access.moverSrc false = Xlat.hit 1073774592) ∧
    (Collectives_w3.here 1073774592) ∧
    (Tab.readN 0 Collectives_w3.mem.phys 1073774592 64 = List.map (BitVec.ofNat 8) [1, 3, 5] ++ let y := let y := let y := let y := [255#8, 255#8, 255#8, 255#8]; 255#8 :: 255#8 :: 255#8 :: 255#8 :: y; let y := 255#8 :: 255#8 :: 255#8 :: 255#8 :: y; 255#8 :: 255#8 :: 255#8 :: 255#8 :: y; let y := let y := 255#8 :: 255#8 :: 255#8 :: 255#8 :: y; 255#8 :: 255#8 :: 255#8 :: 255#8 :: y; 255#8 :: 255#8 :: 255#8 :: 255#8 :: 255#8 :: 255#8 :: 255#8 :: y; let y := let y := let y := 255#8 :: 255#8 :: 255#8 :: 255#8 :: y; 255#8 :: 255#8 :: 255#8 :: 255#8 :: y; 255#8 :: 255#8 :: 255#8 :: 255#8 :: 255#8 :: 255#8 :: 255#8 :: y; let y := let y := 255#8 :: 255#8 :: 255#8 :: 255#8 :: y; 255#8 :: 255#8 :: 255#8 :: 255#8 :: y; 255#8 :: 255#8 :: 255#8 :: 255#8 :: 255#8 :: 255#8 :: 255#8 :: y) ∧
    ((let y := let y := let y := let y := [255#8, 255#8, 255#8, 255#8]; 255#8 :: 255#8 :: 255#8 :: 255#8 :: y; let y := 255#8 :: 255#8 :: 255#8 :: 255#8 :: y; 255#8 :: 255#8 :: 255#8 :: 255#8 :: y; let y := let y := 255#8 :: 255#8 :: 255#8 :: 255#8 :: y; 255#8 :: 255#8 :: 255#8 :: 255#8 :: y; 255#8 :: 255#8 :: 255#8 :: 255#8 :: 255#8 :: 255#8 :: 255#8 :: y; let y := let y := let y := 255#8 :: 255#8 :: 255#8 :: 255#8 :: y; 255#8 :: 255#8 :: 255#8 :: 255#8 :: y; 255#8 :: 255#8 :: 255#8 :: 255#8 :: 255#8 :: 255#8 :: 255#8 :: y; let y := let y := 255#8 :: 255#8 :: 255#8 :: 255#8 :: y; 255#8 :: 255#8 :: 255#8 :: 255#8 :: y; 255#8 :: 255#8 :: 255#8 :: 255#8 :: 255#8 :: 255#8 :: 255#8 :: y) = [] ∨ (let y := let y := let y := let y := [255#8, 255#8, 255#8, 255#8]; 255#8 :: 255#8 :: 255#8 :: 255#8 :: y; let y := 255#8 :: 255#8 :: 255#8 :: 255#8 :: y; 255#8 :: 255#8 :: 255#8 :: 255#8 :: y; let y := let y := 255#8 :: 255#8 :: 255#8 :: 255#8 :: y; 255#8 :: 255#8 :: 255#8 :: 255#8 :: y; 255#8 :: 255#8 :: 255#8 :: 255#8 :: 255#8 :: 255#8 :: 255#8 :: y; let y := let y := let y := 255#8 :: 255#8 :: 255#8 :: 255#8 :: y; 255#8 :: 255#8 :: 255#8 :: 255#8 :: y; 255#8 :: 255#8 :: 255#8 :: 255#8 :: 255#8 :: 255#8 :: 255#8 :: y; let y := let y := 255#8 :: 255#8 :: 255#8 :: 255#8 :: y; 255#8 :: 255#8 :: 255#8 :: 255#8 :: y; 255#8 :: 255#8 :: 255#8 :: 255#8 :: 255#8 :: 255#8 :: 255#8 :: y).head? = some 255) ∧
    (∀ (x : Nat), x ∈ [1, 3, 5] → x < 64) ∧
    (2 ≤ [1, 3, 5].length ∧ [1, 3, 5].Nodup ∧ Collectives_w3.gz.me.toNat ∈ [1, 3, 5]) ∧
    (∃ x, x ∈ [1, 3, 5] ∧ Collectives_w3.isMember x = false) :=
  by refine ⟨inv_of (by decide +kernel), still_of (by decide +kernel), ?_, ?_, ?_, ?_, ?_, ?_, ?_, ?_, ?_, ?_, ?_, here_of (by decide +kernel),
   ?_⟩ <;> and_intros <;> decide +kernel

theorem met_Collectives_3 :
    (Collectives_w4.Inv) ∧
    (Collectives_w4.Still) ∧
    (Collectives_w4.top.st.live = true) ∧
    (Collectives_w4.gz.joined = true) ∧
    (fOp Collectives_w2.words ∈ [16, 17, 18]) ∧
    ((Collectives_w4.mover (↑0) (Collectives_w4.fqueue ↑0 ↑3).mover.toNat).st ≠ MovState.paused) ∧
    ((Collectives_w4.fqueue ↑0 ↑3).flight = [Collectives_w2]) ∧
    (Collectives_w2.done = false) ∧
    (Collectives_w2.verdict = none) ∧
    (Collectives_w2.poisoned = none) ∧
    (Collectives_w2.ring = []) ∧
    (BitVec.toNat (wordAt Collectives_w2.words 7) % 65536 + 64 ≤ 65536) ∧
    (Collectives_w4.translate (Requester.mover (↑0) (Collectives_w4.fqueue ↑0 ↑3).mover.toNat) (Collectives_w4.fqueue ↑0 ↑3).ctx.toNat (Collectives_w4.ctxAsid (Collectives_w4.fqueue ↑0 ↑3).ctx.toNat) (BitVec.toNat (wordAt Collectives_w2.words 7) % 2 ^ 57) Access.moverSrc false = Xlat.hit 1073774592) ∧
    (Collectives_w4.here 1073774592) ∧
    (Tab.readN 0 Collectives_w4.mem.phys 1073774592 64 = List.map (BitVec.ofNat 8) [1, 1, 3] ++ let y := let y := let y := let y := [255#8, 255#8, 255#8, 255#8]; 255#8 :: 255#8 :: 255#8 :: 255#8 :: y; let y := 255#8 :: 255#8 :: 255#8 :: 255#8 :: y; 255#8 :: 255#8 :: 255#8 :: 255#8 :: y; let y := let y := 255#8 :: 255#8 :: 255#8 :: 255#8 :: y; 255#8 :: 255#8 :: 255#8 :: 255#8 :: y; 255#8 :: 255#8 :: 255#8 :: 255#8 :: 255#8 :: 255#8 :: 255#8 :: y; let y := let y := let y := 255#8 :: 255#8 :: 255#8 :: 255#8 :: y; 255#8 :: 255#8 :: 255#8 :: 255#8 :: y; 255#8 :: 255#8 :: 255#8 :: 255#8 :: 255#8 :: 255#8 :: 255#8 :: y; let y := let y := 255#8 :: 255#8 :: 255#8 :: 255#8 :: y; 255#8 :: 255#8 :: 255#8 :: 255#8 :: y; 255#8 :: 255#8 :: 255#8 :: 255#8 :: 255#8 :: 255#8 :: 255#8 :: y) ∧
    ((let y := let y := let y := let y := [255#8, 255#8, 255#8, 255#8]; 255#8 :: 255#8 :: 255#8 :: 255#8 :: y; let y := 255#8 :: 255#8 :: 255#8 :: 255#8 :: y; 255#8 :: 255#8 :: 255#8 :: 255#8 :: y; let y := let y := 255#8 :: 255#8 :: 255#8 :: 255#8 :: y; 255#8 :: 255#8 :: 255#8 :: 255#8 :: y; 255#8 :: 255#8 :: 255#8 :: 255#8 :: 255#8 :: 255#8 :: 255#8 :: y; let y := let y := let y := 255#8 :: 255#8 :: 255#8 :: 255#8 :: y; 255#8 :: 255#8 :: 255#8 :: 255#8 :: y; 255#8 :: 255#8 :: 255#8 :: 255#8 :: 255#8 :: 255#8 :: 255#8 :: y; let y := let y := 255#8 :: 255#8 :: 255#8 :: 255#8 :: y; 255#8 :: 255#8 :: 255#8 :: 255#8 :: y; 255#8 :: 255#8 :: 255#8 :: 255#8 :: 255#8 :: 255#8 :: 255#8 :: y) = [] ∨ (let y := let y := let y := let y := [255#8, 255#8, 255#8, 255#8]; 255#8 :: 255#8 :: 255#8 :: 255#8 :: y; let y := 255#8 :: 255#8 :: 255#8 :: 255#8 :: y; 255#8 :: 255#8 :: 255#8 :: 255#8 :: y; let y := let y := 255#8 :: 255#8 :: 255#8 :: 255#8 :: y; 255#8 :: 255#8 :: 255#8 :: 255#8 :: y; 255#8 :: 255#8 :: 255#8 :: 255#8 :: 255#8 :: 255#8 :: 255#8 :: y; let y := let y := let y := 255#8 :: 255#8 :: 255#8 :: 255#8 :: y; 255#8 :: 255#8 :: 255#8 :: 255#8 :: y; 255#8 :: 255#8 :: 255#8 :: 255#8 :: 255#8 :: 255#8 :: 255#8 :: y; let y := let y := 255#8 :: 255#8 :: 255#8 :: 255#8 :: y; 255#8 :: 255#8 :: 255#8 :: 255#8 :: y; 255#8 :: 255#8 :: 255#8 :: 255#8 :: 255#8 :: 255#8 :: 255#8 :: y).head? = some 255) ∧
    (∀ (x : Nat), x ∈ [1, 1, 3] → x < 64) ∧
    (¬(2 ≤ [1, 1, 3].length ∧ [1, 1, 3].Nodup ∧ Collectives_w4.gz.me.toNat ∈ [1, 1, 3])) :=
  by refine ⟨inv_of (by decide +kernel), still_of (by decide +kernel), ?_, ?_, ?_, ?_, ?_, ?_, ?_, ?_, ?_, ?_, ?_, here_of (by decide +kernel),
   ?_⟩ <;> and_intros <;> decide +kernel

theorem met_Collectives_4 :
    (Collectives_w5.Inv) ∧
    (Collectives_w5.Still) ∧
    (Collectives_w5.top.st.live = true) ∧
    (Collectives_w5.gz.joined = true) ∧
    (fOp Collectives_w6.words ∈ [16, 17, 18]) ∧
    ((Collectives_w5.mover (↑0) (Collectives_w5.fqueue ↑0 ↑3).mover.toNat).st ≠ MovState.paused) ∧
    ((Collectives_w5.fqueue ↑0 ↑3).flight = [Collectives_w6]) ∧
    (Collectives_w6.done = false) ∧
    (Collectives_w6.verdict = none) ∧
    (Collectives_w6.poisoned = none) ∧
    (Collectives_w6.ring.length = 3) ∧
    (2 ≤ 3) ∧
    (3 ≤ 64) ∧
    (Collectives_w6.ring.Nodup) ∧
    (1 < 3) ∧
    (Collectives_w6.ring[1]? = some Collectives_w5.gz.me.toNat) ∧
    (fDtype Collectives_w6.words = 0) ∧
    (fLen Collectives_w6.words = 32 * 3) ∧
    (Collectives_w6.step = 0) ∧
    (Collectives_w6.sent = 0) ∧
    (Tab.look [] Collectives_w5.gz.collIn (16 * ↑0 + ↑3) = []) ∧
    (fOp Collectives_w6.words ≠ 18) ∧
    ((fLocal Collectives_w6.words + 128 * ((1 + 3 - 1) % 3)) % 65536 + 128 ≤ 65536) ∧
    (Collectives_w5.translate (Requester.mover (↑0) (Collectives_w5.fqueue ↑0 ↑3).mover.toNat) (Collectives_w5.fqueue ↑0 ↑3).ctx.toNat (Collectives_w5.ctxAsid (Collectives_w5.fqueue ↑0 ↑3).ctx.toNat) ((fLocal Collectives_w6.words + 128 * ((1 + 3 - 1) % 3)) % 2 ^ 57) Access.moverSrc false = Xlat.hit 1073754112) ∧
    (Collectives_w5.here 1073754112) :=
  by refine ⟨inv_of (by decide +kernel), still_of (by decide +kernel), ?_, ?_, ?_, ?_, ?_, ?_, ?_, ?_, ?_, ?_, ?_, ?_, ?_, ?_, ?_, ?_, ?_, ?_,
   ?_, ?_, ?_, ?_, here_of (by decide +kernel)⟩ <;> decide +kernel

theorem met_Collectives_5 :
    (Collectives_w7.Inv) ∧
    (Collectives_w7.Still) ∧
    (Collectives_w7.top.st.live = true) ∧
    (Collectives_w7.gz.joined = true) ∧
    (fOp Collectives_w8.words ∈ [16, 17, 18]) ∧
    ((Collectives_w7.mover (↑0) (Collectives_w7.fqueue ↑0 ↑3).mover.toNat).st ≠ MovState.paused) ∧
    ((Collectives_w7.fqueue ↑0 ↑3).flight = [Collectives_w8]) ∧
    (Collectives_w8.done = false) ∧
    (Collectives_w8.verdict = none) ∧
    (Collectives_w8.poisoned = none) ∧
    (Collectives_w8.ring.length = 3) ∧
    (2 ≤ 3) ∧
    (3 ≤ 64) ∧
    (Collectives_w8.ring.Nodup) ∧
    (1 < 3) ∧
    (Collectives_w8.ring[1]? = some Collectives_w7.gz.me.toNat) ∧
    (fDtype Collectives_w8.words = 0) ∧
    (fLen Collectives_w8.words = 32 * 3) ∧
    ((let y := let y := let y := let y := let y := [24#8, 195#8, 86#8, 192#8]; 245#8 :: 81#8 :: 86#8 :: 192#8 :: y; let y := 210#8 :: 224#8 :: 85#8 :: 192#8 :: y; 175#8 :: 111#8 :: 85#8 :: 192#8 :: y; let y := let y := 140#8 :: 254#8 :: 84#8 :: 192#8 :: y; 105#8 :: 141#8 :: 84#8 :: 192#8 :: y; let y := 70#8 :: 28#8 :: 84#8 :: 192#8 :: y; 35#8 :: 171#8 :: 83#8 :: 192#8 :: y; let y := let y := let y := 0#8 :: 58#8 :: 83#8 :: 192#8 :: y; 221#8 :: 200#8 :: 82#8 :: 192#8 :: y; let y := 186#8 :: 87#8 :: 82#8 :: 192#8 :: y; 151#8 :: 230#8 :: 81#8 :: 192#8 :: y; let y := let y := 116#8 :: 117#8 :: 81#8 :: 192#8 :: y; 81#8 :: 4#8 :: 81#8 :: 192#8 :: y; let y := 46#8 :: 147#8 :: 80#8 :: 192#8 :: y; 11#8 :: 34#8 :: 80#8 :: 192#8 :: y; let y := let y := let y := let y := 232#8 :: 176#8 :: 79#8 :: 192#8 :: y; 197#8 :: 63#8 :: 79#8 :: 192#8 :: y; let y := 162#8 :: 206#8 :: 78#8 :: 192#8 :: y; 127#8 :: 93#8 :: 78#8 :: 192#8 :: y; let y := let y := 92#8 :: 236#8 :: 77#8 :: 192#8 :: y; 57#8 :: 123#8 :: 77#8 :: 192#8 :: y; let y := 22#8 :: 10#8 :: 77#8 :: 192#8 :: y; 243#8 :: 152#8 :: 76#8 :: 192#8 :: y; let y := let y := let y := 208#8 :: 39#8 :: 76#8 :: 192#8 :: y; 173#8 :: 182#8 :: 75#8 :: 192#8 :: y; let y := 138#8 :: 69#8 :: 75#8 :: 192#8 :: y; 103#8 :: 212#8 :: 74#8 :: 192#8 :: y; let y := let y := 68#8 :: 99#8 :: 74#8 :: 192#8 :: y; 33#8 :: 242#8 :: 73#8 :: 192#8 :: y; let y := 254#8 :: 128#8 :: 73#8 :: 192#8 :: y; 219#8 :: 15#8 :: 73#8 :: 192#8 :: y).length = 128) ∧
    (fOp Collectives_w8.words ≠ 18) ∧
    (Collectives_w8.step + 2 = 3) ∧
    (Collectives_w8.sent = 3 - 1) ∧
    (Tab.look [] Collectives_w7.gz.collIn (16 * ↑0 + ↑3) = [{ src := Collectives_w8.ring.getD ((1 + 3 - 1) % 3) 0, chunk := 1, gather := false, elem := 32 * 1, bytes := let y := let y := let y := let y := let y := [24#8, 195#8, 86#8, 192#8]; 245#8 :: 81#8 :: 86#8 :: 192#8 :: y; let y := 210#8 :: 224#8 :: 85#8 :: 192#8 :: y; 175#8 :: 111#8 :: 85#8 :: 192#8 :: y; let y := let y := 140#8 :: 254#8 :: 84#8 :: 192#8 :: y; 105#8 :: 141#8 :: 84#8 :: 192#8 :: y; let y := 70#8 :: 28#8 :: 84#8 :: 192#8 :: y; 35#8 :: 171#8 :: 83#8 :: 192#8 :: y; let y := let y := let y := 0#8 :: 58#8 :: 83#8 :: 192#8 :: y; 221#8 :: 200#8 :: 82#8 :: 192#8 :: y; let y := 186#8 :: 87#8 :: 82#8 :: 192#8 :: y; 151#8 :: 230#8 :: 81#8 :: 192#8 :: y; let y := let y := 116#8 :: 117#8 :: 81#8 :: 192#8 :: y; 81#8 :: 4#8 :: 81#8 :: 192#8 :: y; let y := 46#8 :: 147#8 :: 80#8 :: 192#8 :: y; 11#8 :: 34#8 :: 80#8 :: 192#8 :: y; let y := let y := let y := let y := 232#8 :: 176#8 :: 79#8 :: 192#8 :: y; 197#8 :: 63#8 :: 79#8 :: 192#8 :: y; let y := 162#8 :: 206#8 :: 78#8 :: 192#8 :: y; 127#8 :: 93#8 :: 78#8 :: 192#8 :: y; let y := let y := 92#8 :: 236#8 :: 77#8 :: 192#8 :: y; 57#8 :: 123#8 :: 77#8 :: 192#8 :: y; let y := 22#8 :: 10#8 :: 77#8 :: 192#8 :: y; 243#8 :: 152#8 :: 76#8 :: 192#8 :: y; let y := let y := let y := 208#8 :: 39#8 :: 76#8 :: 192#8 :: y; 173#8 :: 182#8 :: 75#8 :: 192#8 :: y; let y := 138#8 :: 69#8 :: 75#8 :: 192#8 :: y; 103#8 :: 212#8 :: 74#8 :: 192#8 :: y; let y := let y := 68#8 :: 99#8 :: 74#8 :: 192#8 :: y; 33#8 :: 242#8 :: 73#8 :: 192#8 :: y; let y := 254#8 :: 128#8 :: 73#8 :: 192#8 :: y; 219#8 :: 15#8 :: 73#8 :: 192#8 :: y }]) ∧
    ((fLocal Collectives_w8.words + 128 * 1) % 65536 + 128 ≤ 65536) ∧
    ((fRemote Collectives_w8.words + 128 * 1) % 65536 + 128 ≤ 65536) ∧
    (Collectives_w7.translate (Requester.mover (↑0) (Collectives_w7.fqueue ↑0 ↑3).mover.toNat) (Collectives_w7.fqueue ↑0 ↑3).ctx.toNat (Collectives_w7.ctxAsid (Collectives_w7.fqueue ↑0 ↑3).ctx.toNat) ((fLocal Collectives_w8.words + 128 * 1) % 2 ^ 57) Access.moverSrc false = Xlat.hit 1073754240) ∧
    (Collectives_w7.here 1073754240) ∧
    ((Collectives_w7.touch (Requester.mover (↑0) (Collectives_w7.fqueue ↑0 ↑3).mover.toNat) (Collectives_w7.ctxAsid (Collectives_w7.fqueue ↑0 ↑3).ctx.toNat) ((fLocal Collectives_w8.words + 128 * 1) % 2 ^ 57)).translate (Requester.mover (↑0) (Collectives_w7.fqueue ↑0 ↑3).mover.toNat) (Collectives_w7.fqueue ↑0 ↑3).ctx.toNat ((Collectives_w7.touch (Requester.mover (↑0) (Collectives_w7.fqueue ↑0 ↑3).mover.toNat) (Collectives_w7.ctxAsid (Collectives_w7.fqueue ↑0 ↑3).ctx.toNat) ((fLocal Collectives_w8.words + 128 * 1) % 2 ^ 57)).ctxAsid (Collectives_w7.fqueue ↑0 ↑3).ctx.toNat) ((fRemote Collectives_w8.words + 128 * 1) % 2 ^ 57) Access.moverDst false = Xlat.hit 1342177408) ∧
    (Collectives_w7.here 1342177408) :=
  by refine ⟨inv_of (by decide +kernel), still_of (by decide +kernel), ?_, ?_, ?_, ?_, ?_, ?_, ?_, ?_, ?_, ?_, ?_, ?_, ?_, ?_, ?_, ?_, ?_, ?_,
   ?_, ?_, ?_, ?_, ?_, ?_, here_of (by decide +kernel), ?_, here_of (by decide +kernel)⟩ <;> decide +kernel

theorem met_Collectives_6 :
    (Collectives_w9.Inv) ∧
    (Collectives_w9.Still) ∧
    (Collectives_w9.top.st.live = true) ∧
    (Collectives_w9.gz.joined = true) ∧
    (fOp Collectives_w10.words ∈ [16, 17, 18]) ∧
    ((Collectives_w9.mover (↑0) (Collectives_w9.fqueue ↑0 ↑3).mover.toNat).st ≠ MovState.paused) ∧
    ((Collectives_w9.fqueue ↑0 ↑3).flight = [Collectives_w10]) ∧
    (Collectives_w10.done = false) ∧
    (Collectives_w10.verdict = none) ∧
    (Collectives_w10.poisoned = none) ∧
    (Collectives_w10.ring.length = 3) ∧
    (2 ≤ 3) ∧
    (3 ≤ 64) ∧
    (Collectives_w10.ring.Nodup) ∧
    (1 < 3) ∧
    (Collectives_w10.ring[1]? = some Collectives_w9.gz.me.toNat) ∧
    (fDtype Collectives_w10.words = 0) ∧
    (fLen Collectives_w10.words = 32 * 3) ∧
    (Collectives_w10.step = 0) ∧
    (Collectives_w10.sent = 0) ∧
    (Tab.look [] Collectives_w9.gz.collIn (16 * ↑0 + ↑3) = []) ∧
    (fOp Collectives_w10.words = 18) ∧
    ((fLocal Collectives_w10.words + 128 * 1) % 65536 + 128 ≤ 65536) ∧
    ((fRemote Collectives_w10.words + 128 * 1) % 65536 + 128 ≤ 65536) ∧
    (Collectives_w9.translate (Requester.mover (↑0) (Collectives_w9.fqueue ↑0 ↑3).mover.toNat) (Collectives_w9.fqueue ↑0 ↑3).ctx.toNat (Collectives_w9.ctxAsid (Collectives_w9.fqueue ↑0 ↑3).ctx.toNat) ((fLocal Collectives_w10.words + 128 * 1) % 2 ^ 57) Access.moverSrc false = Xlat.hit 1073754240) ∧
    (Collectives_w9.here 1073754240) ∧
    ((Collectives_w9.touch (Requester.mover (↑0) (Collectives_w9.fqueue ↑0 ↑3).mover.toNat) (Collectives_w9.ctxAsid (Collectives_w9.fqueue ↑0 ↑3).ctx.toNat) ((fLocal Collectives_w10.words + 128 * 1) % 2 ^ 57)).translate (Requester.mover (↑0) (Collectives_w9.fqueue ↑0 ↑3).mover.toNat) (Collectives_w9.fqueue ↑0 ↑3).ctx.toNat ((Collectives_w9.touch (Requester.mover (↑0) (Collectives_w9.fqueue ↑0 ↑3).mover.toNat) (Collectives_w9.ctxAsid (Collectives_w9.fqueue ↑0 ↑3).ctx.toNat) ((fLocal Collectives_w10.words + 128 * 1) % 2 ^ 57)).ctxAsid (Collectives_w9.fqueue ↑0 ↑3).ctx.toNat) ((fRemote Collectives_w10.words + 128 * 1) % 2 ^ 57) Access.moverDst false = Xlat.hit 1342177408) ∧
    (Collectives_w9.here 1342177408) :=
  by refine ⟨inv_of (by decide +kernel), still_of (by decide +kernel), ?_, ?_, ?_, ?_, ?_, ?_, ?_, ?_, ?_, ?_, ?_, ?_, ?_, ?_, ?_, ?_, ?_, ?_,
   ?_, ?_, ?_, ?_, ?_, here_of (by decide +kernel), ?_, here_of (by decide +kernel)⟩ <;> decide +kernel

theorem met_Collectives_7 :
    (Collectives_w11.Inv) ∧
    (Collectives_w11.Still) ∧
    (Collectives_w11.top.st.live = true) ∧
    (Collectives_w11.gz.joined = true) ∧
    (fOp Collectives_w12.words ∈ [16, 17, 18]) ∧
    ((Collectives_w11.mover (↑0) (Collectives_w11.fqueue ↑0 ↑3).mover.toNat).st ≠ MovState.paused) ∧
    ((Collectives_w11.fqueue ↑0 ↑3).flight = [Collectives_w12]) ∧
    (Collectives_w12.done = false) ∧
    (Collectives_w12.verdict = none) ∧
    (Collectives_w12.poisoned = none) ∧
    (Collectives_w12.ring.length = 3) ∧
    (2 ≤ 3) ∧
    (3 ≤ 64) ∧
    (Collectives_w12.ring.Nodup) ∧
    (1 < 3) ∧
    (Collectives_w12.ring[1]? = some Collectives_w11.gz.me.toNat) ∧
    (fDtype Collectives_w12.words = 0) ∧
    (fLen Collectives_w12.words = 32 * 3) ∧
    ((let y := let y := let y := let y := let y := [24#8, 195#8, 86#8, 192#8]; 245#8 :: 81#8 :: 86#8 :: 192#8 :: y; let y := 210#8 :: 224#8 :: 85#8 :: 192#8 :: y; 175#8 :: 111#8 :: 85#8 :: 192#8 :: y; let y := let y := 140#8 :: 254#8 :: 84#8 :: 192#8 :: y; 105#8 :: 141#8 :: 84#8 :: 192#8 :: y; let y := 70#8 :: 28#8 :: 84#8 :: 192#8 :: y; 35#8 :: 171#8 :: 83#8 :: 192#8 :: y; let y := let y := let y := 0#8 :: 58#8 :: 83#8 :: 192#8 :: y; 221#8 :: 200#8 :: 82#8 :: 192#8 :: y; let y := 186#8 :: 87#8 :: 82#8 :: 192#8 :: y; 151#8 :: 230#8 :: 81#8 :: 192#8 :: y; let y := let y := 116#8 :: 117#8 :: 81#8 :: 192#8 :: y; 81#8 :: 4#8 :: 81#8 :: 192#8 :: y; let y := 46#8 :: 147#8 :: 80#8 :: 192#8 :: y; 11#8 :: 34#8 :: 80#8 :: 192#8 :: y; let y := let y := let y := let y := 232#8 :: 176#8 :: 79#8 :: 192#8 :: y; 197#8 :: 63#8 :: 79#8 :: 192#8 :: y; let y := 162#8 :: 206#8 :: 78#8 :: 192#8 :: y; 127#8 :: 93#8 :: 78#8 :: 192#8 :: y; let y := let y := 92#8 :: 236#8 :: 77#8 :: 192#8 :: y; 57#8 :: 123#8 :: 77#8 :: 192#8 :: y; let y := 22#8 :: 10#8 :: 77#8 :: 192#8 :: y; 243#8 :: 152#8 :: 76#8 :: 192#8 :: y; let y := let y := let y := 208#8 :: 39#8 :: 76#8 :: 192#8 :: y; 173#8 :: 182#8 :: 75#8 :: 192#8 :: y; let y := 138#8 :: 69#8 :: 75#8 :: 192#8 :: y; 103#8 :: 212#8 :: 74#8 :: 192#8 :: y; let y := let y := 68#8 :: 99#8 :: 74#8 :: 192#8 :: y; 33#8 :: 242#8 :: 73#8 :: 192#8 :: y; let y := 254#8 :: 128#8 :: 73#8 :: 192#8 :: y; 219#8 :: 15#8 :: 73#8 :: 192#8 :: y).length = 128) ∧
    (fOp Collectives_w12.words = 18) ∧
    (Collectives_w12.step + 1 < 3) ∧
    (Collectives_w12.sent = Collectives_w12.step + 1) ∧
    (Tab.look [] Collectives_w11.gz.collIn (16 * ↑0 + ↑3) = [{ src := Collectives_w12.ring.getD ((1 + 3 - 1) % 3) 0, chunk := (1 + 2 * 3 - Collectives_w12.step - 1) % 3, gather := true, elem := 32 * ((1 + 2 * 3 - Collectives_w12.step - 1) % 3), bytes := let y := let y := let y := let y := let y := [24#8, 195#8, 86#8, 192#8]; 245#8 :: 81#8 :: 86#8 :: 192#8 :: y; let y := 210#8 :: 224#8 :: 85#8 :: 192#8 :: y; 175#8 :: 111#8 :: 85#8 :: 192#8 :: y; let y := let y := 140#8 :: 254#8 :: 84#8 :: 192#8 :: y; 105#8 :: 141#8 :: 84#8 :: 192#8 :: y; let y := 70#8 :: 28#8 :: 84#8 :: 192#8 :: y; 35#8 :: 171#8 :: 83#8 :: 192#8 :: y; let y := let y := let y := 0#8 :: 58#8 :: 83#8 :: 192#8 :: y; 221#8 :: 200#8 :: 82#8 :: 192#8 :: y; let y := 186#8 :: 87#8 :: 82#8 :: 192#8 :: y; 151#8 :: 230#8 :: 81#8 :: 192#8 :: y; let y := let y := 116#8 :: 117#8 :: 81#8 :: 192#8 :: y; 81#8 :: 4#8 :: 81#8 :: 192#8 :: y; let y := 46#8 :: 147#8 :: 80#8 :: 192#8 :: y; 11#8 :: 34#8 :: 80#8 :: 192#8 :: y; let y := let y := let y := let y := 232#8 :: 176#8 :: 79#8 :: 192#8 :: y; 197#8 :: 63#8 :: 79#8 :: 192#8 :: y; let y := 162#8 :: 206#8 :: 78#8 :: 192#8 :: y; 127#8 :: 93#8 :: 78#8 :: 192#8 :: y; let y := let y := 92#8 :: 236#8 :: 77#8 :: 192#8 :: y; 57#8 :: 123#8 :: 77#8 :: 192#8 :: y; let y := 22#8 :: 10#8 :: 77#8 :: 192#8 :: y; 243#8 :: 152#8 :: 76#8 :: 192#8 :: y; let y := let y := let y := 208#8 :: 39#8 :: 76#8 :: 192#8 :: y; 173#8 :: 182#8 :: 75#8 :: 192#8 :: y; let y := 138#8 :: 69#8 :: 75#8 :: 192#8 :: y; 103#8 :: 212#8 :: 74#8 :: 192#8 :: y; let y := let y := 68#8 :: 99#8 :: 74#8 :: 192#8 :: y; 33#8 :: 242#8 :: 73#8 :: 192#8 :: y; let y := 254#8 :: 128#8 :: 73#8 :: 192#8 :: y; 219#8 :: 15#8 :: 73#8 :: 192#8 :: y }]) ∧
    ((fRemote Collectives_w12.words + 128 * ((1 + 2 * 3 - Collectives_w12.step - 1) % 3)) % 65536 + 128 ≤ 65536) ∧
    (Collectives_w11.translate (Requester.mover (↑0) (Collectives_w11.fqueue ↑0 ↑3).mover.toNat) (Collectives_w11.fqueue ↑0 ↑3).ctx.toNat (Collectives_w11.ctxAsid (Collectives_w11.fqueue ↑0 ↑3).ctx.toNat) ((fRemote Collectives_w12.words + 128 * ((1 + 2 * 3 - Collectives_w12.step - 1) % 3)) % 2 ^ 57) Access.moverDst false = Xlat.hit 1342177280) ∧
    (Collectives_w11.here 1342177280) :=
  by refine ⟨inv_of (by decide +kernel), still_of (by decide +kernel), ?_, ?_, ?_, ?_, ?_, ?_, ?_, ?_, ?_, ?_, ?_, ?_, ?_, ?_, ?_, ?_, ?_, ?_,
   ?_, ?_, ?_, ?_, ?_, here_of (by decide +kernel)⟩ <;> decide +kernel

end Collectives

namespace BursenLines

def rgn : Region := { va := 0x10000, size := 0x10000, kind := 4, rights := 3, bolt := 0, stack := 0, host := 0, pool := 0 }
def ln (v : Byte) (ow di : Bool) : HostLine := { owned := ow, dirty := di, data := List.replicate 128 v }
def BL (c : Cmd) (h : Tab Byte := []) : State := { mk { tileX with st := .stopped } with
  top := { st := .ready, hbmUp := 1 }, clk := { gt := 0x123456789A }, cmd := { c with hostHeld := if c.link = .up then [(0x800003, some true)] else [] }
  ctxs := [(2, { regions := [rgn], pages := [(0x10000, 0x40000000)] })], mem := { phys := [(0x40000105, 7), (0x40000204, 9)], host := [(0x80, 5), (0x185, 6)] ++ h } }

def BursenLines_w1 : State := BL { link := PortState.up }

def BursenLines_w2 : State := BL { link := PortState.training }

def BursenLines_w3 : State := BL { link := PortState.up, cache := [(1, some (ln 4 true true)), (3, some (ln 5 false false))], snoops := [8388611, 5] }

def BursenLines_w4 : HostLine := { owned := true, dirty := true,   data :=     let y :=       let y :=         let y :=           let y :=             let y := [4#8, 4#8, 4#8, 4#8];             4#8 :: 4#8 :: 4#8 :: 4#8 :: y;           let y := 4#8 :: 4#8 :: 4#8 :: 4#8 :: y;           4#8 :: 4#8 :: 4#8 :: 4#8 :: y;         let y :=           let y := 4#8 :: 4#8 :: 4#8 :: 4#8 :: y;           4#8 :: 4#8 :: 4#8 :: 4#8 :: y;         let y := 4#8 :: 4#8 :: 4#8 :: 4#8 :: y;         4#8 :: 4#8 :: 4#8 :: 4#8 :: y;       let y :=         let y :=           let y := 4#8 :: 4#8 :: 4#8 :: 4#8 :: y;           4#8 :: 4#8 :: 4#8 :: 4#8 :: y;         let y := 4#8 :: 4#8 :: 4#8 :: 4#8 :: y;         4#8 :: 4#8 :: 4#8 :: 4#8 :: y;       let y :=         let y := 4#8 :: 4#8 :: 4#8 :: 4#8 :: y;         4#8 :: 4#8 :: 4#8 :: 4#8 :: y;       let y := 4#8 :: 4#8 :: 4#8 :: 4#8 :: y;       4#8 :: 4#8 :: 4#8 :: 4#8 :: y;     let y :=       let y :=         let y :=           let y := 4#8 :: 4#8 :: 4#8 :: 4#8 :: y;           4#8 :: 4#8 :: 4#8 :: 4#8 :: y;         let y := 4#8 :: 4#8 :: 4#8 :: 4#8 :: y;         4#8 :: 4#8 :: 4#8 :: 4#8 :: y;       let y :=         let y := 4#8 :: 4#8 :: 4#8 :: 4#8 :: y;         4#8 :: 4#8 :: 4#8 :: 4#8 :: y;       let y := 4#8 :: 4#8 :: 4#8 :: 4#8 :: y;       4#8 :: 4#8 :: 4#8 :: 4#8 :: y;     let y :=       let y :=         let y := 4#8 :: 4#8 :: 4#8 :: 4#8 :: y;         4#8 :: 4#8 :: 4#8 :: 4#8 :: y;       let y := 4#8 :: 4#8 :: 4#8 :: 4#8 :: y;       4#8 :: 4#8 :: 4#8 :: 4#8 :: y;     let y :=       let y := 4#8 :: 4#8 :: 4#8 :: 4#8 :: y;       4#8 :: 4#8 :: 4#8 :: 4#8 :: y;     let y := 4#8 :: 4#8 :: 4#8 :: 4#8 :: y;     4#8 :: 4#8 :: 4#8 :: 4#8 :: y }

def BursenLines_w5 : State := have __src := BL { link := PortState.up, snoops := [8388611, 5] }; { pending := __src.pending, top := __src.top, clk := __src.clk, tiles := __src.tiles, mem := __src.mem, mmu := __src.mmu, eng := __src.eng, gz := __src.gz, cmd := { link := PortState.up }, ctxs := __src.ctxs, cads := __src.cads, pow := __src.pow, gvn := __src.gvn, res := __src.res, rfw := __src.rfw, clm := __src.clm, pairs := __src.pairs, err := __src.err, trust := __src.trust, free := __src.free }

theorem met_BursenLines_1 :
    (BursenLines_w1.Inv) ∧
    (BursenLines_w1.cmd.link = PortState.up) ∧
    (targetOf (128 * 0) = Target.hbm 0) ∧
    (BursenLines_w1.hostVisible (128 * 0) = false) ∧
    (0 < 2 ^ 35) ∧
    (Tab.look none BursenLines_w1.cmd.cache 0 = none → List.length BursenLines_w1.cmd.cache < 524288) ∧
    (Tab.look none BursenLines_w1.cmd.cache 0 = none) ∧
    (¬0 ∈ BursenLines_w1.cmd.snoops) :=
  by refine ⟨inv_of (by decide +kernel), ?_⟩ <;> and_intros <;> decide +kernel

theorem met_BursenLines_2 :
    (BursenLines_w1.Inv) ∧
    (BursenLines_w1.cmd.link = PortState.up) ∧
    (targetOf (128 * 8388610) = Target.hbm 0) ∧
    (BursenLines_w1.hostVisible (128 * 8388610) = true) ∧
    (BursenLines_w1.stackUp 0 = true) ∧
    (BursenLines_w1.mem.bad = []) :=
  by refine ⟨inv_of (by decide +kernel), ?_⟩ <;> and_intros <;> decide +kernel

theorem met_BursenLines_3 :
    (BursenLines_w2.Inv) ∧
    (BursenLines_w2.cmd.link ≠ PortState.up) :=
  by refine ⟨inv_of (by decide +kernel), ?_⟩ <;> decide +kernel

theorem met_BursenLines_4 :
    (BursenLines_w3.Inv) ∧
    (BursenLines_w3.cmd.link = PortState.up) ∧
    (Tab.look none BursenLines_w3.cmd.cache 1 = some BursenLines_w4) :=
  by refine ⟨inv_of (by decide +kernel), ?_⟩ <;> and_intros <;> decide +kernel

theorem met_BursenLines_5 :
    (BursenLines_w3.Inv) ∧
    (BursenLines_w3.cmd.link = PortState.up) ∧
    (5 ∈ BursenLines_w3.cmd.snoops) ∧
    (BursenLines_w3.err = { }) :=
  by refine ⟨inv_of (by decide +kernel), ?_⟩ <;> and_intros <;> decide +kernel

theorem met_BursenLines_6 :
    (BursenLines_w5.Inv) ∧
    (BursenLines_w5.cmd.link = PortState.up) ∧
    (BursenLines_w5.Still) ∧
    (BursenLines_w5.top.st ≠ ModState.off) ∧
    (targetOf 0 = Target.hbm 0) ∧
    (BursenLines_w5.hostVisible 0 = false) :=
  by refine ⟨inv_of (by decide +kernel), ?_, still_of (by decide +kernel), ?_⟩ <;> and_intros <;> decide +kernel

theorem met_BursenLines_7 :
    (BursenLines_w5.Inv) ∧
    (BursenLines_w5.cmd.link = PortState.up) ∧
    (BursenLines_w5.Still) ∧
    (BursenLines_w5.top.st ≠ ModState.off) ∧
    (targetOf 1073742085 = Target.hbm 0) ∧
    (BursenLines_w5.hostVisible 1073742085 = true) ∧
    (BursenLines_w5.stackUp 0 = true) :=
  by refine ⟨inv_of (by decide +kernel), ?_, still_of (by decide +kernel), ?_⟩ <;> and_intros <;> decide +kernel

theorem met_BursenLines_8 :
    (BursenLines_w5.Inv) ∧
    (BursenLines_w5.cmd.link = PortState.up) ∧
    (BursenLines_w5.Still) ∧
    (BursenLines_w5.top.st ≠ ModState.off) ∧
    (targetOf 4398046511232 = Target.host 128) :=
  by refine ⟨inv_of (by decide +kernel), ?_, still_of (by decide +kernel), ?_⟩ <;> and_intros <;> decide +kernel

theorem met_BursenLines_9 :
    (BursenLines_w5.Inv) ∧
    (BursenLines_w5.cmd.link = PortState.up) ∧
    (BursenLines_w5.Still) ∧
    (BursenLines_w5.top.st ≠ ModState.off) ∧
    (targetOf 4329478029312 = Target.csr (9 * 2 ^ 24 + 0)) ∧
    (9 < 18) ∧
    (0 < 2 ^ 24) ∧
    (0 % 4 = 0) ∧
    (4329478029312 % 4 = 0) ∧
    ([1#8, 2#8, 3#8, 4#8].length = 4) ∧
    (regHere 9 0 = true) ∧
    (regSecure 9 0 = true) ∧
    (¬(3840 ≤ 0 ∧ 0 < 3864 ∧ 9 ∈ [4, 6, 9, 10])) :=
  by refine ⟨inv_of (by decide +kernel), ?_, still_of (by decide +kernel), ?_⟩ <;> and_intros <;> decide +kernel

end BursenLines

namespace BursenLink

def pk (typ : BitVec 8) (dst : BitVec 6) (len : Nat) (pl : List Byte) (src : BitVec 6 := 2) : Packet := { cls := 0, hop := 0, dst := dst, src := src, flow := 1, len := len, epoch := 0, addr := 0x100, tagged := false, cadence := 0, period := 0, txn := 77, ctr := 0, inc := 0, rstatus := 0, aop := 0, seq := 5, typ := typ, payload := pl }
def rgn : Region := { va := 0x10000, size := 0x10000, kind := 4, rights := 3, bolt := 0, stack := 0, host := 0, pool := 0 }
def ln (v : Byte) (ow di : Bool) : HostLine := { owned := ow, dirty := di, data := List.replicate 128 v }
def BL (c : Cmd) (h : Tab Byte := []) : State := { mk { tileX with st := .stopped } with
  top := { st := .ready, hbmUp := 1 }, clk := { gt := 0x123456789A }, cmd := { c with hostHeld := if c.link = .up then [(0x800003, some true)] else [] }
  ctxs := [(2, { regions := [rgn], pages := [(0x10000, 0x40000000)] })], mem := { phys := [(0x40000105, 7), (0x40000204, 9)], host := [(0x80, 5), (0x185, 6)] ++ h } }
def tf (n : BitVec 12) (t : W64 := 0x1234560000) : TxFrame := { seq := n, packets := [pk 1 2 64 []], sentAt := t }
def rec_ (k : Nat) : List W64 := (List.range 8).map fun i => BitVec.ofNat 64 (k * 1000 + i)
def cs : List Cmd := [{ link := .up, cache := [(1, some (ln 4 true true)), (3, some (ln 5 false false))], portB := { fails := 1, unacked := [tf 7 0], txSeq := 8 } }, { link := .up, portB := { replays := 16 } }, { link := .up },
  { link := .training, portB := { fails := 1 } }, { link := .training, portB := { fails := 2 }, area := 0x1000, areaValid := true, areaSecure := true, vector := 5, intEn := true, heldRecords := [3, 1], slots := [(1, { st := .complete, record := rec_ 1 }), (3, { st := .complete, record := rec_ 3, intr := true }), (5, { st := .outstanding, tag := 77 })] }]

def BursenLink_w1 : State := BL { link := PortState.training, portB := { fails := 1 } }

def BursenLink_w2 : State := BL { link := PortState.up, portB := { txSeq := 8, unacked := [tf 7 0], fails := 1 }, cache := [(1, some (ln 4 true true)), (3, some (ln 5 false false))] }

def BursenLink_w3 : State := BL { link := PortState.up }

def BursenLink_w4 : State := have s := BL (cs.getD 3 { }); { pending := s.pending,   top :=     have __src := s.top;     { st := __src.st, prev := __src.prev, cause := __src.cause, transitions := __src.transitions, pinOpen := __src.pinOpen, drainCauses := __src.drainCauses, hbmUp := __src.hbmUp, pages := __src.pages, busLost := __src.busLost, vin := __src.vin, ctlA := false, ctlB := __src.ctlB, hbmOff := __src.hbmOff, railsOff := __src.railsOff, bootStep := __src.bootStep, tested := __src.tested, reserveAt := __src.reserveAt, bootGt := __src.bootGt, pinGt := __src.pinGt, busGt := __src.busGt, withdrawn := __src.withdrawn },   clk := s.clk, tiles := s.tiles, mem := s.mem, mmu := s.mmu, eng := s.eng, gz := s.gz, cmd := s.cmd, ctxs := s.ctxs, cads := s.cads, pow := s.pow, gvn := s.gvn, res := s.res, rfw := s.rfw, clm := s.clm, pairs := s.pairs, err := s.err, trust := s.trust, free := s.free }

def BursenLink_w5 : State := BL { link := PortState.training, portB := { fails := 2 }, areaValid := true, areaSecure := true, area := 4096, vector := 5, intEn := true, slots := [(1, { st := SlotState.complete, record := rec_ 1 }), (3, { st := SlotState.complete, intr := true, record := rec_ 3 }), (5, { st := SlotState.outstanding, tag := 77 })], heldRecords := [3, 1] }

theorem met_BursenLink_1 :
    (BursenLink_w1.Inv) ∧
    (BursenLink_w1.cmd.link ≠ PortState.up) ∧
    (BursenLink_w1.top.st ≠ ModState.off) ∧
    (BursenLink_w1.top.ctlA = true) ∧
    (BursenLink_w1.cmd.areaRefused = false) ∧
    (∀ (n : Nat), n ∈ BursenLink_w1.cmd.heldRecords → (BursenLink_w1.slotOf n).record.length = 8) ∧
    (BursenLink_w1.cmd.heldRecords.Nodup) ∧
    (BursenLink_w1.cmd.link ≠ PortState.failed) :=
  by refine ⟨inv_of (by decide +kernel), ?_⟩ <;> and_intros <;> decide +kernel

theorem met_BursenLink_2 :
    (BursenLink_w2.Inv) ∧
    (BursenLink_w2.cmd.link = PortState.up) ∧
    (BursenLink_w2.err = { }) ∧
    (BursenLink_w2.cmd.portB.failing BursenLink_w2.clk.gt = true) :=
  by refine ⟨inv_of (by decide +kernel), ?_⟩ <;> and_intros <;> decide +kernel

theorem met_BursenLink_3 :
    (BursenLink_w3.Inv) ∧
    (BursenLink_w3.cmd.link = PortState.up) ∧
    (BursenLink_w3.cmd.portB.failing BursenLink_w3.clk.gt = false) :=
  by refine ⟨inv_of (by decide +kernel), ?_⟩ <;> and_intros <;> decide +kernel

theorem met_BursenLink_4 :
    (BursenLink_w4.Inv) ∧
    (BursenLink_w4.cmd.link ≠ PortState.up) ∧
    (BursenLink_w4.top.ctlA = false) :=
  by refine ⟨inv_of (by decide +kernel), ?_⟩ <;> and_intros <;> decide +kernel

theorem met_BursenLink_5 :
    (BursenLink_w5.Inv) ∧
    (BursenLink_w5.cmd.link ≠ PortState.up) ∧
    (BursenLink_w5.top.st ≠ ModState.off) ∧
    (BursenLink_w5.top.ctlA = true) ∧
    (BursenLink_w5.cmd.areaRefused = false) ∧
    (∀ (n : Nat), n ∈ BursenLink_w5.cmd.heldRecords → (BursenLink_w5.slotOf n).record.length = 8) ∧
    (BursenLink_w5.cmd.heldRecords.Nodup) :=
  by refine ⟨inv_of (by decide +kernel), ?_⟩ <;> and_intros <;> decide +kernel

theorem met_BursenLink_6 :
    (BursenLink_w5.Inv) ∧
    (5 < 4096) ∧
    (1 < 256) ∧
    (BursenLink_w5.cmd.link ≠ PortState.up) ∧
    ((BursenLink_w5.slotOf 5).st = SlotState.outstanding) ∧
    (BursenLink_w5.clm.watchdog = false) :=
  by refine ⟨inv_of (by decide +kernel), ?_⟩ <;> and_intros <;> decide +kernel

end BursenLink

namespace Handles

def rgn : Region := { va := 0x10000, size := 0x10000, kind := 4, rights := 3, bolt := 0, stack := 0, host := 0, pool := 0 }
def BL (c : Cmd) (h : Tab Byte := []) : State := { mk { tileX with st := .stopped } with
  top := { st := .ready, hbmUp := 1 }, clk := { gt := 0x123456789A }, cmd := { c with hostHeld := if c.link = .up then [(0x800003, some true)] else [] }
  ctxs := [(2, { regions := [rgn], pages := [(0x10000, 0x40000000)] })], mem := { phys := [(0x40000105, 7), (0x40000204, 9)], host := [(0x80, 5), (0x185, 6)] ++ h } }
def BK (c : Cmd) : State := { BL c with cmd := c }
def sl (gen : Nat) (st : SlotState) (op : Op := .start) : Slot := { st := st, gen := BitVec.ofNat _ gen, op := op }
def HS (slots : Tab Slot) (av : Bool := true) (st : ModState := .ready) : State := { BK { link := .up, areaValid := av, area := 0x1000, slots := slots, lastSlot := 4095 } with top := { st := st, hbmUp := 1 } }
def ss : Tab Slot := [(0, sl 4 .complete), (1, sl 7 .outstanding), (2, sl 9 .free), (3, sl 5 .complete), (4, sl 6 .outstanding .drain)]

def Handles_w1 : State := HS ss

def Handles_w2 : Exchange := { secure := true, flags := 0#56, tag := 119#64, par := [1191936#64, 109517#64] }

def Handles_w3 : Exchange := { secure := false, flags := 0#56, tag := 119#64, par := [291#64, 5#64] }

def Handles_w4 : Exchange := { secure := false, flags := 0#56, tag := 119#64, par := [2#64, 87973815140352#64] }

def Handles_w5 : Exchange := { secure := false, flags := 0#56, tag := 119#64, par := [1#64, 21474852864#64] }

def Handles_w6 : Exchange := { secure := false, flags := 0#56, tag := 119#64, par := [0#64] }

def Handles_w7 : Exchange := { secure := false, flags := 0#56, tag := 119#64, par := [25#64] }

def Handles_w8 : Exchange := { secure := false, flags := 0#56, tag := 119#64, par := [2#64, 140741783339008#64] }

def Handles_w9 : Exchange := { secure := false, flags := 0#56, tag := 119#64, par := [2#64, 158338264350720#64] }

def Handles_w10 : Exchange := { secure := false, flags := 0#56, tag := 119#64, par := [3#64, 123149597294592#64, 20483#64] }

def Handles_w11 : Exchange := { secure := false, flags := 0#56, tag := 119#64, par := [16384#64] }

def Handles_w12 : Exchange := { secure := false, flags := 0#56, tag := 119#64, par := [24580#64] }

def Handles_w13 : State := HS []

theorem met_Handles_1 :
    (Handles_w1.Inv) ∧
    (Handles_w1.Still) ∧
    (Handles_w1.top.st ≠ ModState.off) ∧
    (Handles_w1.cmd.link = PortState.up) ∧
    (Handles_w1.top.st.firmware = true → Handles_w1.fwRuns = true) ∧
    (Handles_w1.accepts 1 = true) ∧
    (lineOpcode 1 Handles_w2 = 1) ∧
    (fieldsClear Handles_w2 [2 ^ 48 - 1, 131071] = true) ∧
    (BitVec.toNat (Handles_w2.par.getD 0 0) % 4096 = 0) ∧
    (∃ n, (Handles_w1.slotOf n).st ≠ SlotState.free) :=
  by refine ⟨inv_of (by decide +kernel), still_of (by decide +kernel), ?_, ?_, ?_, ?_, ?_, ?_, ?_, ⟨0, by decide +kernel⟩⟩ <;> decide +kernel

theorem met_Handles_2 :
    (Handles_w1.Inv) ∧
    (Handles_w1.Still) ∧
    (Handles_w1.top.st ≠ ModState.off) ∧
    (Handles_w1.cmd.link = PortState.up) ∧
    (Handles_w1.top.st.firmware = true → Handles_w1.fwRuns = true) ∧
    (Handles_w1.accepts 1 = true) ∧
    (lineOpcode 1 Handles_w3 = 1) ∧
    (fieldsClear Handles_w3 [2 ^ 48 - 1, 131071] = true) ∧
    (BitVec.toNat (Handles_w3.par.getD 0 0) % 4096 ≠ 0) :=
  by refine ⟨inv_of (by decide +kernel), still_of (by decide +kernel), ?_⟩ <;> and_intros <;> decide +kernel

theorem met_Handles_3 :
    (Handles_w1.Inv) ∧
    (Handles_w1.Still) ∧
    (Handles_w1.Passes 8 Handles_w4 (31 :: List.replicate 12 (2 ^ 64 - 1)) false) ∧
    (∀ (i : Nat), BitVec.toNat (Handles_w4.par.getD 0 0) % 32 ≤ i → i < 24 → BitVec.toNat (Handles_w4.par.getD (1 + i / 2) 0) / 2 ^ (32 * (i % 2)) % 2 ^ 32 = 0) ∧
    (0 < BitVec.toNat (Handles_w4.par.getD 0 0) % 32) ∧
    (BitVec.toNat (Handles_w4.par.getD 0 0) % 32 ≤ 24) ∧
    (2 ≤ BitVec.toNat (Handles_w4.par.getD 0 0) % 32) ∧
    (∀ (i : Nat), i < 2 → ((Handles_w1.slotOf (BitVec.toNat (Handles_w4.par.getD (1 + i / 2) 0) / 2 ^ (32 * (i % 2)) % 2 ^ 32 % 4096)).gen.toNat = BitVec.toNat (Handles_w4.par.getD (1 + i / 2) 0) / 2 ^ (32 * (i % 2)) % 2 ^ 32 / 4096 ∧ (Handles_w1.slotOf (BitVec.toNat (Handles_w4.par.getD (1 + i / 2) 0) / 2 ^ (32 * (i % 2)) % 2 ^ 32 % 4096)).st = SlotState.complete) ∧ ∀ (j : Nat), j < i → BitVec.toNat (Handles_w4.par.getD (1 + j / 2) 0) / 2 ^ (32 * (j % 2)) % 2 ^ 32 ≠ BitVec.toNat (Handles_w4.par.getD (1 + i / 2) 0) / 2 ^ (32 * (i % 2)) % 2 ^ 32) ∧
    (2 = BitVec.toNat (Handles_w4.par.getD 0 0) % 32) :=
  by refine ⟨inv_of (by decide +kernel), still_of (by decide +kernel), passes_of (by decide +kernel), between (by decide +kernel), ?_⟩ <;> and_intros <;> decide +kernel

theorem met_Handles_4 :
    (Handles_w1.Inv) ∧
    (Handles_w1.Still) ∧
    (Handles_w1.Passes 8 Handles_w5 (31 :: List.replicate 12 (2 ^ 64 - 1)) false) ∧
    (∃ i, BitVec.toNat (Handles_w5.par.getD 0 0) % 32 ≤ i ∧ i < 24 ∧ BitVec.toNat (Handles_w5.par.getD (1 + i / 2) 0) / 2 ^ (32 * (i % 2)) % 2 ^ 32 ≠ 0) :=
  ⟨inv_of (by decide +kernel), still_of (by decide +kernel), passes_of (by decide +kernel),
   (by first | exact ⟨0, by decide +kernel⟩ | exact ⟨1, by decide +kernel⟩ | exact ⟨2, by decide +kernel⟩ | exact ⟨3, by decide +kernel⟩)⟩

theorem met_Handles_5 :
    (Handles_w1.Inv) ∧
    (Handles_w1.Still) ∧
    (Handles_w1.Passes 8 Handles_w6 (31 :: List.replicate 12 (2 ^ 64 - 1)) false) ∧
    (∀ (i : Nat), BitVec.toNat (Handles_w6.par.getD 0 0) % 32 ≤ i → i < 24 → BitVec.toNat (Handles_w6.par.getD (1 + i / 2) 0) / 2 ^ (32 * (i % 2)) % 2 ^ 32 = 0) ∧
    (BitVec.toNat (Handles_w6.par.getD 0 0) % 32 = 0 ∨ 24 < BitVec.toNat (Handles_w6.par.getD 0 0) % 32) ∧
    (Handles_w1.Passes 6 Handles_w6 [2 ^ 32 - 1] false) ∧
    ((Handles_w1.slotOf (BitVec.toNat (Handles_w6.par.getD 0 0) % 4096)).gen.toNat ≠ BitVec.toNat (Handles_w6.par.getD 0 0) / 4096) ∧
    (2 < 4096) ∧
    (Handles_w1.cads = []) ∧
    ((Handles_w1.slotOf 2).st = SlotState.free ∧ ∃ k, k < 4096 ∧ 2 = (Handles_w1.cmd.lastSlot + 1 + k) % 4096 ∧ ∀ (j : Nat), j < k → (Handles_w1.slotOf ((Handles_w1.cmd.lastSlot + 1 + j) % 4096)).st ≠ SlotState.free) ∧
    (Handles_w1.Passes 21 Handles_w6 [] false) :=
  by refine ⟨inv_of (by decide +kernel), still_of (by decide +kernel), passes_of (by decide +kernel), between (by decide +kernel), ?_,
   passes_of (by decide +kernel), ?_, ?_, ?_, ⟨by decide +kernel, 2, by decide +kernel⟩, passes_of (by decide +kernel)⟩ <;> decide +kernel

theorem met_Handles_6 :
    (Handles_w1.Inv) ∧
    (Handles_w1.Still) ∧
    (Handles_w1.Passes 6 Handles_w7 [2 ^ 32 - 1] false) ∧
    ((Handles_w1.slotOf (BitVec.toNat (Handles_w7.par.getD 0 0) % 4096)).gen.toNat = BitVec.toNat (Handles_w7.par.getD 0 0) / 4096) ∧
    ((Handles_w1.slotOf (BitVec.toNat (Handles_w7.par.getD 0 0) % 4096)).st = SlotState.free) :=
  by refine ⟨inv_of (by decide +kernel), still_of (by decide +kernel), passes_of (by decide +kernel), ?_⟩ <;> and_intros <;> decide +kernel

theorem met_Handles_7 :
    (Handles_w1.Inv) ∧
    (Handles_w1.Still) ∧
    (Handles_w1.Passes 8 Handles_w8 (31 :: List.replicate 12 (2 ^ 64 - 1)) false) ∧
    (∀ (i : Nat), BitVec.toNat (Handles_w8.par.getD 0 0) % 32 ≤ i → i < 24 → BitVec.toNat (Handles_w8.par.getD (1 + i / 2) 0) / 2 ^ (32 * (i % 2)) % 2 ^ 32 = 0) ∧
    (0 < BitVec.toNat (Handles_w8.par.getD 0 0) % 32) ∧
    (BitVec.toNat (Handles_w8.par.getD 0 0) % 32 ≤ 24) ∧
    (1 ≤ BitVec.toNat (Handles_w8.par.getD 0 0) % 32) ∧
    (∀ (i : Nat), i < 1 → ((Handles_w1.slotOf (BitVec.toNat (Handles_w8.par.getD (1 + i / 2) 0) / 2 ^ (32 * (i % 2)) % 2 ^ 32 % 4096)).gen.toNat = BitVec.toNat (Handles_w8.par.getD (1 + i / 2) 0) / 2 ^ (32 * (i % 2)) % 2 ^ 32 / 4096 ∧ (Handles_w1.slotOf (BitVec.toNat (Handles_w8.par.getD (1 + i / 2) 0) / 2 ^ (32 * (i % 2)) % 2 ^ 32 % 4096)).st = SlotState.complete) ∧ ∀ (j : Nat), j < i → BitVec.toNat (Handles_w8.par.getD (1 + j / 2) 0) / 2 ^ (32 * (j % 2)) % 2 ^ 32 ≠ BitVec.toNat (Handles_w8.par.getD (1 + i / 2) 0) / 2 ^ (32 * (i % 2)) % 2 ^ 32) ∧
    (1 < BitVec.toNat (Handles_w8.par.getD 0 0) % 32) ∧
    (∀ (i : Nat), i < 1 → BitVec.toNat (Handles_w8.par.getD (1 + i / 2) 0) / 2 ^ (32 * (i % 2)) % 2 ^ 32 % 4096 ≠ BitVec.toNat (Handles_w8.par.getD (1 + 1 / 2) 0) / 2 ^ (32 * (1 % 2)) % 2 ^ 32 % 4096) ∧
    ((Handles_w1.slotOf (BitVec.toNat (Handles_w8.par.getD (1 + 1 / 2) 0) / 2 ^ (32 * (1 % 2)) % 2 ^ 32 % 4096)).gen.toNat ≠ BitVec.toNat (Handles_w8.par.getD (1 + 1 / 2) 0) / 2 ^ (32 * (1 % 2)) % 2 ^ 32 / 4096) :=
  by refine ⟨inv_of (by decide +kernel), still_of (by decide +kernel), passes_of (by decide +kernel), between (by decide +kernel), ?_⟩ <;> and_intros <;> decide +kernel

theorem met_Handles_8 :
    (Handles_w1.Inv) ∧
    (Handles_w1.Still) ∧
    (Handles_w1.Passes 8 Handles_w9 (31 :: List.replicate 12 (2 ^ 64 - 1)) false) ∧
    (∀ (i : Nat), BitVec.toNat (Handles_w9.par.getD 0 0) % 32 ≤ i → i < 24 → BitVec.toNat (Handles_w9.par.getD (1 + i / 2) 0) / 2 ^ (32 * (i % 2)) % 2 ^ 32 = 0) ∧
    (0 < BitVec.toNat (Handles_w9.par.getD 0 0) % 32) ∧
    (BitVec.toNat (Handles_w9.par.getD 0 0) % 32 ≤ 24) ∧
    (1 ≤ BitVec.toNat (Handles_w9.par.getD 0 0) % 32) ∧
    (∀ (i : Nat), i < 1 → ((Handles_w1.slotOf (BitVec.toNat (Handles_w9.par.getD (1 + i / 2) 0) / 2 ^ (32 * (i % 2)) % 2 ^ 32 % 4096)).gen.toNat = BitVec.toNat (Handles_w9.par.getD (1 + i / 2) 0) / 2 ^ (32 * (i % 2)) % 2 ^ 32 / 4096 ∧ (Handles_w1.slotOf (BitVec.toNat (Handles_w9.par.getD (1 + i / 2) 0) / 2 ^ (32 * (i % 2)) % 2 ^ 32 % 4096)).st = SlotState.complete) ∧ ∀ (j : Nat), j < i → BitVec.toNat (Handles_w9.par.getD (1 + j / 2) 0) / 2 ^ (32 * (j % 2)) % 2 ^ 32 ≠ BitVec.toNat (Handles_w9.par.getD (1 + i / 2) 0) / 2 ^ (32 * (i % 2)) % 2 ^ 32) ∧
    (1 < BitVec.toNat (Handles_w9.par.getD 0 0) % 32) ∧
    (∀ (i : Nat), i < 1 → BitVec.toNat (Handles_w9.par.getD (1 + i / 2) 0) / 2 ^ (32 * (i % 2)) % 2 ^ 32 % 4096 ≠ BitVec.toNat (Handles_w9.par.getD (1 + 1 / 2) 0) / 2 ^ (32 * (1 % 2)) % 2 ^ 32 % 4096) ∧
    ((Handles_w1.slotOf (BitVec.toNat (Handles_w9.par.getD (1 + 1 / 2) 0) / 2 ^ (32 * (1 % 2)) % 2 ^ 32 % 4096)).gen.toNat = BitVec.toNat (Handles_w9.par.getD (1 + 1 / 2) 0) / 2 ^ (32 * (1 % 2)) % 2 ^ 32 / 4096) ∧
    ((Handles_w1.slotOf (BitVec.toNat (Handles_w9.par.getD (1 + 1 / 2) 0) / 2 ^ (32 * (1 % 2)) % 2 ^ 32 % 4096)).st = SlotState.free) :=
  by refine ⟨inv_of (by decide +kernel), still_of (by decide +kernel), passes_of (by decide +kernel), between (by decide +kernel), ?_⟩ <;> and_intros <;> decide +kernel

theorem met_Handles_9 :
    (Handles_w1.Inv) ∧
    (Handles_w1.Still) ∧
    (Handles_w1.Passes 8 Handles_w10 (31 :: List.replicate 12 (2 ^ 64 - 1)) false) ∧
    (∀ (i : Nat), BitVec.toNat (Handles_w10.par.getD 0 0) % 32 ≤ i → i < 24 → BitVec.toNat (Handles_w10.par.getD (1 + i / 2) 0) / 2 ^ (32 * (i % 2)) % 2 ^ 32 = 0) ∧
    (0 < BitVec.toNat (Handles_w10.par.getD 0 0) % 32) ∧
    (BitVec.toNat (Handles_w10.par.getD 0 0) % 32 ≤ 24) ∧
    (1 ≤ BitVec.toNat (Handles_w10.par.getD 0 0) % 32) ∧
    (∀ (i : Nat), i < 1 → ((Handles_w1.slotOf (BitVec.toNat (Handles_w10.par.getD (1 + i / 2) 0) / 2 ^ (32 * (i % 2)) % 2 ^ 32 % 4096)).gen.toNat = BitVec.toNat (Handles_w10.par.getD (1 + i / 2) 0) / 2 ^ (32 * (i % 2)) % 2 ^ 32 / 4096 ∧ (Handles_w1.slotOf (BitVec.toNat (Handles_w10.par.getD (1 + i / 2) 0) / 2 ^ (32 * (i % 2)) % 2 ^ 32 % 4096)).st = SlotState.complete) ∧ ∀ (j : Nat), j < i → BitVec.toNat (Handles_w10.par.getD (1 + j / 2) 0) / 2 ^ (32 * (j % 2)) % 2 ^ 32 ≠ BitVec.toNat (Handles_w10.par.getD (1 + i / 2) 0) / 2 ^ (32 * (i % 2)) % 2 ^ 32) ∧
    (1 < BitVec.toNat (Handles_w10.par.getD 0 0) % 32) ∧
    (∀ (i : Nat), i < 1 → BitVec.toNat (Handles_w10.par.getD (1 + i / 2) 0) / 2 ^ (32 * (i % 2)) % 2 ^ 32 % 4096 ≠ BitVec.toNat (Handles_w10.par.getD (1 + 1 / 2) 0) / 2 ^ (32 * (1 % 2)) % 2 ^ 32 % 4096) ∧
    ((Handles_w1.slotOf (BitVec.toNat (Handles_w10.par.getD (1 + 1 / 2) 0) / 2 ^ (32 * (1 % 2)) % 2 ^ 32 % 4096)).gen.toNat = BitVec.toNat (Handles_w10.par.getD (1 + 1 / 2) 0) / 2 ^ (32 * (1 % 2)) % 2 ^ 32 / 4096) ∧
    ((Handles_w1.slotOf (BitVec.toNat (Handles_w10.par.getD (1 + 1 / 2) 0) / 2 ^ (32 * (1 % 2)) % 2 ^ 32 % 4096)).st = SlotState.outstanding) :=
  by refine ⟨inv_of (by decide +kernel), still_of (by decide +kernel), passes_of (by decide +kernel), between (by decide +kernel), ?_⟩ <;> and_intros <;> decide +kernel

theorem met_Handles_10 :
    (Handles_w1.Inv) ∧
    (Handles_w1.Still) ∧
    (Handles_w1.Passes 6 Handles_w11 [2 ^ 32 - 1] false) ∧
    ((Handles_w1.slotOf (BitVec.toNat (Handles_w11.par.getD 0 0) % 4096)).gen.toNat = BitVec.toNat (Handles_w11.par.getD 0 0) / 4096) ∧
    ((Handles_w1.slotOf (BitVec.toNat (Handles_w11.par.getD 0 0) % 4096)).st = SlotState.complete) ∧
    ((Handles_w1.slotOf (BitVec.toNat (Handles_w11.par.getD 0 0) % 4096)).op ∈ [Op.start, Op.load, Op.memCopy, Op.memFill, Op.query, Op.attest, Op.arm, Op.save]) :=
  by refine ⟨inv_of (by decide +kernel), still_of (by decide +kernel), passes_of (by decide +kernel), ?_⟩ <;> and_intros <;> decide +kernel

theorem met_Handles_11 :
    (Handles_w1.Inv) ∧
    (Handles_w1.Still) ∧
    (Handles_w1.Passes 6 Handles_w12 [2 ^ 32 - 1] false) ∧
    ((Handles_w1.slotOf (BitVec.toNat (Handles_w12.par.getD 0 0) % 4096)).gen.toNat = BitVec.toNat (Handles_w12.par.getD 0 0) / 4096) ∧
    ((Handles_w1.slotOf (BitVec.toNat (Handles_w12.par.getD 0 0) % 4096)).st ≠ SlotState.free) ∧
    (¬(Handles_w1.slotOf (BitVec.toNat (Handles_w12.par.getD 0 0) % 4096)).op ∈ [Op.start, Op.load, Op.memCopy, Op.memFill, Op.query, Op.attest, Op.arm, Op.save]) :=
  by refine ⟨inv_of (by decide +kernel), still_of (by decide +kernel), passes_of (by decide +kernel), ?_⟩ <;> and_intros <;> decide +kernel

theorem met_Handles_12 :
    (Handles_w13.Inv) ∧
    (Handles_w13.Still) ∧
    (Handles_w13.top.st ≠ ModState.off) ∧
    (Handles_w13.cmd.link = PortState.up) ∧
    (Handles_w13.top.st.firmware = true → Handles_w13.fwRuns = true) ∧
    (Handles_w13.accepts 1 = true) ∧
    (lineOpcode 1 Handles_w2 = 1) ∧
    (fieldsClear Handles_w2 [2 ^ 48 - 1, 131071] = true) ∧
    (BitVec.toNat (Handles_w2.par.getD 0 0) % 4096 = 0) ∧
    (¬∃ n, (Handles_w13.slotOf n).st ≠ SlotState.free) :=
  by refine ⟨inv_of (by decide +kernel), still_of (by decide +kernel), ?_, ?_, ?_, ?_, ?_, ?_, ?_, (fun ⟨_, h⟩ => h rfl)⟩ <;> decide +kernel

end Handles

namespace Contexts

def rgn : Region := { va := 0x10000, size := 0x10000, kind := 4, rights := 3, bolt := 0, stack := 0, host := 0, pool := 0 }
def BL (c : Cmd) (h : Tab Byte := []) : State := { mk { tileX with st := .stopped } with
  top := { st := .ready, hbmUp := 1 }, clk := { gt := 0x123456789A }, cmd := { c with hostHeld := if c.link = .up then [(0x800003, some true)] else [] }
  ctxs := [(2, { regions := [rgn], pages := [(0x10000, 0x40000000)] })], mem := { phys := [(0x40000105, 7), (0x40000204, 9)], host := [(0x80, 5), (0x185, 6)] ++ h } }
def BK (c : Cmd) : State := { BL c with cmd := c }
def HS (slots : Tab Slot) (av : Bool := true) (st : ModState := .ready) : State := { BK { link := .up, areaValid := av, area := 0x1000, slots := slots, lastSlot := 4 } with top := { st := st, hbmUp := 1 } }
def grp (ph : Nat) : Group := { bolt := 0, phys := ph, siltKib := 512, entry := 0x8047, tvec := 0x5123, movers := 1, counters := 2 }
def CS (y : Ctx) (tl : Tab Tile) (st : ModState := .running) (slots : Tab Slot := []) (mem : Tab Byte := []) (mv : Tab Mover := []) (fq : Tab FabQueue := []) : State := { HS slots with
  top := { st := st, hbmUp := 1, reserveAt := [some 0, none, none, none] }, ctxs := [(2, y)], tiles := tl, mem := { phys := mem }, mmu := { ctx := [(2, 0x80000055)] }
  eng := { mov := mv }, gz := { fq := fq } }
def y0 : Ctx := { st := .loaded, groups := [grp 0], pages := [(0x10000, 0x40000000)] }
def run16 (x : Tile) (f : Nat → Tile → Tile := fun _ x => x) : Tab Tile := (List.range 16).map fun k => (k, f k x)
def rT : Tile := { st := .running, pc := 0x1000 }
def y1 : Ctx := { y0 with st := .running, startSlot := some 9, movBase := [5, 0, 0, 0], movCount := [2, 0, 0, 0], fqBase := [3, 0, 0, 0], fqCount := [1, 0, 0, 0] }
def y2 : Ctx := { y0 with st := .running, startSlot := some 9, stopSlot := some 8, stopping := true }
def so : Tab Slot := [(8, { st := .outstanding, gen := 1, op := .stop, arg := 2 }), (9, { st := .outstanding, gen := 6, op := .start, arg := 2 })]

def Contexts_w1 : State := CS   (have __src := y0;   { digest := __src.digest, signed := __src.signed, keySlot := __src.keySlot, priv := __src.priv, csrBlocks := __src.csrBlocks, loadGt := __src.loadGt, load := __src.load, groups := __src.groups, regions := __src.regions, siltInits := __src.siltInits, cads := __src.cads, movBase := __src.movBase, movCount := __src.movCount, fqBase := __src.fqBase, fqCount := __src.fqCount, ctrBase := __src.ctrBase, ctrCount := __src.ctrCount, tables := __src.tables, pages := __src.pages, pool := __src.pool, map := __src.map, tabBase := __src.tabBase, answer := __src.answer, startSlot := __src.startSlot, stopSlot := __src.stopSlot, saveSlot := __src.saveSlot, refusal := __src.refusal, due := __src.due, ending := __src.ending, stopping := __src.stopping, stopDue := __src.stopDue, saved := __src.saved, released := __src.released, energy := __src.energy })   [] ModState.ready

def Contexts_w2 : Exchange := { secure := false, flags := 0#56, tag := 119#64, par := [2#64] }

def Contexts_w3 : State := CS y2 [(3, { silt := [(5, 7)], resetting := true })] ModState.running so [(1073741825, 5), (1073742080, 7), (1342177280, 1)]

def Contexts_w4 : State := CS y0 [] ModState.ready

def Contexts_w5 : State := CS y1 (run16 rT) ModState.running so [] [(5, { en := true, granted := true, st := MovState.idle })] [(3, { en := true, granted := true, ctx := 2 })]

def Contexts_w6 : Exchange := { secure := false, flags := 0#56, tag := 119#64, par := [24585#64] }

def Contexts_w7 : State := CS   (have __src := y0;   { st := CtxState.saved, digest := __src.digest, signed := __src.signed, keySlot := __src.keySlot, priv := __src.priv, csrBlocks := __src.csrBlocks, loadGt := __src.loadGt, load := __src.load, groups := __src.groups, regions := __src.regions, siltInits := __src.siltInits, cads := __src.cads, movBase := __src.movBase, movCount := __src.movCount, fqBase := __src.fqBase, fqCount := __src.fqCount, ctrBase := __src.ctrBase, ctrCount := __src.ctrCount, tables := __src.tables, pages := __src.pages, pool := __src.pool, map := __src.map, tabBase := __src.tabBase, answer := __src.answer, startSlot := __src.startSlot, stopSlot := __src.stopSlot, saveSlot := __src.saveSlot, refusal := __src.refusal, due := __src.due, ending := __src.ending, stopping := __src.stopping, stopDue := __src.stopDue, saved := [3, 4], released := __src.released, energy := __src.energy })   [(3, { pc := 64, st := TileState.stopped }), (4, { st := TileState.stopped })]

def Contexts_w8 : State := CS   (have __src := y0;   { st := CtxState.saved, digest := __src.digest, signed := __src.signed, keySlot := __src.keySlot, priv := __src.priv, csrBlocks := __src.csrBlocks, loadGt := __src.loadGt, load := __src.load, groups := __src.groups, regions := __src.regions, siltInits := __src.siltInits, cads := __src.cads, movBase := __src.movBase, movCount := __src.movCount, fqBase := __src.fqBase, fqCount := __src.fqCount, ctrBase := __src.ctrBase, ctrCount := __src.ctrCount, tables := __src.tables, pages := __src.pages, pool := __src.pool, map := __src.map, tabBase := __src.tabBase, answer := __src.answer, startSlot := __src.startSlot, stopSlot := __src.stopSlot, saveSlot := __src.saveSlot, refusal := __src.refusal, due := __src.due, ending := __src.ending, stopping := __src.stopping, stopDue := __src.stopDue, saved := [3, 4], released := __src.released, energy := __src.energy })   [(3, { st := TileState.stopped }), (5, { st := TileState.retired })]

def Contexts_w9 : Group := { bolt := 0, phys := 0, siltKib := 512, entry := 32839#64, tvec := 20771#64, movers := 1, counters := 2 }

theorem met_Contexts_1 :
    (Contexts_w1.Inv) ∧
    (Contexts_w1.Still) ∧
    (Contexts_w1.cads = []) ∧
    (5 < 4096) ∧
    (Contexts_w1.freeSlot = some 5) ∧
    (BitVec.toNat (Contexts_w2.par.getD 0 0) = ↑2) ∧
    (Contexts_w1.Passes 4 Contexts_w2 [15] false) ∧
    ((Contexts_w1.ctx ↑2).st ≠ CtxState.loaded ∧ (Contexts_w1.ctx ↑2).st ≠ CtxState.running ∨ (Contexts_w1.ctx ↑2).startSlot.isSome = true) ∧
    (Contexts_w1.Passes 5 Contexts_w2 [15] false) ∧
    (¬((Contexts_w1.ctx ↑2).st ≠ CtxState.unloaded ∧ (Contexts_w1.ctx ↑2).st ≠ CtxState.loading)) ∧
    (Contexts_w1.Passes 11 Contexts_w2 [15] false) ∧
    ((Contexts_w1.ctx ↑2).st ≠ CtxState.running) ∧
    (Contexts_w1.Passes 12 Contexts_w2 [15] false) ∧
    ((Contexts_w1.ctx ↑2).st ≠ CtxState.saved) ∧
    (Contexts_w3.Inv) ∧
    (∀ (d : Nat), d ≠ ↑2 → Contexts_w3.ctx d = { }) ∧
    (Contexts_w3.cads = []) ∧
    (Contexts_w3.clm.watchdog = false) ∧
    ((Contexts_w3.ctx ↑2).stopping = true) ∧
    ((Contexts_w3.ctx ↑2).stopDue = false) ∧
    ((Contexts_w3.ctx ↑2).saveSlot = none) ∧
    ((Contexts_w3.ctx ↑2).released = false) ∧
    ((Contexts_w3.ctx ↑2).movCount = []) ∧
    ((Contexts_w3.ctx ↑2).fqCount = []) ∧
    (↑3 ∈ List.flatMap (fun g => List.map (fun k => 16 * g.phys + k) (List.range 16)) (Contexts_w3.ctx ↑2).groups) ∧
    ((Contexts_w3.tile ↑3).resetting = true) ∧
    ((Contexts_w3.tile ↑3).retireDue = false) ∧
    (∀ (u : Nat), u ∈ List.flatMap (fun g => List.map (fun k => 16 * g.phys + k) (List.range 16)) (Contexts_w3.ctx ↑2).groups → u ≠ ↑3 → (Contexts_w3.tile u).resetting = false ∧ (Contexts_w3.tile u).st = TileState.reset) ∧
    (9 ≠ 8) ∧
    (9 < 4096) ∧
    (8 < 4096) ∧
    ((Contexts_w3.ctx ↑2).startSlot = some 9) ∧
    ((Contexts_w3.ctx ↑2).stopSlot = some 8) ∧
    (Contexts_w3.fwBusy ↑2 = false) ∧
    ((Contexts_w3.slotOf 9).st = SlotState.outstanding) ∧
    ((Contexts_w3.slotOf 8).st = SlotState.outstanding) :=
  by refine ⟨inv_of (by decide +kernel), still_of (by decide +kernel), ?_, ?_, ?_, ?_, passes_of (by decide +kernel), ?_,
   passes_of (by decide +kernel), ?_, passes_of (by decide +kernel), ?_, passes_of (by decide +kernel), ?_, inv_of (by decide +kernel),
   fun _ h => look_single h, ?_⟩ <;> and_intros <;> decide +kernel

theorem met_Contexts_2 :
    (Contexts_w4.Inv) ∧
    (Contexts_w4.Still) ∧
    (Contexts_w4.cads = []) ∧
    (5 < 4096) ∧
    (Contexts_w4.freeSlot = some 5) ∧
    (BitVec.toNat (Contexts_w2.par.getD 0 0) = ↑2) ∧
    (Contexts_w4.Passes 4 Contexts_w2 [15] false) ∧
    ((Contexts_w4.ctx ↑2).st = CtxState.loaded) ∧
    ((Contexts_w4.ctx ↑2).startSlot = none) ∧
    (List.flatMap (fun g => List.map (fun k => 16 * g.phys + k) (List.range 16)) (Contexts_w4.ctx ↑2).groups ≠ []) ∧
    ((List.map (fun x => x.phys) (Contexts_w4.ctx ↑2).groups).Nodup) ∧
    ((Contexts_w4.ctx ↑2).cads = []) ∧
    (∀ (b a k : Nat), k < 65536 → Tab.look none (Contexts_w4.ctx ↑2).answer b = some a → ∃ h, targetOf (a + k) = Target.hbm h) ∧
    (∀ (u : Nat), u ∈ List.flatMap (fun g => List.map (fun k => 16 * g.phys + k) (List.range 16)) (Contexts_w4.ctx ↑2).groups → u < 1024 ∧ (Contexts_w4.tile u).st = TileState.reset ∧ (Contexts_w4.tile u).resetting = false ∧ (Contexts_w4.tile u).restoring = false) ∧
    (Contexts_w4.Passes 5 Contexts_w2 [15] false) ∧
    ((Contexts_w4.ctx ↑2).st ≠ CtxState.unloaded ∧ (Contexts_w4.ctx ↑2).st ≠ CtxState.loading) ∧
    ((Contexts_w4.ctx ↑2).released = false) ∧
    (∃ u, u ∈ List.flatMap (fun g => List.map (fun k => 16 * g.phys + k) (List.range 16)) (Contexts_w4.ctx ↑2).groups ∧ (Contexts_w4.tile u).st ≠ TileState.retired) :=
  by refine ⟨inv_of (by decide +kernel), still_of (by decide +kernel), ?_, ?_, ?_, ?_, passes_of (by decide +kernel), ?_, ?_, ?_, ?_, ?_,
   (fun _ _ _ _ h => by cases h), ?_, passes_of (by decide +kernel), ?_⟩ <;> and_intros <;> decide +kernel

theorem met_Contexts_3 :
    (Contexts_w5.Inv) ∧
    (Contexts_w5.Still) ∧
    (Contexts_w5.cads = []) ∧
    (5 < 4096) ∧
    (Contexts_w5.freeSlot = some 5) ∧
    (BitVec.toNat (Contexts_w2.par.getD 0 0) = ↑2) ∧
    (BitVec.toNat (Contexts_w6.par.getD 0 0) = (Contexts_w5.slotOf 9).gen.toNat * 4096 + 9) ∧
    (9 < 4096) ∧
    (Contexts_w5.Passes 6 Contexts_w6 [2 ^ 32 - 1] false) ∧
    ((Contexts_w5.slotOf 9).st = SlotState.outstanding) ∧
    ((Contexts_w5.slotOf 9).op = Op.start) ∧
    ((Contexts_w5.slotOf 9).arg = ↑2) ∧
    ((Contexts_w5.ctx ↑2).st ≠ CtxState.unloaded ∧ (Contexts_w5.ctx ↑2).st ≠ CtxState.loading) ∧
    ((Contexts_w5.ctx ↑2).released = false) ∧
    (∃ u, u ∈ List.flatMap (fun g => List.map (fun k => 16 * g.phys + k) (List.range 16)) (Contexts_w5.ctx ↑2).groups ∧ (Contexts_w5.tile u).st ≠ TileState.retired) :=
  by refine ⟨inv_of (by decide +kernel), still_of (by decide +kernel), ?_, ?_, ?_, ?_, ?_, ?_, passes_of (by decide +kernel), ?_⟩ <;> and_intros <;> decide +kernel

theorem met_Contexts_4 :
    (Contexts_w5.Inv) ∧
    (Contexts_w5.Still) ∧
    (Contexts_w5.cads = []) ∧
    (5 < 4096) ∧
    (Contexts_w5.freeSlot = some 5) ∧
    (BitVec.toNat (Contexts_w2.par.getD 0 0) = ↑2) ∧
    (Contexts_w5.Passes 11 Contexts_w2 [15] false) ∧
    ((Contexts_w5.ctx ↑2).st = CtxState.running) ∧
    (5 ∈ List.flatMap (fun g => List.map (fun k => 16 * g.phys + k) (List.range 16)) (Contexts_w5.ctx ↑2).groups) ∧
    (∀ (w : Nat), w ∈ List.flatMap (fun g => List.map (fun k => 16 * g.phys + k) (List.range 16)) (Contexts_w5.ctx ↑2).groups → (Contexts_w5.tile w).st = TileState.running ∧ (Contexts_w5.tile w).stopping = false ∧ (Contexts_w5.tile w).resetting = false ∧ (Contexts_w5.tile w).restoring = false) :=
  by refine ⟨inv_of (by decide +kernel), still_of (by decide +kernel), ?_, ?_, ?_, ?_, passes_of (by decide +kernel), ?_⟩ <;> and_intros <;> decide +kernel

theorem met_Contexts_5 :
    (Contexts_w7.Inv) ∧
    (Contexts_w7.Still) ∧
    (Contexts_w7.cads = []) ∧
    (5 < 4096) ∧
    (Contexts_w7.freeSlot = some 5) ∧
    (BitVec.toNat (Contexts_w2.par.getD 0 0) = ↑2) ∧
    (Contexts_w7.Passes 12 Contexts_w2 [15] false) ∧
    ((Contexts_w7.ctx ↑2).st = CtxState.saved) ∧
    ((Contexts_w7.ctx ↑2).released = false) ∧
    (∀ (g : Group), g ∈ (Contexts_w7.ctx ↑2).groups → Contexts_w7.groupLost (↑2) g.phys = false) ∧
    ((Contexts_w7.ctx ↑2).saved ≠ []) ∧
    (∀ (u : Nat), u ∈ (Contexts_w7.ctx ↑2).saved → (Contexts_w7.tile u).st = TileState.stopped ∧ (Contexts_w7.tile u).resetting = false ∧ (Contexts_w7.tile u).restoring = false) :=
  by refine ⟨inv_of (by decide +kernel), still_of (by decide +kernel), ?_, ?_, ?_, ?_, passes_of (by decide +kernel), ?_⟩ <;> and_intros <;> decide +kernel

theorem met_Contexts_6 :
    (Contexts_w8.Inv) ∧
    (Contexts_w8.Still) ∧
    (Contexts_w8.cads = []) ∧
    (5 < 4096) ∧
    (Contexts_w8.freeSlot = some 5) ∧
    (BitVec.toNat (Contexts_w2.par.getD 0 0) = ↑2) ∧
    (Contexts_w8.Passes 12 Contexts_w2 [15] false) ∧
    ((Contexts_w8.ctx ↑2).st = CtxState.saved) ∧
    ((Contexts_w8.ctx ↑2).groups = [] ++ [Contexts_w9]) ∧
    (∀ (h : Group), h ∈ [] → Contexts_w8.groupLost (↑2) h.phys = false) ∧
    (Contexts_w8.groupLost (↑2) Contexts_w9.phys = true) :=
  by refine ⟨inv_of (by decide +kernel), still_of (by decide +kernel), ?_, ?_, ?_, ?_, passes_of (by decide +kernel), ?_⟩ <;> and_intros <;> decide +kernel

end Contexts

namespace LoadsAndReports

def rgn : Region := { va := 0x10000, size := 0x10000, kind := 4, rights := 3, bolt := 0, stack := 0, host := 0, pool := 0 }
def BL (c : Cmd) (h : Tab Byte := []) : State := { mk { tileX with st := .stopped } with
  top := { st := .ready, hbmUp := 1 }, clk := { gt := 0x123456789A }, cmd := { c with hostHeld := if c.link = .up then [(0x800003, some true)] else [] }
  ctxs := [(2, { regions := [rgn], pages := [(0x10000, 0x40000000)] })], mem := { phys := [(0x40000105, 7), (0x40000204, 9)], host := [(0x80, 5), (0x185, 6)] ++ h } }
def BK (c : Cmd) : State := { BL c with cmd := c }
def HS (slots : Tab Slot) (av : Bool := true) (st : ModState := .ready) : State := { BK { link := .up, areaValid := av, area := 0x1000, slots := slots, lastSlot := 4 } with top := { st := st, hbmUp := 1 } }
def grp (ph : Nat) : Group := { bolt := 0, phys := ph, siltKib := 512, entry := 0x8047, tvec := 0x5123, movers := 1, counters := 2 }
def CS (y : Ctx) (tl : Tab Tile) (st : ModState := .running) (slots : Tab Slot := []) (mem : Tab Byte := []) (mv : Tab Mover := []) (fq : Tab FabQueue := []) : State := { HS slots with
  top := { st := st, hbmUp := 1, reserveAt := [some 0, none, none, none] }, ctxs := [(2, y)], tiles := tl, mem := { phys := mem }, mmu := { ctx := [(2, 0x80000055)] }
  eng := { mov := mv }, gz := { fq := fq } }
def y0 : Ctx := { st := .loaded, groups := [grp 0], pages := [(0x10000, 0x40000000)] }
def sec4 (ty off sz arg : Nat) : List Byte := toLe 2 ty ++ List.replicate 6 0 ++ toLe 8 off ++ toLe 8 sz ++ toLe 8 arg
def pad (n : Nat) (l : List Byte) : List Byte := l ++ List.replicate (n - l.length) 0
def image (flags : Nat := 0) (stack : Nat := 0) (mv : Nat := 1) (va : Nat := 0x10000) : List Byte := pad 256 (toLe 4 0x474D4952 ++ toLe 2 1 ++ toLe 2 flags ++ toLe 8 640 ++ toLe 4 4) ++ sec4 1 0x180 32 0 ++ sec4 2 0x1C0 48 0 ++ sec4 4 0x200 8 0 ++ sec4 6 0x240 64 0
  ++ pad 64 (toLe 8 (512 * 256) ++ toLe 8 0x8047 ++ toLe 8 0x5000 ++ toLe 8 mv) ++ pad 64 (toLe 8 va ++ toLe 8 100 ++ toLe 8 (1 + 3 * 16 + stack * 4096)) ++ pad 64 [] ++ List.replicate 64 0x5A
def LS (img : List Byte) (y : Ctx := {}) (mv : Tab Mover := [(31, { en := true, st := .idle }), (30, { en := true, st := .idle })]) (up : W64 := 1) (slots : Tab Slot := []) : State := { CS y [] .ready slots with
  ctxs := if y = {} then [] else [(2, y)], mem := { host := Tab.writeN 0 [] 0x2000 img }, eng := { mov := mv.reverse }
  top := { st := .ready, hbmUp := up.setWidth _, reserveAt := [some 0, none, none, none] } }

def LoadsAndReports_w1 : State := LS image

def LoadsAndReports_w2 : Exchange := { secure := false, flags := 0#56, tag := 119#64, par := [8192#64, 640#64, 2#64, 16384#64] }

def LoadsAndReports_w5 : Exchange := { secure := false, flags := 0#56, tag := 119#64, par := [8192#64, 640#64, 2#64, 16384#64], refused := true }

def LoadsAndReports_w6 : Exchange := { secure := false, flags := 0#56, tag := 119#64, par := [2#64, 65541#64, 131088#64, 100#64] }

def LoadsAndReports_w7 : Exchange := { secure := false, flags := 0#56, tag := 119#64, par := [2#64, 65541#64, 131088#64, 0#64] }

def LoadsAndReports_w8 : Exchange := { secure := false, flags := 0#56, tag := 119#64, par := [16#64, 0#64, 20480#64, 4096#64] }

def LoadsAndReports_w9 : Exchange := { secure := false, flags := 0#56, tag := 119#64, par := [24#64, 0#64, 20480#64, 4096#64] }

def LoadsAndReports_w12 : Exchange := { secure := false, flags := 0#56, tag := 119#64, par := [1#64, 12293#64, 20480#64, 100#64] }

def LoadsAndReports_w13 : Exchange := { secure := false, flags := 0#56, tag := 119#64, par := [1#64, 5#64, 20480#64, 100#64] }

def LoadsAndReports_w14 : Exchange := { secure := false, flags := 0#56, tag := 119#64, par := [1#64, 2#64, 3#64, 4#64, 20480#64, 1280#64] }

def LoadsAndReports_w15 : State := LS image y0

def LoadsAndReports_w16 : State := LS image { } [(30, { en := true, st := MovState.idle, queue := List.replicate 16 { num := 0, released := true, va := 0, ctx := 0, tile := 0, words := none } })]

def LoadsAndReports_w17 : State := LS []   (have __src := y0;   { st := __src.st, digest := __src.digest, signed := __src.signed, keySlot := __src.keySlot, priv := __src.priv, csrBlocks := __src.csrBlocks, loadGt := __src.loadGt, load := __src.load, groups := __src.groups, regions := __src.regions, siltInits := __src.siltInits, cads := __src.cads, movBase := __src.movBase, movCount := __src.movCount, fqBase := __src.fqBase, fqCount := __src.fqCount, ctrBase := __src.ctrBase, ctrCount := __src.ctrCount, tables := __src.tables, pages := __src.pages, pool := __src.pool, map := [(65536, BitVec.ofNat 64 (1073741824 + 63))], tabBase := __src.tabBase, answer := __src.answer, startSlot := __src.startSlot, stopSlot := __src.stopSlot, saveSlot := __src.saveSlot, refusal := __src.refusal, due := __src.due, ending := __src.ending, stopping := __src.stopping, stopDue := __src.stopDue, saved := __src.saved, released := __src.released, energy := __src.energy })   [(31, { en := true, st := MovState.idle, queue := List.replicate 16 { num := 0, released := true, va := 0, ctx := 0, tile := 0, words := none } })]

def LoadsAndReports_w18 : State := LS [] { } [] 1 [(5, { st := SlotState.outstanding, gen := 3, opcode := 4, gtAccept := 77 }), (6, { st := SlotState.complete, gen := 3, opcode := 4, record := List.map (fun k => BitVec.ofNat 64 k) (List.range 8) }), (7, { gen := 3 })]

def LoadsAndReports_w19 : Exchange := { secure := false, flags := 0#56, tag := 119#64, par := [1#64, 12294#64, 20480#64, 100#64] }

def LoadsAndReports_w20 : State := LS [] { } [] 0

theorem met_LoadsAndReports_1 :
    (LoadsAndReports_w1.Inv) ∧
    (LoadsAndReports_w1.Still) ∧
    (5 < 4096) ∧
    (LoadsAndReports_w1.freeSlot = some 5) ∧
    (LoadsAndReports_w1.Passes 2 LoadsAndReports_w5 ([2 ^ 48 - 1, 2 ^ 64 - 1, 15, 2 ^ 48 - 1] ++ List.replicate 6 (2 ^ 64 - 1)) false) ∧
    ((LoadsAndReports_w1.ctx (BitVec.toNat (LoadsAndReports_w5.par.getD 2 0))).st = CtxState.unloaded) ∧
    (LoadsAndReports_w1.loadFull = false) ∧
    (LoadsAndReports_w1.summaryShort (summaryOf LoadsAndReports_w5) = none) ∧
    (LoadsAndReports_w5.refused = true) ∧
    (LoadsAndReports_w1.Passes 3 LoadsAndReports_w5 ([2 ^ 48 - 1, 2 ^ 64 - 1, 15, 2 ^ 48 - 1] ++ List.replicate 6 (2 ^ 64 - 1)) false) :=
  by refine ⟨inv_of (by decide +kernel), still_of (by decide +kernel), ?_, ?_, passes_of (by decide +kernel), ?_, ?_, ?_, ?_,
   passes_of (by decide +kernel)⟩ <;> decide +kernel

theorem met_LoadsAndReports_2 :
    (LoadsAndReports_w1.Inv) ∧
    (LoadsAndReports_w1.Still) ∧
    (5 < 4096) ∧
    (LoadsAndReports_w1.freeSlot = some 5) ∧
    (LoadsAndReports_w1.Passes (if false = true then 10 else 9) LoadsAndReports_w7 (if false = true then [15, 0, 2 ^ 64 - 1, 2 ^ 48 - 1, 2 ^ 64 - 1] else [15, 2 ^ 64 - 1, 2 ^ 64 - 1, 2 ^ 48 - 1]) false) ∧
    (BitVec.toNat (LoadsAndReports_w7.par.getD 3 0) = 0) :=
  by refine ⟨inv_of (by decide +kernel), still_of (by decide +kernel), ?_, ?_, passes_of (by decide +kernel), ?_⟩ <;> decide +kernel

theorem met_LoadsAndReports_3 :
    (LoadsAndReports_w1.Inv) ∧
    (LoadsAndReports_w1.Still) ∧
    (5 < 4096) ∧
    (LoadsAndReports_w1.freeSlot = some 5) ∧
    (LoadsAndReports_w1.Passes 7 LoadsAndReports_w8 [255, 2 ^ 64 - 1, 2 ^ 48 - 1, 2 ^ 32 - 1] false) ∧
    (BitVec.toNat (LoadsAndReports_w8.par.getD 0 0) ∈ [16, 32, 48, 64, 65, 80, 81]) ∧
    ((match BitVec.toNat (LoadsAndReports_w8.par.getD 0 0) with | 1 => 80 | 16 => 2560 | 24 => 1056 | 32 => 168 | 48 => 416 | 49 => 4032 | 64 => 96 | 65 => 32 | 80 => 1024 | 81 => 512 | _ => 0) ≤ BitVec.toNat (LoadsAndReports_w8.par.getD 3 0)) ∧
    (BitVec.toNat (LoadsAndReports_w8.par.getD 0 0) = 64 ∨ BitVec.toNat (LoadsAndReports_w8.par.getD 1 0) = 0) :=
  by refine ⟨inv_of (by decide +kernel), still_of (by decide +kernel), ?_, ?_, passes_of (by decide +kernel), ?_⟩ <;> and_intros <;> decide +kernel

theorem met_LoadsAndReports_4 :
    (LoadsAndReports_w1.Inv) ∧
    (LoadsAndReports_w1.Still) ∧
    (5 < 4096) ∧
    (LoadsAndReports_w1.freeSlot = some 5) ∧
    (LoadsAndReports_w1.Passes 7 LoadsAndReports_w9 [255, 2 ^ 64 - 1, 2 ^ 48 - 1, 2 ^ 32 - 1] false) ∧
    (BitVec.toNat (LoadsAndReports_w9.par.getD 0 0) = 24) ∧
    (1056 ≤ BitVec.toNat (LoadsAndReports_w9.par.getD 3 0)) ∧
    (BitVec.toNat (LoadsAndReports_w9.par.getD 1 0) = 0) :=
  by refine ⟨inv_of (by decide +kernel), still_of (by decide +kernel), ?_, ?_, passes_of (by decide +kernel), ?_⟩ <;> and_intros <;> decide +kernel

theorem met_LoadsAndReports_5 :
    (LoadsAndReports_w1.Inv) ∧
    (LoadsAndReports_w1.Still) ∧
    (5 < 4096) ∧
    (LoadsAndReports_w1.freeSlot = some 5) ∧
    (LoadsAndReports_w1.Passes 7 LoadsAndReports_w12 [255, 2 ^ 64 - 1, 2 ^ 48 - 1, 2 ^ 32 - 1] false) ∧
    (BitVec.toNat (LoadsAndReports_w12.par.getD 0 0) = 1) ∧
    (80 ≤ BitVec.toNat (LoadsAndReports_w12.par.getD 3 0)) ∧
    (BitVec.toNat (LoadsAndReports_w12.par.getD 1 0) < 2 ^ 32) ∧
    ((LoadsAndReports_w1.slotOf (BitVec.toNat (LoadsAndReports_w12.par.getD 1 0) % 4096)).gen.toNat ≠ BitVec.toNat (LoadsAndReports_w12.par.getD 1 0) / 4096) :=
  by refine ⟨inv_of (by decide +kernel), still_of (by decide +kernel), ?_, ?_, passes_of (by decide +kernel), ?_⟩ <;> and_intros <;> decide +kernel

theorem met_LoadsAndReports_6 :
    (LoadsAndReports_w1.Inv) ∧
    (LoadsAndReports_w1.Still) ∧
    (5 < 4096) ∧
    (LoadsAndReports_w1.freeSlot = some 5) ∧
    (LoadsAndReports_w1.Passes 7 LoadsAndReports_w13 [255, 2 ^ 64 - 1, 2 ^ 48 - 1, 2 ^ 32 - 1] false) ∧
    (BitVec.toNat (LoadsAndReports_w13.par.getD 0 0) = 1) ∧
    (80 ≤ BitVec.toNat (LoadsAndReports_w13.par.getD 3 0)) ∧
    (BitVec.toNat (LoadsAndReports_w13.par.getD 1 0) < 2 ^ 32) ∧
    ((LoadsAndReports_w1.slotOf (BitVec.toNat (LoadsAndReports_w13.par.getD 1 0) % 4096)).gen.toNat = BitVec.toNat (LoadsAndReports_w13.par.getD 1 0) / 4096) ∧
    ((LoadsAndReports_w1.slotOf (BitVec.toNat (LoadsAndReports_w13.par.getD 1 0) % 4096)).st = SlotState.free) :=
  by refine ⟨inv_of (by decide +kernel), still_of (by decide +kernel), ?_, ?_, passes_of (by decide +kernel), ?_⟩ <;> and_intros <;> decide +kernel

theorem met_LoadsAndReports_7 :
    (LoadsAndReports_w1.Inv) ∧
    (LoadsAndReports_w1.Still) ∧
    (5 < 4096) ∧
    (LoadsAndReports_w1.freeSlot = some 5) ∧
    (LoadsAndReports_w1.Passes 20 LoadsAndReports_w14 (List.replicate 4 (2 ^ 64 - 1) ++ [2 ^ 48 - 1, 2 ^ 32 - 1]) false) ∧
    (1280 ≤ BitVec.toNat (LoadsAndReports_w14.par.getD 5 0)) :=
  by refine ⟨inv_of (by decide +kernel), still_of (by decide +kernel), ?_, ?_, passes_of (by decide +kernel), ?_⟩ <;> decide +kernel

theorem met_LoadsAndReports_8 :
    (LoadsAndReports_w15.Inv) ∧
    (LoadsAndReports_w15.Still) ∧
    (5 < 4096) ∧
    (LoadsAndReports_w15.freeSlot = some 5) ∧
    (LoadsAndReports_w15.Passes 2 LoadsAndReports_w2 ([2 ^ 48 - 1, 2 ^ 64 - 1, 15, 2 ^ 48 - 1] ++ List.replicate 6 (2 ^ 64 - 1)) false) ∧
    ((LoadsAndReports_w15.ctx (BitVec.toNat (LoadsAndReports_w2.par.getD 2 0))).st ≠ CtxState.unloaded) :=
  by refine ⟨inv_of (by decide +kernel), still_of (by decide +kernel), ?_, ?_, passes_of (by decide +kernel), ?_⟩ <;> decide +kernel

theorem met_LoadsAndReports_9 :
    (LoadsAndReports_w16.Inv) ∧
    (LoadsAndReports_w16.Still) ∧
    (5 < 4096) ∧
    (LoadsAndReports_w16.freeSlot = some 5) ∧
    (LoadsAndReports_w16.Passes 2 LoadsAndReports_w2 ([2 ^ 48 - 1, 2 ^ 64 - 1, 15, 2 ^ 48 - 1] ++ List.replicate 6 (2 ^ 64 - 1)) false) ∧
    ((LoadsAndReports_w16.ctx (BitVec.toNat (LoadsAndReports_w2.par.getD 2 0))).st = CtxState.unloaded) ∧
    (LoadsAndReports_w16.loadFull = true) :=
  by refine ⟨inv_of (by decide +kernel), still_of (by decide +kernel), ?_, ?_, passes_of (by decide +kernel), ?_⟩ <;> and_intros <;> decide +kernel

theorem met_LoadsAndReports_10 :
    (LoadsAndReports_w17.Inv) ∧
    (LoadsAndReports_w17.Still) ∧
    (5 < 4096) ∧
    (LoadsAndReports_w17.freeSlot = some 5) ∧
    (LoadsAndReports_w17.Passes (if false = true then 10 else 9) LoadsAndReports_w6 (if false = true then [15, 0, 2 ^ 64 - 1, 2 ^ 48 - 1, 2 ^ 64 - 1] else [15, 2 ^ 64 - 1, 2 ^ 64 - 1, 2 ^ 48 - 1]) false) ∧
    (BitVec.toNat (LoadsAndReports_w6.par.getD 3 0) ≠ 0) ∧
    ((LoadsAndReports_w17.ctx (BitVec.toNat (LoadsAndReports_w6.par.getD 0 0))).st ≠ CtxState.unloaded ∧ (LoadsAndReports_w17.ctx (BitVec.toNat (LoadsAndReports_w6.par.getD 0 0))).st ≠ CtxState.loading) ∧
    (LoadsAndReports_w17.fwFull = true) :=
  by refine ⟨inv_of (by decide +kernel), still_of (by decide +kernel), ?_, ?_, passes_of (by decide +kernel), ?_⟩ <;> and_intros <;> decide +kernel

theorem met_LoadsAndReports_11 :
    (LoadsAndReports_w18.Inv) ∧
    (LoadsAndReports_w18.Still) ∧
    (7 < 4096) ∧
    (LoadsAndReports_w18.freeSlot = some 7) ∧
    (LoadsAndReports_w18.Passes 7 LoadsAndReports_w12 [255, 2 ^ 64 - 1, 2 ^ 48 - 1, 2 ^ 32 - 1] false) ∧
    (BitVec.toNat (LoadsAndReports_w12.par.getD 0 0) = 1) ∧
    (80 ≤ BitVec.toNat (LoadsAndReports_w12.par.getD 3 0)) ∧
    (BitVec.toNat (LoadsAndReports_w12.par.getD 1 0) < 2 ^ 32) ∧
    ((LoadsAndReports_w18.slotOf (BitVec.toNat (LoadsAndReports_w12.par.getD 1 0) % 4096)).gen.toNat = BitVec.toNat (LoadsAndReports_w12.par.getD 1 0) / 4096) ∧
    ((LoadsAndReports_w18.slotOf (BitVec.toNat (LoadsAndReports_w12.par.getD 1 0) % 4096)).st = SlotState.outstanding) :=
  by refine ⟨inv_of (by decide +kernel), still_of (by decide +kernel), ?_, ?_, passes_of (by decide +kernel), ?_⟩ <;> and_intros <;> decide +kernel

theorem met_LoadsAndReports_12 :
    (LoadsAndReports_w18.Inv) ∧
    (LoadsAndReports_w18.Still) ∧
    (7 < 4096) ∧
    (LoadsAndReports_w18.freeSlot = some 7) ∧
    (LoadsAndReports_w18.Passes 7 LoadsAndReports_w19 [255, 2 ^ 64 - 1, 2 ^ 48 - 1, 2 ^ 32 - 1] false) ∧
    (BitVec.toNat (LoadsAndReports_w19.par.getD 0 0) = 1) ∧
    (80 ≤ BitVec.toNat (LoadsAndReports_w19.par.getD 3 0)) ∧
    (BitVec.toNat (LoadsAndReports_w19.par.getD 1 0) < 2 ^ 32) ∧
    ((LoadsAndReports_w18.slotOf (BitVec.toNat (LoadsAndReports_w19.par.getD 1 0) % 4096)).gen.toNat = BitVec.toNat (LoadsAndReports_w19.par.getD 1 0) / 4096) ∧
    ((LoadsAndReports_w18.slotOf (BitVec.toNat (LoadsAndReports_w19.par.getD 1 0) % 4096)).st = SlotState.complete) ∧
    ((LoadsAndReports_w18.slotOf (BitVec.toNat (LoadsAndReports_w19.par.getD 1 0) % 4096)).record.length = 8) :=
  by refine ⟨inv_of (by decide +kernel), still_of (by decide +kernel), ?_, ?_, passes_of (by decide +kernel), ?_⟩ <;> and_intros <;> decide +kernel

theorem met_LoadsAndReports_13 :
    (LoadsAndReports_w20.Inv) ∧
    (LoadsAndReports_w20.Still) ∧
    (5 < 4096) ∧
    (LoadsAndReports_w20.freeSlot = some 5) ∧
    (LoadsAndReports_w20.Passes 2 LoadsAndReports_w14 ([2 ^ 48 - 1, 2 ^ 64 - 1, 15, 2 ^ 48 - 1] ++ List.replicate 6 (2 ^ 64 - 1)) false) ∧
    ((LoadsAndReports_w20.ctx (BitVec.toNat (LoadsAndReports_w14.par.getD 2 0))).st = CtxState.unloaded) ∧
    (LoadsAndReports_w20.loadFull = false) ∧
    (LoadsAndReports_w20.summaryShort (summaryOf LoadsAndReports_w14) = some 4) :=
  by refine ⟨inv_of (by decide +kernel), still_of (by decide +kernel), ?_, ?_, passes_of (by decide +kernel), ?_⟩ <;> and_intros <;> decide +kernel

end LoadsAndReports

namespace Cadences

def rgn : Region := { va := 0x10000, size := 0x10000, kind := 4, rights := 3, bolt := 0, stack := 0, host := 0, pool := 0 }
def BL (c : Cmd) (h : Tab Byte := []) : State := { mk { tileX with st := .stopped } with
  top := { st := .ready, hbmUp := 1 }, clk := { gt := 0x123456789A }, cmd := { c with hostHeld := if c.link = .up then [(0x800003, some true)] else [] }
  ctxs := [(2, { regions := [rgn], pages := [(0x10000, 0x40000000)] })], mem := { phys := [(0x40000105, 7), (0x40000204, 9)], host := [(0x80, 5), (0x185, 6)] ++ h } }
def BK (c : Cmd) : State := { BL c with cmd := c }
def HS (slots : Tab Slot) (av : Bool := true) (st : ModState := .ready) : State := { BK { link := .up, areaValid := av, area := 0x1000, slots := slots, lastSlot := 4 } with top := { st := st, hbmUp := 1 } }
def grp (ph : Nat) : Group := { bolt := 0, phys := ph, siltKib := 512, entry := 0x8047, tvec := 0x5123, movers := 1, counters := 2 }
def cdl (rep : Nat := 0) : CadDecl := { number := 5, report := rep, period := 2000, deadline := 1000, groups := 1, movers := [1, 0, 0, 0], ctrFirst := 1, ctrCount := 2, periodVa := 0x10100, bufs := [(0x10200, 64, 0x10108)] }
def yc (rep : Nat := 0) (st : CtxState := .running) : Ctx := { st := st, groups := [grp 0], cads := [cdl rep], pages := [(0x10000, 0x40000000)], movBase := [5, 0, 0, 0], movCount := [1, 0, 0, 0], ctrBase := [3, 0, 0, 0], ctrCount := [4, 0, 0, 0] }
def CAs (v : Cad) (gt : W64) (rep : Nat := 0) (tl : Tab Tile := []) (cst : CtxState := .running) (ms : ModState := .running) (mst : MovState := .idle) (full : Bool := false) : State := { HS [(9, { st := .outstanding, gen := 6, op := .arm, arg := 5 })] with
  cmd := { link := .up, areaValid := true, area := 0x1000, lastSlot := 4, slots := (if full then (List.range 4096).map fun k => (k, { st := .outstanding, tag := BitVec.ofNat 64 k }) else [(9, { st := .outstanding, gen := 6, op := .arm, arg := 5, tag := 0xABC }), (10, { st := .outstanding, gen := 6, op := .period, arg := 5 })]) }
  top := { st := ms, hbmUp := 1, reserveAt := [some 0, none, none, none] }, ctxs := [(2, yc rep cst)], tiles := tl, mem := { phys := [(0x40000101, 9), (0x40000109, 3)] }, mmu := { ctx := [(2, 0x80000055)] }, clk := { gt := gt }
  eng := { mov := [(5, { en := true, st := mst, granted := true })], ctr := [(4, 7), (5, 8), (6, 9)] }, cads := [(5, v)] }
def v0 (st : CadState) : Cad := { en := true, ctx := 2, st := st, period := 3, startGt := 0x10000, armSlot := some 9, epoch := 6, expired := 1, lost := 2 }
def sg : W64 := 0x10000 + 3 * 2000
def all16 : List Nat := List.range 16
def t16 (st : TileState) : Tab Tile := (List.range 16).map fun k => (k, { st := st, pc := 64 })

def CadenceArming_w1 : State := CAs   (have __src := v0 CadState.waiting;   { en := __src.en, drain := __src.drain, ctx := __src.ctx, st := __src.st, lost := __src.lost, expired := __src.expired, startGt := __src.startGt, armSlot := __src.armSlot, disarmSlots := __src.disarmSlots, periodSlot := __src.periodSlot, done := __src.done, lastDone := __src.lastDone, epoch := __src.epoch, discards := __src.discards, closed := __src.closed, late := __src.late, aborted := __src.aborted, detail := __src.detail, skipped := __src.skipped, armStatus := __src.armStatus })   5

def CadenceArming_w2 : Exchange := { secure := false, flags := 0#56, tag := 119#64, par := [5#64, 27913#64] }

def CadenceArming_w3 : CadDecl := { number := 5, report := 0, period := 2000, deadline := 1000, groups := 1#64, movers := [1#32, 0#32, 0#32, 0#32], ctrFirst := 1, ctrCount := 2, periodVa := 65792#64, bufs := [(66048#64, 64, 65800#64)] }

def CadenceArming_w4 : Exchange := { secure := false, flags := 0#56, tag := 119#64, par := [5#64] }

def CadenceArming_w5 : State := CAs   (have __src := v0 CadState.active;   { en := __src.en, drain := __src.drain, ctx := __src.ctx, st := __src.st, lost := __src.lost, expired := __src.expired, period := __src.period, startGt := __src.startGt, armSlot := __src.armSlot, disarmSlots := __src.disarmSlots, periodSlot := __src.periodSlot, done := all16, lastDone := 7, epoch := __src.epoch, discards := __src.discards, closed := __src.closed, late := __src.late, aborted := __src.aborted, detail := __src.detail, skipped := __src.skipped, armStatus := __src.armStatus })   (sg + 500) 0 (t16 TileState.running)

def CadenceArming_w6 : Exchange := { secure := false, flags := 0#56, tag := 119#64, par := [261#64] }

def CadenceArming_w7 : State := CAs   (have __src := v0 CadState.active;   { en := __src.en, drain := __src.drain, ctx := __src.ctx, st := __src.st, lost := __src.lost, expired := __src.expired, period := __src.period, startGt := __src.startGt, armSlot := __src.armSlot, disarmSlots := __src.disarmSlots, periodSlot := __src.periodSlot, done := [3], lastDone := __src.lastDone, epoch := __src.epoch, discards := __src.discards, closed := __src.closed, late := __src.late, aborted := __src.aborted, detail := __src.detail, skipped := __src.skipped, armStatus := __src.armStatus })   (sg + 1000) 0 (t16 TileState.running)

def CadenceArming_w8 : State := CAs   (have __src := v0 CadState.active;   { en := __src.en, drain := __src.drain, ctx := __src.ctx, st := __src.st, lost := __src.lost, expired := __src.expired, period := __src.period, startGt := __src.startGt, armSlot := __src.armSlot, disarmSlots := __src.disarmSlots, periodSlot := __src.periodSlot, done := all16, lastDone := __src.lastDone, epoch := __src.epoch, discards := __src.discards, closed := __src.closed, late := __src.late, aborted := __src.aborted, detail := __src.detail, skipped := __src.skipped, armStatus := __src.armStatus })   (sg + 1000) 0 (t16 TileState.running)

def CadenceArming_w9 : State := have __src := CAs { expired := 1 } 12288 0 [] CtxState.loaded ModState.ready; { pending := __src.pending, top := __src.top, clk := __src.clk, tiles := __src.tiles, mem := __src.mem, mmu := __src.mmu, eng := __src.eng, gz := __src.gz, cmd := __src.cmd, ctxs := __src.ctxs, pow := __src.pow, gvn := __src.gvn, res := __src.res, rfw := __src.rfw, clm := __src.clm, pairs := __src.pairs, err := __src.err, trust := __src.trust, free := __src.free }

def CadenceArming_w10 : Exchange := { secure := false, flags := 0#56, tag := 119#64, par := [5#64, 27912#64] }

theorem met_CadenceArming_1 :
    (CadenceArming_w1.Inv) ∧
    (5 < 4096) ∧
    (CadenceArming_w1.freeSlot = some 5) ∧
    (CadenceArming_w1.Passes 13 CadenceArming_w2 [63, 2 ^ 64 - 1] false) ∧
    (BitVec.toNat (CadenceArming_w2.par.getD 0 0) = ↑5) ∧
    ((CadenceArming_w1.cad ↑5).st ≠ CadState.disarmed ∨ CadenceArming_w1.declarer ↑5 = none) ∧
    (Claims.OneCadence CadenceArming_w1 (↑5) CadenceArming_w3 2) ∧
    ((CadenceArming_w1.cad ↑5).armSlot = some 9) ∧
    (9 < 4096) ∧
    (9 ≠ 5) ∧
    ((CadenceArming_w1.slotOf 9).st = SlotState.outstanding) ∧
    ((CadenceArming_w1.cad ↑5).en = true) ∧
    ((CadenceArming_w1.cad ↑5).armStatus = none) ∧
    ((CadenceArming_w1.cad ↑5).disarmSlots = []) ∧
    ((CadenceArming_w1.cad ↑5).periodSlot = none) ∧
    (CadenceArming_w1.pathUp Path.aelconA = true) ∧
    (pathSecure Path.aelconA = true) ∧
    ((CadenceArming_w1.cad ↑5).st = CadState.waiting ∨ (CadenceArming_w1.cad ↑5).st = CadState.gap) :=
  by refine ⟨inv_of (by decide +kernel), ?_, ?_, passes_of (by decide +kernel), ?_, ?_, one_of (by decide +kernel), ?_⟩ <;> and_intros <;> decide +kernel

theorem met_CadenceArming_2 :
    (CadenceArming_w1.Inv) ∧
    (5 < 4096) ∧
    (CadenceArming_w1.freeSlot = some 5) ∧
    (Claims.OneCadence CadenceArming_w1 (↑5) CadenceArming_w3 2) ∧
    ((CadenceArming_w1.cad ↑5).armSlot = some 9) ∧
    (9 < 4096) ∧
    (9 ≠ 5) ∧
    ((CadenceArming_w1.slotOf 9).st = SlotState.outstanding) ∧
    ((CadenceArming_w1.cad ↑5).en = true) ∧
    ((CadenceArming_w1.cad ↑5).armStatus = none) ∧
    ((CadenceArming_w1.cad ↑5).disarmSlots = []) ∧
    ((CadenceArming_w1.cad ↑5).periodSlot = none) ∧
    (CadenceArming_w1.pathUp Path.bursen = true) ∧
    (pathSecure Path.bursen = false) :=
  by refine ⟨inv_of (by decide +kernel), ?_, ?_, one_of (by decide +kernel), ?_⟩ <;> and_intros <;> decide +kernel

theorem met_CadenceArming_3 :
    (CadenceArming_w1.Inv) ∧
    (5 < 4096) ∧
    (CadenceArming_w1.freeSlot = some 5) ∧
    (Claims.OneCadence CadenceArming_w1 (↑5) CadenceArming_w3 2) ∧
    ((CadenceArming_w1.cad ↑5).armSlot = some 9) ∧
    (9 < 4096) ∧
    (9 ≠ 5) ∧
    ((CadenceArming_w1.slotOf 9).st = SlotState.outstanding) ∧
    ((CadenceArming_w1.cad ↑5).en = true) ∧
    ((CadenceArming_w1.cad ↑5).armStatus = none) ∧
    ((CadenceArming_w1.cad ↑5).disarmSlots = []) ∧
    ((CadenceArming_w1.cad ↑5).periodSlot = none) ∧
    (CadenceArming_w1.Passes 14 CadenceArming_w4 [319] false) ∧
    (BitVec.toNat (CadenceArming_w4.par.getD 0 0) = ↑5 + if false = true then 256 else 0) ∧
    ((CadenceArming_w1.cad ↑5).st = CadState.waiting ∨ (CadenceArming_w1.cad ↑5).st = CadState.gap) :=
  by refine ⟨inv_of (by decide +kernel), ?_, ?_, one_of (by decide +kernel), ?_, ?_, ?_, ?_, ?_, ?_, ?_, ?_, passes_of (by decide +kernel), ?_⟩ <;> and_intros <;> decide +kernel

theorem met_CadenceArming_4 :
    (CadenceArming_w5.Inv) ∧
    (5 < 4096) ∧
    (CadenceArming_w5.freeSlot = some 5) ∧
    (Claims.OneCadence CadenceArming_w5 (↑5) CadenceArming_w3 2) ∧
    ((CadenceArming_w5.cad ↑5).armSlot = some 9) ∧
    (9 < 4096) ∧
    (9 ≠ 5) ∧
    ((CadenceArming_w5.slotOf 9).st = SlotState.outstanding) ∧
    ((CadenceArming_w5.cad ↑5).en = true) ∧
    ((CadenceArming_w5.cad ↑5).armStatus = none) ∧
    ((CadenceArming_w5.cad ↑5).disarmSlots = []) ∧
    ((CadenceArming_w5.cad ↑5).periodSlot = none) ∧
    (CadenceArming_w5.pathUp Path.aelconA = true) ∧
    (pathSecure Path.aelconA = true) ∧
    ((CadenceArming_w5.cad ↑5).st = CadState.active) ∧
    (true = true) :=
  by refine ⟨inv_of (by decide +kernel), ?_, ?_, one_of (by decide +kernel), ?_⟩ <;> and_intros <;> decide +kernel

theorem met_CadenceArming_5 :
    (CadenceArming_w5.Inv) ∧
    (5 < 4096) ∧
    (CadenceArming_w5.freeSlot = some 5) ∧
    (Claims.OneCadence CadenceArming_w5 (↑5) CadenceArming_w3 2) ∧
    ((CadenceArming_w5.cad ↑5).armSlot = some 9) ∧
    (9 < 4096) ∧
    (9 ≠ 5) ∧
    ((CadenceArming_w5.slotOf 9).st = SlotState.outstanding) ∧
    ((CadenceArming_w5.cad ↑5).en = true) ∧
    ((CadenceArming_w5.cad ↑5).armStatus = none) ∧
    ((CadenceArming_w5.cad ↑5).disarmSlots = []) ∧
    ((CadenceArming_w5.cad ↑5).periodSlot = none) ∧
    (CadenceArming_w5.pathUp Path.aelconA = true) ∧
    (pathSecure Path.aelconA = true) ∧
    ((CadenceArming_w5.cad ↑5).st = CadState.active) ∧
    (false = false) :=
  by refine ⟨inv_of (by decide +kernel), ?_, ?_, one_of (by decide +kernel), ?_⟩ <;> and_intros <;> decide +kernel

theorem met_CadenceArming_6 :
    (CadenceArming_w5.Inv) ∧
    (5 < 4096) ∧
    (CadenceArming_w5.freeSlot = some 5) ∧
    (Claims.OneCadence CadenceArming_w5 (↑5) CadenceArming_w3 2) ∧
    ((CadenceArming_w5.cad ↑5).armSlot = some 9) ∧
    (9 < 4096) ∧
    (9 ≠ 5) ∧
    ((CadenceArming_w5.slotOf 9).st = SlotState.outstanding) ∧
    ((CadenceArming_w5.cad ↑5).en = true) ∧
    ((CadenceArming_w5.cad ↑5).armStatus = none) ∧
    ((CadenceArming_w5.cad ↑5).disarmSlots = []) ∧
    ((CadenceArming_w5.cad ↑5).periodSlot = none) ∧
    (CadenceArming_w5.Passes 14 CadenceArming_w4 [319] false) ∧
    (BitVec.toNat (CadenceArming_w4.par.getD 0 0) = ↑5 + if false = true then 256 else 0) ∧
    ((CadenceArming_w5.cad ↑5).st = CadState.active) ∧
    (false = false) ∧
    (BitVec.toNat CadenceArming_w5.clk.gt < CadenceArming_w5.deadlineGt (↑5) CadenceArming_w3) :=
  by refine ⟨inv_of (by decide +kernel), ?_, ?_, one_of (by decide +kernel), ?_, ?_, ?_, ?_, ?_, ?_, ?_, ?_, passes_of (by decide +kernel), ?_⟩ <;> and_intros <;> decide +kernel

theorem met_CadenceArming_7 :
    (CadenceArming_w5.Inv) ∧
    (5 < 4096) ∧
    (CadenceArming_w5.freeSlot = some 5) ∧
    (Claims.OneCadence CadenceArming_w5 (↑5) CadenceArming_w3 2) ∧
    ((CadenceArming_w5.cad ↑5).armSlot = some 9) ∧
    (9 < 4096) ∧
    (9 ≠ 5) ∧
    ((CadenceArming_w5.slotOf 9).st = SlotState.outstanding) ∧
    ((CadenceArming_w5.cad ↑5).en = true) ∧
    ((CadenceArming_w5.cad ↑5).armStatus = none) ∧
    ((CadenceArming_w5.cad ↑5).disarmSlots = []) ∧
    ((CadenceArming_w5.cad ↑5).periodSlot = none) ∧
    (CadenceArming_w5.Passes 14 CadenceArming_w6 [319] false) ∧
    (BitVec.toNat (CadenceArming_w6.par.getD 0 0) = ↑5 + if true = true then 256 else 0) ∧
    ((CadenceArming_w5.cad ↑5).st = CadState.active) ∧
    (true = true) :=
  by refine ⟨inv_of (by decide +kernel), ?_, ?_, one_of (by decide +kernel), ?_, ?_, ?_, ?_, ?_, ?_, ?_, ?_, passes_of (by decide +kernel), ?_⟩ <;> and_intros <;> decide +kernel

theorem met_CadenceArming_8 :
    (CadenceArming_w7.Inv) ∧
    (5 < 4096) ∧
    (CadenceArming_w7.freeSlot = some 5) ∧
    (Claims.OneCadence CadenceArming_w7 (↑5) CadenceArming_w3 2) ∧
    ((CadenceArming_w7.cad ↑5).armSlot = some 9) ∧
    (9 < 4096) ∧
    (9 ≠ 5) ∧
    ((CadenceArming_w7.slotOf 9).st = SlotState.outstanding) ∧
    ((CadenceArming_w7.cad ↑5).en = true) ∧
    ((CadenceArming_w7.cad ↑5).armStatus = none) ∧
    ((CadenceArming_w7.cad ↑5).disarmSlots = []) ∧
    ((CadenceArming_w7.cad ↑5).periodSlot = none) ∧
    (CadenceArming_w7.pathUp Path.aelconA = true) ∧
    (pathSecure Path.aelconA = true) ∧
    ((CadenceArming_w7.cad ↑5).st = CadState.active) ∧
    (false = false) :=
  by refine ⟨inv_of (by decide +kernel), ?_, ?_, one_of (by decide +kernel), ?_⟩ <;> and_intros <;> decide +kernel

theorem met_CadenceArming_9 :
    (CadenceArming_w7.Inv) ∧
    (5 < 4096) ∧
    (CadenceArming_w7.freeSlot = some 5) ∧
    (Claims.OneCadence CadenceArming_w7 (↑5) CadenceArming_w3 2) ∧
    ((CadenceArming_w7.cad ↑5).armSlot = some 9) ∧
    (9 < 4096) ∧
    (9 ≠ 5) ∧
    ((CadenceArming_w7.slotOf 9).st = SlotState.outstanding) ∧
    ((CadenceArming_w7.cad ↑5).en = true) ∧
    ((CadenceArming_w7.cad ↑5).armStatus = none) ∧
    ((CadenceArming_w7.cad ↑5).disarmSlots = []) ∧
    ((CadenceArming_w7.cad ↑5).periodSlot = none) ∧
    (CadenceArming_w7.Passes 14 CadenceArming_w4 [319] false) ∧
    (BitVec.toNat (CadenceArming_w4.par.getD 0 0) = ↑5 + if false = true then 256 else 0) ∧
    ((CadenceArming_w7.cad ↑5).st = CadState.active) ∧
    (false = false) ∧
    (¬BitVec.toNat CadenceArming_w7.clk.gt < CadenceArming_w7.deadlineGt (↑5) CadenceArming_w3) ∧
    (¬((∀ (u : Nat), u ∈ CadenceArming_w7.cadTiles ↑5 → u ∈ (CadenceArming_w7.cad ↑5).done) ∧ CadenceArming_w7.cadIdle ↑5 = true)) :=
  by refine ⟨inv_of (by decide +kernel), ?_, ?_, one_of (by decide +kernel), ?_, ?_, ?_, ?_, ?_, ?_, ?_, ?_, passes_of (by decide +kernel), ?_⟩ <;> and_intros <;> decide +kernel

theorem met_CadenceArming_10 :
    (CadenceArming_w8.Inv) ∧
    (5 < 4096) ∧
    (CadenceArming_w8.freeSlot = some 5) ∧
    (Claims.OneCadence CadenceArming_w8 (↑5) CadenceArming_w3 2) ∧
    ((CadenceArming_w8.cad ↑5).armSlot = some 9) ∧
    (9 < 4096) ∧
    (9 ≠ 5) ∧
    ((CadenceArming_w8.slotOf 9).st = SlotState.outstanding) ∧
    ((CadenceArming_w8.cad ↑5).en = true) ∧
    ((CadenceArming_w8.cad ↑5).armStatus = none) ∧
    ((CadenceArming_w8.cad ↑5).disarmSlots = []) ∧
    ((CadenceArming_w8.cad ↑5).periodSlot = none) ∧
    (CadenceArming_w8.pathUp Path.aelconA = true) ∧
    (pathSecure Path.aelconA = true) ∧
    ((CadenceArming_w8.cad ↑5).st = CadState.active) ∧
    (false = false) :=
  by refine ⟨inv_of (by decide +kernel), ?_, ?_, one_of (by decide +kernel), ?_⟩ <;> and_intros <;> decide +kernel

theorem met_CadenceArming_11 :
    (CadenceArming_w8.Inv) ∧
    (5 < 4096) ∧
    (CadenceArming_w8.freeSlot = some 5) ∧
    (Claims.OneCadence CadenceArming_w8 (↑5) CadenceArming_w3 2) ∧
    ((CadenceArming_w8.cad ↑5).armSlot = some 9) ∧
    (9 < 4096) ∧
    (9 ≠ 5) ∧
    ((CadenceArming_w8.slotOf 9).st = SlotState.outstanding) ∧
    ((CadenceArming_w8.cad ↑5).en = true) ∧
    ((CadenceArming_w8.cad ↑5).armStatus = none) ∧
    ((CadenceArming_w8.cad ↑5).disarmSlots = []) ∧
    ((CadenceArming_w8.cad ↑5).periodSlot = none) ∧
    (CadenceArming_w8.Passes 14 CadenceArming_w4 [319] false) ∧
    (BitVec.toNat (CadenceArming_w4.par.getD 0 0) = ↑5 + if false = true then 256 else 0) ∧
    ((CadenceArming_w8.cad ↑5).st = CadState.active) ∧
    (false = false) ∧
    (¬BitVec.toNat CadenceArming_w8.clk.gt < CadenceArming_w8.deadlineGt (↑5) CadenceArming_w3) ∧
    ((∀ (u : Nat), u ∈ CadenceArming_w8.cadTiles ↑5 → u ∈ (CadenceArming_w8.cad ↑5).done) ∧ CadenceArming_w8.cadIdle ↑5 = true) :=
  by refine ⟨inv_of (by decide +kernel), ?_, ?_, one_of (by decide +kernel), ?_, ?_, ?_, ?_, ?_, ?_, ?_, ?_, passes_of (by decide +kernel), ?_⟩ <;> and_intros <;> decide +kernel

theorem met_CadenceArming_12 :
    (CadenceArming_w9.Inv) ∧
    (5 < 4096) ∧
    (CadenceArming_w9.freeSlot = some 5) ∧
    (CadenceArming_w9.Passes 13 CadenceArming_w2 [63, 2 ^ 64 - 1] false) ∧
    (BitVec.toNat (CadenceArming_w2.par.getD 0 0) = ↑5) ∧
    ((CadenceArming_w9.cad ↑5).st = CadState.disarmed) ∧
    (CadenceArming_w9.declarer ↑5 = some 2) ∧
    (BitVec.toNat CadenceArming_w9.clk.gt + 15625 ≤ BitVec.toNat (CadenceArming_w2.par.getD 1 0)) ∧
    (∀ (d : CadDecl), List.find? (fun d => decide (d.number = ↑5)) (CadenceArming_w9.ctx 2).cads = some d → ∀ (b : W64 × Nat × W64), b ∈ d.bufs → ∀ (pa : Nat), CadenceArming_w9.ctxPhys 2 (BitVec.toNat b.snd.snd) = some pa → ∃ h, targetOf pa = Target.hbm h ∧ CadenceArming_w9.stackUp h = true) ∧
    (CadenceArming_w9.mem.bad = []) :=
  by refine ⟨inv_of (by decide +kernel), ?_, ?_, passes_of (by decide +kernel), ?_, ?_, ?_, ?_,
   (fun d hd b hb pa hp => by cases hd; simp only [cdl, List.mem_singleton] at hb; subst hb; cases hp; exact ⟨0, rfl, by decide +kernel⟩), ?_⟩ <;> decide +kernel

theorem met_CadenceArming_13 :
    (CadenceArming_w9.Inv) ∧
    (5 < 4096) ∧
    (CadenceArming_w9.freeSlot = some 5) ∧
    (CadenceArming_w9.Passes 13 CadenceArming_w10 [63, 2 ^ 64 - 1] false) ∧
    (BitVec.toNat (CadenceArming_w10.par.getD 0 0) = ↑5) ∧
    ((CadenceArming_w9.cad ↑5).st = CadState.disarmed) ∧
    (CadenceArming_w9.declarer ↑5 = some 2) ∧
    (BitVec.toNat (CadenceArming_w10.par.getD 1 0) < BitVec.toNat CadenceArming_w9.clk.gt + 15625) :=
  by refine ⟨inv_of (by decide +kernel), ?_, ?_, passes_of (by decide +kernel), ?_⟩ <;> and_intros <;> decide +kernel

theorem met_CadenceArming_14 :
    (CadenceArming_w9.Inv) ∧
    (5 < 4096) ∧
    (CadenceArming_w9.freeSlot = some 5) ∧
    (CadenceArming_w9.Still) ∧
    ((CadenceArming_w9.cad ↑5).st = CadState.disarmed) ∧
    (CadenceArming_w9.Passes 14 CadenceArming_w4 [319] false) ∧
    (BitVec.toNat (CadenceArming_w4.par.getD 0 0) = ↑5 + if false = true then 256 else 0) :=
  by refine ⟨inv_of (by decide +kernel), ?_, ?_, still_of (by decide +kernel), ?_, passes_of (by decide +kernel), ?_⟩ <;> decide +kernel

def CadencePeriods_w1 : State := CAs   (have __src := v0 CadState.waiting;   { en := __src.en, drain := __src.drain, ctx := __src.ctx, st := __src.st, lost := __src.lost, expired := __src.expired, startGt := __src.startGt, armSlot := __src.armSlot, disarmSlots := __src.disarmSlots, periodSlot := __src.periodSlot, done := __src.done, lastDone := __src.lastDone, epoch := __src.epoch, discards := __src.discards, closed := __src.closed, late := __src.late, aborted := __src.aborted, detail := __src.detail, skipped := __src.skipped, armStatus := __src.armStatus })   5

def CadencePeriods_w2 : CadDecl := { number := 5, report := 0, period := 2000, deadline := 1000, groups := 1#64, movers := [1#32, 0#32, 0#32, 0#32], ctrFirst := 1, ctrCount := 2, periodVa := 65792#64, bufs := [(66048#64, 64, 65800#64)] }

def CadencePeriods_w3 : State := CAs (v0 CadState.waiting) sg

def CadencePeriods_w4 : State := CAs (v0 CadState.waiting) sg 0 [] CtxState.running ModState.running MovState.idle true

def CadencePeriods_w5 : State := CAs (v0 CadState.gap) sg 0 (t16 TileState.stopped)

def CadencePeriods_w6 : State := CAs   (have __src := v0 CadState.active;   { en := __src.en, drain := __src.drain, ctx := __src.ctx, st := __src.st, lost := __src.lost, expired := __src.expired, period := __src.period, startGt := __src.startGt, armSlot := __src.armSlot, disarmSlots := __src.disarmSlots, periodSlot := some 10, done := all16, lastDone := __src.lastDone, epoch := __src.epoch, discards := __src.discards, closed := __src.closed, late := __src.late, aborted := __src.aborted, detail := __src.detail, skipped := __src.skipped, armStatus := __src.armStatus })   (sg + 1000) 0 (t16 TileState.running)

def CadencePeriods_w7 : State := CAs   (have __src := v0 CadState.active;   { en := __src.en, drain := __src.drain, ctx := __src.ctx, st := __src.st, lost := __src.lost, expired := __src.expired, period := __src.period, startGt := __src.startGt, armSlot := __src.armSlot, disarmSlots := __src.disarmSlots, periodSlot := __src.periodSlot, done := [3], lastDone := __src.lastDone, epoch := __src.epoch, discards := __src.discards, closed := __src.closed, late := __src.late, aborted := __src.aborted, detail := __src.detail, skipped := __src.skipped, armStatus := __src.armStatus })   (sg + 1000) 0 (t16 TileState.running)

def CadencePeriods_w8 : State := CAs   (have __src := v0 CadState.gap;   { en := __src.en, drain := __src.drain, ctx := __src.ctx, st := __src.st, lost := __src.lost, expired := __src.expired, period := __src.period, startGt := __src.startGt, armSlot := __src.armSlot, disarmSlots := __src.disarmSlots, periodSlot := __src.periodSlot, done := __src.done, lastDone := __src.lastDone, epoch := __src.epoch, discards := __src.discards, closed := __src.closed, late := __src.late, aborted := __src.aborted, detail := __src.detail, skipped := true, armStatus := __src.armStatus })   (sg + 1000)

def CadencePeriods_w9 : State := CAs   (have __src := v0 CadState.expiring;   { en := __src.en, drain := __src.drain, ctx := __src.ctx, st := __src.st, lost := __src.lost, expired := __src.expired, period := __src.period, startGt := __src.startGt, armSlot := __src.armSlot, disarmSlots := __src.disarmSlots, periodSlot := some 10, done := __src.done, lastDone := __src.lastDone, epoch := __src.epoch, discards := __src.discards, closed := 2, late := 4, aborted := 3, detail := 1, skipped := __src.skipped, armStatus := __src.armStatus })   (sg + 5)

theorem met_CadencePeriods_1 :
    (Claims.OneCadence CadencePeriods_w1 (↑5) CadencePeriods_w2 2) ∧
    (BitVec.toNat CadencePeriods_w1.clk.gt < BitVec.toNat (CadencePeriods_w1.cad ↑5).startGt + (CadencePeriods_w1.cad ↑5).period * CadencePeriods_w2.period) ∧
    (BitVec.toNat CadencePeriods_w1.clk.gt < BitVec.toNat (CadencePeriods_w1.cad ↑5).startGt + (CadencePeriods_w1.cad ↑5).period * CadencePeriods_w2.period + CadencePeriods_w2.deadline) ∧
    ((CadencePeriods_w1.cad ↑5).st ≠ CadState.expiring ∨ CadencePeriods_w1.cleanupDone ↑5 = false) :=
  by refine ⟨one_of (by decide +kernel), ?_⟩ <;> and_intros <;> decide +kernel

theorem met_CadencePeriods_2 :
    (Claims.OneCadence CadencePeriods_w3 (↑5) CadencePeriods_w2 2) ∧
    (BitVec.toNat (CadencePeriods_w3.cad ↑5).startGt + (CadencePeriods_w3.cad ↑5).period * CadencePeriods_w2.period ≤ BitVec.toNat CadencePeriods_w3.clk.gt) ∧
    ((CadencePeriods_w3.cad ↑5).en = true) ∧
    ((CadencePeriods_w3.cad ↑5).skipped = false) ∧
    ((CadencePeriods_w3.cad ↑5).st = CadState.waiting ∨ (CadencePeriods_w3.cad ↑5).st = CadState.gap) ∧
    (∀ (u : Nat), u ∈ CadencePeriods_w3.cadTiles ↑5 → (CadencePeriods_w3.tile u).st = TileState.reset ∧ (CadencePeriods_w3.tile u).resetting = false ∧ (CadencePeriods_w3.tile u).restoring = false) ∧
    ((List.map (fun x => x.phys) (CadencePeriods_w3.ctx 2).groups).Nodup) ∧
    (∀ (u : Nat), u ∈ CadencePeriods_w3.cadTiles ↑5 → u < 1024) ∧
    (∃ pa h, CadencePeriods_w3.ctxPhys 2 (BitVec.toNat CadencePeriods_w2.periodVa) = some pa ∧ targetOf pa = Target.hbm h ∧ CadencePeriods_w3.stackUp h = true) ∧
    (∀ (b a i : Nat), i < 65536 → Tab.look none (CadencePeriods_w3.ctx 2).answer b = some a → ∃ h, targetOf (a + i) = Target.hbm h) ∧
    (∀ (b a i pa : Nat), i < 65536 → Tab.look none (CadencePeriods_w3.ctx 2).answer b = some a → CadencePeriods_w3.ctxPhys 2 (BitVec.toNat CadencePeriods_w2.periodVa) = some pa → a + i < pa ∨ pa + 8 ≤ a + i) :=
  by refine ⟨one_of (by decide +kernel), ?_, ?_, ?_, ?_, ?_, ?_, ?_, ⟨_, _, rfl, rfl, by decide +kernel⟩, (fun _ _ _ _ h => by cases h),
   (fun _ _ _ _ _ h => by cases h)⟩ <;> decide +kernel

theorem met_CadencePeriods_3 :
    (Claims.OneCadence CadencePeriods_w4 (↑5) CadencePeriods_w2 2) ∧
    (BitVec.toNat (CadencePeriods_w4.cad ↑5).startGt + (CadencePeriods_w4.cad ↑5).period * CadencePeriods_w2.period ≤ BitVec.toNat CadencePeriods_w4.clk.gt) ∧
    ((CadencePeriods_w4.cad ↑5).en = true) ∧
    ((CadencePeriods_w4.cad ↑5).skipped = false) ∧
    ((CadencePeriods_w4.cad ↑5).st = CadState.waiting ∨ (CadencePeriods_w4.cad ↑5).st = CadState.gap) ∧
    (∀ (u : Nat), u ∈ CadencePeriods_w4.cadTiles ↑5 → (CadencePeriods_w4.tile u).st = TileState.reset ∧ (CadencePeriods_w4.tile u).resetting = false ∧ (CadencePeriods_w4.tile u).restoring = false) ∧
    ((List.map (fun x => x.phys) (CadencePeriods_w4.ctx 2).groups).Nodup) ∧
    (∀ (u : Nat), u ∈ CadencePeriods_w4.cadTiles ↑5 → u < 1024) ∧
    (∃ pa h, CadencePeriods_w4.ctxPhys 2 (BitVec.toNat CadencePeriods_w2.periodVa) = some pa ∧ targetOf pa = Target.hbm h ∧ CadencePeriods_w4.stackUp h = true) ∧
    (∀ (b a i : Nat), i < 65536 → Tab.look none (CadencePeriods_w4.ctx 2).answer b = some a → ∃ h, targetOf (a + i) = Target.hbm h) ∧
    (∀ (b a i pa : Nat), i < 65536 → Tab.look none (CadencePeriods_w4.ctx 2).answer b = some a → CadencePeriods_w4.ctxPhys 2 (BitVec.toNat CadencePeriods_w2.periodVa) = some pa → a + i < pa ∨ pa + 8 ≤ a + i) :=
  by refine ⟨one_of (by decide +kernel), ?_, ?_, ?_, ?_, ?_, ?_, ?_, ⟨_, _, rfl, rfl, by decide +kernel⟩, (fun _ _ _ _ h => by cases h),
   (fun _ _ _ _ _ h => by cases h)⟩ <;> decide +kernel

theorem met_CadencePeriods_4 :
    (Claims.OneCadence CadencePeriods_w5 (↑5) CadencePeriods_w2 2) ∧
    (BitVec.toNat (CadencePeriods_w5.cad ↑5).startGt + (CadencePeriods_w5.cad ↑5).period * CadencePeriods_w2.period ≤ BitVec.toNat CadencePeriods_w5.clk.gt) ∧
    ((CadencePeriods_w5.cad ↑5).en = true) ∧
    ((CadencePeriods_w5.cad ↑5).skipped = false) ∧
    ((CadencePeriods_w5.cad ↑5).st = CadState.expiring ∨ ((CadencePeriods_w5.cad ↑5).st = CadState.waiting ∨ (CadencePeriods_w5.cad ↑5).st = CadState.gap) ∧ ¬∀ (u : Nat), u ∈ CadencePeriods_w5.cadTiles ↑5 → (CadencePeriods_w5.tile u).st = TileState.reset ∧ (CadencePeriods_w5.tile u).resetting = false ∧ (CadencePeriods_w5.tile u).restoring = false) :=
  by refine ⟨one_of (by decide +kernel), ?_⟩ <;> and_intros <;> decide +kernel

theorem met_CadencePeriods_5 :
    (Claims.OneCadence CadencePeriods_w6 (↑5) CadencePeriods_w2 2) ∧
    (BitVec.toNat (CadencePeriods_w6.cad ↑5).startGt + (CadencePeriods_w6.cad ↑5).period * CadencePeriods_w2.period + CadencePeriods_w2.deadline ≤ BitVec.toNat CadencePeriods_w6.clk.gt) ∧
    ((CadencePeriods_w6.cad ↑5).st = CadState.active) ∧
    ((CadencePeriods_w6.cad ↑5).en = true) ∧
    ((CadencePeriods_w6.cad ↑5).armStatus = none) ∧
    ((CadencePeriods_w6.ctx 2).groups = List.filter (fun g => decide (g.bolt < 4)) (CadencePeriods_w6.ctx 2).groups) ∧
    (∀ (u : Nat), u ∈ CadencePeriods_w6.cadTiles ↑5 → u ∈ (CadencePeriods_w6.cad ↑5).done) ∧
    (CadencePeriods_w6.cadIdle ↑5 = true) :=
  by refine ⟨one_of (by decide +kernel), ?_⟩ <;> and_intros <;> decide +kernel

theorem met_CadencePeriods_6 :
    (Claims.OneCadence CadencePeriods_w7 (↑5) CadencePeriods_w2 2) ∧
    (BitVec.toNat (CadencePeriods_w7.cad ↑5).startGt + (CadencePeriods_w7.cad ↑5).period * CadencePeriods_w2.period + CadencePeriods_w2.deadline ≤ BitVec.toNat CadencePeriods_w7.clk.gt) ∧
    ((CadencePeriods_w7.cad ↑5).st = CadState.active) ∧
    ((CadencePeriods_w7.cad ↑5).en = true) ∧
    ((CadencePeriods_w7.cad ↑5).armStatus = none) ∧
    ((CadencePeriods_w7.ctx 2).groups = List.filter (fun g => decide (g.bolt < 4)) (CadencePeriods_w7.ctx 2).groups) ∧
    (¬((∀ (u : Nat), u ∈ CadencePeriods_w7.cadTiles ↑5 → u ∈ (CadencePeriods_w7.cad ↑5).done) ∧ CadencePeriods_w7.cadIdle ↑5 = true)) :=
  by refine ⟨one_of (by decide +kernel), ?_⟩ <;> and_intros <;> decide +kernel

theorem met_CadencePeriods_7 :
    (Claims.OneCadence CadencePeriods_w8 (↑5) CadencePeriods_w2 2) ∧
    ((CadencePeriods_w8.cad ↑5).skipped = true) ∧
    ((CadencePeriods_w8.cad ↑5).st = CadState.expiring ∨ (CadencePeriods_w8.cad ↑5).st = CadState.gap) ∧
    (BitVec.toNat (CadencePeriods_w8.cad ↑5).startGt + (CadencePeriods_w8.cad ↑5).period * CadencePeriods_w2.period + CadencePeriods_w2.deadline ≤ BitVec.toNat CadencePeriods_w8.clk.gt) :=
  by refine ⟨one_of (by decide +kernel), ?_⟩ <;> and_intros <;> decide +kernel

theorem met_CadencePeriods_8 :
    (Claims.OneCadence CadencePeriods_w9 (↑5) CadencePeriods_w2 2) ∧
    ((CadencePeriods_w9.cad ↑5).st = CadState.expiring) ∧
    (CadencePeriods_w9.cleanupDone ↑5 = true) ∧
    ((CadencePeriods_w9.cad ↑5).en = true) ∧
    ((CadencePeriods_w9.cad ↑5).detail < 65536) ∧
    (∀ (b : W64 × Nat × W64), b ∈ CadencePeriods_w2.bufs → (∃ pa h, CadencePeriods_w9.ctxPhys 2 (BitVec.toNat b.snd.snd) = some pa ∧ targetOf pa = Target.hbm h ∧ CadencePeriods_w9.stackUp h = true) ∧ ∀ (b' : W64 × Nat × W64), b' ∈ CadencePeriods_w2.bufs → b' ≠ b → ∀ (pa pb : Nat), CadencePeriods_w9.ctxPhys 2 (BitVec.toNat b.snd.snd) = some pa → CadencePeriods_w9.ctxPhys 2 (BitVec.toNat b'.snd.snd) = some pb → pa = pb ∨ pa + 8 ≤ pb ∨ pb + 8 ≤ pa) :=
  by refine ⟨one_of (by decide +kernel), ?_, ?_, ?_, ?_,
   (by intro b hb; rw [List.mem_singleton.mp hb]; exact ⟨⟨_, _, rfl, rfl, by decide +kernel⟩, fun b' hb' hn => absurd (List.mem_singleton.mp hb') hn⟩)⟩ <;> decide +kernel

end Cadences

namespace Rails

def rl (f : Nat → Rail → Rail := fun _ x => x) : List Rail := (State.reset.pow.rails.zipIdx).map fun p => f p.2 p.1
def RS (f : Rail → Rail := id) (st : ModState := .running) (g : State → State := id) : State := g { State.reset with
  top := { st := st }, clk := { gt := 0x123456789ABCDEF, locked := true }, cmd := { link := .up, slots := [(3, { st := .outstanding, gen := 4, op := .start, tag := 0x99 })] }
  eng := { mov := [(31, { en := true, st := .idle })] }, clm := { claimA := 1 }, pow := { State.reset.pow with rails := rl fun r x => if r = 2 then f { x with st := .regulating, phases := 32, seq := 15 } else { x with st := .regulating, phases := 4 } } }

def RailControllers_w1 : State := RS

def RailControllers_w2 : State := RS fun x => { target := x.target, slew := x.slew, active := x.active, go := x.go, shedBit := x.shedBit, unshedBit := x.unshedBit, st := x.st, phases := x.phases, alert := x.alert, alertCause := x.alertCause, last := x.last, lastSeq := x.lastSeq, targetNow := x.targetNow, vout := x.vout, iout := x.iout, pout := x.pout, window := x.window, pLatch := x.pLatch, seq := x.seq, sent := x.sent, nakWait := x.nakWait, settling := x.settling, raises := x.raises, moving := some (3, 100), settled := x.settled, shedSeq := x.shedSeq, back := [3238002695], log := x.log }

def RailControllers_w3 : State := RS id ModState.running fun s =>   { pending := s.pending, top := s.top, clk := s.clk, tiles := s.tiles, mem := s.mem, mmu := s.mmu, eng := s.eng, gz := s.gz, cmd := s.cmd, ctxs := s.ctxs, cads := s.cads,     pow :=       have __src := s.pow;       { rails := __src.rails, pin := __src.pin, conv := __src.conv, loads := __src.loads, railEnergy := __src.railEnergy, loadEnergy := __src.loadEnergy, window := __src.window, gov := __src.gov, up := __src.up, down := __src.down, staggerEn := __src.staggerEn, level := __src.level, next := __src.next, paceArmed := __src.paceArmed, paceAt := __src.paceAt, floor := true, fwForce := __src.fwForce, source := __src.source, thermal := __src.thermal, firmware := __src.firmware, clearRefused := __src.clearRefused, floorCount := __src.floorCount, stored := __src.stored },     gvn := s.gvn, res := s.res, rfw := s.rfw, clm := s.clm, pairs := s.pairs, err := s.err, trust := s.trust, free := s.free }

theorem met_RailControllers_1 :
    (RailControllers_w1.Inv) ∧
    (railGood 620757227#32 = true) ∧
    ((BitVec.extractLsb' 28 4 620757227#32).toNat = 2 ∨ (BitVec.extractLsb' 28 4 620757227#32).toNat = 3) ∧
    ((BitVec.extractLsb' 28 4 620757227#32).toNat = 2) ∧
    (∀ (g : W32), g ∈ (RailControllers_w1.rail ↑2).back → BitVec.extractLsb' 28 4 g ≠ 12) ∧
    ((RailControllers_w1.rail ↑2).moving = none) :=
  by refine ⟨inv_of (by decide +kernel), railGood_of (by decide +kernel), ?_, ?_, (fun _ h => by cases h), ?_⟩ <;> decide +kernel

theorem met_RailControllers_2 :
    (RailControllers_w1.Inv) ∧
    (railGood 355598379#32 = true) ∧
    ((BitVec.extractLsb' 28 4 355598379#32).toNat = 1 ∨ (BitVec.extractLsb' 28 4 355598379#32).toNat = 3) ∧
    ((BitVec.extractLsb' 28 4 355598379#32).toNat = 1 ∨ (BitVec.extractLsb' 28 4 355598379#32).toNat = 2) ∧
    ((BitVec.extractLsb' 28 4 355598379#32).toNat = 1) ∧
    ((BitVec.extractLsb' 15 9 355598379#32).toNat ≤ 280) ∧
    (RailControllers_w1.pathUp Path.bursen = true) ∧
    (pathSecure Path.bursen = false) :=
  by refine ⟨inv_of (by decide +kernel), railGood_of (by decide +kernel), ?_⟩ <;> and_intros <;> decide +kernel

theorem met_RailControllers_3 :
    (RailControllers_w1.Inv) ∧
    (railGood 362151990#32 = true) ∧
    ((BitVec.extractLsb' 28 4 362151990#32).toNat = 1) ∧
    (280 < (BitVec.extractLsb' 15 9 362151990#32).toNat) :=
  by refine ⟨inv_of (by decide +kernel), railGood_of (by decide +kernel), ?_⟩ <;> and_intros <;> decide +kernel

theorem met_RailControllers_4 :
    (RailControllers_w1.Inv) ∧
    (railGood 889192498#32 = true) ∧
    ((BitVec.extractLsb' 28 4 889192498#32).toNat = 3) :=
  by refine ⟨inv_of (by decide +kernel), railGood_of (by decide +kernel), ?_⟩ <;> decide +kernel

theorem met_RailControllers_5 :
    (RailControllers_w1.Inv) ∧
    (railGood 352321547#32 = false) :=
  ⟨inv_of (by decide +kernel), railGood_of (by decide +kernel)⟩

theorem met_RailControllers_6 :
    (RailControllers_w2.Inv) ∧
    (railGood 620757227#32 = true) ∧
    ((BitVec.extractLsb' 28 4 620757227#32).toNat = 2) ∧
    (∃ g, g ∈ (RailControllers_w2.rail ↑2).back ∧ BitVec.extractLsb' 28 4 g = 12) :=
  by refine ⟨inv_of (by decide +kernel), railGood_of (by decide +kernel), ?_, ⟨0xC1000007, by decide +kernel⟩⟩ <;> decide +kernel

theorem met_RailControllers_7 :
    (RailControllers_w1.Inv) ∧
    (railGood 83886102#32 = true) ∧
    ((BitVec.extractLsb' 28 4 83886102#32).toNat = 0 ∨ 3 < (BitVec.extractLsb' 28 4 83886102#32).toNat) :=
  by refine ⟨inv_of (by decide +kernel), railGood_of (by decide +kernel), ?_⟩ <;> decide +kernel

theorem met_RailControllers_8 :
    (RailControllers_w2.Inv) ∧
    ((RailControllers_w2.rail ↑2).moving = some (3#4, 100#9)) :=
  by refine ⟨inv_of (by decide +kernel), ?_⟩ <;> decide +kernel

theorem met_RailControllers_9 :
    (RailControllers_w1.Inv) ∧
    (RailControllers_w1.pathUp Path.aelconB = true) ∧
    (pathSecure Path.aelconB = true) ∧
    (RailControllers_w1.mayDrive Path.aelconB = false) :=
  by refine ⟨inv_of (by decide +kernel), ?_⟩ <;> and_intros <;> decide +kernel

theorem met_RailControllers_10 :
    (RailControllers_w1.Inv) ∧
    (RailControllers_w1.pathUp Path.aelconA = true) ∧
    (pathSecure Path.aelconA = true) ∧
    (RailControllers_w1.mayDrive Path.aelconA = true) ∧
    (BitVec.extractLsb' 29 3 355598379#32 = 0) :=
  by refine ⟨inv_of (by decide +kernel), ?_⟩ <;> and_intros <;> decide +kernel

theorem met_RailControllers_11 :
    (RailControllers_w3.Inv) :=
  inv_of (by decide +kernel)

def RailAnswers_w1 : State := RS

def RailAnswers_w2 : State := RS fun x => { target := x.target, slew := x.slew, active := x.active, go := x.go, shedBit := x.shedBit, unshedBit := x.unshedBit, st := RailState.shed, phases := 5, alert := x.alert, alertCause := x.alertCause, last := x.last, lastSeq := x.lastSeq, targetNow := x.targetNow, vout := x.vout, iout := x.iout, pout := x.pout, window := x.window, pLatch := x.pLatch, seq := x.seq, sent := [(5, 355598379, 1)], nakWait := x.nakWait, settling := some 5, raises := x.raises, moving := x.moving, settled := x.settled, shedSeq := x.shedSeq, back := x.back, log := x.log }

def RailAnswers_w3 : State := RS fun x => { target := x.target, slew := x.slew, active := x.active, go := x.go, shedBit := x.shedBit, unshedBit := x.unshedBit, st := x.st, phases := x.phases, alert := x.alert, alertCause := x.alertCause, last := x.last, lastSeq := x.lastSeq, targetNow := x.targetNow, vout := x.vout, iout := x.iout, pout := x.pout, window := x.window, pLatch := x.pLatch, seq := x.seq, sent := [(5, 889192498, 1)], nakWait := x.nakWait, settling := x.settling, raises := x.raises, moving := x.moving, settled := x.settled, shedSeq := x.shedSeq, back := x.back, log := x.log }

def RailAnswers_w4 : State := RS fun x => { target := x.target, slew := x.slew, active := x.active, go := x.go, shedBit := x.shedBit, unshedBit := x.unshedBit, st := x.st, phases := x.phases, alert := x.alert, alertCause := x.alertCause, last := x.last, lastSeq := x.lastSeq, targetNow := x.targetNow, vout := x.vout, iout := x.iout, pout := x.pout, window := x.window, pLatch := x.pLatch, seq := x.seq, sent := [(5, 620757227, 1)], nakWait := x.nakWait, settling := x.settling, raises := x.raises, moving := x.moving, settled := x.settled, shedSeq := x.shedSeq, back := x.back, log := x.log }

def RailAnswers_w5 : State := RS fun x => { target := x.target, slew := x.slew, active := x.active, go := x.go, shedBit := x.shedBit, unshedBit := x.unshedBit, st := x.st, phases := x.phases, alert := x.alert, alertCause := x.alertCause, last := x.last, lastSeq := x.lastSeq, targetNow := x.targetNow, vout := x.vout, iout := x.iout, pout := x.pout, window := x.window, pLatch := x.pLatch, seq := x.seq, sent := [(5, 620759573, 1)], nakWait := x.nakWait, settling := x.settling, raises := x.raises, moving := x.moving, settled := x.settled, shedSeq := x.shedSeq, back := x.back, log := x.log }

def RailAnswers_w6 : State := RS (fun x => { target := x.target, slew := x.slew, active := x.active, go := x.go, shedBit := x.shedBit, unshedBit := x.unshedBit, st := x.st, phases := x.phases, alert := x.alert, alertCause := x.alertCause, last := x.last, lastSeq := x.lastSeq, targetNow := x.targetNow, vout := x.vout, iout := x.iout, pout := x.pout, window := x.window, pLatch := x.pLatch, seq := x.seq, sent := [(5, 889192498, 3)], nakWait := x.nakWait, settling := x.settling, raises := x.raises, moving := x.moving, settled := x.settled, shedSeq := x.shedSeq, back := x.back, log := x.log }) ModState.boot

def RailAnswers_w7 : State := RS (fun x => { target := x.target, slew := x.slew, active := x.active, go := x.go, shedBit := x.shedBit, unshedBit := x.unshedBit, st := x.st, phases := x.phases, alert := x.alert, alertCause := x.alertCause, last := x.last, lastSeq := x.lastSeq, targetNow := x.targetNow, vout := x.vout, iout := x.iout, pout := x.pout, window := x.window, pLatch := x.pLatch, seq := x.seq, sent := [(5, 353959995, 3)], nakWait := some 5, settling := x.settling, raises := x.raises, moving := x.moving, settled := x.settled, shedSeq := x.shedSeq, back := x.back, log := x.log }) ModState.boot

theorem met_RailAnswers_1 :
    (RailAnswers_w1.Inv) ∧
    ((8, Instr.ack 2 355598379#32).fst = 9 → RailAnswers_w1.top.st ≠ ModState.boot) ∧
    (¬(railGood 355598379#32 = true ∧ (BitVec.extractLsb' 28 4 355598379#32).toNat = (8, Instr.ack 2 355598379#32).fst)) ∧
    ((RailAnswers_w1.rail ↑2).sent = []) :=
  by refine ⟨inv_of (by decide +kernel), ?_, (fun h => absurd h.2 (by decide +kernel)), ?_⟩ <;> decide +kernel

theorem met_RailAnswers_2 :
    (RailAnswers_w1.Inv) ∧
    (railGood 2768240651#32 = true) ∧
    ((BitVec.extractLsb' 28 4 2768240651#32).toNat = 10) :=
  by refine ⟨inv_of (by decide +kernel), railGood_of (by decide +kernel), ?_⟩ <;> decide +kernel

theorem met_RailAnswers_3 :
    (RailAnswers_w1.Inv) ∧
    (railGood 2231369779#32 = true) ∧
    ((BitVec.extractLsb' 28 4 2231369779#32).toNat = 8) ∧
    (List.find? (fun c => decide (c.fst = BitVec.extractLsb' 24 4 2231369779#32)) (RailAnswers_w1.rail ↑2).sent = none) :=
  by refine ⟨inv_of (by decide +kernel), railGood_of (by decide +kernel), ?_⟩ <;> and_intros <;> decide +kernel

theorem met_RailAnswers_4 :
    (RailAnswers_w1.Inv) ∧
    (railGood 2502328341#32 = true) ∧
    ((BitVec.extractLsb' 28 4 2502328341#32).toNat = 9) ∧
    (RailAnswers_w1.top.st ≠ ModState.boot) ∧
    ((RailAnswers_w1.rail ↑2).settling ≠ some (BitVec.extractLsb' 24 4 2502328341#32)) :=
  by refine ⟨inv_of (by decide +kernel), railGood_of (by decide +kernel), ?_⟩ <;> and_intros <;> decide +kernel

theorem met_RailAnswers_5 :
    (RailAnswers_w2.Inv) ∧
    (railGood 2502328341#32 = true) ∧
    ((BitVec.extractLsb' 28 4 2502328341#32).toNat = 9) ∧
    (RailAnswers_w2.top.st ≠ ModState.boot) ∧
    ((RailAnswers_w2.rail ↑2).settling = some (BitVec.extractLsb' 24 4 2502328341#32)) :=
  by refine ⟨inv_of (by decide +kernel), railGood_of (by decide +kernel), ?_⟩ <;> and_intros <;> decide +kernel

theorem met_RailAnswers_6 :
    (RailAnswers_w1.Inv) ∧
    (railGood 2952841246#32 = true) ∧
    ((BitVec.extractLsb' 28 4 2952841246#32).toNat = 11) ∧
    ((BitVec.extractLsb' 26 2 2952841246#32).toNat = 0) :=
  by refine ⟨inv_of (by decide +kernel), railGood_of (by decide +kernel), ?_⟩ <;> and_intros <;> decide +kernel

theorem met_RailAnswers_7 :
    (RailAnswers_w1.Inv) ∧
    (railGood 3019950105#32 = true) ∧
    ((BitVec.extractLsb' 28 4 3019950105#32).toNat = 11) ∧
    ((BitVec.extractLsb' 26 2 3019950105#32).toNat = 1) :=
  by refine ⟨inv_of (by decide +kernel), railGood_of (by decide +kernel), ?_⟩ <;> and_intros <;> decide +kernel

theorem met_RailAnswers_8 :
    (RailAnswers_w1.Inv) ∧
    (railGood 3154116616#32 = true) ∧
    ((BitVec.extractLsb' 28 4 3154116616#32).toNat = 11) ∧
    ((BitVec.extractLsb' 26 2 3154116616#32).toNat = 3) :=
  by refine ⟨inv_of (by decide +kernel), railGood_of (by decide +kernel), ?_⟩ <;> and_intros <;> decide +kernel

theorem met_RailAnswers_9 :
    (RailAnswers_w1.Inv) ∧
    (railGood 3087058960#32 = true) ∧
    ((BitVec.extractLsb' 28 4 3087058960#32).toNat = 11) ∧
    ((BitVec.extractLsb' 26 2 3087058960#32).toNat = 2) :=
  by refine ⟨inv_of (by decide +kernel), railGood_of (by decide +kernel), ?_⟩ <;> and_intros <;> decide +kernel

theorem met_RailAnswers_10 :
    (RailAnswers_w1.Inv) ∧
    (railGood 3305111552#32 = true) ∧
    ((BitVec.extractLsb' 28 4 3305111552#32).toNat = 12) ∧
    (∀ (c : BitVec 4 × W32 × Nat), c ∈ (RailAnswers_w1.rail ↑2).sent → c.fst ≠ BitVec.extractLsb' 24 4 3305111552#32) :=
  by refine ⟨inv_of (by decide +kernel), railGood_of (by decide +kernel), ?_⟩ <;> and_intros <;> decide +kernel

theorem met_RailAnswers_11 :
    (RailAnswers_w2.Inv) ∧
    (railGood 3305111552#32 = true) ∧
    ((BitVec.extractLsb' 28 4 3305111552#32).toNat = 12) ∧
    (List.find? (fun c => decide (c.fst = BitVec.extractLsb' 24 4 3305111552#32)) (RailAnswers_w2.rail ↑2).sent = some (BitVec.extractLsb' 24 4 3305111552#32, 355598379#32, 1)) :=
  by refine ⟨inv_of (by decide +kernel), railGood_of (by decide +kernel), ?_⟩ <;> and_intros <;> decide +kernel

theorem met_RailAnswers_12 :
    (RailAnswers_w1.Inv) ∧
    (railGood 3573547036#32 = true) ∧
    ((BitVec.extractLsb' 28 4 3573547036#32).toNat = 13) ∧
    ((List.find? (fun c => decide (c.fst = BitVec.extractLsb' 24 4 3573547036#32)) (RailAnswers_w1.rail ↑2).sent).or (if BitVec.extractLsb' 24 4 3573547036#32 = 0 then (RailAnswers_w1.rail ↑2).sent.head? else none) = none) :=
  by refine ⟨inv_of (by decide +kernel), railGood_of (by decide +kernel), ?_⟩ <;> and_intros <;> decide +kernel

theorem met_RailAnswers_13 :
    (RailAnswers_w1.Inv) ∧
    (railGood 3825205289#32 = true) ∧
    ((BitVec.extractLsb' 28 4 3825205289#32).toNat = 14) :=
  by refine ⟨inv_of (by decide +kernel), railGood_of (by decide +kernel), ?_⟩ <;> decide +kernel

theorem met_RailAnswers_14 :
    (RailAnswers_w2.Inv) ∧
    (((RailAnswers_w2.rail ↑2).nakWait.bind (RailAnswers_w2.rail ↑2).answered).or (RailAnswers_w2.rail ↑2).sent.head? = some (5#4, 355598379#32, 1)) ∧
    (1 < 3) :=
  by refine ⟨inv_of (by decide +kernel), ?_⟩ <;> and_intros <;> decide +kernel

theorem met_RailAnswers_15 :
    (RailAnswers_w2.Inv) ∧
    (railGood 2231369779#32 = true) ∧
    ((BitVec.extractLsb' 28 4 2231369779#32).toNat = 8) ∧
    (List.find? (fun c => decide (c.fst = BitVec.extractLsb' 24 4 2231369779#32)) (RailAnswers_w2.rail ↑2).sent = some (BitVec.extractLsb' 24 4 2231369779#32, 355598379#32, 1)) ∧
    (BitVec.extractLsb' 28 4 355598379#32 = 1) :=
  by refine ⟨inv_of (by decide +kernel), railGood_of (by decide +kernel), ?_⟩ <;> and_intros <;> decide +kernel

theorem met_RailAnswers_16 :
    (RailAnswers_w3.Inv) ∧
    (railGood 2231369779#32 = true) ∧
    ((BitVec.extractLsb' 28 4 2231369779#32).toNat = 8) ∧
    (List.find? (fun c => decide (c.fst = BitVec.extractLsb' 24 4 2231369779#32)) (RailAnswers_w3.rail ↑2).sent = some (BitVec.extractLsb' 24 4 2231369779#32, 889192498#32, 1)) ∧
    (BitVec.extractLsb' 28 4 889192498#32 = 3) :=
  by refine ⟨inv_of (by decide +kernel), railGood_of (by decide +kernel), ?_⟩ <;> and_intros <;> decide +kernel

theorem met_RailAnswers_17 :
    (RailAnswers_w2.Inv) ∧
    (railGood 3573547036#32 = true) ∧
    ((BitVec.extractLsb' 28 4 3573547036#32).toNat = 13) ∧
    ((List.find? (fun c => decide (c.fst = BitVec.extractLsb' 24 4 3573547036#32)) (RailAnswers_w2.rail ↑2).sent).or (if BitVec.extractLsb' 24 4 3573547036#32 = 0 then (RailAnswers_w2.rail ↑2).sent.head? else none) = some (5#4, 355598379#32, 1)) ∧
    (1 < 3) ∧
    (BitVec.extractLsb' 28 4 355598379#32 = 1) :=
  by refine ⟨inv_of (by decide +kernel), railGood_of (by decide +kernel), ?_⟩ <;> and_intros <;> decide +kernel

theorem met_RailAnswers_18 :
    (RailAnswers_w4.Inv) ∧
    (railGood 3573547036#32 = true) ∧
    ((BitVec.extractLsb' 28 4 3573547036#32).toNat = 13) ∧
    ((List.find? (fun c => decide (c.fst = BitVec.extractLsb' 24 4 3573547036#32)) (RailAnswers_w4.rail ↑2).sent).or (if BitVec.extractLsb' 24 4 3573547036#32 = 0 then (RailAnswers_w4.rail ↑2).sent.head? else none) = some (5#4, 620757227#32, 1)) ∧
    (1 < 3) ∧
    (BitVec.extractLsb' 28 4 620757227#32 = 2) :=
  by refine ⟨inv_of (by decide +kernel), railGood_of (by decide +kernel), ?_⟩ <;> and_intros <;> decide +kernel

theorem met_RailAnswers_19 :
    (RailAnswers_w3.Inv) ∧
    (railGood 3573547036#32 = true) ∧
    ((BitVec.extractLsb' 28 4 3573547036#32).toNat = 13) ∧
    ((List.find? (fun c => decide (c.fst = BitVec.extractLsb' 24 4 3573547036#32)) (RailAnswers_w3.rail ↑2).sent).or (if BitVec.extractLsb' 24 4 3573547036#32 = 0 then (RailAnswers_w3.rail ↑2).sent.head? else none) = some (5#4, 889192498#32, 1)) ∧
    (1 < 3) ∧
    (BitVec.extractLsb' 28 4 889192498#32 = 3) :=
  by refine ⟨inv_of (by decide +kernel), railGood_of (by decide +kernel), ?_⟩ <;> and_intros <;> decide +kernel

theorem met_RailAnswers_20 :
    (RailAnswers_w4.Inv) ∧
    (railGood 2231369779#32 = true) ∧
    ((BitVec.extractLsb' 28 4 2231369779#32).toNat = 8) ∧
    (List.find? (fun c => decide (c.fst = BitVec.extractLsb' 24 4 2231369779#32)) (RailAnswers_w4.rail ↑2).sent = some (BitVec.extractLsb' 24 4 2231369779#32, 620757227#32, 1)) ∧
    (BitVec.extractLsb' 28 4 620757227#32 = 2) ∧
    (1 ≤ (BitVec.extractLsb' 6 6 620757227#32).toNat) ∧
    ((BitVec.extractLsb' 6 6 620757227#32).toNat ≤ if ↑2 < 4 then 32 else if ↑2 < 8 then 8 else if ↑2 < 10 then 12 else if ↑2 = 10 then 16 else 4) :=
  by refine ⟨inv_of (by decide +kernel), railGood_of (by decide +kernel), ?_⟩ <;> and_intros <;> decide +kernel

theorem met_RailAnswers_21 :
    (RailAnswers_w5.Inv) ∧
    (railGood 2231369779#32 = true) ∧
    ((BitVec.extractLsb' 28 4 2231369779#32).toNat = 8) ∧
    (List.find? (fun c => decide (c.fst = BitVec.extractLsb' 24 4 2231369779#32)) (RailAnswers_w5.rail ↑2).sent = some (BitVec.extractLsb' 24 4 2231369779#32, 620759573#32, 1)) ∧
    (BitVec.extractLsb' 28 4 620759573#32 = 2) ∧
    ((BitVec.extractLsb' 6 6 620759573#32).toNat = 0 ∨ (if ↑2 < 4 then 32 else if ↑2 < 8 then 8 else if ↑2 < 10 then 12 else if ↑2 = 10 then 16 else 4) < (BitVec.extractLsb' 6 6 620759573#32).toNat) :=
  by refine ⟨inv_of (by decide +kernel), railGood_of (by decide +kernel), ?_⟩ <;> and_intros <;> decide +kernel

theorem met_RailAnswers_22 :
    (RailAnswers_w6.Inv) ∧
    (((RailAnswers_w6.rail ↑2).nakWait.bind (RailAnswers_w6.rail ↑2).answered).or (RailAnswers_w6.rail ↑2).sent.head? = some (5#4, 889192498#32, 3)) ∧
    (3 ≤ 3) :=
  by refine ⟨inv_of (by decide +kernel), ?_⟩ <;> and_intros <;> decide +kernel

theorem met_RailAnswers_23 :
    (RailAnswers_w6.Inv) ∧
    (railGood 3573547036#32 = true) ∧
    ((BitVec.extractLsb' 28 4 3573547036#32).toNat = 13) ∧
    ((List.find? (fun c => decide (c.fst = BitVec.extractLsb' 24 4 3573547036#32)) (RailAnswers_w6.rail ↑2).sent).or (if BitVec.extractLsb' 24 4 3573547036#32 = 0 then (RailAnswers_w6.rail ↑2).sent.head? else none) = some (5#4, 889192498#32, 3)) ∧
    (3 ≤ 3) :=
  by refine ⟨inv_of (by decide +kernel), railGood_of (by decide +kernel), ?_⟩ <;> and_intros <;> decide +kernel

theorem met_RailAnswers_24 :
    (RailAnswers_w6.Inv) ∧
    (railGood 3959423015#32 = true) ∧
    ((BitVec.extractLsb' 28 4 3959423015#32).toNat = 14) :=
  by refine ⟨inv_of (by decide +kernel), railGood_of (by decide +kernel), ?_⟩ <;> decide +kernel

theorem met_RailAnswers_25 :
    (RailAnswers_w7.Inv) ∧
    (((RailAnswers_w7.rail ↑2).nakWait.bind (RailAnswers_w7.rail ↑2).answered).or (RailAnswers_w7.rail ↑2).sent.head? = some (5#4, 353959995#32, 3)) ∧
    (3 ≤ 3) :=
  by refine ⟨inv_of (by decide +kernel), ?_⟩ <;> and_intros <;> decide +kernel

theorem met_RailAnswers_26 :
    (RailAnswers_w7.Inv) ∧
    (railGood 3573547036#32 = true) ∧
    ((BitVec.extractLsb' 28 4 3573547036#32).toNat = 13) ∧
    ((List.find? (fun c => decide (c.fst = BitVec.extractLsb' 24 4 3573547036#32)) (RailAnswers_w7.rail ↑2).sent).or (if BitVec.extractLsb' 24 4 3573547036#32 = 0 then (RailAnswers_w7.rail ↑2).sent.head? else none) = some (5#4, 353959995#32, 3)) ∧
    (3 ≤ 3) :=
  by refine ⟨inv_of (by decide +kernel), railGood_of (by decide +kernel), ?_⟩ <;> and_intros <;> decide +kernel

end Rails

namespace Governance

def rl (f : Nat → Rail → Rail := fun _ x => x) : List Rail := (State.reset.pow.rails.zipIdx).map fun p => f p.2 p.1
def gtA : W64 := 0x41314CF0
def GS (gt : W64 := gtA) (f : State → State := id) (st : ModState := .running) : State := f { State.reset with
  top := { st := st, railsOff := false }, clk := { gt := gt, locked := true }, cmd := { link := .up, areaValid := true, area := 0x1000, lastSlot := 4 }, clm := { claimA := 1 }
  tiles := [(3, { st := .running, events := [(0, 100), (5, 7), (11, 9)] }), (300, { st := .retired })], ctxs := [(2, { st := .loaded, groups := [{ bolt := 0, phys := 0, siltKib := 512, entry := 0x8047, tvec := 0, movers := 1, counters := 2 }], energy := 3 })]
  pow := { State.reset.pow with rails := rl fun _ x => { x with st := .regulating, alert := true, targetNow := 511 }, railEnergy := 40, loadEnergy := 25, loads := [7], gov := [(3, { ceil := 200, ballast := 5, spent := 5000, lo := 7 })] } }
def jo (s : State) : State := { s with gz := { joined := true, members := 0x26, me := 5, arrived := [] } }
def ev (s : State) : State := { s with gvn := { s.gvn with nextEnv := some { floor := 500, ceiling := 700, slope := 0 }, envSlots := [3], storedBinds := false, refreshGt := 5, stepDone := false, tick := 3, band := [(1, 2)] }, cmd := { s.cmd with slots := [(3, { st := .outstanding, gen := 4, op := .start, tag := 0x99 })] } }

def Measurement_w1 : State := GS (gtA + 5)

def Measurement_w2 : State := GS

theorem met_Measurement_1 :
    (Measurement_w1.Inv) ∧
    (Measurement_w1.top.busLost = false) ∧
    (Measurement_w1.clk.locked = false ∨ 2 ≤ 2 * BitVec.toNat Measurement_w1.clk.gt % 3125 ∨ Measurement_w1.top.st = ModState.off) ∧
    (Measurement_w1.clk.locked = false ∨ 4 ≤ 4 * BitVec.toNat Measurement_w1.clk.gt % 625 ∨ Measurement_w1.top.railsOff = true) ∧
    (Measurement_w1.clk.locked = false ∨ BitVec.toNat Measurement_w1.clk.gt % 1562500 ≠ 0 ∨ Measurement_w1.fwRuns = false) ∧
    (Measurement_w1.clk.locked = false ∨ BitVec.toNat Measurement_w1.clk.gt % 156250000 ≠ 0 ∨ Measurement_w1.fwRuns = false) :=
  by refine ⟨inv_of (by decide +kernel), ?_⟩ <;> and_intros <;> decide +kernel

theorem met_Measurement_2 :
    (Measurement_w2.Inv) ∧
    (Measurement_w2.top.busLost = false) ∧
    (Measurement_w2.clk.locked = true) ∧
    (2 * BitVec.toNat Measurement_w2.clk.gt % 3125 < 2) ∧
    (Measurement_w2.top.st ≠ ModState.off) ∧
    (4 * BitVec.toNat Measurement_w2.clk.gt % 625 < 4) ∧
    (Measurement_w2.top.railsOff = false) ∧
    (BitVec.toNat Measurement_w2.clk.gt % 1562500 = 0) ∧
    (Measurement_w2.fwRuns = true) ∧
    (BitVec.toNat Measurement_w2.clk.gt % 156250000 = 0) :=
  by refine ⟨inv_of (by decide +kernel), ?_⟩ <;> and_intros <;> decide +kernel

def Pace_w1 : State := GS

def Pace_w2 : Exchange := { secure := true, flags := 0#56, tag := 119#64, par := [16777728#64, 10#64] }

def Pace_w3 : Exchange := { secure := true, flags := 0#56, tag := 119#64, par := [33554688#64, 0#64] }

def Pace_w4 : State := GS (gtA + 5)

def Pace_w5 : State := GS gtA fun s => ev s

def Pace_w6 : State := GS gtA fun s =>   have __src := ev s;   { pending := __src.pending, top := __src.top, clk := __src.clk, tiles := __src.tiles, mem := __src.mem, mmu := __src.mmu, eng := __src.eng, gz := __src.gz, cmd := __src.cmd, ctxs := __src.ctxs, cads := __src.cads, pow := __src.pow,     gvn :=       have __src := (ev s).gvn;       { env := { floor := 50, ceiling := 700, slope := 100 }, envSlots := __src.envSlots, storedBinds := __src.storedBinds, refreshGt := __src.refreshGt, pinSet := 100, envLo := __src.envLo, envHi := __src.envHi, forcedBy := __src.forcedBy, violating := __src.violating, tick := __src.tick, stepDone := __src.stepDone, skipped := __src.skipped, paceSeq := __src.paceSeq, received := __src.received, sentLevel := __src.sentLevel, thermalLvl := __src.thermalLvl, railLvl := __src.railLvl, energyLvl := __src.energyLvl, junction := __src.junction, hbmTemp := __src.hbmTemp, band := __src.band, throttled := __src.throttled, eBallast := __src.eBallast, eUnattr := __src.eUnattr, eInput := __src.eInput, eLoad := __src.eLoad, coeff := __src.coeff, refits := __src.refits },     res := __src.res, rfw := __src.rfw, clm := __src.clm, pairs := __src.pairs, err := __src.err, trust := __src.trust, free := __src.free }

def Pace_w7 : State := GS gtA jo

def Pace_w8 : State := GS gtA fun s =>   jo     { pending := s.pending, top := s.top, clk := s.clk, tiles := s.tiles, mem := s.mem, mmu := s.mmu, eng := s.eng, gz := s.gz, cmd := s.cmd, ctxs := s.ctxs, cads := s.cads, pow := s.pow,       gvn :=         have __src := s.gvn;         { env := __src.env, nextEnv := __src.nextEnv, envSlots := __src.envSlots, storedBinds := __src.storedBinds, refreshGt := __src.refreshGt, pinSet := __src.pinSet, envLo := __src.envLo, envHi := __src.envHi, forcedBy := __src.forcedBy, violating := __src.violating, tick := __src.tick, stepDone := __src.stepDone, skipped := __src.skipped, paceSeq := __src.paceSeq, received := [(64 * 70001 + 1, 5), (64 * 70001 + 2, 6)], sentLevel := __src.sentLevel, thermalLvl := __src.thermalLvl, railLvl := __src.railLvl, energyLvl := __src.energyLvl, junction := __src.junction, hbmTemp := __src.hbmTemp, band := __src.band, throttled := __src.throttled, eBallast := __src.eBallast, eUnattr := __src.eUnattr, eInput := __src.eInput, eLoad := __src.eLoad, coeff := __src.coeff, refits := __src.refits },       res := s.res, rfw := s.rfw, clm := s.clm, pairs := s.pairs, err := s.err, trust := s.trust, free := s.free }

def Pace_w9 : State := GS gtA fun s =>   { pending := s.pending, top := s.top, clk := s.clk, tiles := s.tiles, mem := s.mem, mmu := s.mmu, eng := s.eng, gz := s.gz, cmd := s.cmd, ctxs := s.ctxs, cads := s.cads, pow := s.pow, gvn := s.gvn, res := s.res, rfw := s.rfw,     clm :=       have __src := s.clm;       { claimA := __src.claimA, claimB := __src.claimB, loA := __src.loA, loB := __src.loB, hiLatchA := __src.hiLatchA, hiLatchB := __src.hiLatchB, watchdog := true, hbRefused := __src.hbRefused, switches := __src.switches, claimRefused := __src.claimRefused, outputRefused := __src.outputRefused, hbA := __src.hbA, hbB := __src.hbB, ageA := __src.ageA, ageB := __src.ageB, secureDenied := __src.secureDenied, windowDenied := __src.windowDenied, deadA := __src.deadA, deadB := __src.deadB },     pairs := s.pairs, err := s.err, trust := s.trust, free := s.free }

def Pace_w10 : State := GS (15625 * 1000 - 1562) fun s =>   jo     { pending := s.pending, top := s.top, clk := s.clk, tiles := s.tiles, mem := s.mem, mmu := s.mmu, eng := s.eng, gz := s.gz, cmd := s.cmd, ctxs := s.ctxs, cads := s.cads, pow := s.pow,       gvn :=         have __src := s.gvn;         { env := __src.env, nextEnv := __src.nextEnv, envSlots := __src.envSlots, storedBinds := __src.storedBinds, refreshGt := __src.refreshGt, pinSet := __src.pinSet, envLo := __src.envLo, envHi := __src.envHi, forcedBy := __src.forcedBy, violating := __src.violating, tick := 999, stepDone := __src.stepDone, skipped := __src.skipped, paceSeq := __src.paceSeq, received := [(64 * 999 + 2, 200), (64 * 1000 + 1, 100), (64 * 1000 + 2, 77)], sentLevel := [(1000, 90)], thermalLvl := __src.thermalLvl, railLvl := __src.railLvl, energyLvl := __src.energyLvl, junction := __src.junction, hbmTemp := __src.hbmTemp, band := __src.band, throttled := __src.throttled, eBallast := __src.eBallast, eUnattr := __src.eUnattr, eInput := __src.eInput, eLoad := __src.eLoad, coeff := __src.coeff, refits := __src.refits },       res := s.res, rfw := s.rfw, clm := s.clm, pairs := s.pairs, err := s.err, trust := s.trust, free := s.free }

def Pace_w11 : State := GS 15625000 fun s =>   { pending := s.pending, top := s.top, clk := s.clk, tiles := s.tiles, mem := s.mem, mmu := s.mmu, eng := s.eng, gz := s.gz, cmd := s.cmd, ctxs := s.ctxs, cads := s.cads,     pow :=       have __src := s.pow;       { rails := __src.rails, pin := __src.pin, conv := __src.conv, loads := __src.loads, railEnergy := __src.railEnergy, loadEnergy := __src.loadEnergy, window := __src.window, gov := __src.gov, up := __src.up, down := __src.down, staggerEn := __src.staggerEn, level := __src.level, next := 99, paceArmed := true, paceAt := 15625000, floor := __src.floor, fwForce := __src.fwForce, source := __src.source, thermal := __src.thermal, firmware := __src.firmware, clearRefused := __src.clearRefused, floorCount := __src.floorCount, stored := __src.stored },     gvn := s.gvn, res := s.res, rfw := s.rfw, clm := s.clm, pairs := s.pairs, err := s.err, trust := s.trust, free := s.free }

theorem met_Pace_1 :
    (Pace_w1.Inv) ∧
    (Pace_w1.Passes 15 Pace_w2 [2 ^ 32 - 1, 2 ^ 32 - 1] true) ∧
    (5 < 4096) ∧
    (Pace_w1.freeSlot = some 5) ∧
    (BitVec.toNat (Pace_w2.par.getD 0 0) % 65536 ≤ 4600 ∧ BitVec.toNat (Pace_w2.par.getD 0 0) / 65536 ≤ BitVec.toNat (Pace_w2.par.getD 0 0) % 65536 ∧ (BitVec.toNat (Pace_w2.par.getD 1 0) = 0 ∨ 10 ≤ BitVec.toNat (Pace_w2.par.getD 1 0))) ∧
    (Pace_w1.clk.locked = true) ∧
    (BitVec.toNat Pace_w1.clk.gt % 15625 = 0) ∧
    (Pace_w1.fwRuns = true) ∧
    (Pace_w1.top.busLost = false) ∧
    (¬(Pace_w1.top.st.firmware = true ∧ Pace_w1.gvn.stepDone = false ∧ Pace_w1.gvn.tick * 15625 + 7813 ≤ BitVec.toNat Pace_w1.clk.gt)) ∧
    (¬(Pace_w1.clk.locked = true ∧ (BitVec.toNat Pace_w1.clk.gt + 1562) % 15625 = 0 ∧ Pace_w1.fwRuns = true ∧ Pace_w1.gz.joined = true)) ∧
    (Pace_w1.pow.paceArmed = false ∨ BitVec.setWidth 32 Pace_w1.clk.gt ≠ Pace_w1.pow.paceAt) ∧
    (¬(Pace_w1.fwRuns = true ∧ Pace_w1.gvn.storedBinds = false ∧ Pace_w1.gvn.nextEnv = none ∧ 156250000 ≤ (BitVec.setWidth 32 Pace_w1.clk.gt - Pace_w1.gvn.refreshGt).toNat)) :=
  by refine ⟨inv_of (by decide +kernel), passes_of (by decide +kernel), ?_⟩ <;> and_intros <;> decide +kernel

theorem met_Pace_2 :
    (Pace_w1.Inv) ∧
    (Pace_w1.Passes 15 Pace_w3 [2 ^ 32 - 1, 2 ^ 32 - 1] true) ∧
    (5 < 4096) ∧
    (Pace_w1.freeSlot = some 5) ∧
    (¬(BitVec.toNat (Pace_w3.par.getD 0 0) % 65536 ≤ 4600 ∧ BitVec.toNat (Pace_w3.par.getD 0 0) / 65536 ≤ BitVec.toNat (Pace_w3.par.getD 0 0) % 65536 ∧ (BitVec.toNat (Pace_w3.par.getD 1 0) = 0 ∨ 10 ≤ BitVec.toNat (Pace_w3.par.getD 1 0)))) :=
  by refine ⟨inv_of (by decide +kernel), passes_of (by decide +kernel), ?_⟩ <;> and_intros <;> decide +kernel

theorem met_Pace_3 :
    (Pace_w4.Inv) ∧
    (Pace_w4.clk.locked = false ∨ BitVec.toNat Pace_w4.clk.gt % 15625 ≠ 0 ∨ Pace_w4.top.st.firmware = false) :=
  by refine ⟨inv_of (by decide +kernel), ?_⟩ <;> decide +kernel

theorem met_Pace_4 :
    (Pace_w5.Inv) ∧
    (Pace_w5.top.st.firmware = true ∧ Pace_w5.gvn.stepDone = false ∧ Pace_w5.gvn.tick * 15625 + 7813 ≤ BitVec.toNat Pace_w5.clk.gt) ∧
    (Pace_w5.clk.locked = true) ∧
    (BitVec.toNat Pace_w5.clk.gt % 15625 = 0) ∧
    (Pace_w5.fwRuns = true) ∧
    (Pace_w5.top.busLost = false) :=
  by refine ⟨inv_of (by decide +kernel), ?_⟩ <;> and_intros <;> decide +kernel

theorem met_Pace_5 :
    (Pace_w1.Inv) ∧
    (Pace_w1.gz.arrived = []) ∧
    (¬(Pace_w1.gz.joined = true ∧ BitVec.getLsbD Pace_w1.gz.members ↑2 = true ∧ ↑2 ≠ Pace_w1.gz.me.toNat ∧ (BitVec.extractLsb' 0 9 300652005687396#64).toNat ≤ 256)) :=
  by refine ⟨inv_of (by decide +kernel), ?_⟩ <;> and_intros <;> decide +kernel

theorem met_Pace_6 :
    (Pace_w6.Inv) ∧
    (Pace_w6.fwRuns = true ∧ Pace_w6.gvn.storedBinds = false ∧ Pace_w6.gvn.nextEnv = none ∧ 156250000 ≤ (BitVec.setWidth 32 Pace_w6.clk.gt - Pace_w6.gvn.refreshGt).toNat) :=
  by refine ⟨inv_of (by decide +kernel), ?_⟩ <;> decide +kernel

theorem met_Pace_7 :
    (Pace_w7.Inv) ∧
    (Pace_w7.clk.locked = true) ∧
    (BitVec.toNat Pace_w7.clk.gt % 15625 = 0) ∧
    (Pace_w7.fwRuns = true) ∧
    (Pace_w7.top.busLost = false) ∧
    (Pace_w7.gz.arrived = []) ∧
    (Pace_w7.gz.joined = true ∧ BitVec.getLsbD Pace_w7.gz.members ↑2 = true ∧ ↑2 ≠ Pace_w7.gz.me.toNat ∧ (BitVec.extractLsb' 0 9 300652005687396#64).toNat ≤ 256) ∧
    (0 ≤ (BitVec.extractLsb' 32 32 300652005687396#64 - BitVec.ofNat 32 ((BitVec.toNat Pace_w7.clk.gt + 1562) / 15625 + 1)).toInt) :=
  by refine ⟨inv_of (by decide +kernel), ?_⟩ <;> and_intros <;> decide +kernel

theorem met_Pace_8 :
    (Pace_w7.Inv) ∧
    (Pace_w7.gz.arrived = []) ∧
    (Pace_w7.gz.joined = true ∧ BitVec.getLsbD Pace_w7.gz.members ↑2 = true ∧ ↑2 ≠ Pace_w7.gz.me.toNat ∧ (BitVec.extractLsb' 0 9 300647710720032#64).toNat ≤ 256) ∧
    ((BitVec.extractLsb' 32 32 300647710720032#64 - BitVec.ofNat 32 ((BitVec.toNat Pace_w7.clk.gt + 1562) / 15625 + 1)).toInt < 0) ∧
    (Tab.look 0 Pace_w7.gvn.received (64 * ((BitVec.toNat Pace_w7.clk.gt + 1562) / 15625 + 1) + ↑2) = 0) :=
  by refine ⟨inv_of (by decide +kernel), ?_⟩ <;> and_intros <;> decide +kernel

theorem met_Pace_9 :
    (Pace_w8.Inv) ∧
    (Pace_w8.gz.arrived = []) ∧
    (Pace_w8.gz.joined = true ∧ BitVec.getLsbD Pace_w8.gz.members ↑2 = true ∧ ↑2 ≠ Pace_w8.gz.me.toNat ∧ (BitVec.extractLsb' 0 9 300647710720032#64).toNat ≤ 256) ∧
    ((BitVec.extractLsb' 32 32 300647710720032#64 - BitVec.ofNat 32 ((BitVec.toNat Pace_w8.clk.gt + 1562) / 15625 + 1)).toInt < 0) ∧
    (Tab.look 0 Pace_w8.gvn.received (64 * ((BitVec.toNat Pace_w8.clk.gt + 1562) / 15625 + 1) + ↑2) ≠ 0) :=
  by refine ⟨inv_of (by decide +kernel), ?_⟩ <;> and_intros <;> decide +kernel

theorem met_Pace_10 :
    (Pace_w9.Inv) ∧
    (Pace_w9.clk.locked = true) ∧
    (BitVec.toNat Pace_w9.clk.gt % 15625 = 0) ∧
    (Pace_w9.top.st.firmware = true) ∧
    (Pace_w9.fwRuns = false) :=
  by refine ⟨inv_of (by decide +kernel), ?_⟩ <;> and_intros <;> decide +kernel

theorem met_Pace_11 :
    (Pace_w10.Inv) ∧
    (Pace_w10.clk.locked = true ∧ (BitVec.toNat Pace_w10.clk.gt + 1562) % 15625 = 0 ∧ Pace_w10.fwRuns = true ∧ Pace_w10.gz.joined = true) :=
  by refine ⟨inv_of (by decide +kernel), ?_⟩ <;> decide +kernel

theorem met_Pace_12 :
    (Pace_w11.Inv) ∧
    (Pace_w11.pow.paceArmed = true) ∧
    (BitVec.setWidth 32 Pace_w11.clk.gt = Pace_w11.pow.paceAt) :=
  by refine ⟨inv_of (by decide +kernel), ?_⟩ <;> and_intros <;> decide +kernel

def ThermalAndFloor_w1 : State := GS gtA id ModState.off

def ThermalAndFloor_w2 : State := GS

def ThermalAndFloor_w3 : State := GS gtA jo

def ThermalAndFloor_w4 : State := GS gtA fun s => ev s

def ThermalAndFloor_w5 : State := GS gtA fun s =>   { pending := s.pending,     top :=       have __src := s.top;       { st := __src.st, prev := __src.prev, cause := __src.cause, transitions := __src.transitions, pinOpen := __src.pinOpen, drainCauses := __src.drainCauses, hbmUp := __src.hbmUp, pages := __src.pages, busLost := __src.busLost, vin := __src.vin, ctlA := __src.ctlA, ctlB := __src.ctlB, hbmOff := __src.hbmOff, bootStep := __src.bootStep, tested := __src.tested, reserveAt := __src.reserveAt, bootGt := __src.bootGt, pinGt := __src.pinGt, busGt := __src.busGt, withdrawn := __src.withdrawn },     clk := s.clk, tiles := s.tiles, mem := s.mem, mmu := s.mmu, eng := s.eng, gz := s.gz, cmd := s.cmd, ctxs := s.ctxs, cads := s.cads,     pow :=       have __src := s.pow;       { rails := rl fun _ x_1 => { target := x_1.target, slew := x_1.slew, active := x_1.active, go := x_1.go, shedBit := x_1.shedBit, unshedBit := x_1.unshedBit, st := RailState.regulating, phases := x_1.phases, alert := x_1.alert, alertCause := x_1.alertCause, last := x_1.last, lastSeq := x_1.lastSeq, targetNow := 511, vout := x_1.vout, iout := x_1.iout, pout := x_1.pout, window := x_1.window, pLatch := x_1.pLatch, seq := x_1.seq, sent := x_1.sent, nakWait := x_1.nakWait, settling := x_1.settling, raises := x_1.raises, moving := x_1.moving, settled := x_1.settled, shedSeq := x_1.shedSeq, back := x_1.back, log := x_1.log }, pin := __src.pin, conv := __src.conv, loads := __src.loads, railEnergy := __src.railEnergy, loadEnergy := __src.loadEnergy, window := __src.window, gov := __src.gov, up := __src.up, down := __src.down, staggerEn := __src.staggerEn, level := __src.level, next := __src.next, paceArmed := __src.paceArmed, paceAt := __src.paceAt, floor := true, fwForce := __src.fwForce, source := __src.source, thermal := __src.thermal, firmware := __src.firmware, clearRefused := __src.clearRefused, floorCount := __src.floorCount, stored := __src.stored },     gvn := s.gvn, res := s.res, rfw := s.rfw, clm := s.clm, pairs := s.pairs, err := s.err, trust := s.trust, free := s.free }

theorem met_ThermalAndFloor_1 :
    (ThermalAndFloor_w1.Inv) ∧
    (ThermalAndFloor_w1.top.st = ModState.off) :=
  by refine ⟨inv_of (by decide +kernel), ?_⟩ <;> decide +kernel

theorem met_ThermalAndFloor_2 :
    (ThermalAndFloor_w2.Inv) ∧
    (ThermalAndFloor_w2.top.st ≠ ModState.off) ∧
    (ThermalAndFloor_w2.pathUp Path.aelconA = true) ∧
    (pathSecure Path.aelconA = true) ∧
    (ThermalAndFloor_w2.mayDrive Path.aelconA = true) ∧
    (¬(ThermalAndFloor_w2.pow.fwForce = false ∧ (∀ (x : Rail), x ∈ ThermalAndFloor_w2.pow.rails → x.alert = false) ∧ (∀ (q : Nat × Int), q ∈ ThermalAndFloor_w2.gvn.junction → q.snd < 1050) ∧ ∀ (r : Nat), r < 8 → (ThermalAndFloor_w2.rail r).still = true ∧ ThermalAndFloor_w2.railCell r 0 ≤ (ThermalAndFloor_w2.rail r).targetNow)) :=
  by refine ⟨inv_of (by decide +kernel), ?_⟩ <;> and_intros <;> decide +kernel

theorem met_ThermalAndFloor_3 :
    (ThermalAndFloor_w3.Inv) ∧
    (ThermalAndFloor_w3.top.st ≠ ModState.off) :=
  by refine ⟨inv_of (by decide +kernel), ?_⟩ <;> decide +kernel

theorem met_ThermalAndFloor_4 :
    (ThermalAndFloor_w4.Inv) ∧
    (ThermalAndFloor_w4.top.st ≠ ModState.off) :=
  by refine ⟨inv_of (by decide +kernel), ?_⟩ <;> decide +kernel

theorem met_ThermalAndFloor_5 :
    (ThermalAndFloor_w5.Inv) ∧
    (ThermalAndFloor_w5.pathUp Path.aelconA = true) ∧
    (pathSecure Path.aelconA = true) ∧
    (ThermalAndFloor_w5.mayDrive Path.aelconA = true) ∧
    (ThermalAndFloor_w5.pow.fwForce = false ∧ (∀ (x : Rail), x ∈ ThermalAndFloor_w5.pow.rails → x.alert = false) ∧ (∀ (q : Nat × Int), q ∈ ThermalAndFloor_w5.gvn.junction → q.snd < 1050) ∧ ∀ (r : Nat), r < 8 → (ThermalAndFloor_w5.rail r).still = true ∧ ThermalAndFloor_w5.railCell r 0 ≤ (ThermalAndFloor_w5.rail r).targetNow) :=
  by refine ⟨inv_of (by decide +kernel), ?_, ?_, ?_,
   ⟨by decide +kernel, by decide +kernel, by decide +kernel, fun r hr => ⟨by revert r; decide +kernel, by have h : (ThermalAndFloor_w5.rail r).targetNow = 511 := (by revert r; decide +kernel); rw [h]; exact Nat.le_of_lt_succ (BitVec.isLt _)⟩⟩⟩ <;> decide +kernel

theorem met_ThermalAndFloor_6 :
    (ThermalAndFloor_w2.Inv) ∧
    (ThermalAndFloor_w2.pathUp Path.aelconB = true) ∧
    (pathSecure Path.aelconB = true) ∧
    (ThermalAndFloor_w2.mayDrive Path.aelconB = false) :=
  by refine ⟨inv_of (by decide +kernel), ?_⟩ <;> and_intros <;> decide +kernel

theorem met_ThermalAndFloor_7 :
    (ThermalAndFloor_w2.Inv) ∧
    (ThermalAndFloor_w2.pathUp Path.bursen = true) ∧
    (pathSecure Path.bursen = false) :=
  by refine ⟨inv_of (by decide +kernel), ?_⟩ <;> and_intros <;> decide +kernel

end Governance

namespace Tray

def gtA : W64 := 0x41314CF0
def TS (st : ModState := .running) (f : State → State := id) : State := f { State.reset with
  top := { st := st, railsOff := false, busGt := gtA - 156250000 }, clk := { gt := gtA, locked := true }, cmd := { link := .up, slots := [(3, { st := .outstanding, gen := 4, op := .start, tag := 0x99 })] }, clm := { claimA := 1 }
  res := { convEn := true, mode := .track, ring := .whole, rep := 100000, first := false }, gvn := { State.reset.gvn with forcedBy := [2] } }
def nobus (s : State) : State := { s with top := { s.top with busLost := true } }
def idle (s : State) : State := { s with cmd := { s.cmd with slots := [] } }
def drs (s : State) : State := { s with cmd := { s.cmd with slots := [(3, { st := .outstanding, gen := 4, op := .drain, tag := 0x99 })] } }
def mo (x : Monitor) (st : ModState := .running) : State := TS st fun s => { s with res := { s.res with monitors := [(2, x)] } }
def m0 : Monitor := { corner := 2, bleed := 5, paused := true, naks := 255, tag := 7, volts := [(0, 0x1234), (5, 0x4321)], temps := [(1, 0xFFF0)], nvAddr := 20, nv := [(20, 0x55)], sampled := some 0x33, clocked := false }
def rq (q : W64) (k : Nat) (f : State → State := id) : State := TS .running fun s => f { s with rfw := { s.rfw with req := some (q, 2, k), todo := [(3, 0x7300000000000986), (2, 0x120400000000098F)] }, res := { s.res with readback := [2, 3] } }
def all4 (x : Nat → Monitor) : Tab Monitor := (List.range 4).map fun k => (k, x k)
def en (b : Nat → Bool × Bool) (hop : Nat → Nat := id) (f : Monitor → Monitor := id) (st : ModState := .running) : State := TS st fun s => { s with top := { s.top with bootStep := 4 }, res := { s.res with monitors := all4 fun k => f { seen0 := (b k).1, seen1 := (b k).2, hop0 := hop k } } }
def goodNv : Tab W32 := [(16, 0x15253), (17, 1), (19, 1), (263, 0x6c2a2629)]
def blankNv : Tab W32 := [(16, 0xFFFF), (264, 0xFFFF)]
/-! ### The ring (R324–R331) -/

def TrayBus_w1 : State := TS ModState.off

def TrayBus_w2 : State := TS

def TrayBus_w3 : State := TS ModState.ready nobus

def TrayBus_w4 : State := TS ModState.running fun s =>   { pending := s.pending, top := s.top, clk := s.clk, tiles := s.tiles, mem := s.mem, mmu := s.mmu, eng := s.eng, gz := s.gz, cmd := s.cmd, ctxs := s.ctxs, cads := s.cads, pow := s.pow, gvn := s.gvn,     res :=       have __src := s.res;       { bleedEn := __src.bleedEn, sweepMs := __src.sweepMs, settleUs := __src.settleUs, pinTarget := __src.pinTarget, chgLim := __src.chgLim, disLim := __src.disLim, mode := __src.mode, ring := __src.ring, ident := __src.ident, needsLearn := __src.needsLearn, eoc := __src.eoc, eod := __src.eod, splits := __src.splits, learnDq := __src.learnDq, raw := __src.raw, rep := __src.rep, sorPct := __src.sorPct, chgStop := __src.chgStop, disStop := __src.disStop, zHigh := __src.zHigh, zLow := __src.zLow, hot := __src.hot, tempOff := __src.tempOff, chgKeep := __src.chgKeep, disKeep := __src.disKeep, shutOff := __src.shutOff, unmeasured := __src.unmeasured, under := __src.under, interlock := __src.interlock, enumDue := __src.enumDue, settled := __src.settled, monitors := __src.monitors, cells := __src.cells, tag := __src.tag, sample := __src.sample, last := __src.last, sample2 := __src.sample2, splitMons := __src.splitMons, readback := __src.readback, lastSweep := __src.lastSweep, first := __src.first, lastSplit := __src.lastSplit, charge := __src.charge, restSince := __src.restSince, restLearn := __src.restLearn, anchor := __src.anchor },     rfw := s.rfw, clm := s.clm, pairs := s.pairs, err := s.err, trust := s.trust, free := s.free }

def TrayBus_w5 : State := TS ModState.running fun s =>   { pending := s.pending, top := s.top, clk := s.clk, tiles := s.tiles, mem := s.mem, mmu := s.mmu, eng := s.eng, gz := s.gz, cmd := s.cmd, ctxs := s.ctxs, cads := s.cads, pow := s.pow, gvn := s.gvn,     res :=       have __src := s.res;       { convEn := __src.convEn, bleedEn := __src.bleedEn, sweepMs := __src.sweepMs, settleUs := __src.settleUs, pinTarget := __src.pinTarget, chgLim := __src.chgLim, disLim := __src.disLim, mode := ConvMode.node, ring := __src.ring, ident := __src.ident, needsLearn := __src.needsLearn, eoc := __src.eoc, eod := __src.eod, splits := __src.splits, learnDq := __src.learnDq, raw := __src.raw, rep := __src.rep, sorPct := __src.sorPct, chgStop := __src.chgStop, disStop := true, zHigh := __src.zHigh, zLow := __src.zLow, hot := __src.hot, tempOff := __src.tempOff, chgKeep := __src.chgKeep, disKeep := __src.disKeep, shutOff := __src.shutOff, unmeasured := __src.unmeasured, under := __src.under, interlock := __src.interlock, enumDue := __src.enumDue, settled := __src.settled, monitors := __src.monitors, cells := __src.cells, tag := __src.tag, sample := __src.sample, last := __src.last, sample2 := __src.sample2, splitMons := __src.splitMons, readback := __src.readback, lastSweep := __src.lastSweep, first := __src.first, lastSplit := __src.lastSplit, charge := __src.charge, restSince := __src.restSince, restLearn := __src.restLearn, anchor := __src.anchor },     rfw := s.rfw, clm := s.clm, pairs := s.pairs, err := s.err, trust := s.trust, free := s.free }

def TrayBus_w6 : State := TS ModState.running fun s =>   { pending := s.pending, top := s.top, clk := s.clk, tiles := s.tiles, mem := s.mem, mmu := s.mmu, eng := s.eng, gz := s.gz, cmd := s.cmd, ctxs := s.ctxs, cads := s.cads, pow := s.pow, gvn := s.gvn,     res :=       have __src := s.res;       { convEn := __src.convEn, bleedEn := __src.bleedEn, sweepMs := __src.sweepMs, settleUs := __src.settleUs, pinTarget := __src.pinTarget, chgLim := __src.chgLim, disLim := __src.disLim, mode := ConvMode.node, ring := __src.ring, ident := __src.ident, needsLearn := __src.needsLearn, eoc := __src.eoc, eod := __src.eod, splits := __src.splits, learnDq := __src.learnDq, raw := __src.raw, rep := __src.rep, sorPct := __src.sorPct, chgStop := __src.chgStop, disStop := __src.disStop, zHigh := __src.zHigh, zLow := __src.zLow, hot := __src.hot, tempOff := __src.tempOff, chgKeep := __src.chgKeep, disKeep := __src.disKeep, shutOff := __src.shutOff, unmeasured := __src.unmeasured, under := __src.under, interlock := false, enumDue := __src.enumDue, settled := __src.settled, monitors := __src.monitors, cells := __src.cells, tag := __src.tag, sample := __src.sample, last := __src.last, sample2 := __src.sample2, splitMons := __src.splitMons, readback := __src.readback, lastSweep := __src.lastSweep, first := __src.first, lastSplit := __src.lastSplit, charge := __src.charge, restSince := __src.restSince, restLearn := __src.restLearn, anchor := __src.anchor },     rfw := s.rfw, clm := s.clm, pairs := s.pairs, err := s.err, trust := s.trust, free := s.free }

def TrayBus_w7 : State := TS ModState.running fun s =>   { pending := s.pending, top := s.top, clk := s.clk, tiles := s.tiles, mem := s.mem, mmu := s.mmu, eng := s.eng, gz := s.gz, cmd := s.cmd, ctxs := s.ctxs, cads := s.cads, pow := s.pow, gvn := s.gvn,     res :=       have __src := s.res;       { convEn := __src.convEn, bleedEn := __src.bleedEn, sweepMs := __src.sweepMs, settleUs := __src.settleUs, pinTarget := __src.pinTarget, chgLim := __src.chgLim, disLim := __src.disLim, mode := ConvMode.node, ring := __src.ring, ident := __src.ident, needsLearn := __src.needsLearn, eoc := __src.eoc, eod := __src.eod, splits := __src.splits, learnDq := __src.learnDq, raw := __src.raw, rep := __src.rep, sorPct := __src.sorPct, chgStop := __src.chgStop, disStop := __src.disStop, zHigh := __src.zHigh, zLow := __src.zLow, hot := __src.hot, tempOff := __src.tempOff, chgKeep := __src.chgKeep, disKeep := __src.disKeep, shutOff := __src.shutOff, unmeasured := __src.unmeasured, under := __src.under, interlock := __src.interlock, enumDue := __src.enumDue, settled := __src.settled, monitors := __src.monitors, cells := __src.cells, tag := __src.tag, sample := __src.sample, last := __src.last, sample2 := __src.sample2, splitMons := __src.splitMons, readback := __src.readback, lastSweep := __src.lastSweep, first := __src.first, lastSplit := __src.lastSplit, charge := __src.charge, restSince := __src.restSince, restLearn := __src.restLearn, anchor := __src.anchor },     rfw := s.rfw, clm := s.clm, pairs := s.pairs, err := s.err, trust := s.trust, free := s.free }

def TrayBus_w8 : State := TS ModState.drain fun s =>   nobus     (drs       { pending := s.pending,         top :=           have __src := s.top;           { st := __src.st, prev := __src.prev, cause := __src.cause, transitions := __src.transitions, pinOpen := __src.pinOpen, drainCauses := [6, 8], hbmUp := __src.hbmUp, pages := __src.pages, busLost := __src.busLost, vin := __src.vin, ctlA := __src.ctlA, ctlB := __src.ctlB, hbmOff := __src.hbmOff, railsOff := __src.railsOff, bootStep := __src.bootStep, tested := __src.tested, reserveAt := __src.reserveAt, bootGt := __src.bootGt, pinGt := __src.pinGt, busGt := __src.busGt, withdrawn := __src.withdrawn },         clk := s.clk, tiles := s.tiles, mem := s.mem, mmu := s.mmu, eng := s.eng, gz := s.gz, cmd := s.cmd, ctxs := s.ctxs, cads := s.cads, pow := s.pow, gvn := s.gvn,         res :=           have __src := s.res;           { convEn := __src.convEn, bleedEn := __src.bleedEn, sweepMs := __src.sweepMs, settleUs := __src.settleUs, pinTarget := __src.pinTarget, chgLim := __src.chgLim, disLim := __src.disLim, mode := __src.mode, ring := __src.ring, ident := __src.ident, needsLearn := __src.needsLearn, eoc := __src.eoc, eod := __src.eod, splits := __src.splits, learnDq := __src.learnDq, raw := __src.raw, sorPct := __src.sorPct, chgStop := __src.chgStop, disStop := __src.disStop, zHigh := __src.zHigh, zLow := __src.zLow, hot := __src.hot, tempOff := __src.tempOff, chgKeep := __src.chgKeep, disKeep := __src.disKeep, shutOff := __src.shutOff, unmeasured := __src.unmeasured, under := __src.under, interlock := __src.interlock, enumDue := __src.enumDue, settled := __src.settled, monitors := __src.monitors, cells := __src.cells, tag := __src.tag, sample := __src.sample, last := __src.last, sample2 := __src.sample2, splitMons := __src.splitMons, readback := __src.readback, lastSweep := __src.lastSweep, first := __src.first, lastSplit := __src.lastSplit, charge := __src.charge, restSince := __src.restSince, restLearn := __src.restLearn, anchor := __src.anchor },         rfw := s.rfw, clm := s.clm, pairs := s.pairs, err := s.err, trust := s.trust, free := s.free })

def TrayBus_w9 : State := TS ModState.drain fun s =>   nobus     (idle       { pending := s.pending,         top :=           have __src := s.top;           { st := __src.st, prev := __src.prev, cause := __src.cause, transitions := __src.transitions, pinOpen := __src.pinOpen, drainCauses := [6, 7, 8], hbmUp := __src.hbmUp, pages := __src.pages, busLost := __src.busLost, vin := __src.vin, ctlA := __src.ctlA, ctlB := __src.ctlB, hbmOff := __src.hbmOff, railsOff := __src.railsOff, bootStep := __src.bootStep, tested := __src.tested, reserveAt := __src.reserveAt, bootGt := __src.bootGt, pinGt := __src.pinGt, busGt := __src.busGt, withdrawn := __src.withdrawn },         clk := s.clk, tiles := s.tiles, mem := s.mem, mmu := s.mmu, eng := s.eng, gz := s.gz, cmd := s.cmd, ctxs := s.ctxs, cads := s.cads, pow := s.pow, gvn := s.gvn, res := s.res, rfw := s.rfw, clm := s.clm, pairs := s.pairs, err := s.err, trust := s.trust, free := s.free })

def TrayBus_w10 : State := TS ModState.ready fun s =>   nobus     { pending := s.pending, top := s.top, clk := s.clk, tiles := s.tiles, mem := s.mem, mmu := s.mmu, eng := s.eng, gz := s.gz, cmd := s.cmd, ctxs := s.ctxs, cads := s.cads, pow := s.pow, gvn := s.gvn,       res :=         have __src := s.res;         { convEn := __src.convEn, bleedEn := __src.bleedEn, sweepMs := __src.sweepMs, settleUs := __src.settleUs, pinTarget := __src.pinTarget, chgLim := __src.chgLim, disLim := __src.disLim, mode := __src.mode, ring := __src.ring, ident := __src.ident, needsLearn := __src.needsLearn, eoc := __src.eoc, eod := __src.eod, splits := __src.splits, learnDq := __src.learnDq, raw := __src.raw, sorPct := __src.sorPct, chgStop := __src.chgStop, disStop := __src.disStop, zHigh := __src.zHigh, zLow := __src.zLow, hot := __src.hot, tempOff := __src.tempOff, chgKeep := __src.chgKeep, disKeep := __src.disKeep, shutOff := __src.shutOff, unmeasured := __src.unmeasured, under := __src.under, interlock := __src.interlock, enumDue := __src.enumDue, settled := __src.settled, monitors := __src.monitors, cells := __src.cells, tag := __src.tag, sample := __src.sample, last := __src.last, sample2 := __src.sample2, splitMons := __src.splitMons, readback := __src.readback, lastSweep := __src.lastSweep, first := __src.first, lastSplit := __src.lastSplit, charge := __src.charge, restSince := __src.restSince, restLearn := __src.restLearn, anchor := __src.anchor },       rfw := s.rfw, clm := s.clm, pairs := s.pairs, err := s.err, trust := s.trust, free := s.free }

theorem met_TrayBus_1 :
    (TrayBus_w1.Inv) ∧
    (TrayBus_w1.top.busLost = true ∨ TrayBus_w1.top.st = ModState.off) ∧
    (TrayBus_w1.top.st = ModState.off) ∧
    (TrayBus_w1.top.st.firmware = false) :=
  by refine ⟨inv_of (by decide +kernel), ?_⟩ <;> and_intros <;> decide +kernel

theorem met_TrayBus_2 :
    (TrayBus_w2.Inv) ∧
    (TrayBus_w2.top.busLost = false) ∧
    (TrayBus_w2.top.st ≠ ModState.off) ∧
    (TrayBus_w2.res.convEn = true ∧ TrayBus_w2.res.interlock = true ∧ TrayBus_w2.res.disStop = false ∧ TrayBus_w2.res.zLow = false) ∧
    (156250000 ≤ BitVec.toNat (TrayBus_w2.clk.gt - TrayBus_w2.top.busGt)) ∧
    (2 ∈ TrayBus_w2.gvn.forcedBy) ∧
    (TrayBus_w2.top.busLost = true ∨ TrayBus_w2.res.mode ≠ ConvMode.node ∨ ¬156250 ≤ BitVec.toNat (TrayBus_w2.clk.gt - TrayBus_w2.top.busGt)) ∧
    (TrayBus_w2.top.busLost = false ∨ (match Config.variant with | Variant.full => 6000 | Variant.light => 3000) < TrayBus_w2.res.rep ∨ TrayBus_w2.top.st.firmware = false) ∧
    (TrayBus_w2.top.st.firmware = true) :=
  by refine ⟨inv_of (by decide +kernel), ?_, ?_, ?_, ?_, ?_, ?_, (by cases Config.variant <;> decide +kernel), ?_⟩ <;> decide +kernel

theorem met_TrayBus_3 :
    (TrayBus_w3.Inv) ∧
    (TrayBus_w3.top.busLost = true ∨ ¬156250000 ≤ BitVec.toNat (TrayBus_w3.clk.gt - TrayBus_w3.top.busGt) ∨ ¬2 ∈ TrayBus_w3.gvn.forcedBy) ∧
    (TrayBus_w3.top.busLost = true) ∧
    (TrayBus_w3.top.st ≠ ModState.off) ∧
    (0 ≤ (match Config.variant with | Variant.full => 24 | Variant.light => 12) * 2200) :=
  by refine ⟨inv_of (by decide +kernel), ?_, ?_, ?_, (by cases Config.variant <;> decide +kernel)⟩ <;> decide +kernel

theorem met_TrayBus_4 :
    (TrayBus_w4.Inv) ∧
    (TrayBus_w4.top.busLost = false) ∧
    (TrayBus_w4.top.st ≠ ModState.off) ∧
    (¬(TrayBus_w4.res.convEn = true ∧ TrayBus_w4.res.interlock = true ∧ TrayBus_w4.res.disStop = false ∧ TrayBus_w4.res.zLow = false)) :=
  by refine ⟨inv_of (by decide +kernel), ?_⟩ <;> and_intros <;> decide +kernel

theorem met_TrayBus_5 :
    (TrayBus_w5.Inv) ∧
    (TrayBus_w5.top.busLost = false) ∧
    (TrayBus_w5.res.mode = ConvMode.node) ∧
    (156250 ≤ BitVec.toNat (TrayBus_w5.clk.gt - TrayBus_w5.top.busGt)) ∧
    (TrayBus_w5.top.st ≠ ModState.off) :=
  by refine ⟨inv_of (by decide +kernel), ?_⟩ <;> and_intros <;> decide +kernel

theorem met_TrayBus_6 :
    (TrayBus_w6.Inv) ∧
    (TrayBus_w6.top.busLost = false) ∧
    (TrayBus_w6.res.mode = ConvMode.node) ∧
    (156250 ≤ BitVec.toNat (TrayBus_w6.clk.gt - TrayBus_w6.top.busGt)) ∧
    (TrayBus_w6.top.st ≠ ModState.off) :=
  by refine ⟨inv_of (by decide +kernel), ?_⟩ <;> and_intros <;> decide +kernel

theorem met_TrayBus_7 :
    (TrayBus_w7.Inv) ∧
    (TrayBus_w7.top.busLost = false) ∧
    (TrayBus_w7.res.mode = ConvMode.node) ∧
    (156250 ≤ BitVec.toNat (TrayBus_w7.clk.gt - TrayBus_w7.top.busGt)) ∧
    (TrayBus_w7.top.st ≠ ModState.off) :=
  by refine ⟨inv_of (by decide +kernel), ?_⟩ <;> and_intros <;> decide +kernel

theorem met_TrayBus_8 :
    (TrayBus_w8.Inv) ∧
    (TrayBus_w8.top.busLost = true) ∧
    (TrayBus_w8.res.rep ≤ match Config.variant with | Variant.full => 6000 | Variant.light => 3000) ∧
    (TrayBus_w8.top.st.firmware = true) ∧
    (TrayBus_w8.clm.watchdog = false) ∧
    (TrayBus_w8.cads = []) :=
  by refine ⟨inv_of (by decide +kernel), ?_, (by cases Config.variant <;> decide +kernel), ?_⟩ <;> and_intros <;> decide +kernel

theorem met_TrayBus_9 :
    (TrayBus_w9.Inv) ∧
    (TrayBus_w9.top.busLost = true) :=
  by refine ⟨inv_of (by decide +kernel), ?_⟩ <;> decide +kernel

theorem met_TrayBus_10 :
    (TrayBus_w10.Inv) ∧
    (TrayBus_w10.top.busLost = true) ∧
    (TrayBus_w10.res.rep ≤ match Config.variant with | Variant.full => 6000 | Variant.light => 3000) ∧
    (TrayBus_w10.top.st.firmware = true) ∧
    (TrayBus_w10.clm.watchdog = false) ∧
    (TrayBus_w10.cads = []) :=
  by refine ⟨inv_of (by decide +kernel), ?_, (by cases Config.variant <;> decide +kernel), ?_⟩ <;> and_intros <;> decide +kernel

def Monitors_w1 : State := TS

def Monitors_w2 : State := mo m0

theorem met_Monitors_1 :
    (Monitors_w1.Inv) ∧
    ((BitVec.extractLsb' 56 4 1152921504607176971#64).toNat = 0 ∨ (BitVec.extractLsb' 56 4 1152921504607176971#64).toNat = 15) ∧
    (ringGood 1152921504607176971#64 = false ∨ ((BitVec.extractLsb' 60 4 1152921504607176971#64).toNat = 0 ∨ 10 < (BitVec.extractLsb' 60 4 1152921504607176971#64).toNat) ∨ (BitVec.extractLsb' 60 4 1152921504607176971#64).toNat = 1 ∧ decide ((BitVec.extractLsb' 16 32 1152921504607176971#64).toNat ≠ 0) = true) :=
  by refine ⟨inv_of (by decide +kernel), ?_, (by first | exact .inr (by decide +kernel) | exact .inl (ringGood_of (by decide +kernel)))⟩ <;> decide +kernel

theorem met_Monitors_2 :
    (Monitors_w1.Inv) ∧
    (ringGood 1152921504606849335#64 = true) ∧
    ((BitVec.extractLsb' 60 4 1152921504606849335#64).toNat ≠ 2) ∧
    (¬((BitVec.extractLsb' 60 4 1152921504606849335#64).toNat = 0 ∨ 10 < (BitVec.extractLsb' 60 4 1152921504606849335#64).toNat)) ∧
    ((BitVec.extractLsb' 60 4 1152921504606849335#64).toNat ≠ 3) ∧
    ((BitVec.extractLsb' 60 4 1152921504606849335#64).toNat ≠ 4) ∧
    ((BitVec.extractLsb' 60 4 1152921504606849335#64).toNat ≠ 5) ∧
    ((BitVec.extractLsb' 60 4 1152921504606849335#64).toNat ≠ 6) ∧
    ((BitVec.extractLsb' 60 4 1152921504606849335#64).toNat ≠ 7) ∧
    (ringGood 1152921504606849335#64 = true ∧ ((BitVec.extractLsb' 56 4 1152921504606849335#64).toNat = 0 ∨ (BitVec.extractLsb' 56 4 1152921504606849335#64).toNat = 15)) ∧
    ((BitVec.extractLsb' 60 4 1152921504606849335#64).toNat = 1) ∧
    ((BitVec.extractLsb' 16 32 1152921504606849335#64).toNat = 0) :=
  by refine ⟨inv_of (by decide +kernel), ringGood_of (by decide +kernel), ?_, ?_, ?_, ?_, ?_, ?_, ?_,
   ⟨ringGood_of (by decide +kernel), by decide +kernel⟩, ?_⟩ <;> and_intros <;> decide +kernel

theorem met_Monitors_3 :
    (Monitors_w1.Inv) ∧
    ((BitVec.extractLsb' 56 4 2541#64).toNat = 0 ∨ (BitVec.extractLsb' 56 4 2541#64).toNat = 15) ∧
    (ringGood 2541#64 = false ∨ ((BitVec.extractLsb' 60 4 2541#64).toNat = 0 ∨ 10 < (BitVec.extractLsb' 60 4 2541#64).toNat) ∨ (BitVec.extractLsb' 60 4 2541#64).toNat = 2 ∧ false = true) ∧
    (ringGood 2541#64 = false ∨ ((BitVec.extractLsb' 60 4 2541#64).toNat = 0 ∨ 10 < (BitVec.extractLsb' 60 4 2541#64).toNat) ∨ (BitVec.extractLsb' 60 4 2541#64).toNat = 3 ∧ decide ((BitVec.extractLsb' 48 8 2541#64).toNat ≠ 0 ∨ 2 ^ 20 ≤ (BitVec.extractLsb' 16 32 2541#64).toNat) = true) ∧
    (ringGood 2541#64 = false ∨ ((BitVec.extractLsb' 60 4 2541#64).toNat = 0 ∨ 10 < (BitVec.extractLsb' 60 4 2541#64).toNat) ∨ (BitVec.extractLsb' 60 4 2541#64).toNat = 4 ∧ decide ((BitVec.extractLsb' 48 8 2541#64).toNat ≠ 0 ∨ (BitVec.extractLsb' 16 32 2541#64).toNat ≠ 0) = true) ∧
    (ringGood 2541#64 = false ∨ ((BitVec.extractLsb' 60 4 2541#64).toNat = 0 ∨ 10 < (BitVec.extractLsb' 60 4 2541#64).toNat) ∨ (BitVec.extractLsb' 60 4 2541#64).toNat = 5 ∧ decide ((BitVec.extractLsb' 48 8 2541#64).toNat ≠ 0 ∨ (BitVec.extractLsb' 16 32 2541#64).toNat ≠ 0) = true) ∧
    (ringGood 2541#64 = false ∨ ((BitVec.extractLsb' 60 4 2541#64).toNat = 0 ∨ 10 < (BitVec.extractLsb' 60 4 2541#64).toNat) ∨ (BitVec.extractLsb' 60 4 2541#64).toNat = 6 ∧ decide ((BitVec.extractLsb' 48 8 2541#64).toNat ≠ 0 ∨ 16 ≤ (BitVec.extractLsb' 16 32 2541#64).toNat) = true) ∧
    (ringGood 2541#64 = false ∨ ((BitVec.extractLsb' 60 4 2541#64).toNat = 0 ∨ 10 < (BitVec.extractLsb' 60 4 2541#64).toNat) ∨ (BitVec.extractLsb' 60 4 2541#64).toNat = 7 ∧ decide ((BitVec.extractLsb' 48 8 2541#64).toNat ≠ 0 ∨ (BitVec.extractLsb' 16 32 2541#64).toNat ≠ 0) = true) :=
  by refine ⟨inv_of (by decide +kernel), ?_, (by first | exact .inr (by decide +kernel) | exact .inl (ringGood_of (by decide +kernel))),
   (by first | exact .inr (by decide +kernel) | exact .inl (ringGood_of (by decide +kernel))),
   (by first | exact .inr (by decide +kernel) | exact .inl (ringGood_of (by decide +kernel))),
   (by first | exact .inr (by decide +kernel) | exact .inl (ringGood_of (by decide +kernel))),
   (by first | exact .inr (by decide +kernel) | exact .inl (ringGood_of (by decide +kernel))),
   (by first | exact .inr (by decide +kernel) | exact .inl (ringGood_of (by decide +kernel)))⟩ <;> decide +kernel

theorem met_Monitors_4 :
    (Monitors_w1.Inv) ∧
    (ringGood 2305983746706180471#64 = true ∧ ((BitVec.extractLsb' 56 4 2305983746706180471#64).toNat = 0 ∨ (BitVec.extractLsb' 56 4 2305983746706180471#64).toNat = 15)) ∧
    ((BitVec.extractLsb' 60 4 2305983746706180471#64).toNat = 2) ∧
    (ringGood 2305983746706180471#64 = true) ∧
    ((BitVec.extractLsb' 60 4 2305983746706180471#64).toNat ≠ 1) ∧
    (¬((BitVec.extractLsb' 60 4 2305983746706180471#64).toNat = 0 ∨ 10 < (BitVec.extractLsb' 60 4 2305983746706180471#64).toNat)) :=
  by refine ⟨inv_of (by decide +kernel), ⟨ringGood_of (by decide +kernel), by decide +kernel⟩, ?_, ringGood_of (by decide +kernel), ?_⟩ <;> and_intros <;> decide +kernel

theorem met_Monitors_5 :
    (Monitors_w1.Inv) ∧
    (ringGood 1369094286720633092#64 = false ∨ (BitVec.extractLsb' 60 4 1369094286720633092#64).toNat = 1 ∨ (BitVec.extractLsb' 60 4 1369094286720633092#64).toNat = 0 ∨ 10 < (BitVec.extractLsb' 60 4 1369094286720633092#64).toNat) ∧
    ((BitVec.extractLsb' 56 4 1369094286720633092#64).toNat ≠ 0) ∧
    ((BitVec.extractLsb' 56 4 1369094286720633092#64).toNat ≠ 15) :=
  by refine ⟨inv_of (by decide +kernel), (by first | exact .inr (by decide +kernel) | exact .inl (ringGood_of (by decide +kernel))), ?_⟩ <;> and_intros <;> decide +kernel

theorem met_Monitors_6 :
    (Monitors_w1.Inv) ∧
    (ringGood 14339461213547661652#64 = false ∨ (BitVec.extractLsb' 60 4 14339461213547661652#64).toNat = 2 ∨ (BitVec.extractLsb' 60 4 14339461213547661652#64).toNat = 0 ∨ 10 < (BitVec.extractLsb' 60 4 14339461213547661652#64).toNat) ∧
    ((BitVec.extractLsb' 56 4 14339461213547661652#64).toNat ≠ 0) ∧
    ((BitVec.extractLsb' 56 4 14339461213547661652#64).toNat ≠ 15) ∧
    (ringGood 14339461213547661652#64 = false ∨ (BitVec.extractLsb' 60 4 14339461213547661652#64).toNat = 3 ∨ (BitVec.extractLsb' 60 4 14339461213547661652#64).toNat = 0 ∨ 10 < (BitVec.extractLsb' 60 4 14339461213547661652#64).toNat) ∧
    (ringGood 14339461213547661652#64 = false ∨ (BitVec.extractLsb' 60 4 14339461213547661652#64).toNat = 4 ∨ (BitVec.extractLsb' 60 4 14339461213547661652#64).toNat = 0 ∨ 10 < (BitVec.extractLsb' 60 4 14339461213547661652#64).toNat) ∧
    (ringGood 14339461213547661652#64 = false ∨ (BitVec.extractLsb' 60 4 14339461213547661652#64).toNat = 6 ∨ (BitVec.extractLsb' 60 4 14339461213547661652#64).toNat = 0 ∨ 10 < (BitVec.extractLsb' 60 4 14339461213547661652#64).toNat) ∧
    (ringGood 14339461213547661652#64 = false ∨ (BitVec.extractLsb' 60 4 14339461213547661652#64).toNat = 7 ∨ (BitVec.extractLsb' 60 4 14339461213547661652#64).toNat = 0 ∨ 10 < (BitVec.extractLsb' 60 4 14339461213547661652#64).toNat) ∧
    (ringGood 14339461213547661652#64 = false ∨ (BitVec.extractLsb' 60 4 14339461213547661652#64).toNat = 5 ∨ (BitVec.extractLsb' 60 4 14339461213547661652#64).toNat = 0 ∨ 10 < (BitVec.extractLsb' 60 4 14339461213547661652#64).toNat) :=
  by refine ⟨inv_of (by decide +kernel), (by first | exact .inr (by decide +kernel) | exact .inl (ringGood_of (by decide +kernel))), ?_, ?_,
   (by first | exact .inr (by decide +kernel) | exact .inl (ringGood_of (by decide +kernel))),
   (by first | exact .inr (by decide +kernel) | exact .inl (ringGood_of (by decide +kernel))),
   (by first | exact .inr (by decide +kernel) | exact .inl (ringGood_of (by decide +kernel))),
   (by first | exact .inr (by decide +kernel) | exact .inl (ringGood_of (by decide +kernel))),
   (by first | exact .inr (by decide +kernel) | exact .inl (ringGood_of (by decide +kernel)))⟩ <;> decide +kernel

theorem met_Monitors_7 :
    (Monitors_w2.Inv) ∧
    (ringGood 3458764514148233992#64 = true ∧ ((BitVec.extractLsb' 56 4 3458764514148233992#64).toNat = 0 ∨ (BitVec.extractLsb' 56 4 3458764514148233992#64).toNat = 15)) ∧
    ((BitVec.extractLsb' 60 4 3458764514148233992#64).toNat = 3) ∧
    ((BitVec.extractLsb' 48 8 3458764514148233992#64).toNat = 0) ∧
    ((BitVec.extractLsb' 16 32 3458764514148233992#64).toNat < 2 ^ 20) ∧
    ([1, 2, 3, 4, 5, 6].length = 6) ∧
    ([-1, 250].length = 2) ∧
    (({ Monitors_w2.monitor ↑2 with clocked := true } : Monitor).sampled = some (BitVec.ofNat 8 (BitVec.extractLsb' 8 8 3458764514148233992#64).toNat)) :=
  by refine ⟨inv_of (by decide +kernel), ⟨ringGood_of (by decide +kernel), by decide +kernel⟩, ?_⟩ <;> and_intros <;> decide +kernel

theorem met_Monitors_8 :
    (Monitors_w1.Inv) ∧
    (ringGood 3458764514148233992#64 = true ∧ ((BitVec.extractLsb' 56 4 3458764514148233992#64).toNat = 0 ∨ (BitVec.extractLsb' 56 4 3458764514148233992#64).toNat = 15)) ∧
    ((BitVec.extractLsb' 60 4 3458764514148233992#64).toNat = 3) ∧
    ((BitVec.extractLsb' 48 8 3458764514148233992#64).toNat = 0) ∧
    ((BitVec.extractLsb' 16 32 3458764514148233992#64).toNat < 2 ^ 20) ∧
    ([1, 2, 3, 4, 5, 6].length = 6) ∧
    ([-1, 250].length = 2) ∧
    (({ Monitors_w1.monitor ↑2 with clocked := true } : Monitor).sampled ≠ some (BitVec.ofNat 8 (BitVec.extractLsb' 8 8 3458764514148233992#64).toNat)) :=
  by refine ⟨inv_of (by decide +kernel), ⟨ringGood_of (by decide +kernel), by decide +kernel⟩, ?_⟩ <;> and_intros <;> decide +kernel

theorem met_Monitors_9 :
    (Monitors_w1.Inv) ∧
    (ringGood 5692549928996309259#64 = true ∧ ((BitVec.extractLsb' 56 4 5692549928996309259#64).toNat = 0 ∨ (BitVec.extractLsb' 56 4 5692549928996309259#64).toNat = 15)) ∧
    ((BitVec.extractLsb' 60 4 5692549928996309259#64).toNat = 4) ∧
    ((BitVec.extractLsb' 48 8 5692549928996309259#64).toNat = 0) ∧
    ((BitVec.extractLsb' 16 32 5692549928996309259#64).toNat = 0) :=
  by refine ⟨inv_of (by decide +kernel), ⟨ringGood_of (by decide +kernel), by decide +kernel⟩, ?_⟩ <;> and_intros <;> decide +kernel

theorem met_Monitors_10 :
    (Monitors_w1.Inv) ∧
    (ringGood 5764607523034237230#64 = true ∧ ((BitVec.extractLsb' 56 4 5764607523034237230#64).toNat = 0 ∨ (BitVec.extractLsb' 56 4 5764607523034237230#64).toNat = 15)) ∧
    ((BitVec.extractLsb' 60 4 5764607523034237230#64).toNat = 5) ∧
    ((BitVec.extractLsb' 48 8 5764607523034237230#64).toNat = 0) ∧
    ((BitVec.extractLsb' 16 32 5764607523034237230#64).toNat = 0) :=
  by refine ⟨inv_of (by decide +kernel), ⟨ringGood_of (by decide +kernel), by decide +kernel⟩, ?_⟩ <;> and_intros <;> decide +kernel

theorem met_Monitors_11 :
    (Monitors_w1.Inv) ∧
    (ringGood 7998392938210134381#64 = true ∧ ((BitVec.extractLsb' 56 4 7998392938210134381#64).toNat = 0 ∨ (BitVec.extractLsb' 56 4 7998392938210134381#64).toNat = 15)) ∧
    ((BitVec.extractLsb' 60 4 7998392938210134381#64).toNat = 6) ∧
    ((BitVec.extractLsb' 48 8 7998392938210134381#64).toNat = 0) ∧
    ((BitVec.extractLsb' 16 32 7998392938210134381#64).toNat < 16) :=
  by refine ⟨inv_of (by decide +kernel), ⟨ringGood_of (by decide +kernel), by decide +kernel⟩, ?_⟩ <;> and_intros <;> decide +kernel

theorem met_Monitors_12 :
    (Monitors_w1.Inv) ∧
    (ringGood 9151314442816850250#64 = true ∧ ((BitVec.extractLsb' 56 4 9151314442816850250#64).toNat = 0 ∨ (BitVec.extractLsb' 56 4 9151314442816850250#64).toNat = 15)) ∧
    ((BitVec.extractLsb' 60 4 9151314442816850250#64).toNat = 7) ∧
    ((BitVec.extractLsb' 48 8 9151314442816850250#64).toNat = 0) ∧
    ((BitVec.extractLsb' 16 32 9151314442816850250#64).toNat = 0) :=
  by refine ⟨inv_of (by decide +kernel), ⟨ringGood_of (by decide +kernel), by decide +kernel⟩, ?_⟩ <;> and_intros <;> decide +kernel

def RingManager_w1 : State := TS

def RingManager_w2 : State := TS ModState.off

def RingManager_w4 : State := rq 8214565720323787122 1

def RingManager_w5 : State := rq 1298162592589547919 2

def RingManager_w6 : State := rq 2451084097196722674 3

def RingManager_w7 : State := rq 8214565720323787122 1 fun s =>   { pending := s.pending, top := s.top, clk := s.clk, tiles := s.tiles, mem := s.mem, mmu := s.mmu, eng := s.eng, gz := s.gz, cmd := s.cmd, ctxs := s.ctxs, cads := s.cads, pow := s.pow, gvn := s.gvn, res := s.res,     rfw :=       have __src := s.rfw;       { req := __src.req, wire := __src.wire, todo := __src.todo, block := [1, 2, 3], gotV := __src.gotV, gotT := __src.gotT, learn := __src.learn, auto := __src.auto, autoDq := __src.autoDq, wroteGt := __src.wroteGt, wroteCycles := __src.wroteCycles, cycles := __src.cycles, through := __src.through, serials := __src.serials, hostCopy := __src.hostCopy, hostSerials := __src.hostSerials },     clm := s.clm, pairs := s.pairs, err := s.err, trust := s.trust, free := s.free }

def RingManager_w8 : State := TS ModState.running fun s =>   { pending := s.pending, top := s.top, clk := s.clk, tiles := s.tiles, mem := s.mem, mmu := s.mmu, eng := s.eng, gz := s.gz, cmd := s.cmd, ctxs := s.ctxs, cads := s.cads, pow := s.pow, gvn := s.gvn,     res :=       have __src := s.res;       { convEn := __src.convEn, bleedEn := __src.bleedEn, sweepMs := __src.sweepMs, settleUs := __src.settleUs, pinTarget := __src.pinTarget, chgLim := __src.chgLim, disLim := __src.disLim, mode := __src.mode, ring := Ring.broken, ident := __src.ident, needsLearn := __src.needsLearn, eoc := __src.eoc, eod := __src.eod, splits := __src.splits, learnDq := __src.learnDq, raw := __src.raw, rep := __src.rep, sorPct := __src.sorPct, chgStop := __src.chgStop, disStop := __src.disStop, zHigh := __src.zHigh, zLow := __src.zLow, hot := __src.hot, tempOff := __src.tempOff, chgKeep := __src.chgKeep, disKeep := __src.disKeep, shutOff := __src.shutOff, unmeasured := __src.unmeasured, under := __src.under, interlock := __src.interlock, enumDue := __src.enumDue, settled := __src.settled, monitors := __src.monitors, cells := __src.cells, tag := __src.tag, sample := __src.sample, last := __src.last, sample2 := __src.sample2, splitMons := __src.splitMons, readback := __src.readback, lastSweep := __src.lastSweep, first := __src.first, lastSplit := __src.lastSplit, charge := __src.charge, restSince := __src.restSince, restLearn := __src.restLearn, anchor := __src.anchor },     rfw := s.rfw, clm := s.clm, pairs := s.pairs, err := s.err, trust := s.trust, free := s.free }

def RingManager_w9 : State := TS ModState.running fun s =>   { pending := s.pending, top := s.top, clk := s.clk, tiles := s.tiles, mem := s.mem, mmu := s.mmu, eng := s.eng, gz := s.gz, cmd := s.cmd, ctxs := s.ctxs, cads := s.cads, pow := s.pow, gvn := s.gvn,     res :=       have __src := s.res;       { convEn := __src.convEn, bleedEn := __src.bleedEn, sweepMs := __src.sweepMs, settleUs := __src.settleUs, pinTarget := __src.pinTarget, chgLim := __src.chgLim, disLim := __src.disLim, mode := __src.mode, ring := Ring.broken, ident := __src.ident, needsLearn := __src.needsLearn, eoc := __src.eoc, eod := __src.eod, splits := __src.splits, learnDq := __src.learnDq, raw := __src.raw, rep := __src.rep, sorPct := __src.sorPct, chgStop := __src.chgStop, disStop := __src.disStop, zHigh := __src.zHigh, zLow := __src.zLow, hot := __src.hot, tempOff := __src.tempOff, chgKeep := __src.chgKeep, disKeep := __src.disKeep, shutOff := __src.shutOff, unmeasured := __src.unmeasured, under := __src.under, interlock := __src.interlock, enumDue := __src.enumDue, settled := __src.settled, monitors := [(1, { corner := 0, bleed := 3 })], cells := __src.cells, tag := 8, sample := some { millivolts := 1, milliamps := [0, 0, 0, 0], charge := 0 }, last := __src.last, sample2 := __src.sample2, splitMons := __src.splitMons, readback := __src.readback, lastSweep := __src.lastSweep, first := __src.first, lastSplit := __src.lastSplit, charge := __src.charge, restSince := __src.restSince, restLearn := __src.restLearn, anchor := __src.anchor },     rfw :=       have __src := s.rfw;       { req := __src.req, wire := __src.wire, todo := [(1, 8214565720323787122)], block := __src.block, gotV := __src.gotV, gotT := __src.gotT, learn := __src.learn, auto := __src.auto, autoDq := __src.autoDq, wroteGt := __src.wroteGt, wroteCycles := __src.wroteCycles, cycles := __src.cycles, through := __src.through, serials := __src.serials, hostCopy := __src.hostCopy, hostSerials := __src.hostSerials },     clm := s.clm, pairs := s.pairs, err := s.err, trust := s.trust, free := s.free }

def RingManager_w10 : State := TS ModState.running fun s =>   { pending := s.pending, top := s.top, clk := s.clk, tiles := s.tiles, mem := s.mem, mmu := s.mmu, eng := s.eng, gz := s.gz, cmd := s.cmd, ctxs := s.ctxs, cads := s.cads, pow := s.pow, gvn := s.gvn,     res :=       have __src := s.res;       { convEn := __src.convEn, bleedEn := __src.bleedEn, sweepMs := __src.sweepMs, settleUs := __src.settleUs, pinTarget := __src.pinTarget, chgLim := __src.chgLim, disLim := __src.disLim, mode := __src.mode, ring := __src.ring, ident := __src.ident, needsLearn := __src.needsLearn, eoc := __src.eoc, eod := __src.eod, splits := __src.splits, learnDq := __src.learnDq, raw := __src.raw, rep := __src.rep, sorPct := __src.sorPct, chgStop := __src.chgStop, disStop := __src.disStop, zHigh := __src.zHigh, zLow := __src.zLow, hot := __src.hot, tempOff := __src.tempOff, chgKeep := __src.chgKeep, disKeep := __src.disKeep, shutOff := __src.shutOff, unmeasured := __src.unmeasured, under := __src.under, interlock := __src.interlock, enumDue := some s.clk.gt, settled := __src.settled, monitors := __src.monitors, cells := __src.cells, tag := __src.tag, sample := __src.sample, last := __src.last, sample2 := __src.sample2, splitMons := __src.splitMons, readback := __src.readback, lastSweep := __src.lastSweep, first := __src.first, lastSplit := __src.lastSplit, charge := __src.charge, restSince := __src.restSince, restLearn := __src.restLearn, anchor := __src.anchor },     rfw := s.rfw, clm := s.clm, pairs := s.pairs, err := s.err, trust := s.trust, free := s.free }

def RingManager_w11 : State := TS ModState.running fun s =>   { pending := s.pending, top := s.top, clk := s.clk, tiles := s.tiles, mem := s.mem, mmu := s.mmu, eng := s.eng, gz := s.gz, cmd := s.cmd, ctxs := s.ctxs, cads := s.cads, pow := s.pow, gvn := s.gvn,     res :=       have __src := s.res;       { convEn := __src.convEn, bleedEn := __src.bleedEn, sweepMs := __src.sweepMs, settleUs := __src.settleUs, pinTarget := __src.pinTarget, chgLim := __src.chgLim, disLim := __src.disLim, mode := __src.mode, ring := __src.ring, ident := __src.ident, needsLearn := __src.needsLearn, eoc := __src.eoc, eod := __src.eod, splits := __src.splits, learnDq := __src.learnDq, raw := __src.raw, rep := __src.rep, sorPct := __src.sorPct, chgStop := __src.chgStop, disStop := __src.disStop, zHigh := __src.zHigh, zLow := __src.zLow, hot := __src.hot, tempOff := __src.tempOff, chgKeep := __src.chgKeep, disKeep := __src.disKeep, shutOff := __src.shutOff, unmeasured := __src.unmeasured, under := __src.under, interlock := __src.interlock, enumDue := some (s.clk.gt - 156250000), settled := __src.settled, monitors := __src.monitors, cells := __src.cells, tag := __src.tag, sample := __src.sample, last := __src.last, sample2 := __src.sample2, splitMons := __src.splitMons, readback := __src.readback, lastSweep := __src.lastSweep, first := __src.first, lastSplit := __src.lastSplit, charge := __src.charge, restSince := __src.restSince, restLearn := __src.restLearn, anchor := __src.anchor },     rfw := s.rfw, clm := s.clm, pairs := s.pairs, err := s.err, trust := s.trust, free := s.free }

def RingManager_w12 : State := en (fun _ => (true, true)) id fun m => { corner := m.corner, bleed := m.bleed, paused := m.paused, nvBusy := m.nvBusy, naks := m.naks, tag := m.tag, volts := m.volts, temps := m.temps, nvAddr := m.nvAddr, nv := goodNv, hop0 := m.hop0, hop1 := m.hop1, clocked := m.clocked, reachable := m.reachable, seen0 := m.seen0, seen1 := m.seen1, from0 := m.from0, sampled := m.sampled }

def RingManager_w13 : State := en (fun _ => (true, true)) (fun _ => 1) fun m => { corner := m.corner, bleed := m.bleed, paused := m.paused, nvBusy := m.nvBusy, naks := m.naks, tag := m.tag, volts := m.volts, temps := m.temps, nvAddr := m.nvAddr, nv := blankNv, hop0 := m.hop0, hop1 := m.hop1, clocked := m.clocked, reachable := m.reachable, seen0 := m.seen0, seen1 := m.seen1, from0 := m.from0, sampled := m.sampled }

def RingManager_w14 : State := en (fun _ => (true, true)) id (fun m => { corner := m.corner, bleed := m.bleed, paused := m.paused, nvBusy := m.nvBusy, naks := m.naks, tag := m.tag, volts := m.volts, temps := m.temps, nvAddr := m.nvAddr, nv := blankNv, hop0 := m.hop0, hop1 := m.hop1, clocked := m.clocked, reachable := m.reachable, seen0 := m.seen0, seen1 := m.seen1, from0 := m.from0, sampled := m.sampled }) ModState.boot

def RingManager_w15 : State := en fun k => (decide (k < 2), decide (2 ≤ k))

def RingManager_w16 : State := en fun k => (decide (k < 2), false)

theorem met_RingManager_1 :
    (RingManager_w1.Inv) ∧
    (RingManager_w1.rfw.req = none) ∧
    (RingManager_w1.top.st.firmware = true) ∧
    (BitVec.toNat RingManager_w1.clk.gt % (156250 * RingManager_w1.res.sweepMs) = 0) ∧
    (RingManager_w1.res.ring ≠ Ring.down) ∧
    (RingManager_w1.top.busLost = false) ∧
    (RingManager_w1.res.enumDue = none) :=
  by refine ⟨inv_of (by decide +kernel), ?_⟩ <;> and_intros <;> decide +kernel

theorem met_RingManager_2 :
    (RingManager_w2.Inv) ∧
    (RingManager_w2.top.st.firmware = false ∨ BitVec.toNat RingManager_w2.clk.gt % (156250 * RingManager_w2.res.sweepMs) ≠ 0 ∨ RingManager_w2.res.ring = Ring.down) ∧
    (RingManager_w2.top.st.firmware = false) :=
  by refine ⟨inv_of (by decide +kernel), ?_⟩ <;> and_intros <;> decide +kernel

theorem met_RingManager_3 :
    (RingManager_w4.Inv) ∧
    (RingManager_w4.rfw.req = some (8214565720323787122#64, 2, 1)) ∧
    (¬((ringGood 1152921504606849335#64 = true ∧ (BitVec.extractLsb' 8 8 1152921504606849335#64).toNat = (BitVec.extractLsb' 8 8 8214565720323787122#64).toNat) ∧ (BitVec.extractLsb' 60 4 1152921504606849335#64).toNat = 8)) ∧
    (¬((ringGood 1152921504606849335#64 = true ∧ (BitVec.extractLsb' 8 8 1152921504606849335#64).toNat = (BitVec.extractLsb' 8 8 8214565720323787122#64).toNat) ∧ (BitVec.extractLsb' 60 4 1152921504606849335#64).toNat = 9 ∧ (BitVec.extractLsb' 60 4 8214565720323787122#64).toNat = 2)) ∧
    (¬((ringGood 1152921504606849335#64 = true ∧ (BitVec.extractLsb' 8 8 1152921504606849335#64).toNat = (BitVec.extractLsb' 8 8 8214565720323787122#64).toNat) ∧ (BitVec.extractLsb' 60 4 1152921504606849335#64).toNat = 10)) ∧
    (1 = 1) :=
  by refine ⟨inv_of (by decide +kernel), ?_, (fun h => absurd h.2 (by decide +kernel)), (fun h => absurd h.2 (by decide +kernel)),
   (fun h => absurd h.2 (by decide +kernel)), ?_⟩ <;> decide +kernel

theorem met_RingManager_4 :
    (RingManager_w4.Inv) ∧
    (RingManager_w4.rfw.req = some (8214565720323787122#64, 2, 1)) ∧
    (ringGood 9223392052853082408#64 = true ∧ (BitVec.extractLsb' 8 8 9223392052853082408#64).toNat = (BitVec.extractLsb' 8 8 8214565720323787122#64).toNat) ∧
    ((BitVec.extractLsb' 60 4 9223392052853082408#64).toNat = 8) ∧
    ((BitVec.extractLsb' 60 4 8214565720323787122#64).toNat = 7) ∧
    ((RingManager_w4.rfw.block ++ [BitVec.ofNat 32 (BitVec.extractLsb' 16 32 9223392052853082408#64).toNat]).length < 4) :=
  by refine ⟨inv_of (by decide +kernel), ?_, ⟨ringGood_of (by decide +kernel), by decide +kernel⟩, ?_⟩ <;> and_intros <;> decide +kernel

theorem met_RingManager_5 :
    (RingManager_w4.Inv) ∧
    (RingManager_w4.rfw.req = some (8214565720323787122#64, 2, 1)) ∧
    (ringGood 11529215046068472132#64 = true ∧ (BitVec.extractLsb' 8 8 11529215046068472132#64).toNat = (BitVec.extractLsb' 8 8 8214565720323787122#64).toNat) ∧
    ((BitVec.extractLsb' 60 4 11529215046068472132#64).toNat = 10) ∧
    (1 = 1) :=
  by refine ⟨inv_of (by decide +kernel), ?_, ⟨ringGood_of (by decide +kernel), by decide +kernel⟩, ?_⟩ <;> and_intros <;> decide +kernel

theorem met_RingManager_6 :
    (RingManager_w5.Inv) ∧
    (RingManager_w5.rfw.req = some (1298162592589547919#64, 2, 2)) ∧
    (ringGood 11529215046068472132#64 = true ∧ (BitVec.extractLsb' 8 8 11529215046068472132#64).toNat = (BitVec.extractLsb' 8 8 1298162592589547919#64).toNat) ∧
    ((BitVec.extractLsb' 60 4 11529215046068472132#64).toNat = 10) ∧
    (2 = 2) :=
  by refine ⟨inv_of (by decide +kernel), ?_, ⟨ringGood_of (by decide +kernel), by decide +kernel⟩, ?_⟩ <;> and_intros <;> decide +kernel

theorem met_RingManager_7 :
    (RingManager_w5.Inv) ∧
    (RingManager_w5.rfw.req = some (1298162592589547919#64, 2, 2)) ∧
    (ringGood 9223392052853082408#64 = true ∧ (BitVec.extractLsb' 8 8 9223392052853082408#64).toNat = (BitVec.extractLsb' 8 8 1298162592589547919#64).toNat) ∧
    ((BitVec.extractLsb' 60 4 9223392052853082408#64).toNat = 8) ∧
    ((BitVec.extractLsb' 60 4 1298162592589547919#64).toNat = 1) :=
  by refine ⟨inv_of (by decide +kernel), ?_, ⟨ringGood_of (by decide +kernel), by decide +kernel⟩, ?_⟩ <;> and_intros <;> decide +kernel

theorem met_RingManager_8 :
    (RingManager_w6.Inv) ∧
    (RingManager_w6.rfw.req = some (2451084097196722674#64, 2, 3)) ∧
    (ringGood 10376293541461625093#64 = true ∧ (BitVec.extractLsb' 8 8 10376293541461625093#64).toNat = (BitVec.extractLsb' 8 8 2451084097196722674#64).toNat) ∧
    ((BitVec.extractLsb' 60 4 10376293541461625093#64).toNat = 9) ∧
    ((BitVec.extractLsb' 60 4 2451084097196722674#64).toNat = 2) ∧
    (2 < 3) :=
  by refine ⟨inv_of (by decide +kernel), ?_, ⟨ringGood_of (by decide +kernel), by decide +kernel⟩, ?_⟩ <;> and_intros <;> decide +kernel

theorem met_RingManager_9 :
    (RingManager_w6.Inv) ∧
    (RingManager_w6.rfw.req = some (2451084097196722674#64, 2, 3)) ∧
    (ringGood 11529215046068472132#64 = true ∧ (BitVec.extractLsb' 8 8 11529215046068472132#64).toNat = (BitVec.extractLsb' 8 8 2451084097196722674#64).toNat) ∧
    ((BitVec.extractLsb' 60 4 11529215046068472132#64).toNat = 10) ∧
    (2 < 3) :=
  by refine ⟨inv_of (by decide +kernel), ?_, ⟨ringGood_of (by decide +kernel), by decide +kernel⟩, ?_⟩ <;> and_intros <;> decide +kernel

theorem met_RingManager_10 :
    (RingManager_w7.Inv) ∧
    (RingManager_w7.rfw.req = some (8214565720323787122#64, 2, 1)) ∧
    (ringGood 9223392052853082408#64 = true ∧ (BitVec.extractLsb' 8 8 9223392052853082408#64).toNat = (BitVec.extractLsb' 8 8 8214565720323787122#64).toNat) ∧
    ((BitVec.extractLsb' 60 4 9223392052853082408#64).toNat = 8) ∧
    ((BitVec.extractLsb' 60 4 8214565720323787122#64).toNat = 7) ∧
    (4 ≤ (RingManager_w7.rfw.block ++ [BitVec.ofNat 32 (BitVec.extractLsb' 16 32 9223392052853082408#64).toNat]).length) :=
  by refine ⟨inv_of (by decide +kernel), ?_, ⟨ringGood_of (by decide +kernel), by decide +kernel⟩, ?_⟩ <;> and_intros <;> decide +kernel

theorem met_RingManager_11 :
    (RingManager_w8.Inv) ∧
    (RingManager_w8.res.ring ≠ Ring.whole) ∧
    (¬(RingManager_w8.res.sample.isSome = true ∧ RingManager_w8.res.sample2 = none ∧ List.filter (fun m => (RingManager_w8.monitor m).reachable && decide ((RingManager_w8.monitor m).sampled ≠ some RingManager_w8.res.tag)) (List.range (match Config.variant with | Variant.full => 4 | Variant.light => 2)) ≠ [])) :=
  by refine ⟨inv_of (by decide +kernel), ?_, (by cases Config.variant <;> decide +kernel)⟩ <;> decide +kernel

theorem met_RingManager_12 :
    (RingManager_w9.Inv) :=
  inv_of (by decide +kernel)

theorem met_RingManager_13 :
    (RingManager_w10.Inv) ∧
    (RingManager_w10.top.st.firmware = true) ∧
    (RingManager_w10.res.enumDue = some gtA) ∧
    (BitVec.toNat (RingManager_w10.clk.gt - gtA) < 156250000) :=
  by refine ⟨inv_of (by decide +kernel), ?_⟩ <;> and_intros <;> decide +kernel

theorem met_RingManager_14 :
    (RingManager_w11.Inv) ∧
    (RingManager_w11.top.st.firmware = true) ∧
    (RingManager_w11.res.enumDue = some 937500000#64) ∧
    (156250000 ≤ BitVec.toNat (RingManager_w11.clk.gt - 937500000#64)) :=
  by refine ⟨inv_of (by decide +kernel), ?_⟩ <;> and_intros <;> decide +kernel

theorem met_RingManager_15 :
    (RingManager_w12.Inv) ∧
    (RingManager_w12.top.st.firmware = true) ∧
    (RingManager_w12.top.busLost = false) ∧
    (RingManager_w12.res.enumDue = none) :=
  by refine ⟨inv_of (by decide +kernel), ?_⟩ <;> and_intros <;> decide +kernel

theorem met_RingManager_16 :
    (RingManager_w13.Inv) ∧
    (RingManager_w13.top.st.firmware = true) ∧
    (RingManager_w13.top.busLost = false) ∧
    (RingManager_w13.res.enumDue = none) :=
  by refine ⟨inv_of (by decide +kernel), ?_⟩ <;> and_intros <;> decide +kernel

theorem met_RingManager_17 :
    (RingManager_w14.Inv) ∧
    (RingManager_w14.top.st.firmware = true) ∧
    (RingManager_w14.top.busLost = false) ∧
    (RingManager_w14.res.enumDue = none) :=
  by refine ⟨inv_of (by decide +kernel), ?_⟩ <;> and_intros <;> decide +kernel

theorem met_RingManager_18 :
    (RingManager_w15.Inv) ∧
    (RingManager_w15.top.st.firmware = true) ∧
    (RingManager_w15.top.busLost = false) ∧
    (RingManager_w15.res.enumDue = none) :=
  by refine ⟨inv_of (by decide +kernel), ?_⟩ <;> and_intros <;> decide +kernel

theorem met_RingManager_19 :
    (RingManager_w16.Inv) ∧
    (RingManager_w16.top.st.firmware = true) ∧
    (RingManager_w16.top.busLost = false) ∧
    (RingManager_w16.res.enumDue = none) :=
  by refine ⟨inv_of (by decide +kernel), ?_⟩ <;> and_intros <;> decide +kernel

end Tray

namespace Ctl1

def gtA : W64 := 0x41314CF0
def TS (st : ModState := .running) (f : State → State := id) : State := f { State.reset with
  top := { st := st, railsOff := false }, clk := { gt := gtA, locked := true }, clm := { claimA := 0x500000003, claimB := 2, loA := 7, loB := 7, ageA := 5, ageB := 5 }
  cmd := { link := .up, areaValid := true, area := 0x1000, slots := [(3, { st := .complete, gen := 4, op := .start, tag := 0x99, record := [1, 2, 3, 4, 5, 6, 7, 8] })], unsaved := [3] }, res := { ring := .whole, monitors := [(1, { reachable := false })] } }
def cl (c : Clm) (st : ModState := .running) : State := TS st fun s => { s with clm := c }
def dn : State := TS .ready fun s => { s with top := { s.top with ctlA := false, ctlB := false }, cmd := { s.cmd with link := .down } }
def setAll (x : Pair) (st : ModState := .running) : State := TS st fun s => ([4, 6, 9, 10].flatMap fun j => (List.range 3).map fun k => (j, k)).foldl (fun s p => s.setPair p.1 p.2 x) { s with pow := { s.pow with rails := s.pow.rails.map fun r => { r with log := [(0x1234, 0x56)] } } }

def Clusters_w1 : State := TS

def Clusters_w2 : State := cl { claimA := 5, ageA := 20000, ageB := 3 }

def Clusters_w3 : State := cl { claimA := 5, ageA := 625000, ageB := 20000 }

theorem met_Clusters_1 :
    (Clusters_w1.Inv) ∧
    (Clusters_w1.pathUp Path.aelconA = true) ∧
    (pathSecure Path.aelconA = true) ∧
    (¬Path.aelconA = if true = true then Path.aelconB else Path.aelconA) ∧
    (¬(Clusters_w1.top.st.firmware = true ∧ Clusters_w1.clm.watchdog = false ∧ (if decide (Clusters_w1.clm.claimA < Clusters_w1.clm.claimB) = true then Clusters_w1.clm.deadA else Clusters_w1.clm.deadB) = false ∧ (20000 ≤ if decide (Clusters_w1.clm.claimA < Clusters_w1.clm.claimB) = true then BitVec.toNat Clusters_w1.clm.ageB else BitVec.toNat Clusters_w1.clm.ageA) ∧ (if decide (Clusters_w1.clm.claimA < Clusters_w1.clm.claimB) = true then BitVec.toNat Clusters_w1.clm.ageB else BitVec.toNat Clusters_w1.clm.ageA) < 2 ^ 32 - 1)) ∧
    (¬(Clusters_w1.fwRuns = true ∧ (20000 ≤ if (!decide (Clusters_w1.clm.claimA < Clusters_w1.clm.claimB)) = true then BitVec.toNat Clusters_w1.clm.ageB else BitVec.toNat Clusters_w1.clm.ageA) ∧ (if (!decide (Clusters_w1.clm.claimA < Clusters_w1.clm.claimB)) = true then BitVec.toNat Clusters_w1.clm.ageB else BitVec.toNat Clusters_w1.clm.ageA) < 2 ^ 32 - 1)) ∧
    (¬(Clusters_w1.top.st.firmware = true ∧ Clusters_w1.clm.watchdog = false ∧ (625000 ≤ if decide (Clusters_w1.clm.claimA < Clusters_w1.clm.claimB) = true then BitVec.toNat Clusters_w1.clm.ageB else BitVec.toNat Clusters_w1.clm.ageA) ∧ (if decide (Clusters_w1.clm.claimA < Clusters_w1.clm.claimB) = true then BitVec.toNat Clusters_w1.clm.ageB else BitVec.toNat Clusters_w1.clm.ageA) < 2 ^ 32 - 1)) :=
  by refine ⟨inv_of (by decide +kernel), ?_⟩ <;> and_intros <;> decide +kernel

theorem met_Clusters_2 :
    (Clusters_w1.Inv) ∧
    (Clusters_w1.pathUp Path.aelconB = true) ∧
    (Path.aelconB = if true = true then Path.aelconB else Path.aelconA) ∧
    (Clusters_w1.clm.claimA < 6#32 ++ if true = true then Clusters_w1.clm.loB else Clusters_w1.clm.loA) ∧
    (Clusters_w1.clm.claimB < 6#32 ++ if true = true then Clusters_w1.clm.loB else Clusters_w1.clm.loA) :=
  by refine ⟨inv_of (by decide +kernel), ?_⟩ <;> and_intros <;> decide +kernel

theorem met_Clusters_3 :
    (Clusters_w1.Inv) ∧
    (Clusters_w1.pathUp Path.aelconB = true) ∧
    (Path.aelconB = if true = true then Path.aelconB else Path.aelconA) ∧
    (¬((Clusters_w1.clm.claimA < 1#32 ++ if true = true then Clusters_w1.clm.loB else Clusters_w1.clm.loA) ∧ Clusters_w1.clm.claimB < 1#32 ++ if true = true then Clusters_w1.clm.loB else Clusters_w1.clm.loA)) :=
  by refine ⟨inv_of (by decide +kernel), ?_⟩ <;> and_intros <;> decide +kernel

theorem met_Clusters_4 :
    (Clusters_w1.Inv) ∧
    (Clusters_w1.pathUp Path.bursen = true) ∧
    (pathSecure Path.bursen = false) :=
  by refine ⟨inv_of (by decide +kernel), ?_⟩ <;> and_intros <;> decide +kernel

theorem met_Clusters_5 :
    (dn.Inv) ∧
    (dn.pathUp Path.aelconA = false) :=
  by refine ⟨inv_of (by decide +kernel), ?_⟩ <;> decide +kernel

theorem met_Clusters_6 :
    (Clusters_w2.Inv) ∧
    (Clusters_w2.top.st.firmware = true ∧ Clusters_w2.clm.watchdog = false ∧ (if decide (Clusters_w2.clm.claimA < Clusters_w2.clm.claimB) = true then Clusters_w2.clm.deadA else Clusters_w2.clm.deadB) = false ∧ (20000 ≤ if decide (Clusters_w2.clm.claimA < Clusters_w2.clm.claimB) = true then BitVec.toNat Clusters_w2.clm.ageB else BitVec.toNat Clusters_w2.clm.ageA) ∧ (if decide (Clusters_w2.clm.claimA < Clusters_w2.clm.claimB) = true then BitVec.toNat Clusters_w2.clm.ageB else BitVec.toNat Clusters_w2.clm.ageA) < 2 ^ 32 - 1) ∧
    ((if decide (Clusters_w2.clm.claimA < Clusters_w2.clm.claimB) = true then Clusters_w2.clm.claimB else Clusters_w2.clm.claimA) ≠ BitVec.allOnes 64) :=
  by refine ⟨inv_of (by decide +kernel), ?_⟩ <;> and_intros <;> decide +kernel

theorem met_Clusters_7 :
    (Clusters_w3.Inv) ∧
    (Clusters_w3.fwRuns = true ∧ (20000 ≤ if (!decide (Clusters_w3.clm.claimA < Clusters_w3.clm.claimB)) = true then BitVec.toNat Clusters_w3.clm.ageB else BitVec.toNat Clusters_w3.clm.ageA) ∧ (if (!decide (Clusters_w3.clm.claimA < Clusters_w3.clm.claimB)) = true then BitVec.toNat Clusters_w3.clm.ageB else BitVec.toNat Clusters_w3.clm.ageA) < 2 ^ 32 - 1) ∧
    (Clusters_w3.top.st.firmware = true ∧ Clusters_w3.clm.watchdog = false ∧ (625000 ≤ if decide (Clusters_w3.clm.claimA < Clusters_w3.clm.claimB) = true then BitVec.toNat Clusters_w3.clm.ageB else BitVec.toNat Clusters_w3.clm.ageA) ∧ (if decide (Clusters_w3.clm.claimA < Clusters_w3.clm.claimB) = true then BitVec.toNat Clusters_w3.clm.ageB else BitVec.toNat Clusters_w3.clm.ageA) < 2 ^ 32 - 1) :=
  by refine ⟨inv_of (by decide +kernel), ?_⟩ <;> and_intros <;> decide +kernel

def Windows_w1 : State := TS

def Windows_w2 : State := setAll { auto := true, stride := 3, addr := 8 }

def Windows_w3 : State := setAll { status := 1, stride := 3, addr := 260, pend := some none }

def Windows_w4 : State := setAll { status := 1, addr := 4, pend := some none }

def Windows_w5 : State := setAll { status := 1, addr := 4, pend := some (some 77) }

def Windows_w6 : State := setAll { status := 1, addr := 4, pend := some (some 77) } ModState.boot

theorem met_Windows_1 :
    (dn.Inv) ∧
    (dn.pathUp Path.aelconA = false) :=
  by refine ⟨inv_of (by decide +kernel), ?_⟩ <;> decide +kernel

theorem met_Windows_2 :
    (Windows_w1.Inv) ∧
    (Windows_w1.pathUp Path.aelconA = true) ∧
    (pathSecure Path.aelconA = true) ∧
    (Path.aelconA = Path.aelconA) ∧
    ((Windows_w1.pair (match Window.rail with | Window.rail => 4 | Window.cmw => 6 | Window.exp => 9 | Window.gz => 10) ↑0).status ≠ 1) ∧
    ((Windows_w1.pair (match Window.rail with | Window.rail => 4 | Window.cmw => 6 | Window.exp => 9 | Window.gz => 10) ↑0).status ≠ 0 ∨ (Windows_w1.pair (match Window.rail with | Window.rail => 4 | Window.cmw => 6 | Window.exp => 9 | Window.gz => 10) ↑0).auto = false) ∧
    ((Windows_w1.pair (match Window.rail with | Window.rail => 4 | Window.cmw => 6 | Window.exp => 9 | Window.gz => 10) ↑0).pend = none) :=
  by refine ⟨inv_of (by decide +kernel), ?_⟩ <;> and_intros <;> decide +kernel

theorem met_Windows_3 :
    (Windows_w1.Inv) ∧
    (Windows_w1.pathUp Path.bursen = true) ∧
    (pathSecure Path.bursen = false) :=
  by refine ⟨inv_of (by decide +kernel), ?_⟩ <;> and_intros <;> decide +kernel

theorem met_Windows_4 :
    (Windows_w1.Inv) ∧
    (Windows_w1.pathUp Path.aelconB = true) ∧
    (pathSecure Path.aelconB = true) ∧
    (¬Path.aelconB = Path.aelconA) :=
  by refine ⟨inv_of (by decide +kernel), ?_⟩ <;> and_intros <;> decide +kernel

theorem met_Windows_5 :
    (Windows_w2.Inv) ∧
    (Windows_w2.pathUp Path.aelconA = true) ∧
    (pathSecure Path.aelconA = true) ∧
    (Path.aelconA = Path.aelconA) ∧
    ((Windows_w2.pair (match Window.rail with | Window.rail => 4 | Window.cmw => 6 | Window.exp => 9 | Window.gz => 10) ↑0).status = 0) ∧
    ((Windows_w2.pair (match Window.rail with | Window.rail => 4 | Window.cmw => 6 | Window.exp => 9 | Window.gz => 10) ↑0).auto = true) :=
  by refine ⟨inv_of (by decide +kernel), ?_⟩ <;> and_intros <;> decide +kernel

theorem met_Windows_6 :
    (Windows_w3.Inv) ∧
    (Windows_w3.pathUp Path.aelconA = true) ∧
    (pathSecure Path.aelconA = true) ∧
    (Path.aelconA = Path.aelconA) ∧
    ((Windows_w3.pair (match Window.rail with | Window.rail => 4 | Window.cmw => 6 | Window.exp => 9 | Window.gz => 10) ↑0).status = 1) :=
  by refine ⟨inv_of (by decide +kernel), ?_⟩ <;> and_intros <;> decide +kernel

theorem met_Windows_7 :
    (Windows_w4.Inv) ∧
    ((Windows_w4.pair (match Window.rail with | Window.rail => 4 | Window.cmw => 6 | Window.exp => 9 | Window.gz => 10) ↑0).pend = some none) ∧
    (Window.rail = Window.rail) ∧
    ((Windows_w4.pair (match Window.rail with | Window.rail => 4 | Window.cmw => 6 | Window.exp => 9 | Window.gz => 10) ↑0).addr.toNat < 13 * 1024) ∧
    ((Windows_w4.pair (match Window.rail with | Window.rail => 4 | Window.cmw => 6 | Window.exp => 9 | Window.gz => 10) ↑0).addr.toNat % 1024 < 512) ∧
    ((Windows_w4.pair (match Window.rail with | Window.rail => 4 | Window.cmw => 6 | Window.exp => 9 | Window.gz => 10) ↑0).addr.toNat % 4 = 0) ∧
    ((Windows_w4.rail ((Windows_w4.pair (match Window.rail with | Window.rail => 4 | Window.cmw => 6 | Window.exp => 9 | Window.gz => 10) ↑0).addr.toNat / 1024)).log[(Windows_w4.pair (match Window.rail with | Window.rail => 4 | Window.cmw => 6 | Window.exp => 9 | Window.gz => 10) ↑0).addr.toNat % 1024 / 8]? = some (4660#32, 86#32)) :=
  by refine ⟨inv_of (by decide +kernel), ?_⟩ <;> and_intros <;> decide +kernel

theorem met_Windows_8 :
    (Windows_w3.Inv) ∧
    (Window.cmw = Window.cmw) ∧
    ((Windows_w3.pair (match Window.cmw with | Window.rail => 4 | Window.cmw => 6 | Window.exp => 9 | Window.gz => 10) ↑0).addr.toNat < 512) ∧
    (Windows_w3.res.ring ≠ Ring.down) ∧
    ((Windows_w3.monitor ((Windows_w3.pair (match Window.cmw with | Window.rail => 4 | Window.cmw => 6 | Window.exp => 9 | Window.gz => 10) ↑0).addr.toNat / 256)).reachable = false) ∧
    ((Windows_w3.pair (match Window.cmw with | Window.rail => 4 | Window.cmw => 6 | Window.exp => 9 | Window.gz => 10) ↑0).pend ≠ none) :=
  by refine ⟨inv_of (by decide +kernel), ?_⟩ <;> and_intros <;> decide +kernel

theorem met_Windows_9 :
    (Windows_w3.Inv) ∧
    ((Windows_w3.pair (match Window.exp with | Window.rail => 4 | Window.cmw => 6 | Window.exp => 9 | Window.gz => 10) ↑0).pend = some none) ∧
    (Window.exp = Window.exp) ∧
    ((Windows_w3.pair (match Window.exp with | Window.rail => 4 | Window.cmw => 6 | Window.exp => 9 | Window.gz => 10) ↑0).addr.toNat < 24 * 65536) ∧
    ((Windows_w3.pair (match Window.exp with | Window.rail => 4 | Window.cmw => 6 | Window.exp => 9 | Window.gz => 10) ↑0).addr.toNat % 4 = 0) :=
  by refine ⟨inv_of (by decide +kernel), ?_⟩ <;> and_intros <;> decide +kernel

theorem met_Windows_10 :
    (Windows_w5.Inv) ∧
    ((Windows_w5.pair (match Window.rail with | Window.rail => 4 | Window.cmw => 6 | Window.exp => 9 | Window.gz => 10) ↑0).pend = some (some 77#32)) ∧
    (Window.rail = Window.rail ∨ Window.rail = Window.gz ∨ Window.rail = Window.exp ∧ Windows_w5.top.st ≠ ModState.boot) :=
  by refine ⟨inv_of (by decide +kernel), ?_⟩ <;> and_intros <;> decide +kernel

theorem met_Windows_11 :
    (Windows_w5.Inv) ∧
    (Window.cmw = Window.cmw) ∧
    ((Windows_w5.pair (match Window.cmw with | Window.rail => 4 | Window.cmw => 6 | Window.exp => 9 | Window.gz => 10) ↑0).addr.toNat < 512) ∧
    (Windows_w5.res.ring ≠ Ring.down) ∧
    ((Windows_w5.monitor ((Windows_w5.pair (match Window.cmw with | Window.rail => 4 | Window.cmw => 6 | Window.exp => 9 | Window.gz => 10) ↑0).addr.toNat / 256)).reachable = true) ∧
    ((Windows_w5.pair (match Window.cmw with | Window.rail => 4 | Window.cmw => 6 | Window.exp => 9 | Window.gz => 10) ↑0).pend = some (some 77#32)) :=
  by refine ⟨inv_of (by decide +kernel), ?_⟩ <;> and_intros <;> decide +kernel

theorem met_Windows_12 :
    (Windows_w4.Inv) ∧
    (Window.cmw = Window.cmw) ∧
    ((Windows_w4.pair (match Window.cmw with | Window.rail => 4 | Window.cmw => 6 | Window.exp => 9 | Window.gz => 10) ↑0).addr.toNat < 512) ∧
    (Windows_w4.res.ring ≠ Ring.down) ∧
    ((Windows_w4.monitor ((Windows_w4.pair (match Window.cmw with | Window.rail => 4 | Window.cmw => 6 | Window.exp => 9 | Window.gz => 10) ↑0).addr.toNat / 256)).reachable = true) ∧
    ((Windows_w4.pair (match Window.cmw with | Window.rail => 4 | Window.cmw => 6 | Window.exp => 9 | Window.gz => 10) ↑0).pend = some none) :=
  by refine ⟨inv_of (by decide +kernel), ?_⟩ <;> and_intros <;> decide +kernel

theorem met_Windows_13 :
    (Windows_w4.Inv) ∧
    ((Windows_w4.pair (match Window.gz with | Window.rail => 4 | Window.cmw => 6 | Window.exp => 9 | Window.gz => 10) ↑0).pend = some none) ∧
    (Window.gz = Window.gz) ∧
    ((Windows_w4.pair (match Window.gz with | Window.rail => 4 | Window.cmw => 6 | Window.exp => 9 | Window.gz => 10) ↑0).addr.toNat < 34 * 4096) ∧
    ((Windows_w4.pair (match Window.gz with | Window.rail => 4 | Window.cmw => 6 | Window.exp => 9 | Window.gz => 10) ↑0).addr.toNat % 4096 < 12) ∧
    ((Windows_w4.pair (match Window.gz with | Window.rail => 4 | Window.cmw => 6 | Window.exp => 9 | Window.gz => 10) ↑0).addr.toNat % 4 = 0) :=
  by refine ⟨inv_of (by decide +kernel), ?_⟩ <;> and_intros <;> decide +kernel

theorem met_Windows_14 :
    (Windows_w6.Inv) ∧
    ((Windows_w6.pair (match Window.exp with | Window.rail => 4 | Window.cmw => 6 | Window.exp => 9 | Window.gz => 10) ↑0).pend = some (some 77#32)) ∧
    (Window.exp = Window.exp) ∧
    (Windows_w6.top.st = ModState.boot) ∧
    ((Windows_w6.pair (match Window.exp with | Window.rail => 4 | Window.cmw => 6 | Window.exp => 9 | Window.gz => 10) ↑0).addr.toNat < 24 * 65536) ∧
    ((Windows_w6.pair (match Window.exp with | Window.rail => 4 | Window.cmw => 6 | Window.exp => 9 | Window.gz => 10) ↑0).addr.toNat % 4 = 0) :=
  by refine ⟨inv_of (by decide +kernel), ?_⟩ <;> and_intros <;> decide +kernel

end Ctl1

namespace Ctl2

def gtA : W64 := 0x941314CF000
def ES (e : Errors := {}) (f : State → State := id) (st : ModState := .ready) : State := f { State.reset with
  top := { st := st, railsOff := false, hbmUp := 1, reserveAt := [some 0, none, none, none] }, clk := { gt := gtA, locked := true }, clm := { claimA := 5 }
  tiles := [(3, { st := .running, pc := 64, silt := [(8, 5)] })], mem := { phys := [(0x40000100, 7)] }
  err := e, cmd := { link := .up, slots := [(5, { st := .outstanding, gen := 4, op := .start, tag := 0x99 })] } }
def le1 : LogEntry := { kind := 4, sev := 0, typ := 4, seq := 7, ctx := none, source := 9, gtFirst := 1, gtLast := 2, first := gtA - 156249999, count := 3, data := [8] }
def rt (d : Nat) (c : Nat) (sup : Nat) : Rate := { kind := 4, source := 9, since := gtA - BitVec.ofNat 64 d, corrected := 4 * c, deferred := 16 * c, contained := 64 * c, suppressed := sup, firstType := 0x31 }
def bad3 : State := ES {} (fun s => { s with tiles := [(3, { st := .running, pc := 64, siltBad := [(8, true)] })] }) .ready

def ErrorHandling_w1 : State := ES

def ErrorHandling_w2 : Report := { kind := 4#4, source := 9#32, typ := 0#16, context := some 2, data := [1#32, 2#32] }

def ErrorHandling_w3 : Report := { kind := 4#4, source := 9#32, typ := 4#16, context := some 2, data := [1#32, 2#32] }

def ErrorHandling_w4 : Report := { kind := 4#4, source := 9#32, typ := 69#16, context := some 2, data := [1#32, 2#32] }

def ErrorHandling_w5 : State := ES { log := [le1], put := 8, get := 7 }

def ErrorHandling_w6 : LogEntry := { kind := 4#4, sev := 0#2, typ := 4#16, seq := 7#32, ctx := none, source := 9#32, gtFirst := 1#32, gtLast := 2#32, first := 10175448399985#64, count := 3#32, data := [8#32] }

def ErrorHandling_w7 : State := ES { rates := [rt 5 1 0] }

def ErrorHandling_w8 : Rate := { kind := 4#4, source := 9#32, since := 10175604649979#64, corrected := 4, deferred := 16, contained := 64, suppressed := 0, firstType := 49#16 }

def ErrorHandling_w9 : State := ES { rates := [rt 156250000 1 3] }

def ErrorHandling_w10 : Rate := { kind := 4#4, source := 9#32, since := 10175448399984#64, corrected := 4, deferred := 16, contained := 64, suppressed := 3, firstType := 49#16 }

def ErrorHandling_w11 : State := ES { put := 1023, lostNow := 5, lostGt := 77 }

def ErrorHandling_w12 : State := have __src := bad3; { pending := __src.pending, top := __src.top, clk := __src.clk, tiles := __src.tiles, mem := __src.mem, mmu := __src.mmu, eng := __src.eng, gz := __src.gz, cmd := __src.cmd, ctxs := __src.ctxs, cads := __src.cads, pow := __src.pow, gvn := __src.gvn, res := __src.res, rfw := __src.rfw, clm := __src.clm, pairs := __src.pairs, err := { scrubbed := [(siltBase + 3 * siltBytes + 8, gtA - 5)] }, trust := __src.trust, free := __src.free }

def ErrorHandling_w13 : State := ES { } fun s =>   { pending := s.pending, top := s.top, clk := s.clk, tiles := s.tiles, mem := s.mem, mmu := s.mmu, eng := s.eng, gz := s.gz,     cmd :=       have __src := s.cmd;       { portB := __src.portB, snoopTimeouts := __src.snoopTimeouts, cache := __src.cache, hostHeld := __src.hostHeld, snoops := __src.snoops, areaValid := __src.areaValid, areaSecure := __src.areaSecure, area := __src.area, vector := __src.vector, intEn := __src.intEn, slots := __src.slots, lastSlot := __src.lastSlot, resp := __src.resp, heldRecords := __src.heldRecords, unsaved := __src.unsaved, areaRefused := __src.areaRefused, reports := __src.reports, msgs := __src.msgs, readData := __src.readData },     ctxs := s.ctxs, cads := s.cads, pow := s.pow, gvn := s.gvn, res := s.res, rfw := s.rfw, clm := s.clm, pairs := s.pairs, err := s.err, trust := s.trust, free := s.free }

theorem met_ErrorHandling_1 :
    (ErrorHandling_w1.Inv) ∧
    (ErrorHandling_w1.Still) ∧
    (ErrorHandling_w2.typ.toNat = 0 ∨ 10 < ErrorHandling_w2.typ.toNat ∧ ErrorHandling_w2.typ.toNat < 16 ∨ 24 < ErrorHandling_w2.typ.toNat ∧ ErrorHandling_w2.typ.toNat < 32 ∨ 51 < ErrorHandling_w2.typ.toNat ∧ ErrorHandling_w2.typ.toNat < 64 ∨ 70 < ErrorHandling_w2.typ.toNat) ∧
    (∀ (q : Rate), q ∈ ErrorHandling_w1.err.rates → BitVec.toNat (ErrorHandling_w1.clk.gt - q.since) < 156250000) ∧
    (ErrorHandling_w1.pathUp Path.aelconA = true) ∧
    (0 ≤ BitVec.toInt (0#32 - ErrorHandling_w1.err.get)) ∧
    (ErrorHandling_w1.err.lostNow = 0) ∧
    (∀ (u k : Nat), targetOf 0 = Target.silt u k → (ErrorHandling_w1.tile u).siltBad = []) ∧
    (ErrorHandling_w1.err = { }) ∧
    (ErrorHandling_w1.mem.badPages = []) ∧
    (targetOf 0 = Target.hbm 0) ∧
    (ErrorHandling_w1.stackUp 0 = true) ∧
    (ErrorHandling_w1.inErrorLog (0 - 0 % 32) = false) :=
  by refine ⟨inv_of (by decide +kernel), still_of (by decide +kernel), ?_, ?_, ?_, ?_, ?_, (fun _ _ h => by cases h), ?_⟩ <;> and_intros <;> decide +kernel

theorem met_ErrorHandling_2 :
    (ErrorHandling_w1.Inv) ∧
    (ErrorHandling_w1.Still) ∧
    (ErrorHandling_w3.typ.toNat ∈ [4, 5, 6, 7, 8, 9, 10, 19, 20, 21, 22, 23, 24, 35, 36, 37, 38, 39, 40, 41, 42, 43, 44, 45, 46, 47, 48, 49]) ∧
    (ErrorHandling_w1.err = { }) ∧
    (ErrorHandling_w1.cmd.areaValid = false) :=
  by refine ⟨inv_of (by decide +kernel), still_of (by decide +kernel), ?_⟩ <;> and_intros <;> decide +kernel

theorem met_ErrorHandling_3 :
    (ErrorHandling_w1.Inv) ∧
    (ErrorHandling_w1.Still) ∧
    (64 ≤ ErrorHandling_w4.typ.toNat) ∧
    (ErrorHandling_w4.typ.toNat ≤ 70) ∧
    (ErrorHandling_w1.clm.watchdog = false) ∧
    (ErrorHandling_w1.top.st ∈ [ModState.boot, ModState.ready, ModState.running, ModState.drain]) ∧
    (ErrorHandling_w1.pathUp Path.aelconA = true) ∧
    (BitVec.toInt (4294967280#32 - ErrorHandling_w1.err.get) < 0) :=
  by refine ⟨inv_of (by decide +kernel), still_of (by decide +kernel), ?_⟩ <;> and_intros <;> decide +kernel

theorem met_ErrorHandling_4 :
    (ErrorHandling_w1.Inv) ∧
    (ErrorHandling_w1.Still) ∧
    (targetOf 4503599627370496 = Target.nowhere) :=
  by refine ⟨inv_of (by decide +kernel), still_of (by decide +kernel), ?_⟩ <;> decide +kernel

theorem met_ErrorHandling_5 :
    (ErrorHandling_w1.Inv) ∧
    (ErrorHandling_w1.Still) ∧
    (ScrubFinding.correctable = ScrubFinding.correctable ∨ ScrubFinding.correctable = ScrubFinding.raced) ∧
    (ErrorHandling_w1.err = { }) ∧
    (targetOf 0 = Target.hbm 0) ∧
    (ErrorHandling_w1.stackUp 0 = true) :=
  by refine ⟨inv_of (by decide +kernel), still_of (by decide +kernel), ?_⟩ <;> and_intros <;> decide +kernel

theorem met_ErrorHandling_6 :
    (ErrorHandling_w1.Inv) ∧
    (ErrorHandling_w1.Still) ∧
    (ScrubFinding.correctable = ScrubFinding.correctable ∨ ScrubFinding.correctable = ScrubFinding.raced) ∧
    (ErrorHandling_w1.err = { }) ∧
    (targetOf 2267744305160 = Target.silt 3 8) ∧
    ((ErrorHandling_w1.tile 3).siltBad = []) :=
  by refine ⟨inv_of (by decide +kernel), still_of (by decide +kernel), ?_⟩ <;> and_intros <;> decide +kernel

theorem met_ErrorHandling_7 :
    (ErrorHandling_w1.Inv) ∧
    (ErrorHandling_w1.Still) ∧
    (ErrorHandling_w1.err = { }) ∧
    (ErrorHandling_w1.mem.badPages = []) ∧
    (targetOf 2267744305160 = Target.silt 3 8) ∧
    ((ErrorHandling_w1.tile 3).siltBad = []) ∧
    ((ErrorHandling_w1.tile 3).st ≠ TileState.retired) ∧
    ((ErrorHandling_w1.tile 3).retireDue = false) ∧
    ((ErrorHandling_w1.tile 3).resetting = false) ∧
    (ErrorHandling_w1.ctxs = []) ∧
    (ErrorHandling_w1.cads = []) :=
  by refine ⟨inv_of (by decide +kernel), still_of (by decide +kernel), ?_⟩ <;> and_intros <;> decide +kernel

theorem met_ErrorHandling_8 :
    (ErrorHandling_w1.Inv) ∧
    (ErrorHandling_w1.Still) ∧
    (ScrubFinding.correctable = ScrubFinding.correctable ∨ ScrubFinding.correctable = ScrubFinding.raced) ∧
    (ErrorHandling_w1.err = { }) ∧
    (targetOf 2199023255616 = Target.loam 0) :=
  by refine ⟨inv_of (by decide +kernel), still_of (by decide +kernel), ?_⟩ <;> and_intros <;> decide +kernel

theorem met_ErrorHandling_9 :
    (ErrorHandling_w1.Inv) ∧
    (ErrorHandling_w1.Still) ∧
    (ErrorHandling_w1.err = { }) ∧
    (ErrorHandling_w1.mem.badPages = []) ∧
    (targetOf 2199023255616 = Target.loam 0) :=
  by refine ⟨inv_of (by decide +kernel), still_of (by decide +kernel), ?_⟩ <;> and_intros <;> decide +kernel

theorem met_ErrorHandling_10 :
    (ErrorHandling_w5.Inv) ∧
    (ErrorHandling_w5.Still) ∧
    (ErrorHandling_w3.typ.toNat ∈ [4, 5, 6, 7, 8, 9, 10, 19, 20, 21, 22, 23, 24, 35, 36, 37, 38, 39, 40, 41, 42, 43, 44, 45, 46, 47, 48, 49]) ∧
    ((if ErrorHandling_w3.typ.toNat ≤ 10 then 0 else if ErrorHandling_w3.typ.toNat < 24 then 2 else 1) ≤ 1) ∧
    (ErrorHandling_w5.err.log = [ErrorHandling_w6]) ∧
    (ErrorHandling_w6.kind = ErrorHandling_w3.kind) ∧
    (ErrorHandling_w6.source = ErrorHandling_w3.source) ∧
    (ErrorHandling_w6.typ = ErrorHandling_w3.typ) ∧
    (ErrorHandling_w6.seq = ErrorHandling_w5.err.get) ∧
    (ErrorHandling_w5.err.put = ErrorHandling_w5.err.get + 1) ∧
    (BitVec.toNat (ErrorHandling_w5.clk.gt - ErrorHandling_w6.first) < 156250000) ∧
    (ErrorHandling_w6.count ≠ 4294967295) :=
  by refine ⟨inv_of (by decide +kernel), still_of (by decide +kernel), ?_⟩ <;> and_intros <;> decide +kernel

theorem met_ErrorHandling_11 :
    (ErrorHandling_w7.Inv) ∧
    (ErrorHandling_w7.Still) ∧
    (ErrorHandling_w3.typ.toNat ∈ [4, 5, 6, 7, 8, 9, 10, 19, 20, 21, 22, 23, 24, 35, 36, 37, 38, 39, 40, 41, 42, 43, 44, 45, 46, 47, 48, 49]) ∧
    (ErrorHandling_w7.err.log = []) ∧
    (ErrorHandling_w7.err.rates = [ErrorHandling_w8]) ∧
    (ErrorHandling_w8.kind = ErrorHandling_w3.kind) ∧
    (ErrorHandling_w8.source = ErrorHandling_w3.source) ∧
    (BitVec.toNat (ErrorHandling_w7.clk.gt - ErrorHandling_w8.since) < 156250000) ∧
    (ErrorHandling_w8.corrected = 4) :=
  by refine ⟨inv_of (by decide +kernel), still_of (by decide +kernel), ?_⟩ <;> and_intros <;> decide +kernel

theorem met_ErrorHandling_12 :
    (ErrorHandling_w9.Inv) ∧
    (ErrorHandling_w9.Still) ∧
    (ErrorHandling_w9.err = { rates := [ErrorHandling_w10] }) ∧
    (156250000 ≤ BitVec.toNat (ErrorHandling_w9.clk.gt - ErrorHandling_w10.since)) :=
  by refine ⟨inv_of (by decide +kernel), still_of (by decide +kernel), ?_⟩ <;> and_intros <;> decide +kernel

theorem met_ErrorHandling_13 :
    (ErrorHandling_w11.Inv) ∧
    (ErrorHandling_w11.Still) ∧
    (ErrorHandling_w11.pathUp Path.aelconA = true) ∧
    (ErrorHandling_w11.err.log = []) ∧
    (ErrorHandling_w11.err.lostNow ≠ 0) ∧
    (ErrorHandling_w11.err.put = ErrorHandling_w11.err.get + 1023) ∧
    (1#32 = ErrorHandling_w11.err.get + 1) :=
  by refine ⟨inv_of (by decide +kernel), still_of (by decide +kernel), ?_⟩ <;> and_intros <;> decide +kernel

theorem met_ErrorHandling_14 :
    (ErrorHandling_w12.Inv) ∧
    (ErrorHandling_w12.Still) ∧
    (targetOf 2267744305160 = Target.silt 3 8) ∧
    (Tab.look false (ErrorHandling_w12.tile 3).siltBad (8 - 8 % 8) = true) ∧
    (∃ g, (2267744305160 - 2267744305160 % 8, g) ∈ ErrorHandling_w12.err.scrubbed ∧ BitVec.toNat (ErrorHandling_w12.clk.gt - g) < 3600 * 156250000) :=
  by refine ⟨inv_of (by decide +kernel), still_of (by decide +kernel), ?_, ?_, ⟨0x941314CEFFB, by decide +kernel⟩⟩ <;> decide +kernel

theorem met_ErrorHandling_15 :
    (bad3.Inv) ∧
    (bad3.Still) ∧
    (targetOf 2267744305160 = Target.silt 3 8) ∧
    (Tab.look false (bad3.tile 3).siltBad (8 - 8 % 8) = true) ∧
    (bad3.err = { }) :=
  by refine ⟨inv_of (by decide +kernel), still_of (by decide +kernel), ?_⟩ <;> and_intros <;> decide +kernel

theorem met_ErrorHandling_16 :
    (ErrorHandling_w13.Inv) ∧
    (ErrorHandling_w13.Still) ∧
    (ErrorHandling_w13.pathUp Path.bursen = false) :=
  by refine ⟨inv_of (by decide +kernel), still_of (by decide +kernel), ?_⟩ <;> decide +kernel

end Ctl2

namespace Ctl3

def gtA : W64 := 0x941314CF000
def JS (g : Gauze := {}) (f : State → State := id) (st : ModState := .ready) : State := f { State.reset with
  top := { st := st, railsOff := false, hbmUp := 1, reserveAt := [some 0, none, none, none] }, clk := { gt := gtA, locked := true }, clm := { claimA := 5 }, gz := g
  cmd := { link := .up, areaValid := true, area := 0x1000, lastSlot := 4, slots := [(5, { st := .outstanding, gen := 4, op := .start, tag := 0x99 })] } }
def pr (st : PortState) (m : BitVec 6) (dom : W32 := 7) (v : Bool := true) : Port := { en := true, st := st, peerValid := v, peerMember := m, peerDomain := dom, lanes := 0xFF }

def RegisterWrites_w1 : State := JS

def RegisterWrites_w2 : State := JS { } id ModState.off

theorem met_RegisterWrites_1 :
    (RegisterWrites_w1.Inv) ∧
    (RegisterWrites_w1.Still) ∧
    (∀ o, targetOf 0 = Target.csr o → False) ∧
    (RegisterWrites_w1.top.st ≠ ModState.off) ∧
    (RegisterWrites_w1.cmd.link = PortState.up) :=
  by refine ⟨inv_of (by decide +kernel), still_of (by decide +kernel), fun _ (h : targetOf 0 = _) => (nomatch (h : Target.hbm 0 = _)), ?_⟩ <;> and_intros <;> decide +kernel

theorem met_RegisterWrites_2 :
    (RegisterWrites_w2.Inv) ∧
    (RegisterWrites_w2.Still) ∧
    (RegisterWrites_w2.top.st = ModState.off ∨ RegisterWrites_w2.pathUp Path.aelconA = false) :=
  by refine ⟨inv_of (by decide +kernel), still_of (by decide +kernel), ?_⟩ <;> decide +kernel

theorem met_RegisterWrites_3 :
    (RegisterWrites_w1.Inv) ∧
    (RegisterWrites_w1.Still) ∧
    (4 < 68719476736) ∧
    (regHere (4 / 16777216) (4 % 16777216 / 4 * 4) = false) :=
  by refine ⟨inv_of (by decide +kernel), still_of (by decide +kernel), ?_⟩ <;> and_intros <;> decide +kernel

theorem met_RegisterWrites_4 :
    (RegisterWrites_w1.Inv) ∧
    (RegisterWrites_w1.Still) ∧
    (RegisterWrites_w1.top.st ≠ ModState.off) ∧
    (117440640 < 68719476736) ∧
    (regHere (117440640 / 16777216) (117440640 % 16777216 / 4 * 4) = true) ∧
    (regSecure (117440640 / 16777216) (117440640 % 16777216 / 4 * 4) = true) ∧
    (pathSecure Path.bursen = false) ∧
    (RegisterWrites_w1.pathUp Path.bursen = true) :=
  by refine ⟨inv_of (by decide +kernel), still_of (by decide +kernel), ?_⟩ <;> and_intros <;> decide +kernel

def JoinAndLeave_w1 : State := JS

def JoinAndLeave_w2 : Exchange := { secure := false, flags := 0#56, tag := 119#64, par := [7#64, 261#64, 12#64] }

def JoinAndLeave_w3 : State := JS { ports := [(4, pr PortState.training 2), (6, pr PortState.up 9 8)] }

def JoinAndLeave_w4 : Exchange := { secure := false, flags := 0#56, tag := 119#64, par := [7#64, 5#64, 12#64] }

def JoinAndLeave_w5 : Exchange := { secure := false, flags := 0#56, tag := 119#64, par := [] }

def JoinAndLeave_w6 : State := JS { joined := true }

def JoinAndLeave_w7 : State := JS { ports := [(4, pr PortState.training 5)] }

def JoinAndLeave_w8 : State := JS { ports := [(3, pr PortState.training 0 0 false), (4, pr PortState.up 2)] }

def JoinAndLeave_w9 : State := JS { ports := [(4, pr PortState.up 2)], joined := true, coord := true, me := 5, epoch := 3, members := 36, coordinator := 5 }

theorem met_JoinAndLeave_1 :
    (JoinAndLeave_w1.Inv) ∧
    (JoinAndLeave_w1.Still) ∧
    (6 < 4096) ∧
    (JoinAndLeave_w1.freeSlot = some 6) ∧
    (JoinAndLeave_w1.gz.sent = []) ∧
    (JoinAndLeave_w1.gz.txns = []) ∧
    (JoinAndLeave_w1.Passes 16 JoinAndLeave_w2 [2 ^ 32 - 1, 319, 2 ^ 64 - 1] false) :=
  by refine ⟨inv_of (by decide +kernel), still_of (by decide +kernel), ?_, ?_, ?_, ?_, passes_of (by decide +kernel)⟩ <;> decide +kernel

theorem met_JoinAndLeave_2 :
    (JoinAndLeave_w3.Inv) ∧
    (JoinAndLeave_w3.Still) ∧
    (6 < 4096) ∧
    (JoinAndLeave_w3.freeSlot = some 6) ∧
    (JoinAndLeave_w3.gz.sent = []) ∧
    (JoinAndLeave_w3.gz.txns = []) ∧
    (JoinAndLeave_w3.Passes 16 JoinAndLeave_w2 [2 ^ 32 - 1, 319, 2 ^ 64 - 1] false) :=
  by refine ⟨inv_of (by decide +kernel), still_of (by decide +kernel), ?_, ?_, ?_, ?_, passes_of (by decide +kernel)⟩ <;> decide +kernel

theorem met_JoinAndLeave_3 :
    (JoinAndLeave_w1.Inv) ∧
    (JoinAndLeave_w1.Still) ∧
    (6 < 4096) ∧
    (JoinAndLeave_w1.freeSlot = some 6) ∧
    (JoinAndLeave_w1.gz.sent = []) ∧
    (JoinAndLeave_w1.gz.txns = []) ∧
    (JoinAndLeave_w1.Passes 16 JoinAndLeave_w4 [2 ^ 32 - 1, 319, 2 ^ 64 - 1] false) :=
  by refine ⟨inv_of (by decide +kernel), still_of (by decide +kernel), ?_, ?_, ?_, ?_, passes_of (by decide +kernel)⟩ <;> decide +kernel

theorem met_JoinAndLeave_4 :
    (JoinAndLeave_w1.Inv) ∧
    (JoinAndLeave_w1.Still) ∧
    (6 < 4096) ∧
    (JoinAndLeave_w1.freeSlot = some 6) ∧
    (JoinAndLeave_w1.gz.sent = []) ∧
    (JoinAndLeave_w1.gz.txns = []) ∧
    (JoinAndLeave_w1.Passes 17 JoinAndLeave_w5 [] false) :=
  by refine ⟨inv_of (by decide +kernel), still_of (by decide +kernel), ?_, ?_, ?_, ?_, passes_of (by decide +kernel)⟩ <;> decide +kernel

theorem met_JoinAndLeave_5 :
    (JoinAndLeave_w6.Inv) ∧
    (JoinAndLeave_w6.Still) ∧
    (6 < 4096) ∧
    (JoinAndLeave_w6.freeSlot = some 6) ∧
    (JoinAndLeave_w6.gz.sent = []) ∧
    (JoinAndLeave_w6.gz.txns = []) ∧
    (JoinAndLeave_w6.Passes 16 JoinAndLeave_w2 [2 ^ 32 - 1, 319, 2 ^ 64 - 1] false) :=
  by refine ⟨inv_of (by decide +kernel), still_of (by decide +kernel), ?_, ?_, ?_, ?_, passes_of (by decide +kernel)⟩ <;> decide +kernel

theorem met_JoinAndLeave_6 :
    (JoinAndLeave_w6.Inv) ∧
    (JoinAndLeave_w6.Still) ∧
    (6 < 4096) ∧
    (JoinAndLeave_w6.freeSlot = some 6) ∧
    (JoinAndLeave_w6.gz.sent = []) ∧
    (JoinAndLeave_w6.gz.txns = []) ∧
    (JoinAndLeave_w6.Passes 17 JoinAndLeave_w5 [] false) :=
  by refine ⟨inv_of (by decide +kernel), still_of (by decide +kernel), ?_, ?_, ?_, ?_, passes_of (by decide +kernel)⟩ <;> decide +kernel

theorem met_JoinAndLeave_7 :
    (JoinAndLeave_w7.Inv) ∧
    (JoinAndLeave_w7.Still) ∧
    (6 < 4096) ∧
    (JoinAndLeave_w7.freeSlot = some 6) ∧
    (JoinAndLeave_w7.gz.sent = []) ∧
    (JoinAndLeave_w7.gz.txns = []) ∧
    (JoinAndLeave_w7.Passes 16 JoinAndLeave_w2 [2 ^ 32 - 1, 319, 2 ^ 64 - 1] false) :=
  by refine ⟨inv_of (by decide +kernel), still_of (by decide +kernel), ?_, ?_, ?_, ?_, passes_of (by decide +kernel)⟩ <;> decide +kernel

theorem met_JoinAndLeave_8 :
    (JoinAndLeave_w8.Inv) ∧
    (JoinAndLeave_w8.Still) ∧
    (6 < 4096) ∧
    (JoinAndLeave_w8.freeSlot = some 6) ∧
    (JoinAndLeave_w8.gz.sent = []) ∧
    (JoinAndLeave_w8.gz.txns = []) ∧
    (JoinAndLeave_w8.Passes 16 JoinAndLeave_w2 [2 ^ 32 - 1, 319, 2 ^ 64 - 1] false) :=
  by refine ⟨inv_of (by decide +kernel), still_of (by decide +kernel), ?_, ?_, ?_, ?_, passes_of (by decide +kernel)⟩ <;> decide +kernel

theorem met_JoinAndLeave_9 :
    (JoinAndLeave_w9.Inv) ∧
    (JoinAndLeave_w9.Still) ∧
    (6 < 4096) ∧
    (JoinAndLeave_w9.freeSlot = some 6) ∧
    (JoinAndLeave_w9.gz.sent = []) ∧
    (JoinAndLeave_w9.gz.txns = []) ∧
    (JoinAndLeave_w9.Passes 17 JoinAndLeave_w5 [] false) :=
  by refine ⟨inv_of (by decide +kernel), still_of (by decide +kernel), ?_, ?_, ?_, ?_, passes_of (by decide +kernel)⟩ <;> decide +kernel

end Ctl3

namespace Res

def gtA : W64 := 0x941314CF000
def sx (c : Int := 5000000) : StackSample := { millivolts := 70000, milliamps := [100, 2, 3, 4], charge := c }
def RS (r : Reservoir → Reservoir := id) (w : ResFw → ResFw := id) (st : ModState := .running) (f : State → State := id) : State := f { State.reset with
  top := { st := st, railsOff := false, bootStep := 5 }, clk := { gt := gtA, locked := true }, clm := { claimA := 5 }, cmd := { link := .up, areaValid := true, area := 0x1000, lastSlot := 4, slots := [(3, { st := .outstanding, gen := 4, op := .learn, tag := 0x99 })] }
  res := r { convEn := true, mode := .track, ring := .whole, rep := 20000, first := false, sample := some (sx), charge := 4990000, lastSweep := gtA - 3125000, bleedEn := true
             cells := (List.range 24).map fun k => (k, { vb := 3, vr := 1 / 100, p11 := 1 / 10000, p22 := 1 / 10000, temp := 250, cap := 30000, seen := gtA - 3125000 }) }
  rfw := w { gotV := (List.range 24).map fun k => (k, some (32000 + 30 * k)), gotT := (List.range 8).map fun k => (k, some 250) } }
def setC (r : Reservoir) (f : Nat → Cell → Cell) : Reservoir := { r with cells := r.cells.map fun p => (p.1, f p.1 p.2) }
def lrn (a : Option RestPoint) (reached : Bool := false) : Learn := { slot := some 3, atA := a, target := 30000, above := true, reached := reached }
def rpA (c : Int) (v : Rat := 1) (amps : Nat := 5) : RestPoint := { gt := gtA - 50000000, charge := c, vbs := List.replicate 24 v, ampSum := 50, amps := amps }
def LS (l : Option Learn) (pt : Bool) (r : Reservoir → Reservoir := id) (w : ResFw → ResFw := id) : State := RS (fun r0 => r { r0 with lastSweep := gtA - 1562500, charge := 5000000, restLearn := if pt then some (gtA - 4687500000, false) else none }) (fun w0 => w { w0 with learn := l })
def cold (w : ResFw) : ResFw := { w with gotT := (List.range 8).map fun k => (k, some 50) }
def Aok : RestPoint := rpA (-495000000)
def CSt (r : Reservoir → Reservoir) (w : ResFw → ResFw := id) (h : Tab Byte := []) : State := RS r w .ready fun s => { s with mem := { host := h } }
/-! ### The clusters, the windows, errors and registers (R346–R378, R382) -/

def Estimator_w1 : State := RS

def Estimator_w2 : StackSample := { millivolts := 70000, milliamps := [100, 2, 3, 4], charge := 5000000 }

def Estimator_w3 : State := RS id fun w => { req := w.req, wire := w.wire, todo := w.todo, block := w.block, gotV := [(2, some 19000), (3, some 39000)], gotT := [(0, some 700), (1, some (-300))], learn := w.learn, auto := w.auto, autoDq := w.autoDq, wroteGt := w.wroteGt, wroteCycles := w.wroteCycles, cycles := w.cycles, through := w.through, serials := w.serials, hostCopy := w.hostCopy, hostSerials := w.hostSerials }

def Estimator_w4 : State := RS (fun r => { convEn := r.convEn, bleedEn := r.bleedEn, sweepMs := r.sweepMs, settleUs := r.settleUs, pinTarget := r.pinTarget, chgLim := r.chgLim, disLim := r.disLim, mode := r.mode, ring := r.ring, ident := r.ident, needsLearn := r.needsLearn, eoc := r.eoc, eod := r.eod, splits := r.splits, learnDq := r.learnDq, raw := r.raw, rep := r.rep, sorPct := r.sorPct, chgStop := r.chgStop, disStop := r.disStop, zHigh := r.zHigh, zLow := r.zLow, hot := r.hot, tempOff := r.tempOff, chgKeep := r.chgKeep, disKeep := r.disKeep, shutOff := r.shutOff, unmeasured := r.unmeasured, under := r.under, interlock := r.interlock, enumDue := r.enumDue, settled := r.settled, monitors := r.monitors, cells := r.cells, tag := r.tag, sample := r.sample, last := r.last, sample2 := r.sample2, splitMons := r.splitMons, readback := r.readback, lastSweep := r.lastSweep, lastSplit := r.lastSplit, charge := r.charge, restSince := r.restSince, restLearn := r.restLearn, anchor := r.anchor }) id ModState.boot

def Estimator_w5 : State := RS fun r => setC { convEn := r.convEn, bleedEn := false, sweepMs := r.sweepMs, settleUs := r.settleUs, pinTarget := r.pinTarget, chgLim := r.chgLim, disLim := r.disLim, mode := r.mode, ring := r.ring, ident := r.ident, needsLearn := r.needsLearn, eoc := true, eod := true, splits := r.splits, learnDq := r.learnDq, raw := r.raw, rep := 1000, sorPct := r.sorPct, chgStop := r.chgStop, disStop := r.disStop, zHigh := r.zHigh, zLow := r.zLow, hot := r.hot, tempOff := r.tempOff, chgKeep := r.chgKeep, disKeep := r.disKeep, shutOff := r.shutOff, unmeasured := r.unmeasured, under := r.under, interlock := r.interlock, enumDue := r.enumDue, settled := r.settled, monitors := r.monitors, cells := r.cells, tag := r.tag, sample := r.sample, last := r.last, sample2 := some (sx 6), splitMons := [1], readback := r.readback, lastSweep := r.lastSweep, first := r.first, lastSplit := r.lastSplit, charge := r.charge, restSince := r.restSince, restLearn := r.restLearn, anchor := r.anchor } fun k c => if k = 4 then { vb := c.vb, vr := c.vr, p12 := c.p12, z := c.z, temp := c.temp, cap := c.cap, learned := c.learned, esr := c.esr, seen := c.seen, bleeding := true } else c

def Estimator_w6 : State := RS fun r => { convEn := r.convEn, bleedEn := r.bleedEn, sweepMs := r.sweepMs, settleUs := r.settleUs, pinTarget := r.pinTarget, chgLim := r.chgLim, disLim := r.disLim, mode := r.mode, ring := r.ring, ident := r.ident, needsLearn := r.needsLearn, eoc := r.eoc, eod := r.eod, splits := r.splits, learnDq := r.learnDq, raw := r.raw, rep := r.rep, sorPct := r.sorPct, chgStop := r.chgStop, disStop := r.disStop, zHigh := r.zHigh, zLow := r.zLow, hot := r.hot, tempOff := r.tempOff, chgKeep := r.chgKeep, disKeep := r.disKeep, shutOff := r.shutOff, unmeasured := r.unmeasured, under := r.under, interlock := r.interlock, enumDue := r.enumDue, settled := r.settled, monitors := r.monitors, cells := r.cells, tag := r.tag, last := r.last, sample2 := r.sample2, splitMons := r.splitMons, readback := r.readback, lastSweep := r.lastSweep, first := r.first, lastSplit := r.lastSplit, charge := r.charge, restSince := r.restSince, restLearn := r.restLearn, anchor := r.anchor }

def Estimator_w7 : State := RS fun r => setC r fun k c => if k = 2 then { vb := c.vb, vr := c.vr, p11 := c.p11, p12 := c.p12, p22 := c.p22, z := c.z, temp := c.temp, cap := c.cap, learned := c.learned, esr := c.esr, seen := gtA - 7812500, bleeding := true } else c

def Estimator_w8 : State := RS fun r => setC { convEn := r.convEn, bleedEn := r.bleedEn, sweepMs := r.sweepMs, settleUs := r.settleUs, pinTarget := r.pinTarget, chgLim := r.chgLim, disLim := r.disLim, mode := r.mode, ring := r.ring, ident := r.ident, needsLearn := r.needsLearn, eoc := r.eoc, eod := r.eod, splits := r.splits, learnDq := r.learnDq, raw := r.raw, rep := 30000, sorPct := r.sorPct, chgStop := r.chgStop, disStop := r.disStop, zHigh := r.zHigh, zLow := r.zLow, hot := r.hot, tempOff := r.tempOff, chgKeep := r.chgKeep, disKeep := r.disKeep, shutOff := r.shutOff, unmeasured := r.unmeasured, under := r.under, interlock := r.interlock, enumDue := r.enumDue, settled := r.settled, monitors := [(1, { corner := 0 })], cells := r.cells, tag := r.tag, sample := r.sample, last := r.last, sample2 := r.sample2, splitMons := r.splitMons, readback := r.readback, lastSweep := r.lastSweep, first := r.first, lastSplit := r.lastSplit, charge := -5000000, restSince := r.restSince, restLearn := r.restLearn, anchor := r.anchor } fun k c => if k % 2 = 0 then { vb := 31 / 10, vr := c.vr, p11 := c.p11, p12 := c.p12, p22 := c.p22, z := c.z, temp := c.temp, cap := c.cap, learned := c.learned, esr := c.esr, seen := c.seen, bleeding := true } else c

theorem met_Estimator_1 :
    (Estimator_w1.Inv) ∧
    (Estimator_w1.top.busLost = false) ∧
    (¬(Estimator_w1.top.st.firmware = true ∧ (↑2 < match Config.variant with | Variant.full => 24 | Variant.light => 12) ∧ 7812500 ≤ BitVec.toNat (Estimator_w1.clk.gt - (Estimator_w1.cell ↑2).seen) ∧ Estimator_w1.res.unmeasured = false)) ∧
    (Estimator_w1.res.sample = some Estimator_w2) ∧
    (Estimator_w1.res.readback = []) :=
  by refine ⟨inv_of (by decide +kernel), ?_, (by cases Config.variant <;> decide +kernel), ?_⟩ <;> and_intros <;> decide +kernel

theorem met_Estimator_2 :
    (Estimator_w3.Inv) ∧
    (Estimator_w3.top.busLost = false) ∧
    (Estimator_w3.res.sample = some Estimator_w2) ∧
    (Estimator_w3.res.readback = []) :=
  by refine ⟨inv_of (by decide +kernel), ?_⟩ <;> and_intros <;> decide +kernel

theorem met_Estimator_3 :
    (Estimator_w4.Inv) ∧
    (Estimator_w4.top.busLost = false) ∧
    (Estimator_w4.res.sample = some Estimator_w2) ∧
    (Estimator_w4.res.readback = []) :=
  by refine ⟨inv_of (by decide +kernel), ?_⟩ <;> and_intros <;> decide +kernel

theorem met_Estimator_4 :
    (Estimator_w5.Inv) ∧
    (Estimator_w5.top.busLost = false) ∧
    (Estimator_w5.res.sample = some Estimator_w2) ∧
    (Estimator_w5.res.readback = []) :=
  by refine ⟨inv_of (by decide +kernel), ?_⟩ <;> and_intros <;> decide +kernel

theorem met_Estimator_5 :
    (Estimator_w6.Inv) ∧
    (Estimator_w6.top.busLost = false) ∧
    (Estimator_w6.res.sample = none ∨ Estimator_w6.res.readback ≠ []) ∧
    (Estimator_w6.top.st ≠ ModState.boot) :=
  by refine ⟨inv_of (by decide +kernel), ?_⟩ <;> and_intros <;> decide +kernel

theorem met_Estimator_6 :
    (Estimator_w7.Inv) ∧
    (Estimator_w7.top.busLost = false) ∧
    (Estimator_w7.top.st.firmware = true ∧ (↑2 < match Config.variant with | Variant.full => 24 | Variant.light => 12) ∧ 7812500 ≤ BitVec.toNat (Estimator_w7.clk.gt - (Estimator_w7.cell ↑2).seen) ∧ Estimator_w7.res.unmeasured = false) :=
  by refine ⟨inv_of (by decide +kernel), ?_, (by cases Config.variant <;> decide +kernel)⟩ <;> decide +kernel

theorem met_Estimator_7 :
    (Estimator_w8.Inv) ∧
    (Estimator_w8.top.busLost = false) ∧
    (Estimator_w8.res.sample = some Estimator_w2) ∧
    (Estimator_w8.res.readback = []) :=
  by refine ⟨inv_of (by decide +kernel), ?_⟩ <;> and_intros <;> decide +kernel

def Learning_w1 : State := RS id fun w => { req := w.req, wire := w.wire, todo := w.todo, block := w.block, gotV := [(2, some 19000), (3, some 39000)], gotT := [(0, some 700), (1, some (-300))], learn := w.learn, auto := w.auto, autoDq := w.autoDq, wroteGt := w.wroteGt, wroteCycles := w.wroteCycles, cycles := w.cycles, through := w.through, serials := w.serials, hostCopy := w.hostCopy, hostSerials := w.hostSerials }

def Learning_w2 : StackSample := { millivolts := 70000, milliamps := [100, 2, 3, 4], charge := 5000000 }

def Learning_w3 : State := RS

def Learning_w4 : State := LS none true

def Learning_w5 : State := LS (some (lrn none)) false

def Learning_w6 : State := LS (some (lrn none)) true

def Learning_w7 : State := LS (some (lrn (some Aok))) false id cold

def Learning_w8 : State := LS (some (lrn (some Aok))) false fun r => { convEn := r.convEn, bleedEn := r.bleedEn, sweepMs := r.sweepMs, settleUs := r.settleUs, pinTarget := r.pinTarget, chgLim := r.chgLim, disLim := r.disLim, mode := r.mode, ring := r.ring, ident := r.ident, needsLearn := r.needsLearn, eoc := r.eoc, eod := r.eod, splits := r.splits, learnDq := r.learnDq, raw := r.raw, rep := r.rep, sorPct := r.sorPct, chgStop := r.chgStop, disStop := r.disStop, zHigh := r.zHigh, zLow := r.zLow, hot := r.hot, tempOff := r.tempOff, chgKeep := r.chgKeep, disKeep := r.disKeep, shutOff := r.shutOff, unmeasured := r.unmeasured, under := r.under, interlock := r.interlock, enumDue := r.enumDue, settled := r.settled, monitors := r.monitors, cells := r.cells, tag := r.tag, sample := r.sample, last := r.last, sample2 := r.sample2, splitMons := r.splitMons, readback := r.readback, lastSweep := gtA - 15625000, first := r.first, lastSplit := r.lastSplit, charge := r.charge, restSince := r.restSince, restLearn := r.restLearn, anchor := r.anchor }

def Learning_w9 : State := LS (some (lrn (some Aok))) false fun r => { convEn := r.convEn, bleedEn := r.bleedEn, sweepMs := r.sweepMs, settleUs := r.settleUs, pinTarget := r.pinTarget, chgLim := r.chgLim, disLim := r.disLim, mode := r.mode, ring := r.ring, ident := r.ident, needsLearn := r.needsLearn, eoc := r.eoc, eod := r.eod, splits := r.splits, learnDq := r.learnDq, raw := r.raw, rep := r.rep, sorPct := r.sorPct, chgStop := r.chgStop, disStop := r.disStop, zHigh := r.zHigh, zLow := r.zLow, hot := r.hot, tempOff := r.tempOff, chgKeep := r.chgKeep, disKeep := r.disKeep, shutOff := r.shutOff, unmeasured := r.unmeasured, under := r.under, interlock := r.interlock, enumDue := r.enumDue, settled := r.settled, monitors := r.monitors, cells := r.cells, tag := r.tag, sample := r.sample, last := r.last, sample2 := some (sx 6), splitMons := r.splitMons, readback := r.readback, lastSweep := r.lastSweep, first := r.first, lastSplit := r.lastSplit, charge := r.charge, restSince := r.restSince, restLearn := r.restLearn, anchor := r.anchor }

def Learning_w10 : State := LS (some (lrn (some Aok))) false fun r => { convEn := r.convEn, bleedEn := r.bleedEn, sweepMs := r.sweepMs, settleUs := r.settleUs, pinTarget := r.pinTarget, chgLim := r.chgLim, disLim := r.disLim, mode := r.mode, ring := r.ring, ident := r.ident, needsLearn := r.needsLearn, eoc := r.eoc, eod := r.eod, splits := r.splits, learnDq := r.learnDq, raw := r.raw, rep := r.rep, sorPct := r.sorPct, chgStop := r.chgStop, disStop := r.disStop, zHigh := r.zHigh, zLow := r.zLow, hot := r.hot, tempOff := r.tempOff, chgKeep := r.chgKeep, disKeep := r.disKeep, shutOff := r.shutOff, unmeasured := r.unmeasured, under := r.under, interlock := r.interlock, enumDue := r.enumDue, settled := r.settled, monitors := [(1, { bleed := 3 })], cells := r.cells, tag := r.tag, sample := r.sample, last := r.last, sample2 := r.sample2, splitMons := r.splitMons, readback := r.readback, lastSweep := r.lastSweep, first := r.first, lastSplit := r.lastSplit, charge := r.charge, restSince := r.restSince, restLearn := r.restLearn, anchor := r.anchor }

def Learning_w11 : State := LS (some (lrn (some Aok) true)) true

def Learning_w12 : State := LS (some (lrn (some (rpA 4900000)) true)) true

def Learning_w13 : State := LS (some (lrn (some (rpA (-495000000) 1 0)) true)) true

def Learning_w14 : State := LS (some (lrn (some (rpA (-495000000) (29 / 10))) true)) true

theorem met_Learning_1 :
    (Learning_w1.Inv) ∧
    (Learning_w1.top.busLost = false) ∧
    (Learning_w1.clm.watchdog = false) ∧
    (Learning_w1.res.sample = some Learning_w2) ∧
    (Learning_w1.res.readback = []) ∧
    (Learning_w1.res.first = false) :=
  by refine ⟨inv_of (by decide +kernel), ?_⟩ <;> and_intros <;> decide +kernel

theorem met_Learning_2 :
    (Learning_w3.Inv) ∧
    (Learning_w3.top.busLost = false) ∧
    (Learning_w3.clm.watchdog = false) ∧
    (Learning_w3.res.sample = some Learning_w2) ∧
    (Learning_w3.res.readback = []) ∧
    (Learning_w3.res.first = false) :=
  by refine ⟨inv_of (by decide +kernel), ?_⟩ <;> and_intros <;> decide +kernel

theorem met_Learning_3 :
    (Learning_w4.Inv) ∧
    (Learning_w4.top.busLost = false) ∧
    (Learning_w4.clm.watchdog = false) ∧
    (Learning_w4.res.sample = some Learning_w2) ∧
    (Learning_w4.res.readback = []) ∧
    (Learning_w4.res.first = false) :=
  by refine ⟨inv_of (by decide +kernel), ?_⟩ <;> and_intros <;> decide +kernel

theorem met_Learning_4 :
    (Learning_w5.Inv) ∧
    (Learning_w5.top.busLost = false) ∧
    (Learning_w5.clm.watchdog = false) ∧
    (Learning_w5.res.sample = some Learning_w2) ∧
    (Learning_w5.res.readback = []) ∧
    (Learning_w5.res.first = false) :=
  by refine ⟨inv_of (by decide +kernel), ?_⟩ <;> and_intros <;> decide +kernel

theorem met_Learning_5 :
    (Learning_w6.Inv) ∧
    (Learning_w6.top.busLost = false) ∧
    (Learning_w6.clm.watchdog = false) ∧
    (Learning_w6.res.sample = some Learning_w2) ∧
    (Learning_w6.res.readback = []) ∧
    (Learning_w6.res.first = false) :=
  by refine ⟨inv_of (by decide +kernel), ?_⟩ <;> and_intros <;> decide +kernel

theorem met_Learning_6 :
    (Learning_w7.Inv) ∧
    (Learning_w7.top.busLost = false) ∧
    (Learning_w7.clm.watchdog = false) ∧
    (Learning_w7.res.sample = some Learning_w2) ∧
    (Learning_w7.res.readback = []) ∧
    (Learning_w7.res.first = false) :=
  by refine ⟨inv_of (by decide +kernel), ?_⟩ <;> and_intros <;> decide +kernel

theorem met_Learning_7 :
    (Learning_w8.Inv) ∧
    (Learning_w8.top.busLost = false) ∧
    (Learning_w8.clm.watchdog = false) ∧
    (Learning_w8.res.sample = some Learning_w2) ∧
    (Learning_w8.res.readback = []) ∧
    (Learning_w8.res.first = false) :=
  by refine ⟨inv_of (by decide +kernel), ?_⟩ <;> and_intros <;> decide +kernel

theorem met_Learning_8 :
    (Learning_w9.Inv) ∧
    (Learning_w9.top.busLost = false) ∧
    (Learning_w9.clm.watchdog = false) ∧
    (Learning_w9.res.sample = some Learning_w2) ∧
    (Learning_w9.res.readback = []) ∧
    (Learning_w9.res.first = false) :=
  by refine ⟨inv_of (by decide +kernel), ?_⟩ <;> and_intros <;> decide +kernel

theorem met_Learning_9 :
    (Learning_w10.Inv) ∧
    (Learning_w10.top.busLost = false) ∧
    (Learning_w10.clm.watchdog = false) ∧
    (Learning_w10.res.sample = some Learning_w2) ∧
    (Learning_w10.res.readback = []) ∧
    (Learning_w10.res.first = false) :=
  by refine ⟨inv_of (by decide +kernel), ?_⟩ <;> and_intros <;> decide +kernel

theorem met_Learning_10 :
    (Learning_w11.Inv) ∧
    (Learning_w11.top.busLost = false) ∧
    (Learning_w11.clm.watchdog = false) ∧
    (Learning_w11.res.sample = some Learning_w2) ∧
    (Learning_w11.res.readback = []) ∧
    (Learning_w11.res.first = false) :=
  by refine ⟨inv_of (by decide +kernel), ?_⟩ <;> and_intros <;> decide +kernel

theorem met_Learning_11 :
    (Learning_w12.Inv) ∧
    (Learning_w12.top.busLost = false) ∧
    (Learning_w12.clm.watchdog = false) ∧
    (Learning_w12.res.sample = some Learning_w2) ∧
    (Learning_w12.res.readback = []) ∧
    (Learning_w12.res.first = false) :=
  by refine ⟨inv_of (by decide +kernel), ?_⟩ <;> and_intros <;> decide +kernel

theorem met_Learning_12 :
    (Learning_w13.Inv) ∧
    (Learning_w13.top.busLost = false) ∧
    (Learning_w13.clm.watchdog = false) ∧
    (Learning_w13.res.sample = some Learning_w2) ∧
    (Learning_w13.res.readback = []) ∧
    (Learning_w13.res.first = false) :=
  by refine ⟨inv_of (by decide +kernel), ?_⟩ <;> and_intros <;> decide +kernel

theorem met_Learning_13 :
    (Learning_w14.Inv) ∧
    (Learning_w14.top.busLost = false) ∧
    (Learning_w14.clm.watchdog = false) ∧
    (Learning_w14.res.sample = some Learning_w2) ∧
    (Learning_w14.res.readback = []) ∧
    (Learning_w14.res.first = false) :=
  by refine ⟨inv_of (by decide +kernel), ?_⟩ <;> and_intros <;> decide +kernel

def ReservoirCommands_w1 : State := RS

def ReservoirCommands_w2 : Exchange := { secure := true, flags := 0#56, tag := 119#64, par := [] }

def ReservoirCommands_w3 : Exchange := { secure := true, flags := 0#56, tag := 119#64, par := [16384#64, 4032#64], refused := true }

def ReservoirCommands_w4 : State := LS (some (lrn none)) true

def ReservoirCommands_w5 : State := CSt (fun r => { convEn := r.convEn, bleedEn := r.bleedEn, sweepMs := r.sweepMs, settleUs := r.settleUs, pinTarget := r.pinTarget, chgLim := r.chgLim, disLim := r.disLim, mode := r.mode, ring := r.ring, ident := Ident.own, needsLearn := r.needsLearn, eoc := r.eoc, eod := r.eod, splits := r.splits, learnDq := r.learnDq, raw := r.raw, rep := r.rep, sorPct := r.sorPct, chgStop := r.chgStop, disStop := r.disStop, zHigh := r.zHigh, zLow := r.zLow, hot := r.hot, tempOff := r.tempOff, chgKeep := r.chgKeep, disKeep := r.disKeep, shutOff := r.shutOff, unmeasured := r.unmeasured, under := r.under, interlock := r.interlock, enumDue := r.enumDue, settled := r.settled, monitors := r.monitors, cells := r.cells, tag := r.tag, sample := r.sample, last := r.last, sample2 := r.sample2, splitMons := r.splitMons, readback := r.readback, lastSweep := r.lastSweep, first := r.first, lastSplit := r.lastSplit, charge := r.charge, restSince := r.restSince, restLearn := r.restLearn, anchor := r.anchor }) id

def ReservoirCommands_w6 : State := CSt id id

def ReservoirCommands_w7 : Exchange := { secure := true, flags := 0#56, tag := 119#64, par := [16384#64, 4032#64] }

def ReservoirCommands_w8 : State := CSt id (fun w => { req := w.req, wire := w.wire, todo := w.todo, block := w.block, gotV := w.gotV, gotT := w.gotT, learn := w.learn, auto := w.auto, autoDq := w.autoDq, wroteGt := w.wroteGt, wroteCycles := w.wroteCycles, cycles := w.cycles, through := w.through, serials := [(2, some 99)], hostCopy := w.hostCopy, hostSerials := w.hostSerials })

theorem met_ReservoirCommands_1 :
    (ReservoirCommands_w1.Inv) ∧
    (5 < 4096) ∧
    (ReservoirCommands_w1.freeSlot = some 5) ∧
    (ReservoirCommands_w1.Passes 18 ReservoirCommands_w2 [] true) ∧
    (ReservoirCommands_w1.rfw.learn = none ∧ (ReservoirCommands_w1.res.ring = Ring.whole ∨ ReservoirCommands_w1.res.ring = Ring.broken) ∧ ReservoirCommands_w1.res.convEn = true) ∧
    (ReservoirCommands_w1.Passes 19 ReservoirCommands_w2 [2 ^ 48 - 1, 65535] true) :=
  by refine ⟨inv_of (by decide +kernel), ?_, ?_, passes_of (by decide +kernel), ?_, passes_of (by decide +kernel)⟩ <;> decide +kernel

theorem met_ReservoirCommands_2 :
    (ReservoirCommands_w1.Inv) ∧
    (5 < 4096) ∧
    (ReservoirCommands_w1.freeSlot = some 5) ∧
    (ReservoirCommands_w1.Passes 19 ReservoirCommands_w3 [2 ^ 48 - 1, 65535] true) :=
  by refine ⟨inv_of (by decide +kernel), ?_, ?_, passes_of (by decide +kernel)⟩ <;> decide +kernel

theorem met_ReservoirCommands_3 :
    (ReservoirCommands_w4.Inv) ∧
    (5 < 4096) ∧
    (ReservoirCommands_w4.freeSlot = some 5) ∧
    (ReservoirCommands_w4.Passes 18 ReservoirCommands_w2 [] true) ∧
    (¬(ReservoirCommands_w4.rfw.learn = none ∧ (ReservoirCommands_w4.res.ring = Ring.whole ∨ ReservoirCommands_w4.res.ring = Ring.broken) ∧ ReservoirCommands_w4.res.convEn = true)) :=
  by refine ⟨inv_of (by decide +kernel), ?_, ?_, passes_of (by decide +kernel), ?_⟩ <;> decide +kernel

theorem met_ReservoirCommands_4 :
    (ReservoirCommands_w5.Inv) ∧
    (5 < 4096) ∧
    (ReservoirCommands_w5.freeSlot = some 5) ∧
    (ReservoirCommands_w5.Passes 19 ReservoirCommands_w2 [2 ^ 48 - 1, 65535] true) :=
  by refine ⟨inv_of (by decide +kernel), ?_, ?_, passes_of (by decide +kernel)⟩ <;> decide +kernel

theorem met_ReservoirCommands_5 :
    (ReservoirCommands_w6.Inv) ∧
    (5 < 4096) ∧
    (ReservoirCommands_w6.freeSlot = some 5) ∧
    (ReservoirCommands_w6.Passes 19 ReservoirCommands_w7 [2 ^ 48 - 1, 65535] true) :=
  by refine ⟨inv_of (by decide +kernel), ?_, ?_, passes_of (by decide +kernel)⟩ <;> decide +kernel

theorem met_ReservoirCommands_6 :
    (ReservoirCommands_w8.Inv) ∧
    (5 < 4096) ∧
    (ReservoirCommands_w8.freeSlot = some 5) ∧
    (ReservoirCommands_w8.Passes 19 ReservoirCommands_w7 [2 ^ 48 - 1, 65535] true) :=
  by refine ⟨inv_of (by decide +kernel), ?_, ?_, passes_of (by decide +kernel)⟩ <;> decide +kernel

end Res

namespace Whole

def gr : Group := { bolt := 0, phys := 0, siltKib := 512, entry := 0x8047, tvec := 0, movers := 1, counters := 2}
def fr (who : Requester) (kd : BitVec 4 := 1) (va : W64 := 0x10018008) : FaultRecord := { who := who, ctx := 2, acc := .load, va := va, kind := kd, level := 4, malformed := false, entry := 0xABCD, paddr := 0x40000000, peer := 0, gtLow := 0, seq := 5 }
def gtA : W64 := 0x123456789A
def rg : Region := { va := 0x10000000, size := 0x40000, kind := 3, rights := 1, bolt := 0, stack := 0, host := 0x123400000, pool := 2 }
def WS (x : Ctx) (held posted : List FaultRecord) (f : State → State := id) : State := f { mk { tileX with sys := { tileX.sys with tctx := 0x52 } } with
  top := { st := .running, hbmUp := 1, reserveAt := [some 0, none, none, none] }, clk := { gt := gtA, locked := true }, cmd := { link := .up, area := 0x1000, areaValid := true, slots := [(5, { st := .outstanding, gen := 4, op := .query, tag := 0x99 })] }, ctxs := [(2, x)], mem := { phys := [(0x50000188, 7)] }
  mmu := { held := if held = [] then [] else [(0, held)], posted := if posted = [] then [] else [(0, posted)], fqGet := [(0, 3)], fqPut := [(0, 9)] } }
def cx : Ctx := { st := .running, groups := [gr], startSlot := some 5, regions := [rg], pool := [(0x10000000, 0x60000000), (0x10000000, 0x60010000)] }
def rp (ref : Bool) (b : List Byte := [7, 8, 9]) : HostReport := { slot := 5, buf := 0x5000, bytes := b, refused := ref }

def EveryCommandCompletes_w1 : State := WS cx [fr (Requester.fetch 3), fr (Requester.slot3 3)] []

def EveryCommandCompletes_w2 : FaultRecord := { who := Requester.fetch 3, ctx := 2, acc := Access.load, va := 268533768#64, kind := 1#4, level := 4#3, malformed := false, entry := 43981#64, paddr := 1073741824#48, peer := 0#8, gtLow := 0#32, seq := 5#8 }

def EveryCommandCompletes_w3 : State := WS cx [] [fr (Requester.slot3 3) 0]

def EveryCommandCompletes_w4 : FaultRecord := { who := Requester.slot3 3, ctx := 2, acc := Access.load, va := 268533768#64, kind := 0#4, level := 4#3, malformed := false, entry := 43981#64, paddr := 1073741824#48, peer := 0#8, gtLow := 0#32, seq := 5#8 }

def EveryCommandCompletes_w5 : Region := { va := 268435456, size := 262144, kind := 3, rights := 1#4, bolt := 0, stack := 0, host := 4886364160, pool := 2 }

def EveryCommandCompletes_w6 : State := WS   (have __src := cx;   { st := __src.st, digest := __src.digest, signed := __src.signed, keySlot := __src.keySlot, priv := __src.priv, csrBlocks := __src.csrBlocks, loadGt := __src.loadGt, load := __src.load, groups := __src.groups, regions := __src.regions, siltInits := __src.siltInits, cads := __src.cads, movBase := __src.movBase, movCount := __src.movCount, fqBase := __src.fqBase, fqCount := __src.fqCount, ctrBase := __src.ctrBase, ctrCount := __src.ctrCount, tables := __src.tables, pages := __src.pages, pool := __src.pool, map := __src.map, tabBase := __src.tabBase, answer := __src.answer, startSlot := __src.startSlot, stopSlot := __src.stopSlot, saveSlot := __src.saveSlot, refusal := some (fr (Requester.slot3 3), gtA - 15624), due := __src.due, ending := __src.ending, stopping := __src.stopping, stopDue := __src.stopDue, saved := __src.saved, released := __src.released, energy := __src.energy })   [] []

def EveryCommandCompletes_w7 : FaultRecord := { who := Requester.slot3 3, ctx := 2, acc := Access.load, va := 268533768#64, kind := 1#4, level := 4#3, malformed := false, entry := 43981#64, paddr := 1073741824#48, peer := 0#8, gtLow := 0#32, seq := 5#8 }

def EveryCommandCompletes_w8 : State := WS   (have __src := cx;   { st := __src.st, digest := __src.digest, signed := __src.signed, keySlot := __src.keySlot, priv := __src.priv, csrBlocks := __src.csrBlocks, loadGt := __src.loadGt, load := __src.load, groups := __src.groups, regions := __src.regions, siltInits := __src.siltInits, cads := __src.cads, movBase := __src.movBase, movCount := __src.movCount, fqBase := __src.fqBase, fqCount := __src.fqCount, ctrBase := __src.ctrBase, ctrCount := __src.ctrCount, tables := __src.tables, pages := __src.pages, pool := __src.pool, map := __src.map, tabBase := __src.tabBase, answer := __src.answer, startSlot := __src.startSlot, stopSlot := __src.stopSlot, saveSlot := __src.saveSlot, refusal := some (fr (Requester.slot3 3), gtA - 15625), due := __src.due, ending := __src.ending, stopping := __src.stopping, stopDue := __src.stopDue, saved := __src.saved, released := __src.released, energy := __src.energy })   [] []

theorem met_EveryCommandCompletes_1 :
    (EveryCommandCompletes_w1.Inv) ∧
    (Tab.look [] EveryCommandCompletes_w1.mmu.held ↑0 = [EveryCommandCompletes_w2, { who := Requester.slot3 3, ctx := 2, acc := Access.load, va := 268533768#64, kind := 1#4, level := 4#3, malformed := false, entry := 43981#64, paddr := 1073741824#48, peer := 0#8, gtLow := 0#32, seq := 5#8 }]) ∧
    (∀ (t e : Nat), EveryCommandCompletes_w2.who ≠ Requester.engine t e) ∧
    (Tab.look [] EveryCommandCompletes_w1.mmu.posted ↑0 = []) ∧
    (EveryCommandCompletes_w1.reserve ↑0 = some 75161927680) ∧
    (EveryCommandCompletes_w1.here 75161927680) ∧
    (EveryCommandCompletes_w1.pathUp Path.aelconA = true) ∧
    (pathSecure Path.aelconA = true) :=
  by refine ⟨inv_of (by decide +kernel), ?_, (fun _ _ h => by cases h), ?_, ?_, here_of (by decide +kernel), ?_⟩ <;> and_intros <;> decide +kernel

theorem met_EveryCommandCompletes_2 :
    (EveryCommandCompletes_w3.Inv) ∧
    (EveryCommandCompletes_w3.Calm 1024) ∧
    (EveryCommandCompletes_w3.top.st.serves = true) ∧
    (0 < 4) ∧
    (Tab.look [] EveryCommandCompletes_w3.mmu.posted 0 = [EveryCommandCompletes_w4]) ∧
    (∀ (d : Nat), d ≠ 0 → Tab.look [] EveryCommandCompletes_w3.mmu.posted d = []) ∧
    (Tab.look [] EveryCommandCompletes_w3.mmu.answered 0 = []) ∧
    (EveryCommandCompletes_w3.mmu.fills = []) ∧
    (EveryCommandCompletes_w4.kind = 0) ∧
    (EveryCommandCompletes_w4.who = Requester.slot3 3) ∧
    (EveryCommandCompletes_w3.ctxHasTile EveryCommandCompletes_w4.ctx 3 = true) ∧
    ((EveryCommandCompletes_w3.ctx EveryCommandCompletes_w4.ctx).st = CtxState.running) ∧
    ((EveryCommandCompletes_w3.ctx EveryCommandCompletes_w4.ctx).refusal = none) ∧
    ((EveryCommandCompletes_w3.ctx EveryCommandCompletes_w4.ctx).demandRegion (BitVec.toNat EveryCommandCompletes_w4.va) = some EveryCommandCompletes_w5) ∧
    ((EveryCommandCompletes_w3.ctx EveryCommandCompletes_w4.ctx).present (BitVec.toNat EveryCommandCompletes_w4.va / 65536 * 65536) = false) ∧
    (List.find? (fun q => decide (q.fst = EveryCommandCompletes_w5.va) && !Tab.look false EveryCommandCompletes_w3.mem.badPages q.snd) (EveryCommandCompletes_w3.ctx EveryCommandCompletes_w4.ctx).pool = some (EveryCommandCompletes_w5.va, 1610612736)) :=
  by refine ⟨inv_of (by decide +kernel), calm_of (by decide +kernel), ?_, ?_, ?_, fun _ h => look_single h, ?_⟩ <;> and_intros <;> decide +kernel

theorem met_EveryCommandCompletes_3 :
    (EveryCommandCompletes_w6.Inv) ∧
    ((EveryCommandCompletes_w6.ctx ↑2).refusal = some (EveryCommandCompletes_w7, 78187477906#64)) ∧
    ((EveryCommandCompletes_w6.ctx ↑2).due = none) ∧
    ((EveryCommandCompletes_w6.ctx ↑2).ending = none) ∧
    (BitVec.toNat (EveryCommandCompletes_w6.clk.gt - 78187477906#64) < 15625) :=
  by refine ⟨inv_of (by decide +kernel), ?_⟩ <;> and_intros <;> decide +kernel

theorem met_EveryCommandCompletes_4 :
    (EveryCommandCompletes_w8.Inv) ∧
    ((EveryCommandCompletes_w8.ctx ↑2).refusal = some (EveryCommandCompletes_w7, 78187477905#64)) ∧
    ((EveryCommandCompletes_w8.ctx ↑2).due = none) ∧
    ((EveryCommandCompletes_w8.ctx ↑2).ending = none) ∧
    (15625 ≤ BitVec.toNat (EveryCommandCompletes_w8.clk.gt - 78187477905#64)) ∧
    (∀ (d : Nat), d ≠ ↑2 → EveryCommandCompletes_w8.ctx d = { }) ∧
    (EveryCommandCompletes_w8.cads = []) ∧
    ((EveryCommandCompletes_w8.ctx ↑2).st = CtxState.running) ∧
    ((EveryCommandCompletes_w8.ctx ↑2).saveSlot = none) ∧
    ((EveryCommandCompletes_w8.ctx ↑2).stopping = false) ∧
    ((EveryCommandCompletes_w8.ctx ↑2).stopDue = false) ∧
    ((EveryCommandCompletes_w8.ctx ↑2).released = false) ∧
    (∃ t, t ∈ (EveryCommandCompletes_w8.ctx ↑2).tiles ∧ (EveryCommandCompletes_w8.tile t).st ≠ TileState.retired) :=
  by refine ⟨inv_of (by decide +kernel), ?_, ?_, ?_, ?_, fun _ h => look_single h, ?_, ?_, ?_, ?_, ?_, ?_, ⟨3, by decide +kernel⟩⟩ <;> decide +kernel

def StepRunsFront_w1 : State := WS cx [fr (Requester.fetch 3), fr (Requester.slot3 3)] []

def StepRunsFront_w2 : State := WS cx [] [] fun s =>   { pending := s.pending, top := s.top, clk := s.clk, tiles := s.tiles, mem := s.mem, mmu := s.mmu, eng := s.eng, gz := s.gz,     cmd :=       have __src := s.cmd;       { link := __src.link, portB := __src.portB, snoopTimeouts := __src.snoopTimeouts, cache := __src.cache, hostHeld := __src.hostHeld, snoops := __src.snoops, areaValid := __src.areaValid, areaSecure := __src.areaSecure, area := __src.area, vector := __src.vector, intEn := __src.intEn, slots := __src.slots, lastSlot := __src.lastSlot, resp := __src.resp, heldRecords := __src.heldRecords, unsaved := __src.unsaved, areaRefused := __src.areaRefused, reports := [rp false], msgs := __src.msgs, readData := __src.readData },     ctxs := s.ctxs, cads := s.cads, pow := s.pow, gvn := s.gvn, res := s.res, rfw := s.rfw, clm := s.clm, pairs := s.pairs, err := s.err, trust := s.trust, free := s.free }

def StepRunsFront_w3 : State := WS cx [] [] fun s =>   { pending := s.pending, top := s.top, clk := s.clk, tiles := s.tiles, mem := s.mem, mmu := s.mmu, eng := s.eng, gz := s.gz,     cmd :=       have __src := s.cmd;       { link := __src.link, portB := __src.portB, snoopTimeouts := __src.snoopTimeouts, cache := __src.cache, hostHeld := __src.hostHeld, snoops := __src.snoops, areaValid := __src.areaValid, areaSecure := __src.areaSecure, area := __src.area, vector := __src.vector, intEn := __src.intEn, slots := __src.slots, lastSlot := __src.lastSlot, resp := __src.resp, heldRecords := __src.heldRecords, unsaved := __src.unsaved, areaRefused := __src.areaRefused, reports := [rp true], msgs := __src.msgs, readData := __src.readData },     ctxs := s.ctxs, cads := s.cads, pow := s.pow, gvn := s.gvn, res := s.res, rfw := s.rfw, clm := s.clm, pairs := s.pairs, err := s.err, trust := s.trust, free := s.free }

theorem met_StepRunsFront_1 :
    (State.reset.pending = []) ∧
    (State.reset.clk.locked = false) :=
  ⟨by decide +kernel, by decide +kernel⟩

theorem met_StepRunsFront_2 :
    (StepRunsFront_w1.pending = []) ∧
    (StepRunsFront_w1.clk.locked = true) ∧
    (StepRunsFront_w1.cmd.reports = []) :=
  ⟨by decide +kernel, by decide +kernel, by decide +kernel⟩

theorem met_StepRunsFront_3 :
    (StepRunsFront_w2.pending = []) ∧
    (StepRunsFront_w2.clk.locked = true) :=
  ⟨by decide +kernel, by decide +kernel⟩

theorem met_StepRunsFront_4 :
    (StepRunsFront_w3.pending = []) ∧
    (StepRunsFront_w3.clk.locked = true) :=
  ⟨by decide +kernel, by decide +kernel⟩

end Whole

namespace Power

def rl (f : Nat → Rail → Rail := fun _ x => x) : List Rail := (State.reset.pow.rails.zipIdx).map fun p => f p.2 p.1
def PW (st : ModState) (f : State → State := id) : State := f { State.reset with
  top := { st := st, vin := 4800, pinOpen := true, busLost := true, transitions := 255, drainCauses := [7] }
  clk := { gt := 0x123456789ABCDEF, locked := true, unlocks := 3 }, cmd := { link := .up, slots := [(3, { st := .outstanding, gen := 4, op := .start, tag := 0x99 })] }
  mem := { phys := [(0x40000000, 7)], host := [(0x100, 5)] }, eng := { mov := [(31, { en := true, st := .idle })] } }
def img (len : Byte := 0xC0) (magic : Byte := 0x46) : Tab Byte := [(0, magic), (1, 0x4C), (2, 0x43), (3, 0x41), (4, 1), (8, len), (9, 1), (12, 9), (17, 1)]
def VD (w : Tab Byte) (n : Nat := 448) (e : Bool := true) : State := PW .held fun s => { s with
  trust := { go := true, result := 1, length := BitVec.ofNat _ n, window := w, digest := 5 }, err := if e then {} else { log := [] }, top := { s.top with drainCauses := [] } }
def fr9 : W32 := railFrame (railHead 9 5 + 100 * 2 ^ 9)
def BT (step : Nat) (f : State → State := id) : State := PW .boot fun s => f { s with top := { s.top with bootStep := step, bootGt := s.clk.gt - 1562500000, pinOpen := false, busLost := false, drainCauses := [] }, pow := { s.pow with rails := rl fun _ x => { x with st := .regulating } } }
def dr (f : State → State := id) (st : ModState := .drain) (op : Op := .drain) : State := PW st fun s => f { s with top := { s.top with pinOpen := false, busLost := false, drainCauses := [6] }, cmd := { link := .up, areaValid := true, area := 0x1000, lastSlot := 4, slots := [(3, { st := .outstanding, gen := 4, op := op, tag := 0x99, opcode := 0x15 })] } }

def PowerTransitions_w1 : State := PW ModState.held

def PowerTransitions_w2 : State := PW ModState.off fun s => { pending := s.pending, top := s.top, tiles := s.tiles, mmu := s.mmu, gz := s.gz, ctxs := s.ctxs, cads := s.cads, pow := s.pow, gvn := s.gvn, res := s.res, rfw := s.rfw, clm := s.clm, pairs := s.pairs, err := s.err, trust := s.trust, free := s.free }

def PowerTransitions_w3 : State := PW ModState.running

def PowerTransitions_w4 : State := PW ModState.ready fun s =>   { pending := s.pending,     top :=       have __src := s.top;       { st := __src.st, prev := __src.prev, cause := __src.cause, transitions := __src.transitions, pinOpen := __src.pinOpen, drainCauses := __src.drainCauses, hbmUp := __src.hbmUp, pages := __src.pages, busLost := __src.busLost, vin := __src.vin, ctlA := false, ctlB := __src.ctlB, hbmOff := __src.hbmOff, railsOff := __src.railsOff, bootStep := __src.bootStep, tested := __src.tested, reserveAt := __src.reserveAt, bootGt := __src.bootGt, pinGt := __src.pinGt, busGt := __src.busGt, withdrawn := __src.withdrawn },     clk := s.clk, tiles := s.tiles, mem := s.mem, mmu := s.mmu, eng := s.eng, gz := s.gz, cmd := s.cmd, ctxs := s.ctxs, cads := s.cads, pow := s.pow, gvn := s.gvn, res := s.res, rfw := s.rfw, clm := s.clm, pairs := s.pairs, err := s.err, trust := s.trust, free := s.free }

def PowerTransitions_w5 : State := PW ModState.ready fun s =>   { pending := s.pending,     top :=       have __src := s.top;       { st := __src.st, prev := __src.prev, cause := __src.cause, transitions := __src.transitions, pinOpen := __src.pinOpen, drainCauses := __src.drainCauses, hbmUp := __src.hbmUp, pages := __src.pages, busLost := __src.busLost, vin := __src.vin, ctlA := __src.ctlA, ctlB := false, hbmOff := __src.hbmOff, railsOff := __src.railsOff, bootStep := __src.bootStep, tested := __src.tested, reserveAt := __src.reserveAt, bootGt := __src.bootGt, pinGt := __src.pinGt, busGt := __src.busGt, withdrawn := __src.withdrawn },     clk := s.clk, tiles := s.tiles, mem := s.mem, mmu := s.mmu, eng := s.eng, gz := s.gz, cmd := s.cmd, ctxs := s.ctxs, cads := s.cads, pow := s.pow, gvn := s.gvn, res := s.res, rfw := s.rfw, clm := s.clm, pairs := s.pairs, err := s.err, trust := s.trust, free := s.free }

theorem met_PowerTransitions_1 :
    (PowerTransitions_w1.Inv) ∧
    (PowerTransitions_w1.top.st ≠ ModState.off) ∧
    (PowerTransitions_w1.top.ctlB = true) ∧
    (PowerTransitions_w1.top.ctlA = true) ∧
    (PowerTransitions_w1.clk.locked = true) ∧
    (PowerTransitions_w1.cmd.link = PortState.up) :=
  by refine ⟨inv_of (by decide +kernel), ?_⟩ <;> and_intros <;> decide +kernel

theorem met_PowerTransitions_2 :
    (PowerTransitions_w2.Inv) ∧
    (PowerTransitions_w2.clk.locked = false) ∧
    (PowerTransitions_w2.cmd.link ≠ PortState.up) ∧
    (PowerTransitions_w2.top.st = ModState.off) :=
  by refine ⟨inv_of (by decide +kernel), ?_⟩ <;> and_intros <;> decide +kernel

theorem met_PowerTransitions_3 :
    (PowerTransitions_w3.Inv) ∧
    (PowerTransitions_w3.clk.locked = true) :=
  by refine ⟨inv_of (by decide +kernel), ?_⟩ <;> decide +kernel

theorem met_PowerTransitions_4 :
    (PowerTransitions_w4.Inv) ∧
    (PowerTransitions_w4.top.st ≠ ModState.off) ∧
    (PowerTransitions_w4.top.ctlA = false) :=
  by refine ⟨inv_of (by decide +kernel), ?_⟩ <;> and_intros <;> decide +kernel

theorem met_PowerTransitions_5 :
    (PowerTransitions_w5.Inv) ∧
    (PowerTransitions_w5.top.st ≠ ModState.off) ∧
    (PowerTransitions_w5.top.ctlB = false) :=
  by refine ⟨inv_of (by decide +kernel), ?_⟩ <;> and_intros <;> decide +kernel

def Boot_w1 : State := PW ModState.held

def Boot_w2 : State := PW ModState.running

def Boot_w5 : State := VD []

def Boot_w6 : State := VD (img 193)

def Boot_w7 : State := VD img

def Boot_w8 : State := BT 0 fun s =>   { pending := s.pending, top := s.top, clk := s.clk, tiles := s.tiles, mem := s.mem, mmu := s.mmu, eng := s.eng, gz := s.gz, cmd := s.cmd, ctxs := s.ctxs, cads := s.cads,     pow :=       have __src := s.pow;       { rails := rl fun r x => if r = 2 then { target := x.target, slew := x.slew, active := x.active, go := x.go, shedBit := x.shedBit, unshedBit := x.unshedBit, st := RailState.slewing, phases := x.phases, alert := x.alert, alertCause := x.alertCause, last := x.last, lastSeq := x.lastSeq, targetNow := x.targetNow, vout := x.vout, iout := x.iout, pout := x.pout, window := x.window, pLatch := x.pLatch, seq := x.seq, sent := x.sent, nakWait := x.nakWait, settling := some 5, raises := x.raises, moving := x.moving, settled := x.settled, shedSeq := x.shedSeq, back := x.back, log := x.log } else { target := x.target, slew := x.slew, active := x.active, go := x.go, shedBit := x.shedBit, unshedBit := x.unshedBit, st := RailState.regulating, phases := x.phases, alert := x.alert, alertCause := x.alertCause, last := x.last, lastSeq := x.lastSeq, targetNow := x.targetNow, vout := x.vout, iout := x.iout, pout := x.pout, window := x.window, pLatch := x.pLatch, seq := x.seq, sent := x.sent, nakWait := x.nakWait, settling := x.settling, raises := x.raises, moving := x.moving, settled := x.settled, shedSeq := x.shedSeq, back := x.back, log := x.log }, pin := __src.pin, conv := __src.conv, loads := __src.loads, railEnergy := __src.railEnergy, loadEnergy := __src.loadEnergy, window := __src.window, gov := __src.gov, up := __src.up, down := __src.down, staggerEn := __src.staggerEn, level := __src.level, next := __src.next, paceArmed := __src.paceArmed, paceAt := __src.paceAt, floor := __src.floor, fwForce := __src.fwForce, source := __src.source, thermal := __src.thermal, firmware := __src.firmware, clearRefused := __src.clearRefused, floorCount := __src.floorCount, stored := __src.stored },     gvn := s.gvn, res := s.res, rfw := s.rfw, clm := s.clm, pairs := s.pairs, err := s.err, trust := s.trust, free := s.free }

def Boot_w9 : State := BT 1

def Boot_w12 : State := BT 6

def Boot_w13 : State := BT 6 fun s =>   { pending := s.pending,     top :=       have __src := s.top;       { st := __src.st, prev := __src.prev, cause := __src.cause, transitions := __src.transitions, pinOpen := __src.pinOpen, drainCauses := __src.drainCauses, hbmUp := __src.hbmUp, pages := __src.pages, busLost := true, vin := __src.vin, ctlA := __src.ctlA, ctlB := __src.ctlB, hbmOff := __src.hbmOff, railsOff := __src.railsOff, bootStep := __src.bootStep, tested := true, reserveAt := __src.reserveAt, bootGt := __src.bootGt, pinGt := __src.pinGt, busGt := __src.busGt, withdrawn := __src.withdrawn },     clk := s.clk, tiles := s.tiles, mem := s.mem, mmu := s.mmu, eng := s.eng, gz := s.gz, cmd := s.cmd, ctxs := s.ctxs, cads := s.cads, pow := s.pow, gvn := s.gvn,     res :=       have __src := s.res;       { convEn := __src.convEn, bleedEn := __src.bleedEn, sweepMs := __src.sweepMs, settleUs := __src.settleUs, pinTarget := __src.pinTarget, chgLim := __src.chgLim, disLim := __src.disLim, mode := __src.mode, ring := __src.ring, ident := __src.ident, needsLearn := __src.needsLearn, eoc := __src.eoc, eod := __src.eod, splits := __src.splits, learnDq := __src.learnDq, raw := __src.raw, sorPct := __src.sorPct, chgStop := __src.chgStop, disStop := __src.disStop, zHigh := __src.zHigh, zLow := __src.zLow, hot := __src.hot, tempOff := __src.tempOff, chgKeep := __src.chgKeep, disKeep := __src.disKeep, shutOff := __src.shutOff, unmeasured := __src.unmeasured, under := __src.under, interlock := __src.interlock, enumDue := __src.enumDue, settled := __src.settled, monitors := __src.monitors, cells := __src.cells, tag := __src.tag, sample := __src.sample, last := __src.last, sample2 := __src.sample2, splitMons := __src.splitMons, readback := __src.readback, lastSweep := __src.lastSweep, first := __src.first, lastSplit := __src.lastSplit, charge := __src.charge, restSince := __src.restSince, restLearn := __src.restLearn, anchor := __src.anchor },     rfw := s.rfw, clm := s.clm, pairs := s.pairs, err := s.err, trust := s.trust, free := s.free }

def Boot_w14 : State := BT 6 fun s =>   { pending := s.pending,     top :=       have __src := s.top;       { st := __src.st, prev := __src.prev, cause := __src.cause, transitions := __src.transitions, pinOpen := true, drainCauses := __src.drainCauses, hbmUp := __src.hbmUp, pages := __src.pages, busLost := __src.busLost, vin := __src.vin, ctlA := __src.ctlA, ctlB := __src.ctlB, hbmOff := __src.hbmOff, railsOff := __src.railsOff, bootStep := __src.bootStep, tested := __src.tested, reserveAt := __src.reserveAt, bootGt := __src.bootGt, pinGt := __src.pinGt, busGt := __src.busGt, withdrawn := __src.withdrawn },     clk := s.clk, tiles := s.tiles, mem := s.mem, mmu := s.mmu, eng := s.eng, gz := s.gz, cmd := s.cmd, ctxs := s.ctxs, cads := s.cads, pow := s.pow, gvn := s.gvn, res := s.res, rfw := s.rfw, clm := s.clm, pairs := s.pairs, err := s.err, trust := s.trust, free := s.free }

theorem met_Boot_1 :
    (Boot_w1.Inv) ∧
    (Boot_w1.clm.watchdog = false) ∧
    (Boot_w1.pathUp Path.bursen = true) ∧
    (pathSecure Path.bursen = false) ∧
    (Boot_w1.top.st ≠ ModState.boot ∨ Boot_w1.top.bootStep ≠ 1 ∨ Boot_w1.top.hbmOff = false) ∧
    (¬(Boot_w1.top.st = ModState.boot ∧ 1562500000 ≤ BitVec.toNat (Boot_w1.clk.gt - Boot_w1.top.bootGt))) :=
  by refine ⟨inv_of (by decide +kernel), ?_⟩ <;> and_intros <;> decide +kernel

theorem met_Boot_2 :
    (Boot_w2.Inv) ∧
    (Boot_w2.clm.watchdog = false) ∧
    (Boot_w2.pathUp Path.aelconA = true) ∧
    (pathSecure Path.aelconA = true) ∧
    (Boot_w2.top.st ≠ ModState.held ∨ Boot_w2.trust.result = 1 ∨ Boot_w2.clk.locked = false) :=
  by refine ⟨inv_of (by decide +kernel), ?_⟩ <;> and_intros <;> decide +kernel

theorem met_Boot_3 :
    (Boot_w1.Inv) ∧
    (Boot_w1.clm.watchdog = false) ∧
    (Boot_w1.pathUp Path.aelconA = true) ∧
    (pathSecure Path.aelconA = true) ∧
    (Boot_w1.top.st = ModState.held) ∧
    (Boot_w1.clk.locked = true) ∧
    (Boot_w1.trust.result ≠ 1) ∧
    (Boot_w1.top.st ≠ ModState.held ∨ Boot_w1.trust.result ≠ 1) ∧
    (¬(Boot_w1.top.st = ModState.boot ∧ Boot_w1.top.bootStep = 6 ∧ ∀ (r : Nat), r < 11 → (Boot_w1.rail r).still = true)) :=
  by refine ⟨inv_of (by decide +kernel), ?_⟩ <;> and_intros <;> decide +kernel

theorem met_Boot_4 :
    (Boot_w5.Inv) ∧
    (Boot_w5.clm.watchdog = false) ∧
    (Boot_w5.top.st = ModState.held) ∧
    (Boot_w5.trust.result = 1) :=
  by refine ⟨inv_of (by decide +kernel), ?_⟩ <;> and_intros <;> decide +kernel

theorem met_Boot_5 :
    (Boot_w6.Inv) ∧
    (Boot_w6.clm.watchdog = false) ∧
    (Boot_w6.top.st = ModState.held) ∧
    (Boot_w6.trust.result = 1) :=
  by refine ⟨inv_of (by decide +kernel), ?_⟩ <;> and_intros <;> decide +kernel

theorem met_Boot_6 :
    (Boot_w7.Inv) ∧
    (Boot_w7.clm.watchdog = false) ∧
    (Boot_w7.top.st = ModState.held) ∧
    (Boot_w7.trust.result = 1) :=
  by refine ⟨inv_of (by decide +kernel), ?_⟩ <;> and_intros <;> decide +kernel

theorem met_Boot_7 :
    (Boot_w8.Inv) ∧
    (Boot_w8.clm.watchdog = false) ∧
    (Boot_w8.top.st = ModState.boot) ∧
    (Boot_w8.top.bootStep = 0) ∧
    (Boot_w8.top.hbmOff = true) ∧
    (railGood fr9 = true) ∧
    (railTyp fr9 = 9) ∧
    ((Boot_w8.rail ↑2).settling = some (railSeq fr9)) ∧
    ((Boot_w8.rail ↑2).sent = []) ∧
    ((Boot_w8.rail ↑2).st = RailState.slewing) ∧
    (∀ (k : Nat), k < 11 → k ≠ ↑2 → (Boot_w8.rail k).still = true) ∧
    (Boot_w8.top.st = ModState.boot ∧ 1562500000 ≤ BitVec.toNat (Boot_w8.clk.gt - Boot_w8.top.bootGt)) :=
  by refine ⟨inv_of (by decide +kernel), ?_, ?_, ?_, ?_, railGood_of (by decide +kernel), ?_⟩ <;> and_intros <;> decide +kernel

theorem met_Boot_8 :
    (Boot_w9.Inv) ∧
    (Boot_w9.clm.watchdog = false) ∧
    (Boot_w9.top.st = ModState.boot) ∧
    (Boot_w9.top.bootStep = 1) ∧
    (Boot_w9.top.hbmOff = true) :=
  by refine ⟨inv_of (by decide +kernel), ?_⟩ <;> and_intros <;> decide +kernel

theorem met_Boot_9 :
    (Boot_w12.Inv) ∧
    (Boot_w12.clm.watchdog = false) ∧
    (Boot_w12.top.st = ModState.boot ∧ Boot_w12.top.bootStep = 6 ∧ ∀ (r : Nat), r < 11 → (Boot_w12.rail r).still = true) :=
  by refine ⟨inv_of (by decide +kernel), ?_⟩ <;> and_intros <;> decide +kernel

theorem met_Boot_10 :
    (Boot_w13.Inv) ∧
    (Boot_w13.clm.watchdog = false) ∧
    (Boot_w13.top.st = ModState.boot ∧ Boot_w13.top.bootStep = 6 ∧ ∀ (r : Nat), r < 11 → (Boot_w13.rail r).still = true) :=
  by refine ⟨inv_of (by decide +kernel), ?_⟩ <;> and_intros <;> decide +kernel

theorem met_Boot_11 :
    (Boot_w14.Inv) ∧
    (Boot_w14.clm.watchdog = false) ∧
    (Boot_w14.top.st = ModState.boot ∧ Boot_w14.top.bootStep = 6 ∧ ∀ (r : Nat), r < 11 → (Boot_w14.rail r).still = true) :=
  by refine ⟨inv_of (by decide +kernel), ?_⟩ <;> and_intros <;> decide +kernel

def ResetAndDrain_w1 : State := PW ModState.held

def ResetAndDrain_w2 : State := BT 0 fun s =>   { pending := s.pending, top := s.top, clk := s.clk, tiles := s.tiles, mem := s.mem, mmu := s.mmu, eng := s.eng, gz := s.gz, cmd := s.cmd, ctxs := s.ctxs, cads := s.cads,     pow :=       have __src := s.pow;       { rails := rl fun r x => if r = 2 then { target := x.target, slew := x.slew, active := x.active, go := x.go, shedBit := x.shedBit, unshedBit := x.unshedBit, st := RailState.slewing, phases := x.phases, alert := x.alert, alertCause := x.alertCause, last := x.last, lastSeq := x.lastSeq, targetNow := x.targetNow, vout := x.vout, iout := x.iout, pout := x.pout, window := x.window, pLatch := x.pLatch, seq := x.seq, sent := x.sent, nakWait := x.nakWait, settling := some 5, raises := x.raises, moving := x.moving, settled := x.settled, shedSeq := x.shedSeq, back := x.back, log := x.log } else { target := x.target, slew := x.slew, active := x.active, go := x.go, shedBit := x.shedBit, unshedBit := x.unshedBit, st := RailState.regulating, phases := x.phases, alert := x.alert, alertCause := x.alertCause, last := x.last, lastSeq := x.lastSeq, targetNow := x.targetNow, vout := x.vout, iout := x.iout, pout := x.pout, window := x.window, pLatch := x.pLatch, seq := x.seq, sent := x.sent, nakWait := x.nakWait, settling := x.settling, raises := x.raises, moving := x.moving, settled := x.settled, shedSeq := x.shedSeq, back := x.back, log := x.log }, pin := __src.pin, conv := __src.conv, loads := __src.loads, railEnergy := __src.railEnergy, loadEnergy := __src.loadEnergy, window := __src.window, gov := __src.gov, up := __src.up, down := __src.down, staggerEn := __src.staggerEn, level := __src.level, next := __src.next, paceArmed := __src.paceArmed, paceAt := __src.paceAt, floor := __src.floor, fwForce := __src.fwForce, source := __src.source, thermal := __src.thermal, firmware := __src.firmware, clearRefused := __src.clearRefused, floorCount := __src.floorCount, stored := __src.stored },     gvn := s.gvn, res := s.res, rfw := s.rfw, clm := s.clm, pairs := s.pairs, err := s.err, trust := s.trust, free := s.free }

def ResetAndDrain_w3 : State := PW ModState.running

def ResetAndDrain_w4 : Exchange := { secure := true, flags := 0#56, tag := 119#64, par := [] }

def ResetAndDrain_w5 : State := PW ModState.ready fun s =>   { pending := s.pending,     top :=       have __src := s.top;       { st := __src.st, prev := __src.prev, cause := __src.cause, transitions := __src.transitions, pinOpen := __src.pinOpen, drainCauses := __src.drainCauses, hbmUp := __src.hbmUp, pages := __src.pages, busLost := __src.busLost, vin := __src.vin, ctlA := false, ctlB := __src.ctlB, hbmOff := __src.hbmOff, railsOff := __src.railsOff, bootStep := __src.bootStep, tested := __src.tested, reserveAt := __src.reserveAt, bootGt := __src.bootGt, pinGt := __src.pinGt, busGt := __src.busGt, withdrawn := __src.withdrawn },     clk := s.clk, tiles := s.tiles, mem := s.mem, mmu := s.mmu, eng := s.eng, gz := s.gz, cmd := s.cmd, ctxs := s.ctxs, cads := s.cads, pow := s.pow, gvn := s.gvn, res := s.res, rfw := s.rfw, clm := s.clm, pairs := s.pairs, err := s.err, trust := s.trust, free := s.free }

def ResetAndDrain_w6 : State := dr

def ResetAndDrain_w7 : Exchange := { secure := false, flags := 0#56, tag := 119#64, par := [] }

def ResetAndDrain_w8 : State := dr fun s =>   { pending := s.pending,     top :=       have __src := s.top;       { st := __src.st, prev := __src.prev, cause := __src.cause, transitions := __src.transitions, pinOpen := true, drainCauses := [6, 7], hbmUp := __src.hbmUp, pages := __src.pages, busLost := __src.busLost, vin := __src.vin, ctlA := __src.ctlA, ctlB := __src.ctlB, hbmOff := __src.hbmOff, railsOff := __src.railsOff, bootStep := __src.bootStep, tested := __src.tested, reserveAt := __src.reserveAt, bootGt := __src.bootGt, pinGt := __src.pinGt, busGt := __src.busGt, withdrawn := __src.withdrawn },     clk := s.clk, tiles := s.tiles, mem := s.mem, mmu := s.mmu, eng := s.eng, gz := s.gz, cmd := s.cmd, ctxs := s.ctxs, cads := s.cads, pow := s.pow, gvn := s.gvn, res := s.res, rfw := s.rfw, clm := s.clm, pairs := s.pairs, err := s.err, trust := s.trust, free := s.free }

def ResetAndDrain_w9 : State := dr fun s =>   { pending := s.pending, top := s.top, clk := s.clk, tiles := s.tiles, mem := s.mem, mmu := s.mmu, eng := s.eng, gz := s.gz, cmd := s.cmd, ctxs := s.ctxs, cads := s.cads, pow := s.pow, gvn := s.gvn, res := s.res, rfw := s.rfw, clm := s.clm, pairs := s.pairs, err := s.err,     trust :=       have __src := s.trust;       { go := __src.go, length := __src.length, result := __src.result, reason := __src.reason, attempts := __src.attempts, window := __src.window, version := __src.version, digest := __src.digest, sramBad := true, lock := __src.lock, requireSigned := __src.requireSigned, keyValid := __src.keyValid, unsignedPriv := __src.unsignedPriv, keys := __src.keys, keyPriv := __src.keyPriv },     free := s.free }

def ResetAndDrain_w10 : State := dr id ModState.ready Op.start

def ResetAndDrain_w11 : State := dr fun s =>   { pending := s.pending,     top :=       have __src := s.top;       { st := __src.st, prev := __src.prev, cause := __src.cause, transitions := __src.transitions, pinOpen := true, drainCauses := __src.drainCauses, hbmUp := __src.hbmUp, pages := __src.pages, busLost := true, vin := __src.vin, ctlA := __src.ctlA, ctlB := __src.ctlB, hbmOff := __src.hbmOff, railsOff := __src.railsOff, bootStep := __src.bootStep, tested := __src.tested, reserveAt := __src.reserveAt, bootGt := __src.bootGt, pinGt := __src.pinGt, busGt := __src.busGt, withdrawn := __src.withdrawn },     clk := s.clk, tiles := s.tiles, mem := s.mem, mmu := s.mmu, eng := s.eng, gz := s.gz, cmd := s.cmd, ctxs := s.ctxs, cads := s.cads, pow := s.pow, gvn := s.gvn, res := s.res, rfw := s.rfw, clm := s.clm, pairs := s.pairs, err := s.err, trust := s.trust, free := s.free }

theorem met_ResetAndDrain_1 :
    (ResetAndDrain_w1.Inv) ∧
    (ResetAndDrain_w1.clm.watchdog = false) ∧
    (ResetAndDrain_w1.top.st.firmware = false ∨ ResetAndDrain_w1.top.ctlB = false) ∧
    (ResetAndDrain_w1.top.st ≠ ModState.drain ∨ ¬∀ (n : Nat), (ResetAndDrain_w1.slotOf n).st = SlotState.outstanding → (ResetAndDrain_w1.slotOf n).op = Op.drain) ∧
    (ResetAndDrain_w1.cads = []) ∧
    (¬(ResetAndDrain_w1.top.pinOpen = true ∧ ResetAndDrain_w1.top.busLost = true ∧ ResetAndDrain_w1.top.withdrawn = false ∧ 15625000 ≤ BitVec.toNat (ResetAndDrain_w1.clk.gt - ResetAndDrain_w1.top.pinGt) ∧ 15625000 ≤ BitVec.toNat (ResetAndDrain_w1.clk.gt - ResetAndDrain_w1.top.busGt) ∧ ResetAndDrain_w1.top.st.firmware = true)) ∧
    (¬(ResetAndDrain_w1.top.busLost = true ∧ 156250000 ≤ BitVec.toNat (ResetAndDrain_w1.clk.gt - ResetAndDrain_w1.top.busGt) ∧ ResetAndDrain_w1.top.st.firmware = true ∧ (ResetAndDrain_w1.top.pinOpen = true ∧ (∀ (n : Nat), (ResetAndDrain_w1.slotOf n).st = SlotState.outstanding → (ResetAndDrain_w1.slotOf n).op = Op.drain) ∧ 156250000 ≤ BitVec.toNat (ResetAndDrain_w1.clk.gt - ResetAndDrain_w1.top.pinGt) ∨ ResetAndDrain_w1.top.st = ModState.faulted))) :=
  by refine ⟨inv_of (by decide +kernel), ?_, ?_, .inl (by decide +kernel), ?_, ?_, (fun h => absurd h.2.2.1 (by decide +kernel))⟩ <;> decide +kernel

theorem met_ResetAndDrain_2 :
    (ResetAndDrain_w2.Inv) ∧
    (ResetAndDrain_w2.clm.watchdog = false) ∧
    (ResetAndDrain_w2.cads = []) :=
  by refine ⟨inv_of (by decide +kernel), ?_⟩ <;> and_intros <;> decide +kernel

theorem met_ResetAndDrain_3 :
    (ResetAndDrain_w3.Inv) ∧
    (ResetAndDrain_w3.clm.watchdog = false) ∧
    (ResetAndDrain_w3.cmd.link = PortState.up) ∧
    (ResetAndDrain_w3.fwRuns = true) ∧
    (ResetAndDrain_w3.accepts 22 = true) ∧
    (lineOpcode 22 ResetAndDrain_w4 = 22) ∧
    (fieldsClear ResetAndDrain_w4 [] = true) ∧
    (ResetAndDrain_w4.secure = true) ∧
    (ResetAndDrain_w3.trust.sramBad = false) ∧
    (ResetAndDrain_w3.top.st.firmware = true) ∧
    (ResetAndDrain_w3.top.ctlB = true) ∧
    (ResetAndDrain_w3.cads = []) :=
  by refine ⟨inv_of (by decide +kernel), ?_⟩ <;> and_intros <;> decide +kernel

theorem met_ResetAndDrain_4 :
    (ResetAndDrain_w5.Inv) ∧
    (ResetAndDrain_w5.clm.watchdog = false) ∧
    (ResetAndDrain_w5.top.pinOpen = true ∧ ResetAndDrain_w5.top.busLost = true ∧ ResetAndDrain_w5.top.withdrawn = false ∧ 15625000 ≤ BitVec.toNat (ResetAndDrain_w5.clk.gt - ResetAndDrain_w5.top.pinGt) ∧ 15625000 ≤ BitVec.toNat (ResetAndDrain_w5.clk.gt - ResetAndDrain_w5.top.busGt) ∧ ResetAndDrain_w5.top.st.firmware = true) ∧
    (ResetAndDrain_w5.Still) ∧
    (∀ (c : Nat), (ResetAndDrain_w5.ctx c).started = false) ∧
    (ResetAndDrain_w5.cads = []) :=
  by refine ⟨inv_of (by decide +kernel), ?_, ?_, still_of (by decide +kernel), fun _ => rfl, ?_⟩ <;> decide +kernel

theorem met_ResetAndDrain_5 :
    (ResetAndDrain_w6.Inv) ∧
    (ResetAndDrain_w6.clm.watchdog = false) ∧
    (ResetAndDrain_w6.Passes 21 ResetAndDrain_w7 [] false) ∧
    (5 < 4096) ∧
    (ResetAndDrain_w6.freeSlot = some 5) ∧
    (ResetAndDrain_w6.cads = []) ∧
    (ResetAndDrain_w6.top.st = ModState.drain) ∧
    (∀ (n : Nat), (ResetAndDrain_w6.slotOf n).st = SlotState.outstanding → (ResetAndDrain_w6.slotOf n).op = Op.drain) :=
  by refine ⟨inv_of (by decide +kernel), ?_, passes_of (by decide +kernel), ?_, ?_, ?_, ?_, clear_of (by decide +kernel)⟩ <;> decide +kernel

theorem met_ResetAndDrain_6 :
    (ResetAndDrain_w8.Inv) ∧
    (ResetAndDrain_w8.clm.watchdog = false) ∧
    (ResetAndDrain_w8.top.st = ModState.drain) ∧
    (∀ (n : Nat), (ResetAndDrain_w8.slotOf n).st = SlotState.outstanding → (ResetAndDrain_w8.slotOf n).op = Op.drain) :=
  by refine ⟨inv_of (by decide +kernel), ?_, ?_, clear_of (by decide +kernel)⟩ <;> decide +kernel

theorem met_ResetAndDrain_7 :
    (ResetAndDrain_w9.Inv) ∧
    (ResetAndDrain_w9.clm.watchdog = false) ∧
    (ResetAndDrain_w9.top.st.firmware = true) ∧
    (ResetAndDrain_w9.top.ctlB = true) ∧
    (ResetAndDrain_w9.trust.sramBad = true) :=
  by refine ⟨inv_of (by decide +kernel), ?_⟩ <;> and_intros <;> decide +kernel

theorem met_ResetAndDrain_8 :
    (ResetAndDrain_w10.Inv) ∧
    (ResetAndDrain_w10.clm.watchdog = false) ∧
    (ResetAndDrain_w10.Passes 21 ResetAndDrain_w7 [] false) ∧
    (5 < 4096) ∧
    (ResetAndDrain_w10.freeSlot = some 5) ∧
    (ResetAndDrain_w10.cads = []) :=
  by refine ⟨inv_of (by decide +kernel), ?_, passes_of (by decide +kernel), ?_⟩ <;> and_intros <;> decide +kernel

theorem met_ResetAndDrain_9 :
    (ResetAndDrain_w11.Inv) ∧
    (ResetAndDrain_w11.clm.watchdog = false) ∧
    (ResetAndDrain_w11.top.busLost = true ∧ 156250000 ≤ BitVec.toNat (ResetAndDrain_w11.clk.gt - ResetAndDrain_w11.top.busGt) ∧ ResetAndDrain_w11.top.st.firmware = true ∧ (ResetAndDrain_w11.top.pinOpen = true ∧ (∀ (n : Nat), (ResetAndDrain_w11.slotOf n).st = SlotState.outstanding → (ResetAndDrain_w11.slotOf n).op = Op.drain) ∧ 156250000 ≤ BitVec.toNat (ResetAndDrain_w11.clk.gt - ResetAndDrain_w11.top.pinGt) ∨ ResetAndDrain_w11.top.st = ModState.faulted)) :=
  by refine ⟨inv_of (by decide +kernel), ?_,
   ⟨by decide +kernel, by decide +kernel, by decide +kernel, .inl ⟨by decide +kernel, clear_of (by decide +kernel), by decide +kernel⟩⟩⟩ <;> decide +kernel

end Power

/-! ### Witnesses written by hand -/

theorem met_ScalarFrame_1 : busy.CanIssue (lone 1) ∧ busy.guarded (lone 1) ∧ ((lone 1).slot = 1 ∨ (lone 1).slot = 2) ∧ (fR 3 1 2).extractLsb' 0 30 = 0
    ∧ opRD (fR 3 1 2) < 16 ∧ opRA (fR 3 1 2) < 16 ∧ opRB (fR 3 1 2) < 16
    ∧ exec (.add (lone 1) false (fR 3 1 2)) busy = .next (after (.add (lone 1) false (fR 3 1 2)) busy) :=
  ⟨canIssue_of (by decide +kernel) (by decide +kernel), by unfold State.guarded; decide +kernel, by decide, by decide +kernel, by decide +kernel,
    by decide +kernel, by decide +kernel, rfl⟩

theorem met_ScalarFrame_2 : busy.CanIssue (lone 2) ∧ busy.guarded (lone 2) ∧ ((lone 2).slot = 1 ∨ (lone 2).slot = 2) ∧ (fI 3 0 7).extractLsb' 32 4 = 0
    ∧ opRA (fI 3 0 7) = 0 ∧ opRD (fI 3 0 7) < 16 ∧ exec (.li (lone 2) (fI 3 0 7)) busy = .next (after (.li (lone 2) (fI 3 0 7)) busy) :=
  ⟨canIssue_of (by decide +kernel) (by decide +kernel), by unfold State.guarded; decide +kernel, by decide, by decide +kernel, by decide +kernel,
    by decide +kernel, rfl⟩

theorem met_ScalarFrame_3 : busy.CanIssue (lone 1) ∧ busy.guarded (lone 1) ∧ ((lone 1).slot = 1 ∨ (lone 1).slot = 2) ∧ (fR 3 1 0).extractLsb' 0 36 = 0
    ∧ opRD (fR 3 1 0) < 16 ∧ exec (.pfirst (lone 1) (fR 3 1 0)) busy = .next (after (.pfirst (lone 1) (fR 3 1 0)) busy) :=
  ⟨canIssue_of (by decide +kernel) (by decide +kernel), by unfold State.guarded; decide +kernel, by decide, by decide +kernel, by decide +kernel, rfl⟩

namespace Expanders

def W (op : Nat) (fl : Nat := 0) (tbl : Nat := 0) (ex : Nat := 0) : W64 := BitVec.ofNat 64 (op * 2^60 + fl * 2^57 + ex * 2^48 + tbl * 2^42)
def desc (op len n1 n2 src dst : Nat) (fl : Nat := 0) (st : List W64 := [0,0,0,0]) (w8 w9 w10 : W64 := 0) (tbl ex : Nat := 0) : List W64 :=
  [W op fl tbl ex, BitVec.ofNat 64 src, BitVec.ofNat 64 dst, BitVec.ofNat 64 (n2 * 2^48 + n1 * 2^32 + len)] ++ st ++ [w8, w9, w10, 0, 0, 0, 0, 0]
def physD (l : List (Nat × List Byte)) : Tab Byte := l.foldl (fun m p => Tab.writeN 0 m p.1 p.2) []
def bytesOf (l : List W64) : List Byte := l.flatMap fun w => toLe 8 w.toNat
def tlbM : List TlbEntry := [{ asid := 5, va := 0, bits := 21, pte := BitVec.ofNat 64 0x4000003F }, { asid := 5, va := 0x200000, bits := 16, pte := BitVec.ofNat 64 0x5000003F }, { asid := 5, va := 0x210000, bits := 16, pte := BitVec.ofNat 64 0x60000037 }]
def SMv (v : Mover) (l : List (Nat × List Byte)) : State := { mk { tileX with st := .reset } with
  top := { st := .ready, hbmUp := 1 }, clk := { gt := 0x123456789A }, mem := { phys := physD l }
  mmu := { ctx := [(2, 0x80000005)], tlbs := [(2053, tlbM)] }
  eng := { mov := [(5, v), (9, { en := true })], ctrGrant := [(7, some 2)], exp := [(1, { en := true, st := .idle })] } }
def ent : MovEntry := { num := 3, released := true, va := 0x1000, ctx := 2, tile := 3, words := none}
def mvs (s : MovState) (sus : Bool := false) (en : Bool := true) : Mover := { en := en, st := s, ctx := 2, granted := true, nextNum := 4, suspend := sus }
def ex1 (len : Nat) : List W64 := desc 5 len 3 1 0x100 0x200000 0 [0,0,0,0] 0 0 0 0 1
def rx (len cur : Nat) (bl : Nat := 0) : Running := { entry := ent, words := ex1 len, cursor := cur, blockAt := 0x100, block := bl }
def hb (nsym coded raw tb fl : Nat) (st : Nat := 0x555) : List Byte := toLe 4 nsym ++ toLe 4 coded ++ toLe 2 raw ++ [BitVec.ofNat 8 tb, BitVec.ofNat 8 fl] ++ toLe 4 0 ++ (toLe 2 st ++ toLe 2 0x555 ++ toLe 2 0x555 ++ toLe 2 0x555) ++ toLe 8 0
def tb0 : TansTable := { symw := 5, entries := List.replicate 0x555 (BitVec.ofNat 32 (0x554 * 65536 + 1 * 256 + 2)) ++ [BitVec.ofNat 32 (0x555 * 65536 + 0x11)] }
def MX (v : Mover) (blk : List Byte) (e : Expander := { en := true, st := .idle }) (tabs : Tab (Option TansTable) := [(9, some tb0)]) (st : ModState := .ready) : State := { SMv v [(0x40000100, blk)] with
  tiles := [], top := { st := st, hbmUp := 3 }, ctxs := [(2, { tables := [9] })], cmd := { link := .up }
  mmu := { ctx := [(2, 0x80000005)], tlbs := [(2053, tlbM), (2176, [{ asid := 5, va := 0, bits := 21, pte := BitVec.ofNat 64 (0x40000000 + 0x3F) }]), (2177, [{ asid := 5, va := 0, bits := 21, pte := BitVec.ofNat 64 (0x1240000000 + 0x3F) }])] }
  mem := { phys := physD [(0x1240000100, blk), (0x40002000, [7])] }
  eng := { mov := [(5, v), (9, { en := true })], ctrGrant := [(7, some 2)], exp := [(1, e)], tables := tabs } }
def vx (r : Running) (st : MovState := .running) : Mover := { mvs st with run := some r }

/-- A descriptor's first block, of `l`, with room for `len` bytes of output. -/
def good (len : Nat) (l : List Byte) : State := MX (vx (rx len 0)) l
def s0 (s : State) : State := s.setExpander 1 { s.expander 1 with last := 5, st := .decoding }
/-- What the expander has read of a block: its header, then its bytes. -/
def rd1 (s : State) : BlockRead × State := (s0 s).readCoded 1 5 (rx 100 0) 4 0x100 32
def rd2 (s : State) (n : Nat) : BlockRead × State := (rd1 s).2.readCoded 1 5 (rx 100 0) 8 0x120 n

/-- The block of the good header: seven symbols 0x11 of five bits and three raw bytes. -/
def blk : List Byte := hb 7 0 3 9 0 ++ [1, 2, 3]

theorem met_Expanders_block : (good 100 blk).Inv ∧ (good 100 blk).Still ∧ (good 100 blk).pathUp .aelconA = true
    ∧ (good 100 blk).blockTurn 1 = some 5 ∧ ((good 100 blk).mover 0 5).run = some (rx 100 0) ∧ ((good 100 blk).expander 1).st = .idle
    ∧ rd1 (good 100 blk) = (.bytes ((hb 7 0 3 9 0).map some), (rd1 (good 100 blk)).2)
    ∧ (rd1 (good 100 blk)).2.tableLoading 0 (blockHeader (hb 7 0 3 9 0)).table = false
    ∧ { (rd1 (good 100 blk)).2 with mmu := (good 100 blk).mmu } = s0 (good 100 blk)
    ∧ (rd1 (good 100 blk)).2.grantedTable 0 2 (blockHeader (hb 7 0 3 9 0)).table = some tb0 ∧ (blockHeader (hb 7 0 3 9 0)).ok = true
    ∧ rd2 (good 100 blk) 3 = (.bytes ([1, 2, 3].map some), (rd2 (good 100 blk) 3).2)
    ∧ { (rd2 (good 100 blk) 3).2 with mmu := (good 100 blk).mmu } = s0 (good 100 blk)
    ∧ decodeBlock tb0 (blockHeader (hb 7 0 3 9 0)) [] [1, 2, 3] = .ok [0x31, 0xc6, 0x18, 0x63, 0x04, 1, 2, 3]
    ∧ (blockHeader (hb 7 0 3 9 0)).output tb0.symw = 8 :=
  ⟨inv_of (by decide +kernel), still_of (by decide +kernel), by decide +kernel, by decide +kernel, rfl, rfl, Prod.ext (by decide +kernel) rfl,
    by decide +kernel, rfl, by decide +kernel, by decide +kernel, Prod.ext (by decide +kernel) rfl, rfl, ok_of (by decide +kernel),
    by decide +kernel⟩
end Expanders

namespace DomainTimeRoot
/-- A member that takes its time on port 5, with no other port in use. -/
def alone : State := { mk {} with top := { st := .ready }, clk := { source := 1, timingPort := 5 }, tiles := [], gz := { domain := 7, joined := true, me := 3, members := 0xE } }

theorem met_DomainTime_holdover : alone.Inv ∧ alone.Still ∧ alone.gz.arrived = [] ∧ alone.clk.source = 1
    ∧ ∀ p, ¬ (p ∈ alone.portsTo (Config.timeRoot alone.gz.domain).toNat ∧ (alone.port p).timing = true ∧ p ≠ alone.clk.timingPort.toNat) :=
  ⟨inv_of (by decide +kernel), still_of (by decide +kernel), rfl, rfl, fun p h => by
    have h := h.2.1
    unfold State.port at h
    split at h <;> cases h⟩

/-- The same with port 6 linked to the time root and on the timing list. -/
def linked : State := { alone with gz := { alone.gz with members := BitVec.allOnes 64, ports := [(6, { en := true, st := .up, timing := true, peerValid := true, peerMember := Config.timeRoot 7#32, peerDomain := 7 })] } }

theorem linked_links : linked.links = [(6, (Config.timeRoot 7#32).toNat)] := by
  have h : linked.upPorts = [6] := by decide +kernel
  have m : linked.isMember (Config.timeRoot 7#32).toNat = true := by
    have : (Config.timeRoot 7#32).toNat < 64 := (Config.timeRoot 7#32).isLt
    show (true && (BitVec.allOnes 64).getLsbD _) = true
    rw [BitVec.getLsbD_allOnes, decide_eq_true this]; rfl
  unfold State.links
  rw [h]
  simp only [List.filter]
  rw [show (linked.port 6).peerMember = Config.timeRoot 7#32 from rfl, m]
  rfl

theorem linked_port : 6 ∈ linked.portsTo (Config.timeRoot 7#32).toNat := by
  have d : linked.distance (Config.timeRoot 7#32).toNat (Config.timeRoot 7#32).toNat = some 1 := by simp [State.distance]
  simp [State.portsTo, State.linksTo, linked_links, d]

theorem met_DomainTime_switch : linked.Still ∧ linked.gz.arrived = [] ∧ linked.clk.source = 1
    ∧ (6 ∈ linked.portsTo (Config.timeRoot linked.gz.domain).toNat ∧ (linked.port 6).timing = true ∧ 6 ≠ linked.clk.timingPort.toNat)
    ∧ ∀ q, q < 6 → ¬ (q ∈ linked.portsTo (Config.timeRoot linked.gz.domain).toNat ∧ (linked.port q).timing = true ∧ q ≠ linked.clk.timingPort.toNat) :=
  ⟨still_of (by decide +kernel), rfl, rfl, ⟨linked_port, rfl, by decide⟩, fun q hq h => by
    match q, hq with
    | 0, _ | 1, _ | 2, _ | 3, _ | 4, _ | 5, _ => exact absurd h.2.1 (by decide)⟩
theorem linked_inv : linked.Inv := inv_of (by decide +kernel)
end DomainTimeRoot

namespace FullCache
/-- The lines from one on, clean and shared. -/
def lines : Nat → Nat → Tab (Option HostLine)
  | _, 0 => []
  | k, n + 1 => (k, some { owned := false, dirty := false, data := [] }) :: lines (k + 1) n

theorem lines_wf (n : Nat) : ∀ k, Tab.wfFrom none k (lines k n) = true := by
  induction n with
  | zero => intro k; rfl
  | succ n ih => intro k; simp [lines, Tab.wfFrom, ih]

theorem lines_length (n : Nat) : ∀ k, (lines k n).length = n := by
  induction n with
  | zero => intro k; rfl
  | succ n ih => intro k; simp [lines, ih]

theorem lines_look (n : Nat) : ∀ k j, k + n ≤ j → Tab.look none (lines k n) j = none := by
  induction n with
  | zero => intro k j _; rfl
  | succ n ih => intro k j h; simp only [lines, Tab.look]; rw [if_neg (by omega)]; exact ih _ _ (by omega)

def small : State := { mk {} with top := { st := .ready }, tiles := [], cmd := { link := .up } }
/-- A module whose cache of host memory is full. -/
def full : State := { small with cmd := { link := .up, cache := lines 0 524288 } }

theorem full_inv : full.Inv := by
  have h : small.Inv := inv_of (by decide +kernel)
  exact { h with
    tiles := ⟨h.tiles.1, h.tiles.2⟩
    host := { h.host with cache := lines_wf 524288 0 } }

theorem met_BursenLines_full : full.cmd.link = .up ∧ 600000 < 2 ^ 35 ∧ Tab.look none full.cmd.cache 600000 = none ∧ 524288 ≤ full.cmd.cache.length :=
  ⟨rfl, by decide, lines_look _ _ _ (by decide), Nat.le_of_eq (lines_length 524288 0).symm⟩
end FullCache

namespace CommandChecks
def st (m : ModState) (valid : Bool) (watch : Bool := false) (l : PortState := .up) : State := { mk {} with
  top := { st := m }, tiles := [], cmd := { link := l, areaValid := valid, area := 0x1000 }, clm := { watchdog := watch } }
def ex (par : List W64) (sec : Bool := false) (op : Option (BitVec 8) := none) : Exchange := { secure := sec, flags := 0, tag := 0x77, par := par, opcode := op }

theorem rows : (0x04, false, [0xF], Instr.start) ∈ Claims.commands ∧ (0x15, false, [], Instr.drain) ∈ Claims.commands
    ∧ (0x16, true, [], Instr.resetModule) ∈ Claims.commands := by simp [Claims.commands]

/-- One state for each check, in their order: nothing is answered; firmware does not run; the state; the area; the opcode; a reserved bit; a
command that must be secure. -/
theorem met_CommandChecks :
    (∀ s ∈ [st .off true, st .ready true false .training, st .ready true true, st .boot true, st .drain true, st .ready false, st .ready true], s.Inv ∧ s.Still)
    ∧ ((st .off true).top.st = .off ∧ (st .ready true false .training).cmd.link ≠ .up)
    ∧ ((st .ready true true).top.st.firmware = true ∧ (st .ready true true).fwRuns = false)
    ∧ ((st .boot true).fwRuns = true ∧ 0x04 ∉ [0x01, 0x06, 0x07, 0x08, 0x0F, 0x11, 0x14, 0x15, 0x16])
    ∧ ((st .ready false).fwRuns = true ∧ (st .ready false).cmd.areaValid = false)
    ∧ ((st .ready true).cmd.areaValid = true ∧ (ex [] false (some 0x17)).opcode = some 0x17)
    ∧ ((ex [2 ^ 60]).par.getD 0 0).getLsbD 60 = true ∧ ([0xF].getD 0 0).testBit 60 = false
    ∧ ((ex []).flags = 0 ∧ (ex []).par.length ≤ 14 ∧ (ex []).secure = false) := by
  refine ⟨?_, by decide +kernel, by decide +kernel, by decide +kernel, by decide +kernel, by decide +kernel, by decide +kernel, by decide +kernel,
    by decide +kernel⟩
  intro s h
  simp only [List.mem_cons, List.not_mem_nil, or_false] at h
  rcases h with rfl | rfl | rfl | rfl | rfl | rfl | rfl <;> exact ⟨inv_of (by decide +kernel), still_of (by decide +kernel)⟩
end CommandChecks

namespace Images

def rgn : Region := { va := 0x10000, size := 0x10000, kind := 4, rights := 3, bolt := 0, stack := 0, host := 0, pool := 0 }
def ln (v : Byte) (ow di : Bool) : HostLine := { owned := ow, dirty := di, data := List.replicate 128 v }
def BL (c : Cmd) (h : Tab Byte := []) : State := { mk { tileX with st := .stopped } with
  top := { st := .ready, hbmUp := 1 }, clk := { gt := 0x123456789A }, cmd := { c with hostHeld := if c.link = .up then [(0x800003, some true)] else [] }
  ctxs := [(2, { regions := [rgn], pages := [(0x10000, 0x40000000)] })], mem := { phys := [(0x40000105, 7), (0x40000204, 9)], host := [(0x80, 5), (0x185, 6)] ++ h } }
def BK (c : Cmd) : State := { BL c with cmd := c }
def EX (par : List Nat := []) (fl : Nat := 0) (sec : Bool := false) (opc : Option (BitVec 8) := none) : Exchange := { secure := sec, flags := BitVec.ofNat _ fl, tag := 0x77, par := par.map (BitVec.ofNat 64), opcode := opc }
def sl (gen : Nat) (st : SlotState) (op : Op := .start) : Slot := { st := st, gen := BitVec.ofNat _ gen, op := op }
def HS (slots : Tab Slot) (av : Bool := true) (st : ModState := .ready) : State := { BK { link := .up, areaValid := av, area := 0x1000, slots := slots, lastSlot := 4 } with top := { st := st, hbmUp := 1 } }
def grp (ph : Nat) : Group := { bolt := 0, phys := ph, siltKib := 512, entry := 0x8047, tvec := 0x5123, movers := 1, counters := 2 }
def CS (y : Ctx) (tl : Tab Tile) (st : ModState := .running) (slots : Tab Slot := []) (mem : Tab Byte := []) (mv : Tab Mover := []) (fq : Tab FabQueue := []) : State := { HS slots with
  top := { st := st, hbmUp := 1, reserveAt := [some 0, none, none, none] }, ctxs := [(2, y)], tiles := tl, mem := { phys := mem }, mmu := { ctx := [(2, 0x80000055)] }
  eng := { mov := mv }, gz := { fq := fq } }
def y0 : Ctx := { st := .loaded, groups := [grp 0], pages := [(0x10000, 0x40000000)] }
def sec4 (ty off sz arg : Nat) : List Byte := toLe 2 ty ++ List.replicate 6 0 ++ toLe 8 off ++ toLe 8 sz ++ toLe 8 arg
def pad (n : Nat) (l : List Byte) : List Byte := l ++ List.replicate (n - l.length) 0
def image (flags : Nat := 0) (stack : Nat := 0) (mv : Nat := 1) (va : Nat := 0x10000) : List Byte := pad 256 (toLe 4 0x474D4952 ++ toLe 2 1 ++ toLe 2 flags ++ toLe 8 640 ++ toLe 4 4) ++ sec4 1 0x180 32 0 ++ sec4 2 0x1C0 48 0 ++ sec4 4 0x200 8 0 ++ sec4 6 0x240 64 0
  ++ pad 64 (toLe 8 (512 * 256) ++ toLe 8 0x8047 ++ toLe 8 0x5000 ++ toLe 8 mv) ++ pad 64 (toLe 8 va ++ toLe 8 100 ++ toLe 8 (1 + 3 * 16 + stack * 4096)) ++ pad 64 [] ++ List.replicate 64 0x5A
def LS (img : List Byte) (y : Ctx := {}) (mv : Tab Mover := [(31, { en := true, st := .idle }), (30, { en := true, st := .idle })]) (up : W64 := 1) (slots : Tab Slot := []) : State := { CS y [] .ready slots with
  ctxs := if y = {} then [] else [(2, y)], mem := { host := (img.zipIdx.map fun p => (0x2000 + p.2, p.1)).filter fun p => decide (p.2 ≠ 0) }, eng := { mov := mv.reverse }
  top := { st := .ready, hbmUp := up.setWidth _, reserveAt := [some 0, none, none, none] } }
def walkTo (s : State) : State := { s with mmu := { ctx := [(2, 0x80000055)], root := [(2, 0x10)] }, mem := { s.mem with phys := [(0, 0x11001), (1, 0x12001), (2, 0x4000003F)].foldl (fun m p => Tab.writeN 0 m (0x10000 + 0x1000 * p.1) (toLe 8 p.2)) [] } }

/-- LOAD_IMAGE and FIT_CHECK of the 640 bytes at 0x2000 into context 2. -/
def xl : Exchange := EX [0x2000, 640, 2, 0x4000]
def im : List Nat := [2 ^ 48 - 1, 2 ^ 64 - 1, 0xF, 2 ^ 48 - 1] ++ List.replicate 6 (2 ^ 64 - 1)

/-- A load of the image finds room, and chains of descriptors to copy it. -/
def fits (s : State) : Bool := match parseImage (s.hostRead 0x2000 640).1 640 with
  | .ok p => decide (s.shortOf p.demands = []) && (match s.place p with
    | some z => decide ((s.setCtx 2 z).loadChains 2 { slot := 5, image := 0x2000, length := 640, shortfall := 0x4000, signed := p.signed, sects := p.sects
                                                      queues := p.queues, exports := p.exports, priv := p.priv, policy := s.policy, demands := p.demands } ≠ [])
    | none => false)
  | .error _ => false

theorem met_LoadsAndReports_load : (LS image).Inv ∧ (LS image).Still ∧ (LS image).freeSlot = some 5 ∧ (LS image).Passes 2 xl im false
    ∧ ((LS image).ctx 2).st = .unloaded ∧ (LS image).loadFull = false ∧ (LS image).summaryShort (summaryOf xl) = none ∧ xl.refused = false
    ∧ ∃ p z, parseImage ((LS image).hostRead 0x2000 640).1 640 = .ok p ∧ (LS image).shortOf p.demands = [] ∧ (LS image).place p = some z
      ∧ ((LS image).setCtx 2 z).loadChains 2 { slot := 5, image := 0x2000, length := 640, shortfall := 0x4000, signed := p.signed, sects := p.sects
                                               queues := p.queues, exports := p.exports, priv := p.priv, policy := (LS image).policy, demands := p.demands } ≠ [] := by
  refine ⟨inv_of (by decide +kernel), still_of (by decide +kernel), by decide +kernel, passes_of (by decide +kernel), by decide +kernel, by decide +kernel,
    by decide +kernel, rfl, ?_⟩
  have h : fits (LS image) = true := by decide +kernel
  unfold fits at h
  split at h
  · next p hp =>
    simp only [Bool.and_eq_true, decide_eq_true_eq] at h
    obtain ⟨h1, h2⟩ := h
    split at h2
    · next z hz => exact ⟨p, z, hp, h1, hz, of_decide_eq_true h2⟩
    · cases h2
  · cases h

/-- An image that is short: its group asks for 31 movers or its region for a stack that is down; a bad one. -/
def parse (s : State) : Except Nat Plan := parseImage (s.hostRead 0x2000 640).1 640

theorem met_LoadsAndReports_bad : (LS (image 2)).Inv ∧ (LS (image 2)).Passes 2 xl im false ∧ parse (LS (image 2)) = .error 1 := by
  refine ⟨inv_of (by decide +kernel), passes_of (by decide +kernel), ?_⟩
  have h : (match parse (LS (image 2)) with | .error d => decide (d = 1) | .ok _ => false) = true := by decide +kernel
  split at h
  · next e => rw [e, of_decide_eq_true h]
  · cases h

theorem met_LoadsAndReports_short : (LS (image 0 1)).Inv ∧ (LS (image 0 1)).Passes 3 xl im false
    ∧ ∃ p q l, parse (LS (image 0 1)) = .ok p ∧ (LS (image 0 1)).shortOf p.demands = q :: l := by
  refine ⟨inv_of (by decide +kernel), passes_of (by decide +kernel), ?_⟩
  have h : (match parse (LS (image 0 1)) with | .ok p => !((LS (image 0 1)).shortOf p.demands).isEmpty | .error _ => false) = true := by decide +kernel
  split at h
  · next p hp =>
    cases hq : (LS (image 0 1)).shortOf p.demands with
    | nil => rw [hq] at h; cases h
    | cons q l => exact ⟨p, q, l, hp, hq⟩
  · cases h

/-- A copy within two pages that translate. -/
theorem met_LoadsAndReports_copy : (walkTo (LS [] y0)).Inv ∧ (walkTo (LS [] y0)).Still ∧ (walkTo (LS [] y0)).fwFull = false
    ∧ (walkTo (LS [] y0)).Passes 9 (EX [2, 0x10005, 0x20010, 100]) [0xF, 2 ^ 64 - 1, 2 ^ 64 - 1, 2 ^ 48 - 1] false
    ∧ (walkTo (LS [] y0)).fwPage 2 0x20010 .moverDst = some 0x40020010 ∧ (walkTo (LS [] y0)).fwPage 2 0x10005 .moverSrc = some 0x40010005 :=
  ⟨inv_of (by decide +kernel), still_of (by decide +kernel), by decide +kernel, passes_of (by decide +kernel), by decide +kernel, by decide +kernel⟩
end Images

/-! ### The whole machine -/

theorem reset_inv : State.reset.Inv := inv_of (by decide +kernel)

/-- With a command in front, and with an empty queue, the premises of the statement about a step. -/
theorem met_StepRunsFront_front : ({ busy with pending := [.drainComplete, .busReturn] } : State).pending = .drainComplete :: [.busReturn] := rfl

/-- From a state that keeps the invariant there is a step. -/
theorem met_StepKeepsInvariant : busy.Inv ∧ ∃ t, step busy = .next t := ⟨inv_of (by decide +kernel), _, rfl⟩

/-- The premises of an accepted verification that rest on the image alone; the key's hash and the signature are opaque, so that the rest of
them are premises of this witness too. -/
theorem met_Boot_accepted (known : ∀ k, Config.sm3 k = Config.firmwareKeyHash) :
    (Power.VD Power.img).Inv ∧ (Power.VD Power.img).top.st = .held ∧ (Power.VD Power.img).trust.result = 1
    ∧ (let n := (Power.VD Power.img).trust.length.toNat
      let l := Tab.readN 0 (Power.VD Power.img).trust.window 0 n
      let w (o k : Nat) : Nat := ofLe ((l.drop o).take k)
      (w 0 4 = 0x41434C46 ∧ w 4 2 = 1 ∧ w 6 2 = 0 ∧ w 0x18 232 = 0 ∧ 0x100 ≤ w 0x10 8 ∧ w 0x10 8 + 129 ≤ n)
      ∧ (w 8 4 = n ∧ n % 64 = 0 ∧ 384 ≤ n ∧ n ≤ 3145728) ∧ Config.sm3 ((l.drop (n - 128)).take 64) = Config.firmwareKeyHash) :=
  ⟨inv_of (by decide +kernel), by decide +kernel, by decide +kernel, by decide +kernel, by decide +kernel, known _⟩

end Sys2Proof.Tests
end

/-!
PROOFS. The state after reset: what it holds, and that it meets the invariant.
-/

namespace Sys2Proof.Machine

/-! ### The state after reset (R13, R24) -/

theorem Tile.inv_default : ({} : Tile).Inv := ⟨rfl, rfl, rfl, rfl, rfl, rfl, rfl, rfl, rfl, rfl, rfl⟩

theorem Tile.getS_default (n : Nat) : ({} : Tile).getS n = 0 := by simp [Tile.getS]

theorem length_resetRails : resetRails.length = 13 := by simp [resetRails]

theorem topState_reset : State.reset.topState = BitVec.ofNat 32 (variantCode Config.variant * 2 ^ 15 + 1) := by
  have ha : State.reset.activeB = false := rfl
  unfold State.topState
  rw [ha]
  simp [State.reset, reg, b2n, ModState.code]

theorem port_reset (p : Nat) : State.reset.port p = {} := by
  unfold State.port
  split <;> rfl

/-- Settles O59: no sparse map lists anything after reset, and there are thirteen rails. -/
theorem resetMeetsInvariant : Obligations.ResetMeetsInvariant where
  tiles := ⟨rfl, fun _ => Tile.inv_default⟩
  mem := ⟨rfl, rfl, rfl, rfl, rfl, rfl, fun _ _ h => nomatch h⟩
  mmu := ⟨rfl, rfl, rfl, rfl, rfl, rfl, rfl, rfl, rfl, rfl, rfl⟩
  eng := ⟨rfl, rfl, rfl, rfl, rfl⟩
  gz := ⟨rfl, fun _ => rfl, fun _ => rfl, rfl, rfl, rfl, rfl, rfl, rfl, rfl, rfl⟩
  gvn := ⟨rfl, rfl, rfl, rfl, rfl, rfl, rfl, rfl, rfl⟩
  res := ⟨rfl, rfl, fun _ => rfl, fun _ => rfl, fun _ => rfl⟩
  rfw := ⟨rfl, rfl, rfl, rfl, rfl, rfl⟩
  trust := ⟨rfl, rfl, rfl⟩
  host := ⟨rfl, rfl, rfl, rfl, fun _ => rfl, rfl, rfl, rfl, rfl, ⟨rfl, rfl⟩, rfl⟩
  rails := length_resetRails

/-- Settles O58: every part is unlisted and so at its default; TOP_STATE and the ports are the two that are not read off. -/
theorem resetValues : Obligations.ResetValues := by
  have tiles : ∀ t, (State.reset.tile t).st = .reset ∧ (State.reset.tile t).sys.tstatus = 0x11 ∧ (State.reset.tile t).sys.vl = 64
      ∧ (State.reset.tile t).sys.ttimer = BitVec.allOnes 64 ∧ ∀ n, (State.reset.tile t).getS n = 0 :=
    fun _ => ⟨rfl, rfl, rfl, rfl, Tile.getS_default⟩
  have ports : ∀ p, (State.reset.port p).st = .disabled ∧ (State.reset.port p).en = false :=
    fun p => by rw [port_reset p]; exact ⟨rfl, rfl⟩
  have power : State.reset.pow.level = 256 ∧ State.reset.pow.up = 8 ∧ State.reset.pow.down = 8 ∧ State.reset.pow.floor = false
      ∧ State.reset.pow.stored = { floor := 0, ceiling := 2000, slope := 200 } ∧ ∀ t, (State.reset.gov t).ceil = 256 :=
    ⟨rfl, rfl, rfl, rfl, rfl, fun _ => rfl⟩
  exact ⟨rfl, topState_reset, rfl, rfl, ⟨rfl, rfl, rfl, rfl, rfl⟩, tiles, ports, fun _ _ => ⟨rfl, rfl⟩, fun _ => rfl,
    fun _ => rfl, fun _ => ⟨rfl, rfl⟩, rfl, rfl, power, rfl, rfl, rfl, rfl⟩

end Sys2Proof.Machine

/-!
PROOFS. Register writes (R12, R356–R361): where nothing waits, a write changes the registers alone; one that reaches no register is lost, one to a
secure register on a path that is not secure is counted, and what was written reads back.
-/

namespace Sys2Proof.Machine

/-! ### Where nothing waits to finish -/

theorem forAll_fixed {α : Type} {s : State} {f : State → α → State} (h : ∀ a, f s a = s) : ∀ l, forAll l s f = s
  | [] => rfl
  | a :: l => by
    show forAll l (f s a) f = s
    rw [h a]
    exact forAll_fixed h l

/-- An unlisted context is not started, so a started one is listed. -/
theorem started_listed {c : Nat} : ∀ {l : Tab Ctx}, (Tab.look {} l c).started = true → ∃ p ∈ l, p.2.started = true
  | [], h => by simp [Ctx.started] at h
  | (j, x) :: l, h => by
    unfold Tab.look at h
    split at h
    · exact ⟨(j, x), List.mem_cons_self, h⟩
    · obtain ⟨p, hp, hs⟩ := started_listed h
      exact ⟨p, List.mem_cons_of_mem _ hp, hs⟩

/-- A run that a tile keeps from ending goes on (R230). -/
theorem endRun'_fixed {s : State} {c u : Nat} (hrun : (s.ctx c).startSlot.isSome = true) (hu : u ∈ (s.ctx c).startTiles)
    (hh : (s.tile u).st ≠ .halted) : s.endRun' c = s := by
  have on : s.runEnded c = false := by
    unfold State.runEnded
    exact List.all_eq_false.mpr ⟨u, hu, by simpa using hh⟩
  have not_none : (s.ctx c).startSlot.isNone = false := by
    obtain ⟨n, hn⟩ := Option.isSome_iff_exists.mp hrun
    simp [hn]
  simp [State.endRun', on, not_none]

theorem State.Calm.checkCtx {s : State} {n : Nat} (h : s.Calm n) (c : Nat) : s.checkCtx c = s := by
  obtain ⟨hstop, hdue⟩ := h.stop c
  obtain ⟨hend, hret⟩ := h.reset c
  simp only [State.checkCtx, h.save c, hstop, hend, hdue, hret]
  by_cases hst : (s.ctx c).st = .running
  · obtain ⟨hrun, u, hu, -, hh⟩ := h.run c hst
    simp [hst, endRun'_fixed hrun hu hh]
  · simp [hst]

theorem State.Calm.maybeReady {s : State} {n : Nat} (h : s.Calm n) : s.maybeReady = s := by
  unfold State.maybeReady
  refine if_neg fun ⟨hrun, hall, _⟩ => ?_
  obtain ⟨c, hc⟩ := h.top hrun
  obtain ⟨p, hp, hps⟩ := started_listed hc
  simpa [hps] using List.all_eq_true.mp hall p hp

theorem State.Calm.checkAll {s : State} {n : Nat} (h : s.Calm n) : s.checkAll = s := by
  unfold State.checkAll
  rw [forAll_fixed fun k => h.checkCtx (k % 16), h.maybeReady]

theorem finishLoads_fixed {s : State} (h : ∀ c, (s.ctx c).load = none) : s.finishLoads = s :=
  forAll_fixed (fun c => by simp only [h c]) _

/-- `t` differs from `s` in registers alone: the tiles, the contexts, memory, the module's state and the host's link are as they were, and nothing was
retired. -/
structure RegistersOnly (s t : State) : Prop where
  retired : t.err.retired = s.err.retired
  top : t.top = s.top
  tiles : t.tiles = s.tiles
  ctxs : t.ctxs = s.ctxs
  mem : t.mem = s.mem
  cmd : t.cmd = s.cmd

theorem RegistersOnly.refl (s : State) : RegistersOnly s s := ⟨rfl, rfl, rfl, rfl, rfl, rfl⟩

theorem RegistersOnly.calm {s t : State} (r : RegistersOnly s t) {n : Nat} (h : s.Calm n) : t.Calm n := by
  have hc : t.ctx = s.ctx := by funext c; unfold State.ctx; rw [r.ctxs]
  have ht : t.tile = s.tile := by funext u; unfold State.tile; rw [r.tiles]
  obtain ⟨save, stop, reset, run, top⟩ := h
  constructor <;> rw [hc]
  · exact save
  · exact stop
  · exact reset
  · rw [ht]; exact run
  · rw [r.top]; exact top

/-- A command that changes registers alone brings nothing about where nothing waits. -/
theorem RegistersOnly.moved {s t : State} (r : RegistersOnly s t) (h : s.Still) : moved s t = .next t := by
  have loads (c : Nat) : (t.ctx c).load = none := by
    unfold State.ctx
    rw [r.ctxs]
    exact h.loads c
  unfold Machine.moved
  rw [settle_same r.retired, finishLoads_fixed loads, (r.calm h.calm).checkAll]

theorem RegistersOnly.sameMemory {s t : State} (r : RegistersOnly s t) : SameMemory s t := by
  constructor <;> intro a <;> rw [r.mem]

/-! ### A write on its way to a register (R12, R356–R359) -/

/-- The state in which a write to a secure register on a path that is not secure has been counted (R358). -/
def State.denied (s : State) : State := { s with clm := { s.clm with secureDenied := s.clm.secureDenied + 1 } }

theorem denied_registersOnly (s : State) : RegistersOnly s s.denied := ⟨rfl, rfl, rfl, rfl, rfl, rfl⟩

theorem exec_registerWrite (a : Nat) (v : W32) (p : Path) (s : State) :
    exec (.registerWrite a v p) s = moved s (s.writeRegister a v p) := rfl

theorem targetOf_csr {off : Nat} (h : off < 0x10_0000_0000) : targetOf (csrBase + off) = .csr off := by
  unfold targetOf
  rw [if_neg, if_neg, if_neg, if_pos, Nat.add_sub_cancel_left] <;> simp only [csrBase, stackBytes, loamBase, siltBase] <;> omega

theorem writeRegister_elsewhere {a : Nat} (h : ∀ o, targetOf a ≠ .csr o) (s : State) (v : W32) (p : Path) :
    s.writeRegister a v p = s := by
  unfold State.writeRegister
  split
  · next off ht => exact absurd ht (h off)
  · rfl

theorem writeRegister_down {s : State} {p : Path} (h : s.pathUp p = false) (a : Nat) (v : W32) : s.writeRegister a v p = s := by
  unfold State.writeRegister State.via
  split
  · rw [h]; rfl
  · rfl

theorem pathUp_off {s : State} (h : s.top.st = .off) (p : Path) : s.pathUp p = false := by simp [State.pathUp, h]

theorem writeRegister_at {s : State} {p : Path} {off : Nat} (hup : s.pathUp p = true) (hoff : off < 0x10_0000_0000) (v : W32) :
    s.writeRegister (csrBase + off) v p = s.csrWrite off v p := by
  simp [State.writeRegister, targetOf_csr hoff, State.via, hup]

theorem writeRegister_unoccupied {off : Nat} (hoff : off < 0x10_0000_0000)
    (h : regHere (off / 0x1000000) (off % 0x1000000 / 4 * 4) = false) (s : State) (v : W32) (p : Path) :
    s.writeRegister (csrBase + off) v p = s := by
  by_cases hup : s.pathUp p = true
  · rw [writeRegister_at hup hoff]
    simp [State.csrWrite, alignDown, h]
  · exact writeRegister_down (by simpa using hup) _ v

theorem writeRegister_occupied {s : State} {p : Path} {off : Nat} (hup : s.pathUp p = true) (hoff : off < 0x10_0000_0000)
    (h : regHere (off / 0x1000000) (off % 0x1000000 / 4 * 4) = true) (v : W32) :
    s.writeRegister (csrBase + off) v p = s.regWrite (off / 0x1000000) (off % 0x1000000 / 4 * 4) v p := by
  rw [writeRegister_at hup hoff]
  simp [State.csrWrite, alignDown, h]

/-! ### A secure register on a path that is not secure (R358) -/

section
variable {s : State} {p : Path} (hup : s.pathUp p = true) (hp : pathSecure p = false)
include hup hp

theorem secured_denied (f : State → State) : s.secured p f = s.denied := by
  simp [State.secured, State.via, hup, hp, State.denied]

theorem claimed_denied (f : State → State) : s.claimed p f = s.denied := secured_denied hup hp _

theorem govWrite_denied (o : Nat) (v : W32) : s.govWrite o v p = s.denied := by
  unfold State.govWrite
  split <;> simp only [claimed_denied hup hp, secured_denied hup hp]

theorem resWrite_denied {o : Nat} (h : o = 0 ∨ o = 4 ∨ o = 8) (v : W32) : s.resWrite o v p = s.denied := by
  rcases h with rfl | rfl | rfl <;> exact claimed_denied hup hp _

theorem trustWrite_denied {o : Nat} (h : regSecure 15 o = true) (v : W32) : s.trustWrite o v p = s.denied := by
  simp only [regSecure, Bool.or_eq_true, Bool.and_eq_true, decide_eq_true_eq] at h
  unfold State.trustWrite
  simp only [secured_denied hup hp]
  rcases h with (rfl | rfl) | ⟨hlo, hhi⟩
  · rfl
  · rfl
  · have ne : o ≠ 0 ∧ o ≠ 4 ∧ o ≠ 0x20 := by omega
    simp [ne, hhi]

theorem clmWrite_denied {o : Nat} (h : o = 0 ∨ o = 4 ∨ o = 8 ∨ o = 12 ∨ o = 0x20 ∨ o = 0x24) (v : W32) :
    s.clmWrite o v p = s.denied := by
  rcases h with rfl | rfl | rfl | rfl | rfl | rfl <;>
    simp only [State.clmWrite, State.claimLo, State.claimHi, State.ownClaim, State.heartbeat, secured_denied hup hp]

theorem pairWrite_denied (j k : Nat) (f g : Pair → Pair) : s.pairWrite j k p f g = s.denied := secured_denied hup hp _

omit hup hp in
/-- The blocks that have secure registers. -/
theorem regSecure_block {j o : Nat} (h : regSecure j o = true) :
    j = 3 ∨ j = 4 ∨ j = 5 ∨ j = 6 ∨ j = 7 ∨ j = 8 ∨ j = 9 ∨ j = 10 ∨ j = 13 ∨ j = 15 ∨ j = 16 ∨ j = 17 := by
  unfold regSecure at h
  split at h
  case h_13 => cases h
  all_goals decide

theorem regWrite_denied {j o : Nat} (h4 : o % 4 = 0) (hs : regSecure j o = true) (v : W32) : s.regWrite j o v p = s.denied := by
  unfold State.regWrite
  by_cases hw : (j = 4 ∨ j = 6 ∨ j = 9 ∨ j = 10) ∧ inPairs o = true
  · simp only [if_pos hw, State.ixaWrite, State.ixdPost, pairWrite_denied hup hp, ite_self]
  · simp only [if_neg hw, secured_denied hup hp, claimed_denied hup hp, hs, if_true]
    rcases regSecure_block hs with rfl | rfl | rfl | rfl | rfl | rfl | rfl | rfl | rfl | rfl | rfl | rfl
    · -- GOV
      exact govWrite_denied hup hp o v
    · -- RAIL
      exact ite_self _
    · -- RES
      have hlt : o < 12 := by simpa [regSecure] using hs
      exact resWrite_denied hup hp (by omega) v
    · -- CMW has a pair and nothing else
      exact absurd ⟨by decide, hs⟩ hw
    · -- MMU
      rfl
    · -- MOV: MOV_CTRL
      obtain ⟨-, ctrl⟩ : o < 0x800 ∧ o % 16 = 0 := by simpa [regSecure] using hs
      exact if_pos ctrl
    · -- EXP: EXP_CTRL
      have no_pair : inPairs o = false := by simpa using hw
      obtain ⟨hlt, ctrl⟩ : o < 0x180 ∧ o % 16 = 0 := by simpa [regSecure, no_pair] using hs
      have in_ctrl : ¬ 0x180 ≤ o := by omega
      exact (if_neg in_ctrl).trans (if_pos ctrl)
    · -- GZ: a port's CTRL, the domain's two registers, a queue's CTRL and BASE
      have no_pair : inPairs o = false := by simpa using hw
      have here : ((o < 0x200 ∧ o % 16 = 0 ∨ o = 0x400) ∨ o = 0x404) ∨ (0x800 ≤ o ∧ o < 0xC00) ∧ (o % 16 = 0 ∨ o % 16 = 4) := by
        simpa [regSecure, no_pair] using hs
      rcases here with ((⟨hlt, hm⟩ | rfl) | rfl) | ⟨⟨hlo, -⟩, hm⟩
      · exact (if_pos hlt).trans (if_pos hm)
      · rfl
      · rfl
      · have no_port : ¬ o < 0x200 := by omega
        rcases hm with hm | hm <;> simp [no_port, hm]
    · -- CAD: CAD_CTRL
      obtain ⟨-, ctrl⟩ : o < 0x400 ∧ o % 16 = 0 := by simpa [regSecure] using hs
      exact if_pos ctrl
    · -- TRUST
      exact trustWrite_denied hup hp hs v
    · -- CLM: claims and heartbeats
      have own : (o < 16 ∨ o = 0x20) ∨ o = 0x24 := by simpa [regSecure] using hs
      exact clmWrite_denied hup hp (by omega) v
    · -- TILE
      rfl

end

/-! ### What a register that was written reads as (R357, R360) -/

/-- Words that agree below bit `lo` and from bit `hi` on are the same under a mask with no bit between. -/
theorem and_mask_congr {m x y : W32} (lo hi : Nat) (hm : ∀ i, i < 32 → m.getLsbD i = true → i < lo ∨ hi ≤ i)
    (hl : x.toNat % 2 ^ lo = y.toNat % 2 ^ lo) (hh : x.toNat / 2 ^ hi = y.toNat / 2 ^ hi) : x &&& m = y &&& m := by
  apply BitVec.eq_of_getLsbD_eq
  intro i hi32
  rw [BitVec.getLsbD_and, BitVec.getLsbD_and]
  cases hmi : m.getLsbD i
  · simp
  rcases hm i hi32 hmi with hlt | hle
  · have bits := congrArg (·.testBit i) hl
    simp only [Nat.testBit_mod_two_pow, hlt, decide_true, Bool.true_and] at bits
    simp only [BitVec.getLsbD, bits]
  · have bits := congrArg (·.testBit (i - hi)) hh
    simp only [Nat.testBit_div_two_pow, Nat.sub_add_cancel hle] at bits
    simp only [BitVec.getLsbD, bits]

theorem and_and_mask (v m : W32) : v &&& m &&& m = v &&& m := by rw [BitVec.and_assoc, BitVec.and_self]

theorem b2n_vbit (v : W32) (k : Nat) : b2n (vbit v k) = v.toNat / 2 ^ k % 2 := by
  have := Nat.mod_two_eq_zero_or_one (v.toNat / 2 ^ k)
  simp only [vbit, BitVec.getLsbD, Nat.testBit_eq_decide_div_mod_eq, b2n, decide_eq_true_eq]
  split <;> omega

theorem secured_secure {s : State} {p : Path} (hup : s.pathUp p = true) (hp : pathSecure p = true) (f : State → State) :
    s.secured p f = f s := by
  simp [State.secured, State.via, hup, hp]

/-- The host's secure write of `v` to the register at an offset is done; the register then reads as `v` in the bits of the mask, and nothing
outside the registers has changed. -/
def ReadsBack (s : State) (v : W32) (off : Nat) (mask : W32) : Prop :=
  ∃ t, exec (.registerWrite (csrBase + off) v .bursenSecure) s = .next t
    ∧ (t.csrRead off .bursenSecure (pathWho .bursenSecure)).1 &&& mask = v &&& mask
    ∧ t.tiles = s.tiles ∧ SameMemory s t ∧ t.top = s.top ∧ t.cmd = s.cmd

theorem csrRead_occupied {t : State} {p : Path} {off who : Nat} (hp : pathSecure p = true)
    (h : regHere (off / 0x1000000) (off % 0x1000000 / 4 * 4) = true) (hn : inPairs (off % 0x1000000 / 4 * 4) = false) :
    (t.csrRead off p who).1 = t.regValue (off / 0x1000000) (off % 0x1000000 / 4 * 4) who := by
  simp [State.csrRead, alignDown, h, hn, hp]

theorem readsBack_of {s t : State} {v mask : W32} {off : Nat} (j o : Nat) (hoff : off = j * 0x1000000 + o)
    (ho : o < 0x1000000 ∧ o % 4 = 0 ∧ j < 0x1000) (hst : s.Still) (hup : s.pathUp .bursenSecure = true) (hh : regHere j o = true)
    (hn : inPairs o = false) (hw : s.regWrite j o v .bursenSecure = t) (hr : RegistersOnly s t)
    (hv : t.regValue j o (pathWho .bursenSecure) &&& mask = v &&& mask) : ReadsBack s v off mask := by
  have hj : off / 0x1000000 = j := by omega
  have hp : off % 0x1000000 / 4 * 4 = o := by omega
  have here : regHere (off / 0x1000000) (off % 0x1000000 / 4 * 4) = true := by rw [hj, hp]; exact hh
  refine ⟨t, ?_, ?_, hr.tiles, hr.sameMemory, hr.top, hr.cmd⟩
  · rw [exec_registerWrite, writeRegister_occupied hup (by omega) here, hj, hp, hw, hr.moved hst]
  · rw [csrRead_occupied rfl here (by rw [hp]; exact hn), hj, hp, hv]

section
variable {s : State} (hst : s.Still) (hup : s.pathUp .bursenSecure = true) (v : W32)
include hst hup

theorem readsBack_mmuCtx (hi : s.mmu.Inv) {k : Nat} (hk : k < 16) : ReadsBack s v (0x7000080 + 4 * k) 0xC0000FFF := by
  have key : (0x80 + 4 * k - 0x80) / 4 = k := by omega
  have not_inv : 0x80 + 4 * k ≠ 0x10 ∧ 0x80 + 4 * k ≠ 0x14 ∧ ¬ 0x80 + 4 * k < 0x60 ∧ 0x80 + 4 * k < 0xC0 := by omega
  refine readsBack_of 7 (0x80 + 4 * k) (by omega) (by omega) hst hup (by simp [regHere]; omega) (by simp [inPairs]; omega)
    (t := { s with mmu := { s.mmu with ctx := Tab.put 0 s.mmu.ctx k (v &&& 0xC0000FFF) } }) ?_ ⟨rfl, rfl, rfl, rfl, rfl, rfl⟩ ?_
  · rw [State.regWrite, if_neg (by omega)]
    simp only [secured_secure hup rfl, State.mmuWrite, not_inv, if_false, if_true, key]
  · simp only [State.regValue, State.mmuReg, not_inv, if_false, if_true, key, State.mmuCtx]
    rw [Tab.look_put_self _ hi.ctx, and_and_mask]

theorem readsBack_mmuRoot (hi : s.mmu.Inv) {k : Nat} (hk : k < 64) : ReadsBack s v (0x7000100 + 4 * k) 0x1FFFFFFF := by
  have key : (0x100 + 4 * k - 0x100) / 4 = k := by omega
  have in_root : 0x100 + 4 * k ≠ 0x10 ∧ 0x100 + 4 * k ≠ 0x14 ∧ ¬ 0x100 + 4 * k < 0x60 ∧ ¬ 0x100 + 4 * k < 0xC0 := by omega
  refine readsBack_of 7 (0x100 + 4 * k) (by omega) (by omega) hst hup (by simp [regHere]; omega) (by simp [inPairs]; omega)
    (t := { s with mmu := { s.mmu with root := Tab.put 0 s.mmu.root k (v &&& 0x1FFFFFFF) } }) ?_ ⟨rfl, rfl, rfl, rfl, rfl, rfl⟩ ?_
  · rw [State.regWrite, if_neg (by omega)]
    simp only [secured_secure hup rfl, State.mmuWrite, in_root, if_false, key]
  · simp only [State.regValue, State.mmuReg, in_root, if_false, key]
    rw [Tab.look_put_self _ hi.root, and_and_mask]

theorem readsBack_fqBase (hi : s.gz.Inv) {k : Nat} (hk : k < 64) :
    ReadsBack s v (0xA000804 + 0x100 * (k / 16) + 16 * (k % 16)) 0xFFFFFFFF := by
  obtain ⟨o, ho⟩ : ∃ o, o = 0x804 + 0x100 * (k / 16) + 16 * (k % 16) := ⟨_, rfl⟩
  have bolt : (o - 0x800) / 0x100 = k / 16 := by omega
  have queue : o / 16 % 16 = k % 16 := by omega
  have base : o % 16 = 4 ∧ ¬ o < 0x200 ∧ o ≠ 0x400 ∧ o ≠ 0x404 := by omega
  have pairs : inPairs o = false := by simp [inPairs]; omega
  refine readsBack_of 10 o (by omega) (by omega) hst hup (by simp [regHere]; omega) pairs
    (t := s.setFqueue (k / 16) (k % 16) { s.fqueue (k / 16) (k % 16) with base := v }) ?_ ⟨rfl, rfl, rfl, rfl, rfl, rfl⟩ ?_
  · simp [State.regWrite, pairs, secured_secure hup rfl, base, bolt, queue]
  · simp only [State.regValue, State.gzReg, base, if_false, bolt, queue, State.fqueue_setFqueue_self hi.fq]

theorem readsBack_domain : ReadsBack s v 0xA000400 0xFFFFFFFF :=
  readsBack_of 10 0x400 rfl (by decide) hst hup rfl rfl (t := { s with gz := { s.gz with domain := v } })
    (secured_secure (s := s) hup rfl fun s => { s with gz := { s.gz with domain := v } }) ⟨rfl, rfl, rfl, rfl, rfl, rfl⟩ rfl

theorem readsBack_suppressed : ReadsBack s v 0xE00000C 0xFFFFFFFF :=
  readsBack_of 14 0xC rfl (by decide) hst hup rfl rfl rfl ⟨rfl, rfl, rfl, rfl, rfl, rfl⟩ rfl

theorem readsBack_notify : ReadsBack s v 0xE000010 0xE000FFFF := by
  refine readsBack_of 14 0x10 rfl (by decide) hst hup rfl rfl rfl ⟨rfl, rfl, rfl, rfl, rfl, rfl⟩ ?_
  show reg (b2n (vbit v 31) * 2 ^ 31 + (BitVec.ofNat 2 (vfld v 29 2)).toNat * 2 ^ 29 + (BitVec.ofNat 16 (vfld v 0 16)).toNat)
    &&& 0xE000FFFF = v &&& 0xE000FFFF
  have := v.isLt
  refine and_mask_congr 16 29 (by decide) ?_ ?_
  all_goals
    simp only [reg, BitVec.toNat_ofNat, b2n_vbit, vfld, fld]
    omega

theorem readsBack_denials : ReadsBack s v 0x10000030 0xFFFFFFFF := by
  refine readsBack_of 16 0x30 rfl (by decide) hst hup rfl rfl rfl ⟨rfl, rfl, rfl, rfl, rfl, rfl⟩ (congrArg (· &&& _) ?_)
  show reg ((BitVec.ofNat 16 (vfld v 16 16)).toNat * 2 ^ 16 + (BitVec.ofNat 16 (vfld v 0 16)).toNat) = v
  apply BitVec.eq_of_toNat_eq
  have := v.isLt
  simp only [reg, BitVec.toNat_ofNat, vfld, fld]
  omega

theorem readsBack_clkStat : ReadsBack s v 0x1000000 0xFFFF := by
  refine readsBack_of 1 0 rfl (by decide) hst hup rfl rfl rfl ⟨rfl, rfl, rfl, rfl, rfl, rfl⟩ ?_
  show reg (s.clk.source.toNat * 2 ^ 30 + b2n s.clk.locked * 2 ^ 29 + b2n s.pow.floor * 2 ^ 28 + s.clk.timingPort.toNat * 2 ^ 23
    + (BitVec.ofNat 8 (vfld v 8 8)).toNat * 256 + (BitVec.ofNat 8 (vfld v 0 8)).toNat) &&& 0xFFFF = v &&& 0xFFFF
  refine and_mask_congr 16 32 (by decide) ?_ ?_
  · simp only [reg, BitVec.toNat_ofNat, vfld, fld]
    omega
  · rw [Nat.div_eq_of_lt (BitVec.isLt _), Nat.div_eq_of_lt v.isLt]

end

/-- Settles O54: a write that reaches no register is lost, a secure register counts a denial, and each register of the list reads as written. -/
theorem registerWrites : Obligations.RegisterWrites := by
  intro s v hi hst at_ block place
  refine ⟨fun a p ha => ?_, fun a p hd => ?_, fun off p ho hr => ?_, fun _ off p ho hr hsec hp hup => ?_, fun hon hl off mask hm => ?_⟩
  · rw [exec_registerWrite, writeRegister_elsewhere ha, (RegistersOnly.refl s).moved hst]
  · rw [exec_registerWrite, writeRegister_down (hd.elim (pathUp_off · p) id), (RegistersOnly.refl s).moved hst]
  · rw [exec_registerWrite, writeRegister_unoccupied ho hr, (RegistersOnly.refl s).moved hst]
  · rw [exec_registerWrite, writeRegister_occupied hup ho hr, regWrite_denied hup hp (Nat.mul_mod_left _ 4) hsec,
      (denied_registersOnly s).moved hst]
    rfl
  · have hup : s.pathUp .bursenSecure = true := by simp [State.pathUp, hon, State.linkUp, hl]
    show ReadsBack s v off mask
    simp only [List.mem_append, List.mem_map, List.mem_range, List.mem_cons, List.not_mem_nil, or_false, Prod.mk.injEq] at hm
    rcases hm with ((⟨k, hk, rfl, rfl⟩ | ⟨k, hk, rfl, rfl⟩) | ⟨rfl, rfl⟩ | ⟨rfl, rfl⟩ | ⟨rfl, rfl⟩ | ⟨rfl, rfl⟩ | ⟨rfl, rfl⟩) | ⟨k, hk, rfl, rfl⟩
    · exact readsBack_mmuCtx hst hup v hi.mmu hk
    · exact readsBack_mmuRoot hst hup v hi.mmu hk
    · exact readsBack_domain hst hup v
    · exact readsBack_suppressed hst hup v
    · exact readsBack_notify hst hup v
    · exact readsBack_denials hst hup v
    · exact readsBack_clkStat hst hup v
    · exact readsBack_fqBase hst hup v hi.gz hk

end Sys2Proof.Machine

/-!
PROOFS. The checks of a host command in their order (R27, R226–R229): every row of the command table goes through the gate of an immediate
command, and one that is turned away leaves nothing but its response.
-/

namespace Sys2Proof.Machine

/-! ### A response alone changes nothing else -/

/-- The state with another response to the last exchange. -/
def State.responded (s : State) (r : Option Response) : State := { s with cmd := { s.cmd with resp := r } }

theorem turnAway_eq_responded (s : State) (result detail : Nat) :
    s.turnAway result detail = s.responded (some {
      detail := BitVec.ofNat 16 detail, result := BitVec.ofNat 8 result
      state := BitVec.ofNat 3 s.top.st.code, gtLow := s.clk.gt.setWidth 32 }) := rfl

theorem State.Calm.responded {s : State} {n : Nat} (h : s.Calm n) (r : Option Response) : (s.responded r).Calm n :=
  ⟨h.save, h.stop, h.reset, h.run, h.top⟩

theorem State.Still.checkAll_responded {s : State} (h : s.Still) (r : Option Response) : (s.responded r).checkAll = s.responded r :=
  (h.calm.responded r).checkAll

theorem State.Still.finishLoads_responded {s : State} (h : s.Still) (r : Option Response) : (s.responded r).finishLoads = s.responded r :=
  finishLoads_fixed h.loads

/-! ### The gate of a command (R226, R229) -/

section
variable {s : State} (op : Nat) (x : Exchange) (masks : List Nat) (sec : Bool) (act : State → State)

theorem immediateCommand_deaf (h : s.deaf = true) : s.immediateCommand op x masks sec act = s := by
  simp [State.immediateCommand, h]

theorem immediateCommand_busy (h : s.deaf = false) (hf : s.top.st.firmware = true) (hr : s.fwRuns = false) :
    s.immediateCommand op x masks sec act = s.turnAway 1 2 := by
  simp [State.immediateCommand, h, hf, hr]

theorem immediateCommand_barred (h : s.deaf = false) (hf : s.top.st.firmware = false ∨ s.fwRuns = true) {result detail : Nat}
    (hb : s.barred op x masks sec = some (result, detail)) : s.immediateCommand op x masks sec act = s.turnAway result detail := by
  have taken : (s.top.st.firmware && !s.fwRuns) = false := by rcases hf with hf | hf <;> simp [hf]
  simp [State.immediateCommand, h, taken, hb]

end

/-- What a command leads to at once: nothing, the checks of the contexts, or those of the loads before them. -/
def Settling (f : State → State) : Prop := f = id ∨ f = State.checkAll ∨ f = fun s => s.finishLoads.checkAll

theorem Settling.responded {f : State → State} (hf : Settling f) {s : State} (h : s.Still) (r : Option Response) :
    f (s.responded r) = s.responded r := by
  rcases hf with rfl | rfl | rfl
  · rfl
  · exact h.checkAll_responded r
  · show (s.responded r).finishLoads.checkAll = _
    rw [h.finishLoads_responded, h.checkAll_responded]

theorem settling_id : Settling id := .inl rfl
theorem settling_checkAll : Settling State.checkAll := .inr (.inl rfl)
theorem settling_loads : Settling fun s => s.finishLoads.checkAll := .inr (.inr rfl)

/-- The answer is that of the gate of an immediate command, with whatever comes behind it. -/
def Gated (op : Nat) (x : Exchange) (masks : List Nat) (sec : Bool) (s : State) (answer : Out) : Prop :=
  ∃ act f, Settling f ∧ answer = .next (f (s.immediateCommand op x masks sec act))

theorem gated_immediate {f : State → State} (hf : Settling f) {op : Nat} {x : Exchange} {masks : List Nat} {sec : Bool} {s : State}
    {act : State → State} : Gated op x masks sec s (.next (f (s.immediateCommand op x masks sec act))) := ⟨act, f, hf, rfl⟩

/-- A command with a handle passes the same gate; its values, slot and fit come behind it. -/
theorem gated_handle {f : State → State} (hf : Settling f) {op : Nat} {x : Exchange} {masks : List Nat} {sec : Bool} {s : State} {what : Op}
    {arg : Nat} {values : State → Option (Nat × Nat)} {fit : State → Option Nat} {act : State → Nat → State} :
    Gated op x masks sec s (.next (f (s.handleCommand op x masks sec what arg values fit act))) := by
  refine ⟨fun _ => s.handleCommand op x masks sec what arg values fit act, f, hf, congrArg (fun t => Host.Outcome.next (f t)) ?_⟩
  unfold State.immediateCommand
  by_cases deaf : s.deaf = true
  · simp [State.handleCommand, deaf]
  by_cases busy : (s.top.st.firmware && !s.fwRuns) = true
  · simp [State.handleCommand, deaf, busy]
  cases barred : s.barred op x masks sec <;> simp [State.handleCommand, deaf, busy, barred]

/-- Every row of the command table passes the gate with its own opcode, masks and attribute (Tables 9-5 to 9-7). -/
theorem exec_gated : ∀ row ∈ Claims.commands, ∀ (s : State) (x : Exchange),
    Gated row.1 x row.2.2.1 row.2.1 s (exec (row.2.2.2 x) s) := by
  simp only [Claims.commands, List.forall_mem_append, List.forall_mem_cons, List.not_mem_nil, false_implies,
    implies_true, and_true]
  refine ⟨⟨?_, ?_, ?_, ?_, ?_, ?_, ?_, ?_, ?_, ?_, ?_, ?_⟩, ?_, ?_, ?_, ?_, ?_, ?_, ?_, ?_, ?_, ?_⟩ <;> intro s x
  · -- SETUP_COMPLETION
    exact gated_immediate settling_id
  · -- LOAD_IMAGE
    exact gated_handle settling_loads
  · -- FIT_CHECK
    exact gated_handle settling_id
  · -- START
    exact gated_handle settling_checkAll
  · -- STOP
    exact gated_handle settling_checkAll
  · -- CANCEL
    exact gated_immediate settling_checkAll
  · -- QUERY
    exact gated_handle settling_id
  · -- RETIRE
    exact gated_immediate settling_id
  · -- MEM_COPY
    exact gated_handle settling_id
  · -- MEM_FILL
    exact gated_handle settling_id
  · -- SAVE_CONTEXT
    exact gated_handle settling_checkAll
  · -- RESTORE_CONTEXT
    exact gated_handle settling_checkAll
  · -- CADENCE_ARM
    exact gated_handle settling_id
  · -- CADENCE_DISARM
    exact gated_handle settling_checkAll
  · -- POWER_ENVELOPE
    exact gated_handle settling_id
  · -- DOMAIN_JOIN
    exact gated_handle settling_id
  · -- DOMAIN_LEAVE
    exact gated_handle settling_checkAll
  · -- RESERVOIR_LEARN
    exact gated_handle settling_id
  · -- RESERVOIR_RESTORE
    exact gated_handle settling_id
  · -- ATTEST
    exact gated_handle settling_id
  · -- DRAIN
    exact gated_handle settling_id
  · -- RESET_MODULE
    exact gated_immediate settling_id

/-! ### The checks in their order (R227, R229) -/

theorem deaf_iff (s : State) : s.deaf = true ↔ s.top.st = .off ∨ s.cmd.link ≠ .up := by
  simp [State.deaf, State.linkUp]

theorem opcodeReserved_iff (k : Nat) : opcodeReserved k = true ↔ k = 0 ∨ 0x16 < k := by simp [opcodeReserved]

/-- A line carries its row's OPCODE or a reserved one. -/
theorem lineOpcode_of_not_reserved {op : Nat} {x : Exchange} (h : opcodeReserved (lineOpcode op x) = false) : lineOpcode op x = op := by
  unfold lineOpcode at h ⊢
  split at h
  · split at h
    · next reserved => rw [reserved] at h; cases h
    · next free => simp [free]
  · rfl

theorem accepts_drain {s : State} (h : s.top.st = .drain) (op : Nat) :
    s.accepts op = true ↔ op ∈ [0x01, 0x06, 0x07, 0x08, 0x0F, 0x11, 0x14, 0x15, 0x16] := by
  simp [State.accepts, h, drainAccepts]
  omega

theorem accepts_faulted {s : State} (h : s.top.st = .faulted) (op : Nat) : s.accepts op = true ↔
    op ∈ [0x01, 0x07, 0x08, 0x0F, 0x14, 0x16] ∧ ¬ (op = 0x16 ∧ s.top.cause = 0xB ∧ ∃ p ∈ s.gvn.junction, 1000 ≤ p.2) := by
  have hot : s.tooHot = true ↔ ∃ p ∈ s.gvn.junction, 1000 ≤ p.2 := by simp [State.tooHot]
  rw [State.accepts, h, ← hot, Bool.and_eq_true, Bool.not_eq_true', ← Bool.not_eq_true, Bool.and_eq_true, Bool.and_eq_true,
    decide_eq_true_eq, decide_eq_true_eq, and_assoc, List.contains_iff_mem, faultedAccepts]

/-- A word lies within a mask where each of its bits does. -/
theorem or_eq_mask_iff {n : Nat} (w : BitVec n) (m : Nat) : w.toNat ||| m = m ↔ ∀ i, i < n → w.getLsbD i = true → m.testBit i = true := by
  constructor
  · intro h i _ hi
    rw [← h, Nat.testBit_or, ← BitVec.getLsbD, hi, Bool.true_or]
  · intro h
    refine Nat.eq_of_testBit_eq fun i => ?_
    rw [Nat.testBit_or, ← BitVec.getLsbD]
    by_cases hi : w.getLsbD i = true
    · rw [hi, h i (BitVec.lt_of_getLsbD hi) hi, Bool.true_or]
    · rw [Bool.eq_false_iff.mpr hi, Bool.false_or]

theorem fieldsClear_iff (x : Exchange) (masks : List Nat) : fieldsClear x masks = true ↔
    x.flags &&& ~~~ 0x100 = 0 ∧ x.par.length ≤ 14
      ∧ ∀ k, k < 14 → ∀ i, i < 64 → (x.par.getD k 0).getLsbD i = true → (masks.getD k 0).testBit i = true := by
  simp only [fieldsClear, parWord, Bool.and_eq_true, decide_eq_true_eq, List.all_eq_true, List.mem_range, or_eq_mask_iff, and_assoc]

section
variable {s : State} {op : Nat} {x : Exchange} {masks : List Nat} {sec : Bool}

theorem barred_state (h : s.accepts (lineOpcode op x) = false) : s.barred op x masks sec = some (4, 1) := by
  simp [State.barred, h]

variable (ha : s.accepts (lineOpcode op x) = true)
include ha

theorem barred_area (hv : s.cmd.areaValid = false) (h1 : lineOpcode op x ≠ 1) (h16 : lineOpcode op x ≠ 0x16) :
    s.barred op x masks sec = some (4, 2) := by
  simp [State.barred, ha, hv, h1, h16]

variable (hv : s.cmd.areaValid = true ∨ lineOpcode op x = 1 ∨ lineOpcode op x = 0x16)
include hv

theorem barred_past_area : s.barred op x masks sec =
    if opcodeReserved (lineOpcode op x) then some (2, 1) else if !fieldsClear x masks then some (2, 2)
    else if sec && !x.secure then some (2, 4) else none := by
  have there : ¬ (s.cmd.areaValid = false ∧ lineOpcode op x ≠ 1 ∧ lineOpcode op x ≠ 0x16) := by
    rintro ⟨no_area, no_setup, no_reset⟩
    simp [no_area, no_setup, no_reset] at hv
  simp [State.barred, ha, there]

theorem barred_opcode (hr : opcodeReserved (lineOpcode op x) = true) : s.barred op x masks sec = some (2, 1) := by
  simp [barred_past_area ha hv, hr]

variable (hr : opcodeReserved (lineOpcode op x) = false)
include hr

theorem barred_fields (hc : fieldsClear x masks = false) : s.barred op x masks sec = some (2, 2) := by
  simp [barred_past_area ha hv, hr, hc]

theorem barred_secure (hc : fieldsClear x masks = true) (hs : sec = true) (hx : x.secure = false) :
    s.barred op x masks sec = some (2, 4) := by
  simp [barred_past_area ha hv, hr, hc, hs, hx]

end

/-- Settles O41: each check that fails is the gate's answer, and what comes behind the gate leaves a response alone as it is. -/
theorem commandChecks : Obligations.CommandChecks := by
  intro s x op sec masks cmd _ hst hmem turns code reserved takes clear deaf
  obtain ⟨act, f, hf, hexec⟩ := exec_gated _ hmem s x
  have hdeaf : deaf ↔ s.deaf = true := (deaf_iff s).symm
  have hreserved : reserved ↔ opcodeReserved code = true := (opcodeReserved_iff code).symm
  have hclear : clear ↔ fieldsClear x masks = true := (fieldsClear_iff x masks).symm
  have hcode : code = lineOpcode op x := by
    unfold code lineOpcode
    cases x.opcode with
    | none => rfl
    | some k => simp only [opcodeReserved_iff]
  have htakes : takes ↔ s.accepts (lineOpcode op x) = true := by
    rw [← hcode]
    unfold takes
    cases hs : s.top.st
    case drain => exact (accepts_drain hs code).symm
    case faulted => exact (accepts_faulted hs code).symm
    all_goals simp [State.accepts, hs]
  have turned {result detail : Nat} (h : s.immediateCommand op x masks sec act = s.turnAway result detail) :
      turns (cmd x) result detail := by
    show exec (cmd x) s = _
    rw [hexec, h, turnAway_eq_responded, hf.responded hst]
    rfl
  refine ⟨fun h => ?_, fun h => ?_⟩
  · have hd := hdeaf.mp h
    refine ⟨?_, ?_⟩
    · rw [hexec, immediateCommand_deaf op x masks sec act hd]
      exact congrArg _ (hf.responded hst s.cmd.resp)
    · exact congrArg Host.Outcome.next (if_pos hd)
  have hd : s.deaf = false := by simpa [hdeaf] using h
  refine ⟨congrArg Host.Outcome.next (if_neg (by simp [hd])), fun hfw hr => turned (immediateCommand_busy op x masks sec act hd hfw hr),
    fun hfw => ?_⟩
  have barred {result detail : Nat} (hb : s.barred op x masks sec = some (result, detail)) : turns (cmd x) result detail :=
    turned (immediateCommand_barred op x masks sec act hd hfw hb)
  rw [htakes, hreserved, hcode, hclear]
  refine ⟨fun ha => barred (barred_state (by simpa using ha)), fun ha hv h1 h16 => barred (barred_area ha hv h1 h16),
    fun ha hv hr => barred (barred_opcode ha (.inl hv) hr), fun ha hr hv => ?_⟩
  have hr : opcodeReserved (lineOpcode op x) = false := by simpa using hr
  have hv : s.cmd.areaValid = true ∨ lineOpcode op x = 1 ∨ lineOpcode op x = 0x16 := by rwa [lineOpcode_of_not_reserved hr]
  exact ⟨fun hc => barred (barred_fields ha hv hr (by simpa using hc)), fun hc hs hx => barred (barred_secure ha hv hr hc hs hx)⟩

end Sys2Proof.Machine

/-!
PROOFS. A read of TIME_GT_LO in OFF (R20, R282): no register is reached, whatever the state of the Bursen link.
-/

namespace Sys2Proof.Machine

/-- A read over Bursen that finds its way down latches nothing. -/
theorem exec_timeGtLoRead_down {s : State} (h : s.pathUp .bursen = false) : exec .timeGtLoRead s = .next s := by
  show Host.Outcome.next (s.via .bursen _) = _
  rw [State.via, h]
  rfl

/-- OFF with the Bursen link UP and a high word of global time to latch: the invariant excludes none of the three. -/
def offLinked : State := { State.reset with top := { st := .off }, clk := { gt := 0x1_0000_0000 }, cmd := { link := .up } }

theorem offLinked_inv : offLinked.Inv :=
  have reset : State.reset.Inv := resetMeetsInvariant
  { tiles := ⟨reset.tiles.tiles, reset.tiles.tile⟩
    mem := reset.mem, mmu := reset.mmu, eng := reset.eng, gz := reset.gz, gvn := reset.gvn, res := reset.res, rfw := reset.rfw
    trust := reset.trust, rails := reset.rails
    host := ⟨rfl, rfl, rfl, rfl, fun _ => rfl, rfl, rfl, rfl, rfl, ⟨rfl, rfl⟩, rfl⟩ }

/-- Refutes O45: its clause on TIME_GT_LO asks for the latch wherever the link is UP and does not leave out OFF, where a read reaches no register
(R20; log entry 196). `powerOff` itself leaves the link DOWN and GT at 0; the statement is about every state that meets the invariant. -/
theorem not_powerAndBoot : ¬ Obligations.PowerAndBoot := by
  rintro ⟨power, -⟩
  obtain ⟨-, -, -, -, -, -, -, -, latches⟩ := power offLinked offLinked_inv
  have kept : exec .timeGtLoRead offLinked = .next offLinked := exec_timeGtLoRead_down (pathUp_off rfl .bursen)
  have same := kept.symm.trans (latches rfl)
  injection same with same
  have unlatched := congrArg (fun t : State => Tab.look 0 t.clk.gtHi 2) same
  exact absurd unlatched (by decide)

end Sys2Proof.Machine
